-- ==== Sys2Proof/Word.lean ====
section
/-!
DEFINITION. The words of the device: bytes, 64-bit registers, 64-byte lines and page numbers, with the plainest
arithmetic on them. Registers, counters and indices that the spec only counts or compares are `Nat`.
-/
namespace Sys2Proof

/-- One byte of a payload, an output or a stored line. -/
abbrev Byte := BitVec 8

/-- A 64-byte line of memory (R145); bit 0 is bit 0 of its first byte (R17). -/
abbrev Line := BitVec 512

/-- Bits [lo + width − 1 : lo] of a number, right aligned. -/
def bits (v lo width : Nat) : Nat := (v / 2 ^ lo) % 2 ^ width

/-- A single bit of a number. -/
def bit (v k : Nat) : Bool := v.testBit k

/-- A Bool as the bit that holds it. -/
def b2n (b : Bool) : Nat := if b then 1 else 0

/-- Counting up that stops at a maximum (a counter of the spec that saturates). -/
def satAdd (max v k : Nat) : Nat := Nat.min max (v + k)

end Sys2Proof
end

