-- ==== Sys2Proof/Syntax/Operands.lean ====
section
/-!
DEFINITION. The operand types of the commands: what a request, a bus message or an event carries.
-/
namespace Sys2Proof

/-- Where a Pyryx request came from (R89, R92, R94, R97). -/
inductive Origin where
  /-- The primary mailbox of a head. -/
  | mailbox (h : Fin 8)
  /-- Submission ring r of a head. -/
  | ring (h : Fin 8) (r : Fin 64)
  /-- MCTP, from a requester EID; `steward`: inside an SPDM session whose requester authenticated against the Steward
  key (R89); `session`: the SPDM session ID, 0 outside a session. -/
  | mctp (eid : Fin 256) (steward : Bool) (session : Nat)
  deriving DecidableEq, Repr

/-- A Pyryx request: the 64-byte header of R82 and the payload. The row of the opcode table the command belongs to is
the constructor that carries it. -/
structure Req where
  origin : Origin
  /-- The OPCODE field as written. -/
  opcode : Nat
  fence : Bool := false
  noirq : Bool := false
  plptr : Bool := false
  outptr : Bool := false
  /-- Reserved flag bits [7:4] of byte 0x02. -/
  rsvFlags : Nat := 0
  hver : Nat := 1
  tag : Nat := 0
  plen : Nat := 0
  tc : Fin 256 := 0
  ctxv : Bool := false
  /-- Reserved bits [31:9] of 0x0C. -/
  rsvTc : Nat := 0
  /-- Bytes 0x10–0x3F as one little-endian number of 384 bits. -/
  param : Nat := 0
  payload : List Byte := []
  /-- The engine that serves the command (its master ID is 0x13 + engine, R42, R44). -/
  engine : Fin 48 := 0
  deriving DecidableEq, Repr

/-- A fault message (R439). -/
structure Msg where
  code : Nat
  inst : Nat
  sub : Nat
  kind : Nat := 0
  fclass : Nat
  fixed : Bool := false
  active : Bool := false
  ended : Bool := false
  inj : Bool := false
  addr : Nat := 0
  extra : Nat := 0
  deriving DecidableEq, Repr

/-- How one DRAM read of a line differs from what the device wrote there (R313–R316): symbols, with what each is XORed by; the line address that answered,
where it is another. -/
structure ReadErr where
  syms : List (Fin 80 × Byte) := []
  addr : Option (Fin (2 ^ 38)) := none
  deriving DecidableEq, Repr

/-- How a read of a leaf or node of the integrity tree differs: its level, whether copy B is meant, whether the second line of a node (R286–R289). -/
structure NodeErr where
  lvl : Fin 9
  copyB : Bool := false
  high : Bool := false
  err : ReadErr
  deriving DecidableEq, Repr

/-- What a read of a page's data on media meets (R178, R204, R206, R231, R289): differences by line of the image, of the tag-table line, of the twin's image,
and of the tree nodes read; the codec buffer's own error: 0 none, 1 gone on the retry, 2 not. -/
structure Fetch where
  errs : List (Fin 64 × ReadErr) := []
  tab : ReadErr := {}
  twin : List (Fin 64 × ReadErr) := []
  nodes : List NodeErr := []
  dec : Fin 3 := 0
  deriving DecidableEq, Repr

/-- A line: LPN × 64 + line index (R152). -/
abbrev LineNo := Fin (2 ^ 39)

/-- A logical page number (R28). -/
abbrev Lpn := Fin (2 ^ 33)

/-- A DPA of a head (R61). -/
abbrev Dpa := Fin (2 ^ 52)

/-- A host physical address (R28). -/
abbrev Hpa := Fin (2 ^ 52)

/-- A master ID: the values above 0x42 are reserved and never issued (R42). -/
abbrev Master := Fin 0x43

/-- What a host programs or reads in a head's configuration space and in the component registers of BAR0, which lie where the PCIe and CXL
standards put them (R50–R57, R64, R71, R72): Device Control 2 (completion timeout value, its disable), the tag width enabled, back-invalidate
enable, Device Control (max payload size, max read request size), poison on decode error; the identity, class, subsystem, interrupt pin and
BAR registers, the Device Serial Number, and the four DVSECs of R54 in its order. -/
inductive HostField where
  | cplValue | cplDisable | tags10 | biEnable | maxPayload | maxRead | decodePoison
  | ids | classRev | subsystem | intPin | bar (k : Fin 3) | serial | dvsec (k : Fin 4)
  deriving DecidableEq, Repr

/-- The register space an access goes to: the Zynoa register space of BAR4, BAR2 of a head, or configuration space and BAR0. -/
inductive RegSpace where
  | bar4 | bar2 | host (f : HostField)
  deriving DecidableEq, Repr

/-- An access of an engine, or of a job unit, that the engine's TLB translates (R108, R114–R116): the engine, the context and tenant address, an
instruction fetch, supervisor mode; the level of a table read that meets an uncorrectable error, 4 for the read of a mark update. -/
structure Via where
  engine : Fin 48
  tc : Fin 256
  ta : Fin (2 ^ 48)
  fetch : Bool := false
  sup : Bool := false
  tblBad : Option (Fin 5) := none
  deriving DecidableEq, Repr

/-- A request of an agent (R151, R152): agent ID, line, class label, objective, S and Q of the leaf, master ID, where it carries one.
`hit`: the home's metadata cache still holds the placement entry; `hint`: the allocator's choice where R222 leaves one;
`via`: the access comes through stage 1, which gives line and attributes. -/
structure Ask where
  agent : Fin 18
  line : LineNo
  cls : Fin 16 := 0
  obj : Fin 8 := 0
  sh : Bool := false
  quiet : Bool := false
  master : Option Master := none
  hit : Bool := false
  hint : Nat := 0
  via : Option Via := none
  deriving DecidableEq, Repr

/-- A CXL.mem request of a host (R28, R156, R177): head, host tag, HPA, MetaValue (0 I, 1 S, 2 A) where the range is HDM-DB, MemRdData
without caching; `tblBad` as in `Via`; `pref`: after a miss the port translation cache prefetches the next page's translation (R119); the rest as in
`Ask`. -/
structure HostMem where
  h : Fin 8
  tag : Nat
  hpa : Hpa
  mv : Fin 3 := 0
  nc : Bool := false
  tblBad : Option (Fin 5) := none
  hit : Bool := false
  hint : Nat := 0
  pref : Bool := false
  deriving DecidableEq, Repr

/-- Write-back data on DAT (R152): sender, line, data, poison, and the attributes of the access that wrote it. -/
structure WbMsg where
  agent : Fin 18
  line : LineNo
  data : Line
  poison : Bool := false
  cls : Fin 16 := 0
  obj : Fin 8 := 0
  sh : Bool := false
  master : Option Master := none
  hint : Nat := 0
  deriving DecidableEq, Repr

/-- What a codec unit has read by the end of a job, a piece or a session command: the source, and for each block that is compressed the coded body that
its encoder offers; or what stopped it, with the source offset: an uncorrectable staging line; an uncorrectable dirty line of its job agent (R377). -/
inductive JobEnd where
  | coded (src : List Byte) (offers : List (List Byte))
  | staging (at' : Nat)
  | dirtyLine (at' : Nat)
  deriving DecidableEq, Repr

/-- The bytes that `job.dict_load` read, or what it met instead: poison. -/
inductive DictRead where
  | bytes (l : List Byte)
  | poison
  deriving DecidableEq, Repr

/-- What the SPD of a DIMM says (R335–R337, R356). -/
structure Dimm where
  mrdimm : Bool := false
  width : Nat := 4
  ranks : Nat := 1
  density : Nat := 16
  height : Nat := 1
  /-- Capacity in granules of 256 bytes. -/
  granules : Nat := 0
  /-- The SPD identity: module part number, serial number. -/
  part : Nat := 0
  serial : Nat := 0
  supported : Bool := true
  /-- Mode-register requirements: refresh management and per-row counting (R344). -/
  rfm : Bool := false
  prac : Bool := false
  raaimt : Nat := 0
  raammt : Nat := 0
  raadec : Nat := 0
  deriving DecidableEq, Repr

/-- What a guard has measured (R460): VIN and VOUT in mV, I in mA, averaged over 2 µs, and how many updates of 2 µs the transistor model has
made on these averages since the last measurement (R469). -/
structure SgMeas where
  vin : Fin 65536
  vout : Fin 65536
  i : Fin 65536
  steps : Nat
  deriving DecidableEq, Repr

/-- The flash image a board carries when PWROK rises: the bytes of both selector sectors, of the firmware copies and of the configuration copies (R535);
what is not listed is erased. -/
structure FlashImage where
  sel0 : List Byte := []
  sel1 : List Byte := []
  fwA : List Byte := []
  fwB : List Byte := []
  cfgA : List Byte := []
  cfgB : List Byte := []
  deriving DecidableEq, Repr

/-- What a restore of the Saddlebag finds (R496): regions 0–6 that are not good, in table order; the channel areas that are not, with the
points their channel trains afresh; whether copy A of the L0 node is uncorrectable, and copy B too (R121). -/
structure Restore where
  bad : List (Fin 7) := []
  areas : List (Fin 16 × List (Fin 4)) := []
  l0 : Option Bool := none
  deriving DecidableEq, Repr

/-- What a boot meets that the device cannot know of itself: a flash newly fitted; SYS_RST_N low; the 32.768 kHz crystal found; slots with
presence; the self-tests that fail (Slot Guard die; slices; clusters; engines; port caches; key store, roots, Saddlebag or severity table); what the SPDs of powered slots say; the Saddlebag's
restore; channels whose check fails after self-refresh, with the points that then train. -/
structure BootIn where
  flash : Option FlashImage := none
  rstLow : Bool := false
  crystal : Bool := true
  seated : List (Fin 32) := []
  sgFail : Bool := false
  sliceFail : List (Fin 16) := []
  clusterFail : List (Fin 6) := []
  engineFail : List (Fin 48) := []
  portFail : List (Fin 4) := []
  keyFail : Bool := false
  spd : List (Fin 32 × Dimm) := []
  restore : Restore := {}
  checkFail : List (Fin 16 × List (Fin 4)) := []
  deriving DecidableEq, Repr

/-- An SPDM request, by what it does to the device: a session is finished or ended, measurements are asked for, PSK_EX, or another. -/
inductive SpdmReq where
  | finish (id : Nat) | endSession (id : Nat) | measurements | pskExchange | other
  deriving DecidableEq, Repr

/-- An IDE_KM message: query, a key, start of a stream (in skid mode or in containment), stop. -/
inductive IdeKm where
  | query | keyProg | go (skid : Bool) | stop
  deriving DecidableEq, Repr

/-- One sector write-back of a drain: page, sector, the body the encoder made, the allocator's choice, what its reads meet, and their second reads. -/
structure DrainWb where
  lpn : Lpn
  k : Fin 8
  body : List Byte := []
  hint : Nat := 0
  f : Fetch := {}
  f2 : Fetch := {}
  deriving DecidableEq, Repr

/-- What a drain writes back (R486, R548, R550): the sector write-backs. -/
structure Drain where
  wbs : List DrainWb := []
  deriving DecidableEq, Repr

end Sys2Proof
end

