-- ==== Sys2Proof/Syntax.lean ====
section
/-!
DEFINITION. The commands of the device: one constructor for each row of spec/opcode_table.json, in the table's order.
A Pyryx command carries its request; an event carries what the device cannot know of itself (measured values, the
answer of a host, the outcome of a read of the media). Types keep every operand within its width.
-/
namespace Sys2Proof

/-- A command. -/
inductive Instr where
  /-- SYS_QUERY (R102): Returns the device ID, revision, highest header version and the running firmware identity. -/
  | sysQuery (r : Req)
  /-- SYS_NOP (R102): Does nothing and replies ST_OK. -/
  | sysNop (r : Req)
  /-- SYS_REG_READ (R103): Reads a BAR4-space register of width 4 or 8, with the serving engine's master ID. -/
  | sysRegRead (r : Req)
  /-- SYS_REG_WRITE (R103): Writes a BAR4-space register of width 4 or 8, with the serving engine's master ID. -/
  | sysRegWrite (r : Req)
  /-- SYS_OP_STATUS (R103): Returns the status, progress and detail of an operation handle within the caller's scope. -/
  | sysOpStatus (r : Req)
  /-- SYS_OP_CANCEL (R577): Stops an ST_PENDING operation at its next point of consistent state. -/
  | sysOpCancel (r : Req)
  /-- SYS_TIME_SYNC (R102): Sets the host time base that fault and event timestamps follow. -/
  | sysTimeSync (r : Req)
  /-- SYS_EVENT_RECEIVER (R102): Registers or clears the MCTP EID and binding that receive notifications. -/
  | sysEventReceiver (r : Req)
  /-- CFG_QUERY (R556): Returns the configuration generation in force, the cause word and both copies' GENs. -/
  | cfgQuery (r : Req)
  /-- CFG_LOAD (R545): Accepts one chunk of a configuration block; with LAST it validates the block and writes both flash copies. -/
  | cfgLoad (r : Req)
  /-- CFG_READ (R556): Returns bytes of configuration copy A or B. -/
  | cfgRead (r : Req)
  /-- CFG_GRANT (R556): Grants a translation context to a head, or revokes the grant, in GLB_GRANT. -/
  | cfgGrant (r : Req)
  /-- SEG_QUERY (R143): Returns a context's enable, root, masks, defaults and windows. -/
  | segQuery (r : Req)
  /-- SEG_CTX_CREATE (R143): Creates a translation context with masks, defaults and four windows, and no root. -/
  | segCtxCreate (r : Req)
  /-- SEG_CTX_DESTROY (R143): Flushes a context and clears its EN bit; its pages stay. -/
  | segCtxDestroy (r : Req)
  /-- SEG_SET_ROOT (R138): Sets or clears a context's root and flushes the whole context. -/
  | segSetRoot (r : Req)
  /-- SEG_DC_ADD (R143): Offers a Dynamic Capacity extent to the host and ends once the host has answered. -/
  | segDcAdd (r : Req)
  /-- SEG_DC_RELEASE (R143): Asks the host to release a Dynamic Capacity extent and ends once it has. -/
  | segDcRelease (r : Req)
  /-- SEG_ALLOC (R144): Turns up to 512 Zero pages into zero-filled Strong Table pages with local twins, all or none. -/
  | segAlloc (r : Req)
  /-- SEG_FREE (R143): Turns Table and Poisoned pages back to Zero, raising VER and releasing their media. -/
  | segFree (r : Req)
  /-- XLT_QUERY (R143): Makes an uncached, mark-free stage-1 walk and returns the final entry, the LPN or the fault. -/
  | xltQuery (r : Req)
  /-- XLT_FLUSH (R134): Removes every cached translation of a context within a scope from all holders, then replies. -/
  | xltFlush (r : Req)
  /-- XLT_FLUSH_ALL (R135): Flushes every context from every holder, by the steps of a flush. -/
  | xltFlushAll (r : Req)
  /-- TIER_QUERY (R263): Returns a page's tier, pin, heat, objective, twin and layout fields. -/
  | tierQuery (r : Req)
  /-- TIER_SET_OBJECTIVE (R241): Writes an objective profile and starts a bounds pass. -/
  | tierSetObjective (r : Req)
  /-- TIER_PIN (R263): Pins pages and moves them to a target tier where needed. -/
  | tierPin (r : Req)
  /-- TIER_UNPIN (R263): Clears PIN on up to 512 pages. -/
  | tierUnpin (r : Req)
  /-- TIER_TWIN (R250): Records a requested twin kind for pages and creates missing twins. -/
  | tierTwin (r : Req)
  /-- TIER_SET_BUDGET (R263): Sets migration budgets, pressure thresholds, epoch length and heat increments. -/
  | tierSetBudget (r : Req)
  /-- TIER_CAPACITY (R263): Returns device and account capacity counts, pressure level and heat histogram. -/
  | tierCapacity (r : Req)
  /-- TIER_THIN_CONSENT (R264): Sets an account's COMMIT, THIN and twin basis. -/
  | tierThinConsent (r : Req)
  /-- JOB_QUERY (R379): Returns dispatcher and unit state, or the state of one session. -/
  | jobQuery (r : Req)
  /-- JOB_SUBMIT (R363): Queues a compression or decompression job, stand-alone or within a session. -/
  | jobSubmit (r : Req)
  /-- JOB_SESSION_OPEN (R370): Opens a streaming session with fixed format, level, window and dictionary. -/
  | jobSessionOpen (r : Req)
  /-- JOB_SESSION_CLOSE (R371): Ends a session, emitting the last block and trailer or checking the input boundary, and frees it. -/
  | jobSessionClose (r : Req)
  /-- JOB_FLUSH (R371): Emits the held partial block of a compression session. -/
  | jobFlush (r : Req)
  /-- JOB_DICT_LOAD (R373): Places a dictionary owned by the context in one of 16 slots. -/
  | jobDictLoad (r : Req) (d : DictRead)
  /-- JOB_DICT_UNLOAD (R373): Frees a dictionary slot that no job or session names. -/
  | jobDictUnload (r : Req)
  /-- SEC_QUERY (R310): Returns key slot status, sweeps, Answerable ranges and the halt record. -/
  | secQuery (r : Req)
  /-- KEY_GENERATE (R310): Loads fresh generated keys into a slot and optionally binds it to the context. -/
  | keyGenerate (r : Req)
  /-- KEY_IMPORT (R274): Unwraps keys under a key derived from an SPDM session and loads them into a slot. -/
  | keyImport (r : Req)
  /-- KEY_ROTATE (R303): Starts a re-key sweep moving an LPN range from slot OLD to slot NEW. -/
  | keyRotate (r : Req)
  /-- KEY_ZEROISE (R310): Clears a slot to EMPTY; with FORCE, poisons every page of the slot by a sweep. -/
  | keyZeroise (r : Req)
  /-- SEC_SET_RANGE (R310): Sets or clears one of 8 Answerable ranges. -/
  | secSetRange (r : Req)
  /-- SEC_REBASE (R301): Accepts the current data of unverifiable pages under fresh counters and tags. -/
  | secRebase (r : Req)
  /-- SEC_ZERO_PAGES (R302): Turns the named pages into tier Zero and releases their media. -/
  | secZeroPages (r : Req)
  /-- SEC_ALARM_ACK (R310): Acknowledges a pending security alarm or halt record by its SEQ. -/
  | secAlarmAck (r : Req)
  /-- ECC_QUERY (R332): Returns a channel's error counts, marks, scrub, injection and self-test status. -/
  | eccQuery (r : Req)
  /-- ECC_SET_CODE (R332): Sets the stored-data code of job staging or training samples. -/
  | eccSetCode (r : Req)
  /-- ECC_SCRUB_CFG (R332): Sets the scrub period and enable mask, optionally restarting a pass. -/
  | eccScrubCfg (r : Req)
  /-- ECC_INJECT (R331): Arms a read-side, write-side, poison or SRAM error injection. -/
  | eccInject (r : Req)
  /-- ECC_POISON_LIST (R332): Returns entries of the device poison log. -/
  | eccPoisonList (r : Req)
  /-- MEM_QUERY (R356): Returns a channel's status, freeze, training, counts, points and DIMM data. -/
  | memQuery (r : Req)
  /-- MEM_SET_FREQ (R350): Changes the named channels to a frequency point, one at a time. -/
  | memSetFreq (r : Req)
  /-- MEM_RETRAIN (R349): Starts a live retrain of a channel. -/
  | memRetrain (r : Req)
  /-- MEM_FREEZE_EXTEND (R353): Holds a frozen or held channel for a duration, or ends a hold with 0. -/
  | memFreezeExtend (r : Req)
  /-- MEM_SNAPSHOT_READ (R356): Returns one snapshot from a channel's snapshot ring. -/
  | memSnapshotRead (r : Req)
  /-- MEM_CHANNEL_OFFLINE (R355): Takes a channel out of service, after it is empty or at once with FORCE. -/
  | memChannelOffline (r : Req)
  /-- SLOT_QUERY (R480): Returns a slot's state, measurements, limits, model, counts and channel service data. -/
  | slotQuery (r : Req)
  /-- SLOT_POWER_ON (R477): Brings up the slot's channel from step 7 of service. -/
  | slotPowerOn (r : Req)
  /-- SLOT_POWER_OFF (R480): Switches a slot off to OFF, as a fault when FORCE is set. -/
  | slotPowerOff (r : Req)
  /-- SLOT_SERVICE_START (R475): Starts service of a channel: evacuation, quiescing and power-off to DARK. -/
  | slotServiceStart (r : Req)
  /-- SLOT_SERVICE_CANCEL (R478): Stops an evacuation and returns the channel to service. -/
  | slotServiceCancel (r : Req)
  /-- SLOT_SET_LIMITS (R480): Sets current, fault-time, ramp, retry and thermal limits of the masked slots. -/
  | slotSetLimits (r : Req)
  /-- SLOT_CLEAR_FAULT (R480): Releases a LATCHED slot, clears ATTEMPTS and the FET_SHORT latch where allowed. -/
  | slotClearFault (r : Req)
  /-- CVN_QUERY (R420): Returns a Caravan port's link status, peer, counts and loan state. -/
  | cvnQuery (r : Req)
  /-- CVN_LINK_UP (R420): Brings a link up, retrains it or changes its width. -/
  | cvnLinkUp (r : Req)
  /-- CVN_LINK_DOWN (R407): Clears AUTO_UP, sends DOWN and takes the port to OFF. -/
  | cvnLinkDown (r : Req)
  /-- CVN_LEND_CFG (R420): Sets lending and borrowing enables and limits of a port. -/
  | cvnLendCfg (r : Req)
  /-- CVN_RECLAIM (R420): Recalls a borrowed loan, asks a borrower to return blocks, or discards a foreign loan. -/
  | cvnReclaim (r : Req)
  /-- CVN_COMPAT (R419): Sets NX-540 compatibility mode for the next DETECT. -/
  | cvnCompat (r : Req)
  /-- TLG_QUERY (R436): Returns tollgate status and per-class guarantees, quotas or channel slots. -/
  | tlgQuery (r : Req)
  /-- TLG_SET_QUOTA (R427): Sets a class's outstanding-transaction quota at the named heads or slices. -/
  | tlgSetQuota (r : Req)
  /-- TLG_SET_GUARANTEE (R433): Admits or lowers a class's bandwidth guarantee against the cap. -/
  | tlgSetGuarantee (r : Req)
  /-- TLG_SET_CAP (R434): Sets the admission cap and recomputes the factor F. -/
  | tlgSetCap (r : Req)
  /-- FLT_QUERY (R457): Returns fault collector control, status, sequence and overflow state. -/
  | fltQuery (r : Req)
  /-- FLT_READ_RECORDS (R457): Returns fault records from the queue or the Saddlebag ring. -/
  | fltReadRecords (r : Req)
  /-- FLT_ACK (R445): Acknowledges a fault record, stopping its grace timer. -/
  | fltAck (r : Req)
  /-- FLT_CLEAR (R452): Clears one record or every inactive record. -/
  | fltClear (r : Req)
  /-- FLT_SET_SEVERITY (R444): Writes a severity-table entry. -/
  | fltSetSeverity (r : Req)
  /-- FLT_INJECT (R457): Delivers a message to the collector as if from its source, with no containing action. -/
  | fltInject (r : Req)
  /-- PMU_QUERY (R516): Returns the enable and saturation bitmaps of all counters. -/
  | pmuQuery (r : Req)
  /-- PMU_CONFIG (R516): Configures a counter or a filter set. -/
  | pmuConfig (r : Req)
  /-- PMU_READ (R516): Returns counter values, optionally frozen as one snapshot. -/
  | pmuRead (r : Req)
  /-- PMU_CLEAR (R514): Clears a range of counters. -/
  | pmuClear (r : Req)
  /-- PWR_QUERY (R505): Returns power state, domains, wake configuration and Saddlebag status. -/
  | pwrQuery (r : Req)
  /-- PWR_SET_STATE (R484): Moves the device to PS0, PS1, PS2 or, under R490, PS3. -/
  | pwrSetState (r : Req)
  /-- PWR_WAKE_CFG (R505): Sets the PS3 wake-source enables and the AON timer compare. -/
  | pwrWakeCfg (r : Req)
  /-- THM_QUERY (R505): Returns node temperatures, diode readings, the base and the model fingerprint. -/
  | thmQuery (r : Req)
  /-- THM_SET_LIMITS (R505): Sets the warning and throttle thresholds and the throttle step period. -/
  | thmSetLimits (r : Req)
  /-- FW_QUERY (R556): Returns firmware versions, SVNs, selector and roll state. -/
  | fwQuery (r : Req)
  /-- FW_STAGE (R551): Writes one chunk of firmware into the copy the selector does not name. -/
  | fwStage (r : Req)
  /-- FW_ACTIVATE (R552): Authenticates the staged copy and rolls it onto the clusters one at a time. -/
  | fwActivate (r : Req)
  /-- FW_ABORT (R553): Ends a staging or rolls back a firmware roll. -/
  | fwAbort (r : Req)
  /-- ACC_QUERY (R531): Returns a target's rights for a master, its range entries and debug status. -/
  | accQuery (r : Req)
  /-- ACC_SET_TABLE (R525): Writes rights or a range entry of an access table, taking effect in one cycle. -/
  | accSetTable (r : Req)
  /-- ACC_LOCK (R531): Locks the access tables until the next warm or cold reset. -/
  | accLock (r : Req)
  /-- DEBUG_UNLOCK (R529): Returns a nonce, or raises the debug level on a valid signed token. -/
  | debugUnlock (r : Req)
  /-- DEBUG_LOCK (R528): Returns the debug level to 0. -/
  | debugLock (r : Req)
  /-- MAILBOX_BAD_LENGTH (R93): A mailbox request shorter than 64 bytes returns Invalid Payload Length. -/
  | mailboxBadLength (h : Fin 8)
  /-- MAILBOX_UNSUPPORTED (R93): A mailbox opcode below 0xC000 that the head does not implement returns Unsupported. -/
  | mailboxUnsupported (h : Fin 8)
  /-- GET_POISON_LIST (R70): Returns the head's poison list of up to 512 entries. -/
  | getPoisonList (h : Fin 8)
  /-- INJECT_POISON (R70): On a Steward head, poisons a DPA and lists it. -/
  | injectPoison (h : Fin 8) (dpa : Dpa) (hint : Nat)
  /-- CLEAR_POISON (R70): On a Steward head, clears poison of a DPA. -/
  | clearPoison (h : Fin 8) (dpa : Dpa) (data : Line) (hint : Nat)
  /-- GET_EVENT_RECORDS (R68): Returns records of one of the head's CXL event logs. -/
  | getEventRecords (h : Fin 8) (log : Fin 5)
  /-- CLEAR_EVENT_RECORDS (R68): Clears records of one of the head's CXL event logs. -/
  | clearEventRecords (h : Fin 8) (log : Fin 5) (handles : Option (List Nat))
  /-- DC_HOST_RESPONSE (R65): The host's Add Capacity or Release response accepts or releases extents. -/
  | dcHostResponse (h : Fin 8) (release : Bool) (parts : List (Nat × Nat))
  /-- DOE_DISCOVERY (R55): Returns the DOE protocols the head supports. -/
  | doeDiscovery (h : Fin 8) (index : Fin 256)
  /-- CDAT_TABLE_ACCESS (R55): Returns the CDAT entries of the head. -/
  | cdatTableAccess (h : Fin 8)
  /-- SPDM_REQUEST (R309): Answers an SPDM 1.3 request on a DOE mailbox or MCTP. -/
  | spdmRequest (holder : Fin 512) (r : SpdmReq)
  /-- IDE_KM_REQUEST (R66): Programs or refreshes IDE keys within a secured SPDM session. -/
  | ideKmRequest (h : Fin 8) (session : Nat) (mem : Bool) (k : IdeKm)
  /-- MCTP_SHORT_MESSAGE (R97): An MCTP request shorter than the header is dropped without reply. -/
  | mctpShortMessage
  /-- HDM_DECODER_COMMIT (R64): The host commits an HDM decoder, refused while not ready or without back-invalidate over HDM-DB. -/
  | hdmDecoderCommit (h : Fin 8) (d : Fin 8) (base size : Hpa) (skip : Dpa) (ways : Fin 17) (gran : Fin 7)
  /-- SQ_DOORBELL (R94): A write of TAIL makes new submission entries available, or stops the ring if illegal. -/
  | sqDoorbell (h : Fin 8) (r : Fin 64) (tail : Fin 65536)
  /-- CQ_DOORBELL (R95): A write of HEAD releases completion entries, or stops the ring if illegal. -/
  | cqDoorbell (h : Fin 8) (r : Fin 64) (head : Fin 65536)
  /-- RING_ENABLE (R94): EN written 1 from DISABLED starts a ring pass. -/
  | ringEnable (h : Fin 8) (r : Fin 64)
  /-- RING_DRAIN (R96): EN written 0 drains a running ring or disables a stopped one. -/
  | ringDrain (h : Fin 8) (r : Fin 64)
  /-- RING_ABORT (R96): ABORT cancels every command of the ring and disables it. -/
  | ringAbort (h : Fin 8) (r : Fin 64)
  /-- RING_DRAIN_DONE (R96): The started commands of a draining ring complete and it becomes DISABLED. -/
  | ringDrainDone (h : Fin 8) (r : Fin 64)
  /-- RING_ENTRY_FETCH (R94): A fetch read of submission entries or a payload completes, or ends in error. -/
  | ringEntryFetch (h : Fin 8) (r : Fin 64) (payload err : Bool)
  /-- RING_COMMAND_START (R95): A fetched command starts once its fence and CQ space allow. -/
  | ringCommandStart (h : Fin 8) (r : Fin 64) (fence : Bool) (payload : Option (Nat × Nat))
  /-- MSIX_COALESCE_TIMEOUT (R95): The oldest unsignalled completion reaches COAL_US and the ring's MSI-X message is sent. -/
  | msixCoalesceTimeout (h : Fin 8) (r : Fin 64)
  /-- OPDONE_CLEAR (R93): Writing 1 clears bits of HPT_PYX_OPDONE. -/
  | opdoneClear (h : Fin 8) (mask : Fin (2 ^ 64))
  /-- OPERATION_END (R100): An ST_PENDING operation ends and its FINAL entry, OPDONE bit or notification is sent. -/
  | operationEnd (slot : Fin 64)
  /-- MEMRD (R177): A head read passes binding, translation, caches, placement, media and decode and returns data or poison. -/
  | memrd (m : HostMem)
  /-- MEMWR (R180): A head full or partial write is translated, merged at its home and completed to the host. -/
  | memwr (m : HostMem) (data : Line) (mask : Fin (2 ^ 64)) (poison : Bool)
  /-- MEMCLNEVCT (R168): A host clean eviction clears the head's presence bit. -/
  | memclnevct (m : HostMem)
  /-- QUOTA_ADMIT (R425): A request waiting at a head for its class quota is admitted once the count falls. -/
  | quotaAdmit (h : Fin 8)
  /-- BIRSP (R169): A host's back-invalidate response completes a recall, or is discarded as late. -/
  | birsp (h : Fin 8) (line : LineNo) (keepS : Bool)
  /-- BISNP_TIMEOUT (R170): BI_TMO expires without BIRsp and the snoop is treated as a miss, poisoning an exclusive line. -/
  | bisnpTimeout (h : Fin 8) (line : LineNo)
  /-- BI_EN_CLEARED (R170): The host clears back-invalidate enable while the head has presence, counted as a departure for presence. -/
  | biEnCleared (h : Fin 8)
  /-- LINK_UP (R75): A head's link reaches L0, arming a later departure. -/
  | linkUp (h : Fin 8) (rate : Fin 7) (width : Fin 17) (flit : Fin 3)
  /-- LINK_DOWN (R75): A head's link goes down not by request of the device. -/
  | linkDown (h : Fin 8)
  /-- HOT_RESET (R77): A head receives hot reset. -/
  | hotReset (h : Fin 8)
  /-- PERST_ASSERT (R80): HPn_PERST_N is asserted and both heads of the port reset. -/
  | perstAssert (p : Fin 4)
  /-- PERST_DEASSERT (R48): HPn_PERST_N is deasserted, MODE takes effect and link training may start. -/
  | perstDeassert (p : Fin 4)
  /-- LINK_ENTER_L2_L3 (R491): A head's link enters L2 or L3, which is a departure. -/
  | linkEnterL2L3 (h : Fin 8)
  /-- DEPARTURE_DONE (R76): Departure processing completes and the head may leave Detect. -/
  | departureDone (h : Fin 8)
  /-- FLR (R77): Function level reset aborts rings and jobs and resets function state. -/
  | flr (h : Fin 8)
  /-- CXL_RESET (R77): CXL Reset completes and quiesces CXL.mem, clears presence and aborts rings. -/
  | cxlReset (h : Fin 8)
  /-- BUS_MASTER_ENABLE_CLEARED (R78): Clearing bus-master enable stops every ring and job of the head. -/
  | busMasterEnableCleared (h : Fin 8)
  /-- BUS_MASTER_ENABLE_SET (R56): Setting bus-master enable sends pending unmasked MSI-X messages. -/
  | busMasterEnableSet (h : Fin 8)
  /-- IDE_CHECK_FAILURE (R67): A flit fails its IDE check; it is dropped and the stream goes Insecure. -/
  | ideCheckFailure (h : Fin 8) (mem : Bool)
  /-- BAR_UNCLAIMED (R57): A memory request that no enabled BAR decodes completes as Unsupported Request. -/
  | barUnclaimed (h : Fin 8) (read : Bool)
  /-- BAD_REGISTER_ACCESS (R20): An access of bad size, alignment or offset reads 0, writes nothing and sends a Note. -/
  | badRegisterAccess (sp : RegSpace) (m : Master) (off : Fin (2 ^ 26)) (size : Fin 129) (read : Bool)
  /-- BM_COMPLETION (R73): A completion for a bus-master read arrives and is used, discarded as late or taken as unexpected. -/
  | bmCompletion (h : Fin 8) (tag : Fin 16384) (last : Bool)
  /-- COMPLETION_TIMEOUT (R72): A bus-master read times out, stopping its ring or job and quarantining the tag. -/
  | completionTimeout (h : Fin 8) (tag : Fin 16384)
  /-- TAG_QUARANTINE_EXPIRE (R73): A quarantined tag's 4 × T elapses and it may be reused. -/
  | tagQuarantineExpire (h : Fin 8) (tag : Fin 16384)
  /-- BIND_ENABLE_WRITE (R62): A write of EN in HPT_BIND_CTL enables or disables a binding entry, refused on overlap or range. -/
  | bindEnableWrite (h : Fin 8) (n : Fin 16) (on : Bool)
  /-- READS (R155): A home serves a ReadS by snoops and grants as its state requires. -/
  | reads (q : Ask) (nc : Bool)
  /-- READO (R155): A home serves a ReadO, with FULL or PAGE where set, granting ownership. -/
  | reado (q : Ask) (full page : Bool) (wrote : Option Line)
  /-- UPGRADE (R155): A home grants ownership to a sharer without data. -/
  | upgrade (q : Ask)
  /-- WBM (R155): A home accepts a dirty writeback into its line cache and acknowledges it. -/
  | wbm (a : Fin 18) (line : LineNo)
  /-- EVF (R162): A home records a clean F eviction, or discards a stale one. -/
  | evf (a : Fin 18) (line : LineNo)
  /-- SNPINV (R157): An agent invalidates a line and returns dirty data. -/
  | snpinv (a : Fin 18) (line : LineNo)
  /-- SNPFWD (R157): An agent forwards a line to the requester in S or O mode. -/
  | snpfwd (a : Fin 18) (line : LineNo) (o : Bool) (rid : Fin 18)
  /-- SNPDATA (R157): An owner returns data to the home and keeps F. -/
  | snpdata (a : Fin 18) (line : LineNo)
  /-- SNOOP_RESPONSE (R155): A home takes an agent's snoop response and advances the transaction. -/
  | snoopResponse (a : Fin 18) (line : LineNo) (code : Fin 16)
  /-- ACK (R154): A grant or writeback acknowledgement arrives and ends a transaction step. -/
  | ack (toHome : Bool) (a : Fin 18) (line : LineNo) (wrote : Line)
  /-- NACK (R158): A requester is refused and waits its backoff. -/
  | nack (a : Fin 18) (line : LineNo)
  /-- NACK_BACKOFF_EXPIRE (R158): A Nacked requester's backoff ends and it resends its request. -/
  | nackBackoffExpire (a : Fin 18) (line : LineNo)
  /-- DATA (R151): A requester installs granted data in the grant state. -/
  | data (a : Fin 18) (line : LineNo)
  /-- WBDATA (R153): A home buffers writeback data of a WbM or snoop. -/
  | wbdata (m : WbMsg)
  /-- AGENT_EVICTION (R149): An agent evicts a line, sending WbM or EvF or silently. -/
  | agentEviction (a : Fin 18) (line : LineNo)
  /-- SPEC_DATA_RETURN (R184): Speculative data returns and enters checking, decryption and decode as provisional data. -/
  | specDataReturn (line : LineNo) (bad : Bool)
  /-- STAGE2_WALK_DONE (R185): The placement walk delivers the entry, confirming or discarding a speculation. -/
  | stage2WalkDone (line : LineNo) (nodeErr : Option (Fin 3 × Bool)) (left : List (Fin 9 × Lpn))
  /-- MEDIA_READ_DONE (R177): A DRAM read returns and passes the code check, decryption, tag check and decode. -/
  | mediaReadDone (line : LineNo) (f : Fetch) (prefetch : Bool) (victims : List LineNo)
  /-- SUSPECT_REREAD_DONE (R293): The re-read of a failed tag passes, or confirms the failure. -/
  | suspectRereadDone (line : LineNo) (f : Fetch)
  /-- SECTOR_WRITEBACK (R224): A sector read-modify-write runs under the page's write-back lock, in place or by growth. -/
  | sectorWriteback (lpn : Lpn) (k : Fin 8) (body : List Byte) (hint : Nat) (f f2 : Fetch)
  /-- TWIN_WRITE_ACK (R190): The peer acknowledges a Caravan twin write and waiting WbMs are acknowledged. -/
  | twinWriteAck (lpn : Lpn) (k : Fin 8)
  /-- TWIN_TIMEOUT (R192): TWIN_TMO passes without acknowledgement and the twin is dropped. -/
  | twinTimeout (lpn : Lpn) (k : Fin 8)
  /-- XLT_ENTRY_EXPIRE (R133): A cached translation becomes unusable at its lifetime limit. -/
  | xltEntryExpire (ix : Nat)
  /-- FLUSH_ACK_TIMEOUT (R134): An engine fails to acknowledge a flush in 17 µs; its TLB is invalidated and held. -/
  | flushAckTimeout (n : Fin 48)
  /-- MOVE_DISPATCH (R245): Firmware dispatches a queued move within its budget. -/
  | moveDispatch (n : Fin 16) (hint : Nat)
  /-- MIGRATION_GRANT (R174): A migration agent receives the whole page after recalls. -/
  | migrationGrant (lpn : Lpn) (bodies : List (List Byte)) (reads : List (Fin 64 × Fetch × Fetch))
  /-- MIGRATION_COMMIT (R174): The moved page's entry is updated in one metadata update and held requests resume. -/
  | migrationCommit (lpn : Lpn)
  /-- MIGRATION_ABORT (R175): Step 3 does not finish in 20 µs and the move is abandoned. -/
  | migrationAbort (lpn : Lpn)
  /-- EPOCH_BOUNDARY (R236): An epoch ends and the hot pass updates heat and queues promotions. -/
  | epochBoundary
  /-- COLD_PASS_START (R238): A cold period ends and the cold pass visits every placement entry. -/
  | coldPassStart
  /-- COLD_PASS_DONE (R238): A cold pass finishes, starting a late pass if one is due. -/
  | coldPassDone
  /-- SWEEP_ADVANCE (R304): A re-key sweep moves the page at its waymark and advances W. -/
  | sweepAdvance (k : Fin 4) (hint : Nat) (reads : List (Fin 64 × Fetch × Fetch))
  /-- SWEEP_RETRY (R305): A sweep paused by a failed allocation retries at an epoch. -/
  | sweepRetry (k : Fin 4)
  /-- ENTROPY_FAILURE (R273): An entropy health test fails and generation is refused until cold reset. -/
  | entropyFailure
  /-- FRIT_TRAIN_START (R217): START of CDC_TRAIN_CTL begins sampling for frit training. -/
  | fritTrainStart (frit : Fin 64) (scope : Fin 256) (any : Bool) (samples : Nat)
  /-- FRIT_SAMPLING_DONE (R217): Sampling ends by count or time and the trainer builds the frit. -/
  | fritSamplingDone (n : Nat)
  /-- FRIT_BUILD_DONE (R217): The trainer finishes and STATE reads READY with its ratios. -/
  | fritBuildDone (lit ctl : List Nat) (dict : List Byte) (lz lze : Nat) (failed : Bool)
  /-- FRIT_COMMIT (R217): COMMIT writes the new frit slot and makes it current, refused while its REF is not 0. -/
  | fritCommit
  /-- FRIT_DISCARD (R217): DISCARD drops the training result or ends a running training. -/
  | fritDiscard
  /-- FRIT_REF_WRITEBACK (R215): Every 64 ms the REF counts are written to the slot headers. -/
  | fritRefWriteback
  /-- FRIT_REF_REBUILD_DONE (R215): The post-reset REF rebuild sweep completes. -/
  | fritRefRebuildDone
  /-- PREDICTOR_FLUSH (R182): PFLUSH invalidates every predictor entry of the slice. -/
  | predictorFlush (n : Fin 16)
  /-- DIRECTORY_SWEEP (R172): The hourly firmware sweep corrects directory records to current epochs. -/
  | directorySweep
  /-- REFRESH_DUE (R342): tREFI elapses and a refresh is issued or postponed. -/
  | refreshDue (c : Fin 16) (postpone : Bool)
  /-- ZQ_CALIBRATION (R349): Every 128 ms ZQ calibration runs on every rank. -/
  | zqCalibration (c : Fin 16)
  /-- OSCILLATOR_READ (R349): Every 100 ms DQS oscillators are read, possibly making a retrain due. -/
  | oscillatorRead (c : Fin 16) (driftPs : Nat)
  /-- LIVE_RETRAIN_START (R349): A due retrain takes the channel turn and pauses the channel. -/
  | liveRetrainStart (c : Fin 16)
  /-- LIVE_RETRAIN_DONE (R349): A retrain passes or restores its previous values and issue resumes. -/
  | liveRetrainDone (c : Fin 16) (passed : Bool) (pauseNs : Nat)
  /-- FREQ_CHANGE_START (R350): A channel takes the turn and begins a frequency-point change. -/
  | freqChangeStart (c : Fin 16)
  /-- FREQ_CHANGE_DONE (R350): A frequency change passes or falls back and issue resumes. -/
  | freqChangeDone (c : Fin 16) (passed : Bool) (pauseNs : Nat)
  /-- FRAME_BOUNDARY (R435): A channel frame ends and new guaranteed slot counts apply. -/
  | frameBoundary (c : Fin 16)
  /-- CA_ALERT (R352): CHn_ALERT_N signals CA parity, freezing the channel, or an alert back-off answered by RFM. -/
  | caAlert (c : Fin 16) (backoff served : Bool)
  /-- MC_LOCK_LOSS (R358): The MCn PLL or PHY loses lock, freezing the channel then retraining it. -/
  | mcLockLoss (c : Fin 16)
  /-- FREEZE_THAW (R352): The freeze window ends and issue resumes or the channel enters hold. -/
  | freezeThaw (c : Fin 16)
  /-- HOLD_EXPIRE (R353): A hold's duration expires and the channel returns to full service. -/
  | holdExpire (c : Fin 16)
  /-- HOLD_END (R353): HOLD_END written 1 ends a hold. -/
  | holdEnd (c : Fin 16)
  /-- SENSOR_POLL (R345): The 16 ms sideband poll reads DIMM sensors and PMIC status. -/
  | sensorPoll (slot : Fin 32) (sensor : Fin 4) (t : Option Nat) (pmic : Bool)
  /-- SENSOR_REPOLL (R346): A failed sensor is polled again every 1 s and cleared on a good read. -/
  | sensorRepoll (slot : Fin 32) (sensor : Fin 4) (t : Option Nat)
  /-- SCRUB_READ (R326): The scrubber reads and decodes the next line and handles its outcome. -/
  | scrubRead (c : Fin 16) (e : ReadErr) (raced : Bool) (pausedNs : Nat)
  /-- MEDIA_INIT_DONE (R324): Channel media initialisation completes and its granules join USABLE. -/
  | mediaInitDone (c : Fin 16)
  /-- TRAINING_DONE (R348): Boot training of a channel's points completes or fails. -/
  | trainingDone (c : Fin 16) (ok : List (Fin 4))
  /-- SG_FAST_TRIP (R463): Current reaches twice ILIM and the gate switches off at once. -/
  | sgFastTrip (n : Fin 32) (m : SgMeas)
  /-- SG_OVERCURRENT (R463): Current exceeds ILIM and the fault timer starts with current regulation. -/
  | sgOvercurrent (n : Fin 32) (m : SgMeas)
  /-- SG_FAULT_TIMER_EXPIRE (R463): The fault timer reaches FT and the slot switches off with OC. -/
  | sgFaultTimerExpire (n : Fin 32) (m : SgMeas)
  /-- SG_POWER_GOOD (R463): VOUT reaches 92 % of VIN after the ramp and PG rises. -/
  | sgPowerGood (n : Fin 32) (m : SgMeas)
  /-- SG_RAMP_DONE (R464): The ramp target reaches VIN and the gate goes to full drive. -/
  | sgRampDone (n : Fin 32) (m : SgMeas)
  /-- SG_RAMP_TIMEOUT (R464): PG is not reached in time and the slot switches off with RAMP. -/
  | sgRampTimeout (n : Fin 32) (m : SgMeas)
  /-- SG_RETRY_EXPIRE (R465): RETRY_T elapses and a faulted slot ramps again or latches. -/
  | sgRetryExpire (n : Fin 32) (m : SgMeas)
  /-- SG_ATTEMPTS_RESET (R465): PG held for 10 s returns ATTEMPTS to 0. -/
  | sgAttemptsReset (n : Fin 32)
  /-- SG_PRESENCE_ARRIVAL (R466): A DIMM is seated for 16 ms and the slot waits for confirmation. -/
  | sgPresenceArrival (n : Fin 32)
  /-- SG_PRESENCE_LOSS (R466): A DIMM leaves its slot, switching it off with PRES or making it EMPTY. -/
  | sgPresenceLoss (n : Fin 32) (long : Bool)
  /-- SG_SENSE_FAULT (R467): A sense check fails and the slot switches off with SENSE. -/
  | sgSenseFault (n : Fin 32) (m : SgMeas)
  /-- SG_UVIN (R467): VIN stays below 10.2 V for 100 µs and the slot switches off with UVIN. -/
  | sgUvin (n : Fin 32) (m : SgMeas)
  /-- SG_THERM (R469): Modelled TFET reaches TLIM and the slot switches off with THERM. -/
  | sgTherm (n : Fin 32) (m : SgMeas)
  /-- SG_FET_SHORT (R471): VOUT stays above 1 V while off and the FET_SHORT latch is set. -/
  | sgFetShort (n : Fin 32) (m : SgMeas)
  /-- SG_TAMB_FAIL (R470): The ambient reading is out of range for 1 ms and the default is used. -/
  | sgTambFail (mv : Fin 65536)
  /-- SG_BUTTON_PRESS (R472): An accepted attention press starts, cancels or brings up service, or is ignored. -/
  | sgButtonPress (n : Fin 32)
  /-- SERVICE_REFUSED_BLINK_END (R473): The 3 s fast pattern after a refused start ends. -/
  | serviceRefusedBlinkEnd (n : Fin 32)
  /-- EVACUATION_COMPLETE (R477): No granule remains on the channel, which goes OFFLINE and is switched off. -/
  | evacuationComplete (c : Fin 16)
  /-- SERVICE_DARK (R477): Both outputs fall below 1 V and the channel becomes DARK. -/
  | serviceDark (c : Fin 16) (v0 v1 : Fin 1000)
  /-- BRINGUP_STEP_DONE (R477): A bring-up step (ramp, SPD, training, initialisation) completes and the next starts. -/
  | bringupStepDone (c : Fin 16) (spd0 spd1 : Option Dimm)
  /-- MARKED_EVACUATION_START (R476): The device starts service of the earliest-marked waiting channel that has room. -/
  | markedEvacuationStart
  /-- IDLE_TIMEOUT (R484): The device is idle for IDLE_US or DROWSE_MS and enters PS1 or PS2. -/
  | idleTimeout
  /-- PS1_EXIT (R484): An event ends idleness and the device returns to PS0. -/
  | ps1Exit
  /-- PS2_ENTRY_DONE (R486): PS2 entry completes with DRAM in self-refresh and slices in retention. -/
  | ps2EntryDone (d : Drain)
  /-- DEMAND_WAKE (R487): An event in PS2 wakes all slices, or a cluster or PD_JOB, together. -/
  | demandWake (what : Fin 3)
  /-- WAKE_DONE (R487): The PS2 wake completes and stalled events proceed in PS0. -/
  | wakeDone
  /-- PS3_LINK_WAIT_TIMEOUT (R490): WAIT_S passes before all links reach L2 and PS3 entry ends with ST_TIMEOUT. -/
  | ps3LinkWaitTimeout
  /-- PS3_ENTRY (R490): All links are in L2 and the device drops to PS3. -/
  | ps3Entry (d : Drain)
  /-- WAKE_SOURCE (R492): An enabled wake source fires in PS3 and the exit begins. -/
  | wakeSource (src : Fin 7) (n : Fin 32)
  /-- PS3_EXIT_DONE (R493): The PS3 exit completes and heads accept training. -/
  | ps3ExitDone (r : Restore) (late : Bool)
  /-- THERMAL_MODEL_UPDATE (R498): Every 1 µs the thermal model nodes update and thresholds are judged. -/
  | thermalModelUpdate (p : List (Fin (2 ^ 24)))
  /-- DIODE_CALIBRATION (R499): Every 10 ms diodes are read, the base moves and references are trimmed. -/
  | diodeCalibration (t : List Int)
  /-- THROTTLE_STEP (R502): Every STEP_MS the throttle step rises, falls or holds. -/
  | throttleStep
  /-- THERMAL_SHUTDOWN (R503): TMAX reaches 155 °C and the device drives THERMTRIP_N and stops. -/
  | thermalShutdown
  /-- SUPPLY_TRIP (R565): A rail monitor trips, freezing a channel or stopping the device. -/
  | supplyTrip (rail : Fin 8) (chans : List (Fin 16)) (mv : Fin 8192)
  /-- CRYSTAL_FAILURE (R558): The 32.768 kHz crystal stops and AON runs on the RC oscillator. -/
  | crystalFailure
  /-- PLL_LOCK_LOSS (R558): A FAB, ENG or REF PLL loses lock, reported as Fatal. -/
  | pllLockLoss
  /-- FAULT_MESSAGE (R442): The collector takes a fault message, assigns severity and makes or merges a record. -/
  | faultMessage (m : Msg) (dropped : Nat) (alt : Bool)
  /-- GRACE_TIMER_EXPIRE (R445): A record's grace timer expires unacknowledged and escalation is ordered. -/
  | graceTimerExpire (entry : Fin 256)
  /-- RECORD_ACK_WRITE (R445): Writing ACK in a record window acknowledges the record. -/
  | recordAckWrite (entry : Fin 256)
  /-- RECORD_VALID_CLEAR (R452): Writing VALID in a record window clears an inactive record. -/
  | recordValidClear (entry : Fin 256)
  /-- PMU_FREEZE (R515): Writing FREEZE stops or resumes every counter. -/
  | pmuFreeze (on : Bool)
  /-- PMU_COUNTER_CLEAR (R514): Writing CLR of PMU_CNT clears a counter, winning over a same-cycle increment. -/
  | pmuCounterClear (n : Fin 256)
  /-- COUNTER_CLEAR (R18): Writing 1 to a CLR bit sets that register's counts to 0. -/
  | counterClear (m : Master) (off : Fin (2 ^ 26))
  /-- BLOCK_LOCK (R18): Writing LOCK of a block makes its RWL fields read only until reset. -/
  | blockLock (m : Master) (off : Fin (2 ^ 26))
  /-- REGISTER_WRITE (R18): A write to a register without behaviour of its own updates its writable fields. -/
  | registerWrite (sp : RegSpace) (m : Master) (off : Fin (2 ^ 26)) (wide : Bool) (v : Fin (2 ^ 64))
  /-- ENGINE_HANG (R554): An engine makes no progress for 1 ms and its command ends with ST_FAULTED. -/
  | engineHang (n : Fin 48) (r : Option Req)
  /-- JOB_START (R366): A free enabled unit takes the next queued job, piece or session command. -/
  | jobStart (n : Fin 4) (chain : List (Nat × Nat × Nat))
  /-- JOB_PENDING_TIMEOUT (R366): A job not ended after 8 ms replies ST_PENDING with a handle. -/
  | jobPendingTimeout (n : Fin 4)
  /-- JOB_END (R364): A job, piece or session command finishes and replies. -/
  | jobEnd (n : Fin 4) (acc : List (Nat × Bool)) (e : JobEnd)
  /-- JOB_HANG (R377): A job makes no progress for 1 ms, ends ST_FAULTED and the unit is reset. -/
  | jobHang (n : Fin 4) (at' : Nat)
  /-- BALE_DATA_RX (R388): A DATA bale is checked and accepted at its sequence, or dropped. -/
  | baleDataRx (p : Fin 2) (raw : List Byte) (bad : Option Nat)
  /-- BALE_REPLAY_RX (R393): A REPLAY bale renumbers the following bales and ends DROPPING. -/
  | baleReplayRx (p : Fin 2) (raw : List Byte) (bad : Option Nat)
  /-- BALE_LINKCTL_RX (R403): A LINKCTL bale carries a training or link-management operation. -/
  | baleLinkctlRx (p : Fin 2) (raw : List Byte) (bad : Option Nat) (ns : Nat)
  /-- BALE_IDLE_RX (R390): An IDLE bale delivers acknowledgement, credit and XOFF. -/
  | baleIdleRx (p : Fin 2) (raw : List Byte) (bad : Option Nat)
  /-- REPLAY_TIMER_EXPIRE (R392): The 2 µs replay timer expires and a replay starts. -/
  | replayTimerExpire (p : Fin 2) (bad : Option Nat)
  /-- LINKCTL_REPEAT (R403): An unanswered LINKCTL bale is repeated every 128 ns. -/
  | linkctlRepeat (p : Fin 2)
  /-- LANE_FAIL (R404): A lane loses lock or corrects too many symbols and is replaced by the spare. -/
  | laneFail (p : Fin 2) (lane : Fin 9)
  /-- SYMBOL_LOCK_TIMEOUT (R405): Symbol lock is lost for LOCK_TMO and the link goes down. -/
  | symbolLockTimeout (p : Fin 2)
  /-- COMPAT_CREDIT_TIMEOUT (R419): In compatibility mode a VC without credit for 100 µs takes the link down. -/
  | compatCreditTimeout (p : Fin 2)
  /-- CVN_DETECT_POLL (R399): DETECT looks for a receiver every 12 ms, or FAILED returns to DETECT after 10 ms. -/
  | cvnDetectPoll (p : Fin 2) (found : Bool)
  /-- CVN_TRAIN_DONE (R400): Training, measurement and keying complete and the link becomes UP. -/
  | cvnTrainDone (p : Fin 2) (ok fast : Bool) (bad : List (Fin 9))
  /-- RETRAIN_DONE (R406): A Caravan retrain, width change or spare switch completes and traffic replays. -/
  | retrainDone (p : Fin 2) (badEntry : Option Nat)
  /-- CARAVAN_READ (R410): A lender reads loan bytes and answers RDATA. -/
  | caravanRead (p : Fin 2) (errs : List (Nat × ReadErr))
  /-- CARAVAN_WRITE (R415): A lender writes loan bytes and answers WACK once accepted. -/
  | caravanWrite (p : Fin 2) (parity : Bool) (hint : Nat)
  /-- TWRITE (R415): A lender writes a Caravan twin in arrival order and answers WACK. -/
  | twrite (p : Fin 2) (parity : Bool) (hint : Nat)
  /-- GROW (R413): A lender grants loan blocks within its limits and answers GRANT. -/
  | grow (p : Fin 2) (id : Fin (2 ^ 64)) (hint : Nat)
  /-- RETURN (R414): A lender frees returned blocks and answers RACK. -/
  | return (p : Fin 2)
  /-- SYNC (R418): Loan IDs are compared at link-up, confirming, losing, freeing or marking loans foreign. -/
  | sync (p : Fin 2)
  /-- CARAVAN_SPDM (R402): An SPDM message on VC3 advances link keying. -/
  | caravanSpdm (p : Fin 2) (outcome : Fin 3) (reply : List Byte)
  /-- NOTE (R414): A borrower learns that a lender granule is uncorrectable. -/
  | note (p : Fin 2)
  /-- RECLAIM (R416): A borrower recalls pages of its least-used blocks and returns them. -/
  | reclaim (p : Fin 2)
  /-- RDATA (R415): A borrower receives loan data and checks it. -/
  | rdata (p : Fin 2) (f : Fetch)
  /-- WACK (R415): A borrower learns a write was accepted, or must resend it. -/
  | wack (p : Fin 2)
  /-- GRANT (R412): A borrower receives granted loan blocks. -/
  | grant (p : Fin 2)
  /-- RACK (R410): A borrower learns returned blocks were freed. -/
  | rack (p : Fin 2)
  /-- MESSAGE_RESEND_TIMEOUT (R411): A request has no answer in 20 µs and is resent, or the link fails after three. -/
  | messageResendTimeout (p : Fin 2) (tid : Fin 65536)
  /-- LOAN_HOLD_TIMEOUT (R417): A read of a lent page without twin waits HOLD_MS and returns poison. -/
  | loanHoldTimeout (p : Fin 2) (line : LineNo)
  /-- LOAN_LOST (R417): LOST_S passes without the link and the loan is lost. -/
  | loanLost (p : Fin 2)
  /-- PWROK_RISE (R541): PWROK rises and a cold boot runs to media ready. -/
  | pwrokRise (e : BootIn)
  /-- PWROK_FALL (R547): PWROK falls and every gate is held off for a cold reset. -/
  | pwrokFall (cut : Fin 4)
  /-- SYS_RST_ASSERT (R548): SYS_RST_N asserts and a warm reset writes back, self-refreshes and saves the Saddlebag. -/
  | sysRstAssert (d : Drain) (cut : Fin 4)
  /-- SYS_RST_DEASSERT (R541): SYS_RST_N rises and boot resumes at step 4, keeping media where allowed. -/
  | sysRstDeassert (e : BootIn)
  /-- CFG_LOAD_TIMEOUT (R545): A cfg.load sequence receives no chunk for 60 s and is discarded. -/
  | cfgLoadTimeout
  /-- TAP_RESET (R530): TAP_RST_N holds the TAP in Test-Logic-Reset. -/
  | tapReset (low : Bool)
  /-- DBG_ACC (R530): A TAP access as master DBG reads or writes BAR4 space or logical memory. -/
  | dbgAcc (mem write : Bool) (addr : Fin (2 ^ 45)) (data : Fin (2 ^ 64)) (hint : Nat)
  /-- DBG_STS (R530): The TAP returns the debug level, remaining seconds and ERR. -/
  | dbgSts
  /-- EXTEST (R530): Boundary-scan EXTEST drives pins where allowed, never slot gates or THERMTRIP_N. -/
  | extest
  /-- DEBUG_DURATION_EXPIRE (R528): The unlock duration ends and the debug level returns to 0. -/
  | debugDurationExpire
  /-- DEBUG_NONCE_EXPIRE (R529): An unused unlock nonce becomes stale after 60 s. -/
  | debugNonceExpire
  /-- SERVICE_CANCEL_WINDOW_END (R478): The 5 s press-cancel window after an accepted service start closes and CANCEL_OPEN clears. -/
  | serviceCancelWindowEnd (c : Fin 16)
  /-- SG_OVERCURRENT_END (R463): The slot current falls to 15/16 of ILIM, the fault timer stops and PG may rise again. -/
  | sgOvercurrentEnd (n : Fin 32) (m : SgMeas)
  /-- SG_THERM_HOLD_RELEASE (R469): The modelled TFET cools to TLIM − 20 °C and THERM_HOLD clears. -/
  | sgThermHoldRelease (n : Fin 32) (m : SgMeas)
  /-- THERMTRIP_RELEASE (R503): Diode 0 reads below 120 °C after a thermal shutdown; THERMTRIP_N is released and PWROK is heeded again. -/
  | thermtripRelease (t : Int)
  /-- SG_TEMPERATURE_VALUE_TIMEOUT (R504): The Slot Guard die receives no T_63 value for 100 ms and switches to its own temperature sensor. -/
  | sgTemperatureValueTimeout
  /-- MSIX_VECTOR_UNMASK (R56): The host unmasks an MSI-X vector whose pending bit is set, and the message is sent. -/
  | msixVectorUnmask (h : Fin 8) (v : Fin 72) (addr data : Nat)
  /-- BICONFLICT (R169): A host's BIConflict for a line is answered with BIConflictAck, and the crossing request is held until the BIRsp arrives. -/
  | biconflict (h : Fin 8) (line : LineNo)
  /-- CXL_MANDATORY_COMMAND (R93): A CXL mailbox command below 0xC000 that CXL 3.1 makes mandatory for a Type 3 device is executed. -/
  | cxlMandatoryCommand (h : Fin 8) (opcode : Nat) (arg : Nat)
  /-- SLICE_RESET (R550): Firmware resets a slice after an SLC 0x0 or COH 0x0 event; admission stops, dirty lines are written back, the Saddlebag is saved and state is reloaded. -/
  | sliceReset (n : Fin 16) (d : Drain)
  /-- ENGINE_RESET (R554): Within the grace timer, firmware resets a hung engine alone and it returns to HEALTHY. -/
  | engineReset (n : Fin 48)
  deriving DecidableEq, Repr

end Sys2Proof
end

