-- ==== Sys2Proof/Decode.lean ====
section
/-!
DEFINITION. Words that spell commands. The rows of spec/opcode_table.json give no bits, so no word spells one: a command is a request, a
bus message or an event, and its operands are those of its constructor.
-/
namespace Sys2Proof

/-- The command a word spells by the bits of the opcode table. -/
def decodeTableWord (_nbits _w : Nat) : Option Instr := none

end Sys2Proof
end

