-- ==== Sys2Proof/Config.lean ====
section
/-!
DEFINITION. What one device fixes and the spec leaves open: the free values and the constants fused at manufacture.
Every constant here is opaque: nothing can be proved about its value.
-/
namespace Sys2Proof

/-- The free value with a given number: whatever the device produces where the spec leaves a value open. The step
applies it to the counter `State.fresh`, so that two open values need not be equal (DESIGN CHOICE, log 2). -/
opaque Config.freeValue : Nat → Nat

/-- The device identifier of `GLB_DEVID` (R53), fixed per part (DESIGN CHOICE, log 4). -/
opaque Config.deviceId : Nat

/-- CRC-32C of a Saddlebag region whose inner layout the spec does not give: region and save generation (R494, R496; DESIGN CHOICE, log 133). -/
opaque Config.regionCrc : Nat → Nat → Nat

/-- The base-2 logarithm, above 21, of the block size of a head's Dynamic Capacity region (R51). The spec says that configuration sets it and names no
field that does (DESIGN CHOICE, log 41). -/
opaque Config.dcBlockLog : Nat → Nat → Nat

/-- A timing that firmware gives a point of a channel: channel, point and field (R350; DESIGN CHOICE, log 126). -/
opaque Config.timing : Nat → Nat → Nat → Nat

/-- FLEVEL of an emitted zlib header, modulo 4, for a LEVEL (R360; DESIGN CHOICE, log 127). -/
opaque Config.flevel : Nat → Nat

/-- The set of a translation cache that a leaf falls in: context, level and tag (R132; DESIGN CHOICE, log 114). -/
opaque Config.tlbSet : Nat → Nat → Nat → Nat

/-- The set of the snoop filter, modulo 1,024, and of a cluster cache, modulo 64, that a line falls in (R145, R147; DESIGN CHOICE, log 114). -/
opaque Config.sfSet : Nat → Nat
opaque Config.clusterSet : Nat → Nat

/-- What a port says of its capabilities in IDENT (R400; the layout is not given: DESIGN CHOICE, log 128). -/
opaque Config.linkCaps : Nat

/-- The transmission unit of PCIe VDM, less 64, modulo 449 (R97: 64 to 512 bytes; an implementation decides: DESIGN CHOICE, log 4). -/
opaque Config.vdmUnit : Nat

/-- VTARGET of `PWR_AVS`, fused per part (DESIGN CHOICE, log 4). -/
opaque Config.vTarget : Nat

/-- The node of the thermal model under a diode (`THM_DIODE`.NODE), fixed at manufacture (DESIGN CHOICE, log 4). -/
opaque Config.diodeNode : Nat → Nat

/-- A device-window LPN holds a device buffer of R217 or R375, so that it is of class RC14 (R520). The spec does not say
where in the device window firmware puts the buffers (DESIGN CHOICE, log 6). -/
opaque Config.shutLpn : Nat → Bool

/-- The thermal model's weights (node, power monitor), inverse capacitances times 1 µs, and conductances to the reference and between nodes
(R498), fixed at manufacture (DESIGN CHOICE, log 4). -/
opaque Config.thermW : Nat → Nat → Rat
opaque Config.thermC : Nat → Rat
opaque Config.thermG0 : Nat → Rat
opaque Config.thermG : Nat → Nat → Rat

/-- The fingerprint of those tables that `thm.query` reports (R498; log 4). -/
opaque Config.thermPrint : Nat

/-- The AON oscillator's trim constants and the node under the AON block (R504; log 4). -/
opaque Config.rcBase : Int
opaque Config.rcK : Rat
opaque Config.aonNode : Nat

/-- The public key of the Zynoa firmware key, whose digest the boot ROM holds (R537; log 4). -/
opaque Config.fwKey : List (BitVec 8)

end Sys2Proof
end

