-- ==== Sys2Proof/Machine/Flags.lean ====
section
/-!
DEFINITION. The codes the spec fixes: Pyryx status values (R88), block codes (R47), severities (R443), and the check
codes computed over bytes (CRC-32C, Adler-32).
-/
namespace Sys2Proof.Machine
open Sys2Proof

/-! ### Status values (R88) -/
abbrev stOk : Nat := 0x00
abbrev stPending : Nat := 0x01
abbrev stBadOpcode : Nat := 0x10
abbrev stBadParam : Nat := 0x11
abbrev stNoPriv : Nat := 0x12
abbrev stBusy : Nat := 0x13
abbrev stOvercommit : Nat := 0x14
abbrev stNoSpace : Nat := 0x15
abbrev stMediaNotReady : Nat := 0x16
abbrev stCfgInvalid : Nat := 0x17
abbrev stAborted : Nat := 0x18
abbrev stBusMasterOff : Nat := 0x19
abbrev stTimeout : Nat := 0x1A
abbrev stIntegrity : Nat := 0x1B
abbrev stFaulted : Nat := 0x1C
abbrev stStale : Nat := 0x1D

/-! ### Block codes (R47) -/
abbrev bHpt : Nat := 0x01
abbrev bCvn : Nat := 0x02
abbrev bSlc : Nat := 0x03
abbrev bMem : Nat := 0x04
abbrev bCdc : Nat := 0x05
abbrev bSec : Nat := 0x06
abbrev bXlt : Nat := 0x07
abbrev bCoh : Nat := 0x08
abbrev bJob : Nat := 0x09
abbrev bEng : Nat := 0x0A
abbrev bSlt : Nat := 0x0B
abbrev bPwr : Nat := 0x0C
abbrev bThm : Nat := 0x0D
abbrev bFab : Nat := 0x0E
abbrev bGlb : Nat := 0x0F
abbrev bAcc : Nat := 0x10
abbrev bTlg : Nat := 0x11
abbrev bEcc : Nat := 0x12
abbrev bPmu : Nat := 0x13

/-- The number of instances R47 lists for a block code; 0 for a code it does not list. -/
def instances (code : Nat) : Nat :=
  match code with
  | 0x01 => 12 | 0x02 => 2 | 0x03 => 16 | 0x04 => 16 | 0x05 => 17 | 0x06 => 18 | 0x07 => 56 | 0x08 => 26
  | 0x09 => 4 | 0x0A => 54 | 0x0B => 33 | 0x0C => 32 | 0x0D => 25 | 0x0E => 8 | 0x0F => 2 | 0x10 => 38
  | 0x11 => 24 | 0x12 => 16 | 0x13 => 1 | _ => 0

/-! ### Severities (R443) and the FCLASS that carries them (R439) -/
abbrev sevNote : Nat := 0
abbrev sevCorrected : Nat := 1
abbrev sevContained : Nat := 2
abbrev sevFatal : Nat := 3

/-! ### Check codes -/

/-- One bit step of CRC-32C in its reflected form (polynomial 0x82F63B78). -/
def crc32cBit (c : Nat) : Nat := if c % 2 = 1 then (c / 2) ^^^ 0x82F63B78 else c / 2

def crc32cByte (c : Nat) (b : Byte) : Nat :=
  crc32cBit (crc32cBit (crc32cBit (crc32cBit (crc32cBit (crc32cBit (crc32cBit (crc32cBit (c ^^^ b.toNat))))))))

/-- CRC-32C of a byte string (R202, R536, R538). -/
def crc32c (bs : List Byte) : Nat := (bs.foldl crc32cByte 0xFFFFFFFF) ^^^ 0xFFFFFFFF

/-- One bit step of the CRC-32 of gzip in its reflected form (polynomial 0xEDB88320, RFC 1952). -/
def crc32Bit (c : Nat) : Nat := if c % 2 = 1 then (c / 2) ^^^ 0xEDB88320 else c / 2

def crc32Byte (c : Nat) (b : Byte) : Nat :=
  crc32Bit (crc32Bit (crc32Bit (crc32Bit (crc32Bit (crc32Bit (crc32Bit (crc32Bit (c ^^^ b.toNat))))))))

/-- CRC-32 of a byte string (R360, R364). -/
def crc32 (bs : List Byte) : Nat := (bs.foldl crc32Byte 0xFFFFFFFF) ^^^ 0xFFFFFFFF

/-- Adler-32 of a byte string, as RFC 1950 defines it (`JOB_DICT_USE`.ADLER). -/
def adler32 (bs : List Byte) : Nat :=
  let ab := bs.foldl (fun (p : Nat × Nat) b => let a := (p.1 + b.toNat) % 65521; (a, (p.2 + a) % 65521)) (1, 0)
  ab.2 * 65536 + ab.1

end Sys2Proof.Machine
end

