-- ==== Sys2Proof/Machine/RegNames.lean ====
section
/-!
DEFINITION. The names of the register fields the spec gives the device, one name per field that is not reserved,
in the order of the chapters' register tables. The value a field holds stands in `State.regs`; where it lies, its
access code and its reset value stand in `Sys2Proof/Machine/Regs.lean`. Written from the register tables of spec/.
-/
namespace Sys2Proof.Machine

/-- A register field, named REGISTER_FIELD as the spec names them. A register that has several instances
(one per head, slice, channel, ring, …) has one field here; the instance is an index beside it. -/
inductive Reg where
  | HPT_CANARY_CANARY
  | HPT_DEV_STS_STATUS
  | HPT_DEV_STS_HEAD
  | HPT_DEV_STS_STEWARD
  | HPT_BIND_BASE_BASE
  | HPT_BIND_SIZE_SIZE
  | HPT_BIND_TA_TABASE
  | HPT_BIND_CTL_EN
  | HPT_BIND_CTL_KIND
  | HPT_BIND_CTL_TC
  | HPT_BIND_CTL_ERR
  | HPT_BIND_CTL_DC
  | HPT_BIND_CTL_DCREG
  | HPT_TAG_CTL_MAXTAG
  | HPT_TAG_CTL_INUSE
  | HPT_TAG_CTL_QUAR
  | HPT_LATE_CPL_COUNT
  | HPT_LATE_CPL_CLR
  | HPT_CPL_TMO_COUNT
  | HPT_CPL_TMO_CLR
  | HPT_HEAD_STS_LINK_UP
  | HPT_HEAD_STS_RATE
  | HPT_HEAD_STS_WIDTH
  | HPT_HEAD_STS_FLIT
  | HPT_HEAD_STS_BI_EN
  | HPT_HEAD_STS_IDE
  | HPT_HEAD_STS_BME
  | HPT_HEAD_STS_DEPARTING
  | HPT_HEAD_STS_DEP_CNT
  | HPT_PORT_CFG_MODE
  | HPT_PORT_CFG_MAXRATE
  | HPT_PORT_CFG_SRIS
  | HPT_LOCK_LOCK
  | HPT_SQ_DB_TAIL
  | HPT_CQ_DB_HEAD
  | HPT_SQ_BASE_ADDR
  | HPT_CQ_BASE_ADDR
  | HPT_RING_CFG_SQLOG2
  | HPT_RING_CFG_CQLOG2
  | HPT_RING_CFG_PRIV
  | HPT_RING_CFG_IRQ_EN
  | HPT_RING_CFG_COAL_CNT
  | HPT_RING_CFG_COAL_US
  | HPT_RING_CTL_EN
  | HPT_RING_CTL_ABORT
  | HPT_RING_STS_STATE
  | HPT_RING_STS_SQHEAD
  | HPT_RING_STS_CQTAIL
  | HPT_RING_STS_PHASE
  | HPT_RING_STS_STOPST
  | HPT_PYX_OPDONE_DONE
  | XLT_CTX_CFG_EN
  | XLT_CTX_CFG_ROOTV
  | XLT_CTX_CFG_ROOT
  | XLT_CTX_MASK_CLMASK
  | XLT_CTX_MASK_OBMASK
  | XLT_CTX_MASK_DEFCL
  | XLT_CTX_MASK_DEFOB
  | XLT_WIN_BASE_LPN
  | XLT_WIN_LIMIT_LPN
  | XLT_S2_ROOT_A_MA
  | XLT_S2_ROOT_B_MA
  | XLT_FLUSH_STS_ACTIVE
  | XLT_FLUSH_STS_MAX_NS
  | XLT_FLUSH_STS_HUNG
  | XLT_SUBST_CNT_COUNT
  | XLT_SUBST_CNT_CLR
  | COH_HOME_STS_TRK_USED
  | COH_HOME_STS_STARVQ
  | COH_HOME_STS_HOLDQ
  | COH_HOME_STS_LOCKED
  | COH_HOME_CNT_NACKS
  | COH_HOME_CNT_STARVED
  | COH_HOME_CNT_SF_RECALL
  | COH_HOME_CNT_CLR
  | COH_DIR_CFG_BASE
  | COH_DIR_CFG_SETLOG2
  | COH_DIR_CFG_EN
  | COH_BI_CFG_BI_TMO
  | COH_BI_CFG_BI_MAX
  | COH_EPOCH_EPOCH
  | COH_EPOCH_SWEEP_WAIT
  | COH_BI_CNT_TIMEOUTS
  | COH_BI_CNT_LATE_BIRSP
  | COH_BI_CNT_DIR_RECALLS
  | COH_BI_CNT_CLR
  | COH_LOCK_LOCK
  | COH_SPEC_CTL_SPEC_EN
  | COH_SPEC_CTL_T_FURN
  | COH_SPEC_CTL_T_LEHR
  | COH_SPEC_CTL_T_CULL
  | COH_SPEC_CTL_MAXOUT
  | COH_SPEC_CTL_PREF_EN
  | COH_SPEC_CTL_PFLUSH
  | COH_SPEC_STS_OUT
  | COH_SPEC_STS_PRED_VALID
  | COH_SPEC_STS_PROV
  | COH_TWIN_CNT_DROPS
  | COH_TWIN_CNT_MAX_US
  | COH_TWIN_CNT_CLR
  | COH_TWIN_CFG_TWIN_TMO
  | CDC_SLICE_CNT_DEC_ERR
  | CDC_SLICE_CNT_FALLBACK
  | CDC_SLICE_CNT_VERIFY_FAIL
  | CDC_SLICE_CNT_GROW
  | CDC_SLICE_CNT_CLR
  | CDC_SLICE_STS_FC_VALID
  | CDC_SLICE_STS_LOCKS
  | CDC_CTL_VERIFY
  | CDC_CTL_XSCOPE
  | CDC_POL_LEHR_MODE
  | CDC_POL_CULL_MODE
  | CDC_POL_CULL_FRIT
  | CDC_FSTORE_A_MA
  | CDC_FSTORE_B_MA
  | CDC_TRAIN_CTL_FRIT
  | CDC_TRAIN_CTL_SCOPE
  | CDC_TRAIN_CTL_ANY
  | CDC_TRAIN_CTL_START
  | CDC_TRAIN_CTL_COMMIT
  | CDC_TRAIN_CTL_DISCARD
  | CDC_TRAIN_CTL_SAMPLES
  | CDC_TRAIN_STS_STATE
  | CDC_TRAIN_STS_SAMPLED
  | CDC_TRAIN_STS_RATIO_LZ
  | CDC_TRAIN_STS_RATIO_LZE
  | CDC_TRAIN_STS_REFUSED
  | CDC_FRIT_STS_CUR
  | CDC_FRIT_STS_VER0
  | CDC_FRIT_STS_VER1
  | CDC_FRIT_STS_SCOPED
  | CDC_FRIT_STS_SCOPE
  | CDC_FRIT_STS_REBUILD
  | CDC_FRIT_REF0_REF
  | CDC_FRIT_REF1_REF
  | CDC_LOCK_LOCK
  | XLT_TIER_CTL_EPOCH_MS
  | XLT_TIER_CTL_COLD_EPOCHS
  | XLT_TIER_CTL_INC
  | XLT_TIER_CTL_WINC
  | XLT_TIER_CTL_COLD_LATE
  | XLT_BUDGET_BUDGET
  | XLT_BUDGET_RED_BUDGET
  | XLT_BUDGET_EVAC
  | XLT_BUDGET_AMBER_PCT
  | XLT_BUDGET_RED_PCT
  | XLT_OBJ_FLOOR
  | XLT_OBJ_CEIL
  | XLT_OBJ_PROMO
  | XLT_OBJ_AGE
  | XLT_OBJ_LEND
  | XLT_OBJ_TWIN
  | XLT_OBJ_CODE
  | XLT_PRESS_STS_LEVEL
  | XLT_PRESS_STS_SHORTFALL
  | XLT_PRESS_STS_EVAC_READY
  | XLT_PRESS_STS_EXHAUST_DROPS
  | XLT_PRESS_STS_CLR
  | XLT_CAP_COUNT
  | XLT_ACCT_VALUE
  | XLT_ACCT_TWL
  | XLT_TIER_SLICE_PQ
  | XLT_TIER_SLICE_DQ
  | XLT_TIER_SLICE_FQ
  | XLT_TIER_SLICE_DROPS
  | XLT_TIER_SLICE_STALE
  | XLT_TIER_SLICE_CLR
  | SEC_KS_STS_STATE
  | SEC_KS_STS_ORIGIN
  | SEC_KS_STS_GEN
  | SEC_KS_STS_REF
  | SEC_KS_STS_SWEEP
  | SEC_KS_STS_WORN
  | SEC_KS_FLOOR_VALUE
  | SEC_KS_HIGH_VALUE
  | SEC_CTX_KS_KS
  | SEC_ANS_BASE_LPN
  | SEC_ANS_BASE_EN
  | SEC_ANS_LIMIT_LPN
  | SEC_ANS_LIMIT_EN
  | SEC_SWEEP_CTL_OLD
  | SEC_SWEEP_CTL_NEW
  | SEC_SWEEP_CTL_STATE
  | SEC_SWEEP_CTL_BIND
  | SEC_SWEEP_CTL_ZOLD
  | SEC_SWEEP_CTL_TC
  | SEC_SWEEP_CTL_NOSPACE
  | SEC_SWEEP_FIRST_LPN
  | SEC_SWEEP_LIMIT_LPN
  | SEC_SWEEP_WAY_LPN
  | SEC_SLICE_CNT_SUSPECT
  | SEC_SLICE_CNT_ALARMS
  | SEC_SLICE_CNT_NOKEY
  | SEC_SLICE_CNT_CLR
  | SEC_CTL_RKEY
  | SEC_CTL_EXHAUST_KS
  | SEC_TREE_A_MA
  | SEC_TREE_B_MA
  | SEC_STS_UNVER
  | SEC_STS_UNVER_FULL
  | SEC_STS_ALARM_PEND
  | SEC_STS_ENTROPY_FAIL
  | SEC_STS_HALT_REC
  | SEC_LOCK_LOCK
  | ECC_CH_CNT_CORR
  | ECC_CH_CNT_HEAVY
  | ECC_CH_CNT_UNCORR
  | ECC_CH_CNT_ADDR
  | ECC_CH_CNT_CLR
  | ECC_MARK_GROUP
  | ECC_MARK_V
  | ECC_SCRUB_STS_PCT
  | ECC_SCRUB_STS_PASSES
  | ECC_SCRUB_STS_BEHIND
  | ECC_SCRUB_STS_PAUSED
  | ECC_INJ_STS_ARMED
  | ECC_INJ_STS_FIRED
  | ECC_OWNER_BASE_MA
  | ECC_SCRUB_CFG_PERIOD_H
  | ECC_SCRUB_CFG_EN
  | ECC_MARK_CFG_MARK_THR
  | ECC_MARK_CFG_MARK_WIN
  | ECC_CODE_CLASS_JOB
  | ECC_CODE_CLASS_SAMPLE
  | ECC_SELFTEST_SLICE_FAIL
  | ECC_SELFTEST_CLUSTER_FAIL
  | ECC_SELFTEST_PORT_FAIL
  | ECC_SELFTEST_KEY_FAIL
  | ECC_SELFTEST_OTHER_FAIL
  | ECC_SELFTEST_REFUSED
  | ECC_LOCK_LOCK
  | MEM_CH_STS_STATE
  | MEM_CH_STS_FP
  | MEM_CH_STS_RATE
  | MEM_CH_STS_TYPE
  | MEM_CH_STS_DIMMS
  | MEM_CH_STS_RANKS
  | MEM_CH_STS_X8
  | MEM_CH_STS_CIDB
  | MEM_CH_STS_HOT
  | MEM_CH_STS_EVAC_MARK
  | MEM_CH_STS_SENSOR_FAIL
  | MEM_FRZ_CTL_FRZ_WIN
  | MEM_FRZ_CTL_STORM_THR
  | MEM_FRZ_CTL_HOLD_END
  | MEM_FRZ_STS_FROZEN
  | MEM_FRZ_STS_HELD
  | MEM_FRZ_STS_CAUSE
  | MEM_FRZ_STS_FREEZES
  | MEM_FRZ_STS_SNAP
  | MEM_MAP0_SEL
  | MEM_MAP1_SEL
  | MEM_MAP2_SEL
  | MEM_MAP3_SEL
  | MEM_MAPX_XSEL
  | MEM_FP_RATE
  | MEM_FP_VALID
  | MEM_FP_TRAINED
  | MEM_TIM0_CL
  | MEM_TIM0_CWL
  | MEM_TIM0_RCD
  | MEM_TIM0_RP
  | MEM_TIM0_RAS
  | MEM_TIM0_WR
  | MEM_TIM1_RRD_S
  | MEM_TIM1_RRD_L
  | MEM_TIM1_CCD_L
  | MEM_TIM1_CCD_L_WR
  | MEM_TIM1_WTR_S
  | MEM_TIM1_WTR_L
  | MEM_TIM1_RTP
  | MEM_TIM1_FAW
  | MEM_TIM2_RFC1
  | MEM_TIM2_RFCSB
  | MEM_TIM2_REFI
  | MEM_TIM_SEL_ACT
  | MEM_REF_CTL_SB
  | MEM_REF_CTL_HOT_C
  | MEM_REF_CTL_CRIT_C
  | MEM_REF_CTL_MAXPOST
  | MEM_REF_CTL_FORCE_2X
  | MEM_RFM_CFG_RFM_EN
  | MEM_RFM_CFG_PRAC_EN
  | MEM_RFM_CFG_RAAIMT
  | MEM_RFM_CFG_RAAMMT
  | MEM_RFM_CFG_RAADEC
  | MEM_TRN_CTL_RETRAIN_S
  | MEM_TRN_CTL_DRIFT_PS
  | MEM_TRN_STS_LAST
  | MEM_TRN_STS_RETRAINS
  | MEM_TRN_STS_FAILS
  | MEM_TRN_STS_MAX_PAUSE
  | MEM_CNT_RFM
  | MEM_CNT_ABO
  | MEM_CNT_CAPAR
  | MEM_CNT_CLR
  | MEM_GLB_GRAIN
  | MEM_GLB_FCHG
  | MEM_LOCK_LOCK
  | JOB_UNIT_STS_BUSY
  | JOB_UNIT_STS_RETIRED
  | JOB_UNIT_STS_SESS_V
  | JOB_UNIT_STS_SESS
  | JOB_UNIT_STS_PIECE
  | JOB_UNIT_CNT_JOBS
  | JOB_UNIT_CNT_DATA_ERR
  | JOB_UNIT_CNT_RAW_BLK
  | JOB_UNIT_CNT_HANGS
  | JOB_UNIT_CNT_CLR
  | JOB_STS_QUEUED
  | JOB_STS_SESSIONS
  | JOB_STS_DICTS
  | JOB_STS_HIST_MIB
  | JOB_CTL_UNIT_EN
  | JOB_DICT_V
  | JOB_DICT_KIND
  | JOB_DICT_TC
  | JOB_DICT_SIZE
  | JOB_DICT_DICTID
  | JOB_DICT_USE_USERS
  | JOB_DICT_USE_ADLER
  | JOB_LOCK_LOCK
  | CVN_PORT_CFG_AUTO_UP
  | CVN_PORT_CFG_MAXRATE
  | CVN_PORT_CFG_COMPAT
  | CVN_PORT_CFG_LOCK_TMO
  | CVN_PORT_CFG_HOLD_MS
  | CVN_PORT_CFG_LOST_S
  | CVN_PORT_CFG_REPLAY_MAX
  | CVN_PORT_CFG_LEND_EN
  | CVN_PORT_CFG_BORROW_EN
  | CVN_PORT_CFG_LEND_PCT
  | CVN_PORT_CFG_LCLASS
  | CVN_LINK_STS_STATE
  | CVN_LINK_STS_RATE
  | CVN_LINK_STS_WIDTH
  | CVN_LINK_STS_LEADER
  | CVN_LINK_STS_COMPAT_ACT
  | CVN_LINK_STS_SPARE_USED
  | CVN_LINK_STS_FAILED_LANE
  | CVN_LINK_STS_XOFF_TX
  | CVN_LINK_STS_XOFF_RX
  | CVN_LINK_STS_RTT_NS
  | CVN_LINK_STS_HEADROOM
  | CVN_LINK_STS_KEYPH
  | CVN_PEER_ID_ID
  | CVN_CNT_CHK_DROP
  | CVN_CNT_AUTH_DROP
  | CVN_CNT_REPLAYS
  | CVN_CNT_RESENDS
  | CVN_CNT_CLR
  | CVN_LANE_CNT_CORR
  | CVN_LANE_CNT_FAILED
  | CVN_LEND_STS_GRANTED
  | CVN_LEND_STS_LOAN_V
  | CVN_LEND_STS_ASKED
  | CVN_LEND_STS_FOREIGN
  | CVN_BORROW_STS_HELD
  | CVN_BORROW_STS_LOAN_V
  | CVN_BORROW_STS_EMPTY
  | CVN_BORROW_STS_LOST
  | CVN_BORROW_MAX_MAX
  | CVN_LOCK_LOCK
  | TLG_CFG_CAP
  | TLG_STS_F
  | TLG_STS_DERATED
  | TLG_STS_N_NOM
  | TLG_STS_N
  | TLG_STS_DELIV_NOM
  | TLG_STS_DELIV
  | TLG_STS_EVAC
  | TLG_STS_DERATES
  | TLG_GUAR_BW
  | TLG_GUAR_EFF
  | TLG_HQ_QUOTA
  | TLG_HQ_COUNT
  | TLG_HQ_WAITING
  | TLG_SQ_QUOTA
  | TLG_SQ_COUNT
  | TLG_SQ_WAITING
  | TLG_CH_STS_RSV_NORM
  | TLG_CH_STS_RSV_HOT
  | TLG_CH_STS_COUNTED
  | TLG_CH_STS_BW
  | TLG_CH_STS_FRAME_NS
  | TLG_CH_SLOT_SLOTS
  | TLG_CH_SLOT_USED
  | FLT_CTL_GRACE_US
  | FLT_CTL_PINSEV
  | FLT_CTL_ALERTSEV
  | FLT_CTL_NOTE_MIRROR
  | FLT_STS_USED
  | FLT_STS_FATAL
  | FLT_STS_TIMERS
  | FLT_STS_ERR
  | FLT_STS_ALERT
  | FLT_STS_SEVT_FAIL
  | FLT_STS_DISABLED
  | FLT_SEQ_NEXT
  | FLT_OVF_OVERWRITTEN
  | FLT_OVF_DROPPED
  | FLT_OVF_SRCDROP
  | FLT_OVF_FATAL_OVF
  | FLT_OVF_CLR
  | FLT_OVF_MSG0_MSG
  | FLT_OVF_MSG1_MSG
  | FLT_SEV_SEV_C
  | FLT_SEV_V_C
  | FLT_SEV_SEV_U
  | FLT_SEV_V_U
  | FLT_SEV_SEV_F
  | FLT_SEV_V_F
  | FLT_SEV_CHKFAIL
  | FLT_LOCK_LOCK
  | SLT_SG_STS_STATE
  | SLT_SG_STS_PRSNT
  | SLT_SG_STS_GATE
  | SLT_SG_STS_PG
  | SLT_SG_STS_TMR
  | SLT_SG_STS_FET_SHORT
  | SLT_SG_STS_ATTEMPTS
  | SLT_SG_STS_LAST_FAULT
  | SLT_SG_STS_LED
  | SLT_SG_STS_THERM_HOLD
  | SLT_SG_MEAS_VIN
  | SLT_SG_MEAS_VOUT
  | SLT_SG_MEAS_I
  | SLT_SG_MEAS_TFET
  | SLT_SG_LIM_ILIM
  | SLT_SG_LIM_FT
  | SLT_SG_LIM_RAMP
  | SLT_SG_LIM_RETRY_T
  | SLT_SG_LIM_RETRY_MAX
  | SLT_SG_LIM_TLIM
  | SLT_SG_MODEL_R1
  | SLT_SG_MODEL_TAU1
  | SLT_SG_MODEL_R2
  | SLT_SG_MODEL_TAU2
  | SLT_SG_MODEL_RSH
  | SLT_SG_CNT_FAULTS
  | SLT_SG_CNT_RETRIES
  | SLT_SG_CNT_PRESENCE
  | SLT_SG_CNT_PRESSES
  | SLT_SG_CNT_CLR
  | SLT_CH_SVC_SVC
  | SLT_CH_SVC_STEP
  | SLT_CH_SVC_BYCMD
  | SLT_CH_SVC_PCT
  | SLT_CH_SVC_CANCEL_OPEN
  | SLT_CH_SVC_BYMARK
  | SLT_CH_SVC_MARK_WAIT
  | SLT_CFG_TAMB_DEF
  | SLT_CFG_TAMB_FITTED
  | SLT_CFG_AUTO_ON
  | SLT_CFG_BTN_EN
  | SLT_STS_TAMB
  | SLT_STS_TAMB_FAIL
  | SLT_STS_FETSHORT
  | SLT_STS_LINK_OK
  | SLT_STS_SELFTEST_OK
  | SLT_LOCK_LOCK
  | PWR_STATE_PS
  | PWR_STATE_ENTERING
  | PWR_STATE_PS2_WAKES
  | PWR_CTL_AUTO_PS1
  | PWR_CTL_AUTO_PS2
  | PWR_CTL_IDLE_US
  | PWR_CTL_DROWSE_MS
  | PWR_CTL_WAIT_S
  | PWR_DOM_STS_D
  | PWR_DOM_PWR_MW
  | PWR_WAKE_CFG_EN
  | PWR_AON_TIMER_COUNT
  | PWR_AON_TIMER_CMP
  | PWR_LAST_WAKE_SRC
  | PWR_LAST_WAKE_FROM
  | PWR_LAST_WAKE_PORT
  | PWR_LAST_WAKE_SLOT
  | PWR_LAST_WAKE_AT
  | PWR_SADDLE_STS_GEN
  | PWR_SADDLE_STS_BAD
  | THM_STS_TMAX
  | THM_STS_HOTNODE
  | THM_STS_LEVEL
  | THM_STS_STEP
  | THM_STS_MODEL
  | THM_STS_HEALTHY
  | THM_LIMITS_WARN_C
  | THM_LIMITS_THROT_C
  | THM_LIMITS_STEP_MS
  | THM_DIODE_T
  | THM_DIODE_NODE
  | THM_DIODE_HEALTHY
  | PWR_LOCK_LOCK
  | THM_LOCK_LOCK
  | PMU_CNT_COUNT
  | PMU_CNT_SAT
  | PMU_CNT_ERR
  | PMU_CNT_CLR
  | PMU_CTL_EVENT
  | PMU_CTL_EN
  | PMU_CTL_FILT
  | PMU_CTL_FSET
  | PMU_FS_MASK0_MASK
  | PMU_FS_MASK1_MASK
  | PMU_FS_BASE_LPN
  | PMU_FS_LIMIT_LPN
  | PMU_FS_SEL_CLSET
  | PMU_FS_SEL_TIERSET
  | PMU_FS_SEL_PRIVSET
  | PMU_FS_SEL_RANGE_EN
  | PMU_GCTL_FREEZE
  | PMU_GSTS_FROZEN
  | PMU_GSTS_ANY_SAT
  | PMU_GSTS_ANY_ERR
  | PMU_LOCK_LOCK
  | ACC_TBL_RC
  | ACC_RNG_BASE_ADDR
  | ACC_RNG_BASE_CLASS
  | ACC_RNG_BASE_EN
  | ACC_RNG_LIMIT_ADDR
  | ACC_RNG_LIMIT_CLASS
  | ACC_RNG_LIMIT_EN
  | ACC_DBG_LEVEL
  | ACC_DBG_REMAIN
  | ACC_DBG_EXTEST
  | ACC_STS_DENIALS
  | ACC_STS_LAST_TGT
  | ACC_STS_LAST_MST
  | ACC_STS_CLR
  | ACC_LOCK_LOCK
  | GLB_ID_VENDOR
  | GLB_ID_DEVICE
  | GLB_ID_REV
  | GLB_DEVID_ID
  | GLB_BOOT_STS_STEP
  | GLB_BOOT_STS_FWCOPY
  | GLB_BOOT_STS_BOOT_ALT
  | GLB_BOOT_STS_ROMREC
  | GLB_BOOT_STS_REFUSED
  | GLB_BOOT_STS_CAUSE
  | GLB_BOOT_STS_BADCOPY
  | GLB_BOOT_STS_BOOT_MS
  | GLB_CFG_STS_GEN
  | GLB_RST_STS_LAST
  | GLB_RST_STS_MEDIA_KEPT
  | GLB_RST_STS_WARM_CNT
  | GLB_FW_VER_VERSION
  | GLB_FW_STS_ROLL
  | GLB_FW_STS_CLUSTER
  | GLB_FW_STS_STAGED_KIB
  | GLB_OTP_SVN_MIN
  | GLB_OTP_OWNED
  | GLB_GRANT_CTX
  | ENG_STS_STATE
  | ENG_STS_NEWFW
  | ENG_GLB_HEALTHY
  | ENG_GLB_RETIRED
  | PWR_AVS_VTARGET
  | PWR_AVS_VMEAS
  | PWR_RAIL_MON_MV
  | PWR_RAIL_MON_TRIP
  | PWR_RAIL_MON_CHAN
  deriving DecidableEq, Repr

end Sys2Proof.Machine
end

