-- ==== Sys2Proof/Machine/State.lean ====
section
/-!
DEFINITION. The state of the device as plain data: the register fields, the tables, queues and pins the spec gives it,
the queue of waiting commands, and the state before PWROK rises (`State.reset`).
-/
namespace Sys2Proof.Machine
open Sys2Proof

/-- Where a register field lies, its access code, and whether its Reset column reads cfg (R18, R539). -/
inductive Access where
  | ro | rw | w1c | w1s | wo | rwl | rws
  deriving DecidableEq, Repr

/-- A field of a register: bits [lo + width − 1 : lo]; `rep` copies, `step` bits apart. -/
structure FieldRow where
  reg : Reg
  lo : Nat
  width : Nat
  rep : Nat
  step : Nat
  acc : Access
  cfg : Bool
  deriving DecidableEq, Repr

/-- A register: in BAR4 or in BAR2 of a head, at base + s1 × i + s2 × j, i < n1, j < n2. -/
structure RegRow where
  bar2 : Bool
  base : Nat
  s1 : Nat
  n1 : Nat
  s2 : Nat
  n2 : Nat
  fields : List FieldRow
  deriving DecidableEq, Repr

/-- The key of one register field: the field and its indices (0 where the register has none). -/
structure RegKey where
  r : Reg
  i : Nat
  j : Nat
  deriving DecidableEq, Repr

/-- A table from numbers to values: strictly rising keys, one entry a key. -/
abbrev Tab (α : Type) := List (Nat × α)

/-- The attributes of an attributable occurrence (R511): master ID where the access carries one, privilege, LPN (2^33 where none is known, DESIGN
CHOICE, log 132), class label, tier code (6 unresolved). -/
structure Attr where
  master : Option Nat
  priv : Nat
  lpn : Nat
  cls : Nat
  tier : Nat
  deriving DecidableEq, Repr

/-! ### Faults (15_faults.md) -/

/-- A record of the fault queue (R449). VALID is the record's presence in the queue. `direct`: made by `flt.inject`, so
an escalation executes no step (R457). -/
structure FltRec where
  msg : Msg
  seq : Nat
  time : Nat
  count : Nat
  sev : Nat
  fallbk : Bool
  tmr : Bool
  ack : Bool
  esc : Bool
  active : Bool
  direct : Bool
  deriving DecidableEq, Repr

/-- The fault collector. -/
structure FltSt where
  /-- The 256 queue entries (R450): 0–31 reserved for Fatal records. -/
  recs : Tab FltRec
  /-- The Fatal ring of the Saddlebag, newest first, at most 16 (R451). -/
  ring : List FltRec
  /-- Queue entries that escalation has disabled (R459); and, by source ID, the fields that an escalation step reloads from the configuration block. -/
  off : List Nat
  reload : Tab (List (RegKey × Nat))
  deriving DecidableEq, Repr

/-! ### Heads and host ports (02_host_ports.md) -/

/-- A CXL event record: kind 0 DRAM, 1 Memory Module, 2 General Media, 3 Zynoa vendor-specific, 4 Dynamic Capacity. For
kind 3: TYPE, A, B, C of R455 and REC. For kinds 2 and 4: `a` the DPA or extent, `b` the event. -/
structure CxlRec where
  handle : Nat
  kind : Nat
  typ : Nat := 0
  a : Nat := 0
  b : Nat := 0
  c : Nat := 0
  maint : Bool := false
  record : Option FltRec := none
  /-- The message of a TYPE 5 record whose message was dropped (R455). -/
  lost : Option Msg := none
  deriving DecidableEq, Repr

/-- One CXL event log (R68): at most 256 records, oldest first. -/
structure EvLog where
  recs : List CxlRec := []
  nextHandle : Nat := 1
  overflow : Bool := false
  ovfCount : Nat := 0
  ovfFirst : Nat := 0
  ovfLast : Nat := 0
  deriving DecidableEq, Repr

/-- An MSI-X table entry (R56). -/
structure MsixEntry where
  addr : Nat := 0
  data : Nat := 0
  mask : Bool := true
  deriving DecidableEq, Repr

/-- A standard HDM decoder of a head (R28, R51, R60, R64): host address base and size, the DPA it skips, interleave ways, and granularity as
256 × 2^gran bytes. -/
structure Decoder where
  base : Nat := 0
  size : Nat := 0
  skip : Nat := 0
  ways : Nat := 1
  gran : Nat := 0
  committed : Bool := false
  errNotCommitted : Bool := false
  deriving DecidableEq, Repr

/-- What an outstanding bus-master read fetches (R72). -/
inductive TagUse where
  | entries (ring : Nat)
  | payload (ring ix : Nat)
  | job (handle : Nat)
  deriving DecidableEq, Repr

/-- A Dynamic Capacity extent: DPA base and length within a region, and whether the host has accepted it (R65). -/
structure Extent where
  region : Nat
  base : Nat
  len : Nat
  tag : Nat := 0
  deriving DecidableEq, Repr

/-- A Dynamic Capacity offer or release request that awaits the host, with the operation it belongs to. -/
structure DcPending where
  ext : Extent
  release : Bool
  forced : Bool
  handle : Nat
  deriving DecidableEq, Repr

/-- The reply of the primary mailbox: the CXL return code and the Pyryx reply it holds, if any. -/
structure MboxReply where
  code : Nat
  status : Nat := 0
  detail : Nat := 0
  result : Nat := 0
  tag : Nat := 0
  deriving DecidableEq, Repr

/-- A head. -/
structure HeadSt where
  /-- The link has reached L0 since the head last departed (R75). -/
  reachedL0 : Bool := false
  /-- The link is in training. -/
  training : Bool := false
  msix : Tab MsixEntry := []
  /-- Pending bits of the 72 MSI-X vectors (R56). -/
  msixPend : List Nat := []
  /-- Event logs: 0 Informational, 1 Warning, 2 Failure, 3 Fatal, 4 Dynamic Capacity (R68). -/
  logs : Tab EvLog := []
  /-- Event interrupt policy: the logs that signal (R93). All five until the host sets another (DESIGN CHOICE, log 101). -/
  irqPolicy : Nat := 31
  /-- Poison list: 64-byte-aligned DPAs, oldest first, at most 512 (R70). -/
  poison : List Nat := []
  poisonOvf : Bool := false
  poisonOvfTime : Nat := 0
  decoders : Tab Decoder := []
  /-- Back-invalidate enable of the BI Decoder capability (R64). -/
  biDec : Bool := false
  /-- PCIe link IDE stream: 0 none, 1 secure, 2 insecure (R66, R67). -/
  ideLink : Nat := 0
  /-- Keys programmed and not torn down: of the PCIe link stream, of the CXL.cachemem stream (R66). -/
  ideKeyLink : Bool := false
  ideKeyMem : Bool := false
  /-- CXL.mem quiesced after CXL Reset (R77). -/
  quiesced : Bool := false
  tags : Tab TagUse := []
  /-- When each outstanding read was sent; when each quarantined tag is free again, in ns (R72, R73). -/
  tagAt : Tab Nat := []
  quar : List Nat := []
  quarTo : Tab Nat := []
  nextTag : Nat := 0
  /-- The host enabled only 8-bit tags (R71). -/
  tag8 : Bool := false
  /-- Completion timeout value of Device Control 2 (R72), and timeout disable. -/
  cplValue : Nat := 0
  cplDisable : Bool := false
  /-- Device Control: max payload size and max read request size, as 128 × 2^n bytes; their reset values are PCIe's (PRESUMED, log 102). -/
  maxPayload : Nat := 0
  maxRead : Nat := 2
  /-- Poison on decode error of the HDM decoders (PRESUMED, log 103). -/
  decodePoison : Bool := false
  /-- Base addresses the host programmed in BAR0, BAR2 and BAR4 (R57). -/
  bars : Tab Nat := []
  /-- The alert configuration the host set (R93). -/
  alerts : Nat := 0
  /-- AER status: bit 0 completion timeout, 1 unexpected completion, 2 IDE check failed (R67, R72, R73). -/
  aer : Nat := 0
  extents : List Extent := []
  dcPending : List DcPending := []
  mbox : Option MboxReply := none
  /-- Subsystem IDs taken from the configuration block (R53). -/
  subsysVendor : Nat := 0
  subsysId : Nat := 0
  /-- The timestamp the host set by Set Timestamp, and `now` when it did. -/
  cxlTime : Nat := 0
  cxlTimeAt : Nat := 0
  /-- Abort-pending mailbox command (R79): a command is in progress. -/
  mboxBusy : Bool := false
  deriving DecidableEq, Repr

/-- A command of a ring that has started and not run (R82, R94): its entry, FENCE, and whether its payload is still being read. -/
structure Started where
  ix : Nat
  fence : Bool
  wait : Bool
  deriving DecidableEq, Repr

/-- A ring pair of a head (R94–R96); its registers stand in `State.regs`. -/
structure RingSt where
  /-- Entries fetched and not started, oldest first. -/
  fetched : List Nat := []
  /-- Commands started that have not run, oldest first. -/
  started : List Started := []
  /-- Commands started whose reply is not written. -/
  inFlight : Nat := 0
  /-- ST_PENDING operations that await their FINAL entry. -/
  finals : Nat := 0
  /-- CQ entries written and not released by HEAD. -/
  unreleased : Nat := 0
  /-- Completions that no MSI-X message covers yet. -/
  unsignalled : Nat := 0
  /-- The pass: it rises each time EN is written 1 from DISABLED (R100). -/
  pass : Nat := 0
  /-- A command with FENCE has started and not completed. -/
  fenced : Bool := false
  /-- An entry fetch is outstanding. -/
  fetching : Nat := 0
  deriving DecidableEq, Repr

structure HostSt where
  heads : Tab HeadSt
  /-- Rings, by 64 × head + ring. -/
  rings : Tab RingSt
  /-- MODE in effect of port p: the ports that run x8 + x8 (R48). -/
  x8 : List Nat
  /-- Ports whose HPn_PERST_N is deasserted. -/
  perstHigh : List Nat
  deriving DecidableEq, Repr

/-! ### Pyryx (03_pyryx.md) -/

/-- What an operation that replied ST_PENDING does (R100, R577). -/
inductive OpKind where
  | dcAdd (h : Nat) | dcRelease (h : Nat)
  | tierPin | tierTwin
  | job (n : Nat)
  | rotate (sweep : Nat) | zeroise (slot sweep : Nat)
  | setFreq (chans : List Nat) (fp : Nat) | retrain (c : Nat) | offline (c : Nat)
  | powerOn (c : Nat) | service (c : Nat)
  | linkUp (p action : Nat) | reclaim (p : Nat)
  | ps3
  | cfgLoad | fwStage | fwActivate
  deriving DecidableEq, Repr

/-- An operation slot (R100, R103). `running` false: ended, results readable. -/
structure OpSlot where
  seq : Nat
  running : Bool
  status : Nat
  detail : Nat
  result : Nat
  progress : Nat
  origin : Origin
  tag : Nat
  pass : Nat
  kind : OpKind
  /-- What the operation will end with, once its work is done and OPERATION_END is still to come: STATUS, DETAIL, RESULT. -/
  ready : Option (Nat × Nat × Nat) := none
  /-- When it started, in ns. -/
  at' : Nat := 0
  /-- A sweep that a warm reset resumed: its end is notified otherwise (R548). -/
  quiet : Bool := false
  /-- The order in which operations ended: the oldest is reused first. -/
  endedAt : Nat
  deriving DecidableEq, Repr

structure PyxSt where
  slots : Tab OpSlot
  /-- Sequence counts issued since cold reset. -/
  seq : Nat
  /-- Operations ended since cold reset. -/
  ended : Nat
  /-- The time base of `sys.time_sync`: host time minus device time, both in ns. -/
  timeBase : Int
  /-- EID and binding of `sys.event_receiver`. -/
  receiver : Option (Nat × Nat)
  /-- Requests outstanding per MCTP requester EID (R97). -/
  mctp : Tab Nat
  deriving DecidableEq, Repr

/-! ### Outputs -/

/-- Output data of a command: (byte offset, bytes, value) for each field written; what no entry names is 0. -/
abbrev Output := List (Nat × Nat × Nat)

/-- A Caravan message (R409): its header fields, and its data; DLEN is the length of the data. -/
structure CvnMsg where
  op : Nat
  tid : Nat := 0
  uncorr : Bool := false
  poison : Bool := false
  tags : Bool := false
  rawf : Bool := false
  rep : Bool := false
  status : Nat := 0
  lloc : Nat := 0
  off : Nat := 0
  arg : Nat := 0
  data : List Byte := []
  deriving DecidableEq, Repr

/-- What leaves the device. -/
inductive Out where
  /-- A Pyryx reply: destination, FINAL, STATUS, TAG, RESULT, DETAIL, OUTLEN and output (R85). -/
  | reply (dst : Origin) (final : Bool) (status tag result detail outlen : Nat) (output : Output)
  /-- A completion-ring entry: head, ring, index, PHASE, FINAL, STATUS, TAG, RESULT, DETAIL, OUTLEN, SQHEAD (R85, R94). -/
  | cqe (h r idx : Nat) (phase : Nat) (final : Bool) (status tag result detail outlen sqhead : Nat)
  /-- Output data written to host memory before the entry (R83). -/
  | hostWrite (h addr len : Nat) (output : Output)
  /-- A read request of the bus master: head, tag, host address, bytes (R71, R94). -/
  | busRead (h tag addr len : Nat)
  /-- A CXL return code of the primary mailbox, with output of a CXL command (R93). -/
  | mailbox (h code : Nat) (output : Output)
  | doe (h proto : Nat) (output : Output)
  | msix (h vec : Nat)
  /-- An MCTP notification (R578): EID, subtype, content. -/
  | mctpNotify (eid subtype : Nat) (output : Output)
  /-- Output that a codec unit writes (R365): unit, address, in logical space, bytes. -/
  | jobOut (n addr : Nat) (logical : Bool) (data : List Byte)
  /-- CXL.mem data to a head: request tag, line, poison (R177). -/
  | memData (h tag : Nat) (data : Line) (poison : Bool)
  /-- CXL.mem completion of a write (R180). -/
  | memCmp (h tag : Nat)
  /-- A back-invalidate snoop to a host: head, line, kind 0 BISnpInv, 1 BISnpData (R169). -/
  | biSnp (h line kind : Nat)
  | biConflictAck (h line : Nat)
  /-- A coherence message on its network: the header of R152 and, on DAT, 64 bytes of data. -/
  | coh (header : BitVec 128) (data : Option Line)
  /-- A register or memory value returned by an access of its own (TAP, BAR2, BAR4). -/
  | value (v : Nat)
  /-- UR completion of a read that no BAR claims (R57). -/
  | unsupported (h : Nat)
  /-- The 256 bytes of a Caravan bale sent by port p (R383). -/
  | bale (p : Nat) (bytes : List Byte)
  /-- A Caravan message given to the bales of port p. -/
  | cvnMsg (p : Nat) (m : CvnMsg)
  /-- A DRAM command: channel, kind (0 read, 1 write, 2 refresh, 3 RFM, 4 ZQ, 5 self-refresh entry, 6 exit), address. -/
  | dram (c kind addr : Nat)
  /-- A named event that only an observer outside the device sees. -/
  | event (code inst val : Nat)
  deriving DecidableEq, Repr


/-! ### The placement map and the data of pages (04, 08, 09) -/

/-- A placement entry (R124). -/
structure Place where
  tier : Nat := 0
  a : Bool := false
  d : Bool := false
  lock : Bool := false
  code : Nat := 0
  ns : Bool := false
  len : Nat := 0
  ks : Nat := 0
  ver : Nat := 0
  frit : Nat := 0
  pin : Bool := false
  ma : Nat := 0
  hint : Nat := 0
  heat : Nat := 0
  obj : Nat := 0
  sh : Bool := false
  twk : Nat := 0
  deriving DecidableEq, Repr

/-- A twin entry (R126). -/
structure TwinEnt where
  tma : Nat := 0
  tlen : Nat := 0
  tns : Bool := false
  deriving DecidableEq, Repr

/-- The record of a segment in a parison: SPAN in 16-byte units (0: the segment is ZERO), and the segment body before encryption (R201, R206). -/
structure Seg where
  span : Nat := 0
  body : List Byte := []
  deriving DecidableEq, Repr

/-- What stage 2 and the image hold of a page: the placement and twin entries, the twin kind `tier.twin` last requested
(R250), the eight records of its parison (none for a raw frame), the header's FRITVER and VER (R200), and the tag-pointer of a Strong raw frame (R280). A page
the table does not list is in tier Zero with every field 0 (R131). -/
structure Page where
  pl : Place := {}
  tw : TwinEnt := {}
  want : Nat := 0
  segs : List Seg := []
  fritVer : Nat := 0
  laid : Nat := 0
  tag : Option Nat := none
  deriving DecidableEq, Repr

/-- An owner entry (R320): 1 primary image, 2 local twin, 6 held for a borrower, 0 free with the code of its last
write. -/
structure Own where
  lpn : Nat
  role : Nat
  code : Nat
  start : Bool
  deriving DecidableEq, Repr

/-- A queue entry of tiering: LPN, the VER the pass saw, the class of R245 (1 evacuation … 9 frit version; 0 exhaustion
move, R284) and the target tier. -/
structure MoveReq where
  lpn : Nat
  ver : Nat
  cls : Nat
  target : Nat := 0
  deriving DecidableEq, Repr

/-- A move in progress (R174): its request, the step it has reached (1 dispatched, 2 locked, 4 granted), what it does and
the granules it holds (R249). `copy`: the ciphertext is copied unchanged (R247); `twinOnly`: only a twin is made (R250).
`room` granules at `ma` (a media address, or port and lender location) take the image, `troom` at `tma` a twin of kind `tkind`. -/
structure MoveSt where
  req : MoveReq
  step : Nat
  tier : Nat
  copy : Bool
  twinOnly : Bool
  ks : Nat
  code : Nat
  ma : Nat
  room : Nat
  tma : Nat
  troom : Nat
  tkind : Nat
  /-- The bodies the encoder chose, by sector, and the lines it could not read, with their poison cause (step 5). -/
  bodies : List (List Byte) := []
  lost : List (Nat × Nat) := []
  deriving DecidableEq, Repr

/-- A page an operation of `tier.pin` or `tier.twin` waits for: handle, LPN, and the tier or twin kind it must reach. -/
structure OpPage where
  handle : Nat
  lpn : Nat
  twin : Bool
  want : Nat
  deriving DecidableEq, Repr

/-- A placement-map node of level 1, 2 or 3 as its parent's entry names it (R122): the media addresses of copies A and B, BSTALE. The copies of a level-3
node are those of its node unit (R287). -/
structure Node where
  a : Nat
  b : Nat
  bstale : Bool := false
  deriving DecidableEq, Repr

/-- A fixed metadata area (R579): granules of a copy, and the media address at which each copy begins. -/
structure Area where
  size : Nat
  places : List Nat
  deriving DecidableEq, Repr

structure PageSt where
  /-- Pages that are not in their initial Zero state, by LPN. -/
  pages : Tab Page
  /-- The logical content stored on media, by line (64 × LPN + line); an unlisted line reads as zeros (R131). -/
  mem : Tab Line
  /-- Lines whose stored content carries the poison marking (R194), rising. -/
  poison : List Nat
  /-- Write counters of sectors, by 8 × LPN + sector (R282). -/
  ctrs : Tab Nat
  /-- Nodes of levels 1 to 3 that exist, by level and what they cover: the entry of the level above (R122); an absent one reads V = 0. -/
  nodes : Tab Node
  /-- Nodes of which both copies are uncorrectable (S2_MEDIA, R127); 0 stands for the L0 node. -/
  badNodes : List Nat
  /-- Owner entries of granules that have been allocated, by MA (R320). -/
  own : Tab Own
  /-- Fixed metadata areas (R579): 0–15 the owner table and snapshot ring of a channel, 16 the L0 copies, 17 the pool of L1 and L2 nodes, 18 the
  fixed tree area, 19 the frit store, 32 + n the directory table of home n; and the granules installed in each channel. -/
  areas : Tab Area
  chCap : Tab Nat
  /-- Queues per slice (R246): promotion, demotion, forced. -/
  promoQ : Tab (List MoveReq)
  demoQ : Tab (List MoveReq)
  forcedQ : Tab (List MoveReq)
  /-- Moves in progress, by LPN. -/
  moves : Tab MoveSt
  /-- Epochs since the last cold pass started; a cold pass runs; the next is due (R238). -/
  epochs : Nat
  cold : Bool
  coldDue : Bool
  /-- Pages per HEAT at the last cold pass, and those the running pass has counted (R238, R263). -/
  hist : Tab Nat
  histNew : Tab Nat
  /-- Pages that `tier.pin` and `tier.twin` operations still wait for (R263). -/
  opPages : List OpPage
  /-- The reserve an account keeps at least, until the next cold pass recounts it (R253). -/
  resHold : Tab Nat
  /-- Token buckets of a home slice (R248, R305), by 3 × slice + 0 for moves, 1 for evacuation, 2 for re-keying: what each held, in 1/409,600,000 of a
  byte, and when. -/
  buckets : Tab (Nat × Nat)
  /-- Values `tier.set_budget` gave, in effect from the next epoch (R263). -/
  newTier : List (Nat × Nat)
  deriving DecidableEq, Repr

/-! ### Coherence (05_coherence.md) -/

/-- A line an agent holds (R149): 1 S, 2 F, 3 E, 4 M. -/
structure Held where
  st : Nat
  data : Line
  poison : Bool := false
  deriving DecidableEq, Repr

/-- A snoop-filter entry (R147): home state 1 HS, 2 HF, 3 HX; holders, rising; the agent in F. -/
structure SfEnt where
  st : Nat
  holders : List Nat
  f : Option Nat := none
  deriving DecidableEq, Repr

/-- What a coherence request asks for (R151). The last three are a home's own (R120, R147, R148): `peek` brings the dirty copy of a line home for a table
read, `seize` takes every copy for a compare-and-swap or a write of the device, `purge` empties a snoop-filter victim. -/
inductive ReqKind where
  | readS | readSnc | readO | readOFull | upgrade | page | peek | seize | purge
  deriving DecidableEq, Repr

/-- A request at a home (R152): agent, line, kind, ATT, quiet, class label and tag of the head request behind it. For a
head write: the data, its byte mask (bit b of 64) and poison. -/
structure CohReq where
  agent : Nat
  line : Nat
  kind : ReqKind
  att : Nat := 0
  quiet : Bool := false
  cls : Nat := 0
  obj : Nat := 0
  sh : Bool := false
  /-- The head access behind it: (head, host tag). -/
  head : Option (Nat × Nat) := none
  /-- DPA of the head access, for the poison list. -/
  dpa : Nat := 0
  write : Option (Line × Nat × Bool) := none
  /-- HDM-DB MetaValue: 0 I, 1 S, 2 A; none for HDM-H. -/
  mv : Option Nat := none
  master : Nat := 0x7F
  /-- The metadata cache holds the placement entry; the allocator's choice for a first write. -/
  hit : Bool := true
  hint : Nat := 0
  /-- Transaction number of the requester (R152), and the poison cause of a write (R332). -/
  tid : Nat := 0
  cause : Nat := 1
  /-- The head has departed, or was reset: no response, no presence and no tollgate count come of it (R75, R77). -/
  untracked : Bool := false
  /-- The request of an engine in supervisor mode (R511). -/
  sup : Bool := false
  deriving DecidableEq, Repr

/-- An open transaction of a line at its home (R154): snoops that await an answer, by agent and stage: the kind (0 SnpInv, 1 SnpFwd S,
2 SnpFwd O, 3 SnpData) once sent; 64 + 16 × kind + code once the agent has answered so; 16 + 4 × (code − 6) + kind while dirty data is missing; 32 while
a WbM is; back-invalidate snoops, by head and line; the placement walk, the media or the lender that is
being read; whether a forwarder has sent the data to the requester; whether only the requester's Ack, or the peer's
acknowledgement of a twin write, is missing. `hit`: the metadata cache holds the placement entry. -/
structure Trk where
  req : CohReq
  snoops : List (Nat × Nat) := []
  bis : List (Nat × Nat) := []
  hit : Bool := true
  walk : Bool := false
  media : Bool := false
  lender : Option Nat := none
  forwarded : Bool := false
  granted : Bool := false
  /-- The grant state R155 gives (0 S, 1 F, 2 E, 3 M), and whether the grant carries no data. -/
  gs : Nat := 1
  noData : Bool := false
  /-- The home's tracker number (R152), and the snoop-filter victim whose entry it waits for (R147). -/
  num : Nat := 0
  victim : Option Nat := none
  /-- The snoops have gone out; before that the home recalls heads (R155). -/
  snooped : Bool := false
  /-- The requester's Ack has come before the home granted: a forwarder was quicker than its own answer. -/
  acked : Bool := false
  deriving DecidableEq, Repr

/-- A request outstanding at an agent: kind, Nacks received, waiting out a backoff. -/
structure AgReq where
  req : CohReq
  nacks : Nat := 0
  backoff : Bool := false
  deriving DecidableEq, Repr

/-- A directory record (R166): presence masks by line of the page, the lines held exclusively, and the epoch of each
head. -/
structure DirRec where
  hp : Tab Nat := []
  excl : List Nat := []
  epoch : Tab Nat := []
  deriving DecidableEq, Repr

/-- A line of a line cache (R146, R181): `used` orders lines by their last use. -/
structure LcLine where
  data : Line
  dirty : Bool := false
  poison : Bool := false
  /-- Where the poison came from, as R332 numbers it, and the class label of the last write (R423). -/
  cause : Nat := 1
  cls : Nat := 0
  prov : Bool := false
  used : Nat := 0
  deriving DecidableEq, Repr

/-- A predictor entry (R182): the tag and the fields of a placement entry. -/
structure PredEnt where
  tag : Nat
  pl : Place
  deriving DecidableEq, Repr

/-- A speculative read (R183): page, line, the predicted entry, its time, whether its data returned and carries an error
indication, and whether a media write or a key or frit change has spoilt it (R185). -/
structure SpecRd where
  line : Nat
  pl : Place
  at' : Nat
  data : Bool := false
  spoilt : Bool := false
  deriving DecidableEq, Repr

/-- A twin write in flight to a peer (R190, R191): the sector, the WbM writers it will acknowledge, and whether another
merged write waits behind it. -/
structure TwinWr where
  sector : Nat
  acks : List CohReq := []
  next : List CohReq := []
  /-- The twin write has been sent, under this message number. -/
  sent : Option Nat := none
  at' : Nat := 0
  deriving DecidableEq, Repr

/-- An access of a head as the host sent it (R177, R180), kept while it waits: at the head for a quota, or for a recall of
a segment-table line. `mv`: MetaValue 0 I, 1 S, 2 A, or none; `nc`: MemRdData without caching; `tblBad`: the level of a
table read that meets an uncorrectable error; `hit`, `hint`, `slot` as in `CohReq`. -/
structure HeadAcc where
  h : Nat
  tag : Nat
  dpa : Nat
  mv : Option Nat := none
  nc : Bool := false
  write : Option (Line × Nat × Bool) := none
  tblBad : Option Nat := none
  hit : Bool := true
  hint : Nat := 0
  /-- The port translation cache prefetches the next page's translation after a miss (R119). -/
  pref : Bool := false
  /-- The line of a segment table it waits for (R120), and the root its walk began from (R138). -/
  waits : Nat := 0
  root : Option Nat := none
  /-- The head has departed: no response is sent (R75). -/
  gone : Bool := false
  /-- The binding that has translated it: entry, tenant address, context, KIND (R63). -/
  bound : Option (Nat × Nat × Nat × Bool) := none
  deriving DecidableEq, Repr

structure CohSt where
  /-- Lines that agents hold, by 2^39 × agent + line. -/
  held : Tab Held
  sf : Tab SfEnt
  trk : Tab Trk
  /-- Requests outstanding at agents, by 2^39 × agent + line. -/
  reqs : Tab AgReq
  /-- Write-backs and clean notices an agent has in flight (R157), by the same key: 0 EvF; 1 WbM; 2 WbM that has reached the
  home before its data; 3 WbM that the home has accepted. -/
  evs : Tab Nat
  /-- Write-back data received before its WbM (R153), by the same key. -/
  wbData : Tab WbMsg
  /-- Write-back data on its way to a home: data and poison; and data on its way to a requester: grant state, data, poison; by the same key. -/
  wbOut : Tab (Line × Bool)
  dat : Tab (Nat × Line × Bool)
  /-- Starvation and hold queues, oldest first, and the rotating pointer, by home (R159, R160, R174). -/
  starv : Tab (List CohReq)
  holdQ : Tab (List CohReq)
  ptr : Tab Nat
  dir : Tab DirRec
  /-- BISnp outstanding: (head, line, kind). -/
  bi : List (Nat × Nat × Nat)
  /-- BISnp that wait because BI_MAX are outstanding. -/
  biWait : List (Nat × Nat × Nat)
  /-- Snoops given up on, whose BIRsp would be late (R170). -/
  biLate : List (Nat × Nat)
  /-- The oldest epoch of a head that a sweep has not cleared (R172). -/
  swept : Tab Nat
  lc : Tab LcLine
  /-- Use order of line-cache lines. -/
  tick : Nat
  /-- Placement entries a home's metadata cache holds, by LPN, with Q of the last request that used each. -/
  mdc : Tab Bool
  /-- Nodes of levels 1 and 2 that a slice's metadata cache holds (R129), by 2^28 × slice + node. -/
  nodes : List Nat
  pred : Tab PredEnt
  spec : List SpecRd
  twins : List TwinWr
  /-- Head accesses that wait for the recall of a segment-table line (R120). -/
  parked : List HeadAcc
  /-- Head requests that wait for a tollgate quota at the head (R425), oldest first. -/
  quotaQ : List CohReq
  /-- Suspect failures that await their second read: (line, copy) (R293). -/
  suspects : List (Nat × Nat)
  /-- Time of the latest demand miss of a sector, by 8 × LPN + sector (R179). -/
  missAt : Tab Nat
  /-- Pages whose directory record is being rebuilt from recalls (R171). -/
  rebuild : List Nat
  deriving DecidableEq, Repr

/-! ### Encryption and keys (09_encryption.md) -/

/-- The halt record (R298). -/
structure HaltRec where
  cause : Nat
  level : Nat
  src : Nat
  master : Nat
  ks : Nat
  copy : Nat
  lpn : Nat
  sector : Nat
  line : Nat
  ctr : Nat
  ma : Nat
  time : Nat
  seq : Nat
  deriving DecidableEq, Repr

/-- The key material of a slot (R267): K1, K2 and KT, 32 bytes each. -/
structure KeyMat where
  k1 : List Byte
  k2 : List Byte
  kt : List Byte
  deriving DecidableEq, Repr

structure SecSt where
  /-- The unverifiable list: (level, lowest LPN), at most 64 (R300), and the pages rebased beneath a listed node. -/
  unver : List (Nat × Nat)
  rebased : List Nat
  /-- SEQs of alarms not acknowledged (R296). -/
  alarms : List Nat
  haltRec : Option HaltRec
  /-- Pages re-keyed by sweep s. -/
  rekeyed : Tab Nat
  /-- Sweeps that a warm reset resumed: sweep and handle; their end is notified (R548). -/
  resumed : Tab Nat
  /-- The two copies of each slot's material (R269): a copy that is not listed is uncorrectable, or its slot is EMPTY. -/
  keysA : Tab KeyMat
  keysB : Tab KeyMat
  /-- KTREE, and the working state of the DRBG (R267, R273); none before they are made and once zeroised. -/
  treeKey : Option (List Byte)
  drbg : Option Nat
  /-- CTR[j] and MAC[j] that its parent holds of a leaf or node of the integrity tree (R286), by 2^33 × level + what it covers. -/
  tctr : Tab Nat
  tmac : Tab Nat
  /-- Leaves and nodes that a metadata cache holds, by the same key: whether dirty (R290). -/
  tcache : Tab Bool
  /-- Secured SPDM sessions: (head, session ID). -/
  sessions : List (Nat × Nat)
  /-- The Export Master Secrets of those sessions (R274): holder, session ID, secret. -/
  secrets : List (Nat × Nat × List Byte) := []
  deriving DecidableEq, Repr

/-! ### Stored-data protection (10_stored_data_protection.md) -/

/-- An armed injection (R331). Kinds 0–2: line address and symbol mask and pattern; kind 3: source ID of the array, bits,
entry, byte. -/
structure Inj where
  handle : Nat
  kind : Nat
  la : Nat
  mask : Nat
  pattern : Nat
  deriving DecidableEq, Repr

/-- An entry of the device poison log (R332). -/
structure PoisonEnt where
  lpn : Nat
  sector : Nat
  line : Nat
  cause : Nat
  time : Nat
  deriving DecidableEq, Repr

structure EccSt where
  inj : List Inj
  nextInj : Nat
  /-- The last 4,096 entries, oldest first, and all entries made since cold reset. -/
  plog : List PoisonEnt
  pcount : Nat
  /-- Times of lines corrected within one group, by 1,000 × channel + 10 × (4 × subchannel + rank) + group (R318). -/
  hits : Tab (List Nat)
  /-- Patrol position of a channel: the lines its running pass has read, and when the pass began (R326). -/
  scrubAt : Tab Nat
  scrubFrom : Tab Nat
  /-- Symbols that a write-side injection has left wrong in media, by line address: symbol and what it was XORed by (R331). -/
  bad : Tab (List (Nat × Byte))
  deriving DecidableEq, Repr

/-! ### Codec (07_inline_compression.md) -/

/-- A frit slot (R212) as the trainer or the store holds it: version, scope, code lengths, dictionary, sectors sampled. -/
structure Frit where
  ver : Nat
  oneTc : Bool
  scope : Nat
  lit : List Nat
  ctl : List Nat
  dict : List Byte
  nsamp : Nat := 0
  deriving DecidableEq, Repr

structure CdcSt where
  /-- The frit store: slot s of frit f at 2f + s (R218). -/
  store : Tab Frit
  /-- What the trainer has built (R217 step 3). -/
  built : Option Frit
  /-- REF counts as last written to the slot headers, by 2f + s (R215). -/
  refMedia : Tab Nat
  /-- The frit caches (R218): what slot of the store each of a slice's eight cache slots holds, by 8 × slice + slot. -/
  cache : Tab Nat
  deriving DecidableEq, Repr


/-! ### Translation caches (04_translation.md) -/

/-- A cached stage-1 entry (R132): holder (0–7 the heads' port translation caches, 8 + n the TLB of engine n), context,
level, the tenant-address bits above the level's reach, the entry as read with the marks set since, the logical address
of the entry in units of 8 bytes, and when the walk filled it. -/
structure TlbEnt where
  holder : Nat
  tc : Nat
  lvl : Nat
  tag : Nat
  val : Nat
  addr : Nat
  at' : Nat
  deriving DecidableEq, Repr

/-- A command that waits: `sec.zero_pages` (0), `sec.rebase` (1) or `seg.free` (2) for a page that a move or a host holds (R311); `xlt.query` (3) for the
recall of a table line (R120); a flush for its slot or its acknowledgements (R134, R135): `xlt.flush` (4), `xlt.flush_all` (5), `seg.set_root` (6),
`seg.ctx_destroy` (7). -/
structure Waiting where
  kind : Nat
  req : Req
  /-- A flush has a slot: when it started, in ns, and the accesses issued under dropped entries that no home has accepted yet (R134). -/
  started : Bool := false
  at' : Nat := 0
  left : List Nat := []
  /-- Its ring has begun a new pass: no completion entry is written (R96). -/
  mute : Bool := false
  deriving DecidableEq, Repr

structure XltSt where
  tlb : List TlbEnt
  waiting : List Waiting
  deriving DecidableEq, Repr

/-! ### DRAM channels (11_dram_controller.md) -/

/-- A DRAM command in a channel's history (R354): the slot it was issued in, CMD, where it went, ADDR, the line of a read or write, and SRC. -/
structure DramCmd where
  at' : Nat
  cmd : Nat
  sc : Nat := 0
  rk : Nat := 0
  cid : Nat := 0
  bg : Nat := 0
  ba : Nat := 0
  addr : Nat := 0
  la : Nat := 0
  src : Nat := 7
  deriving DecidableEq, Repr

/-- A media read or write on its way through a controller (R341): its line address, class label and SRC of R354, and the attributes of what it
is made for (R511). -/
structure MedCmd where
  la : Nat
  wr : Bool
  cls : Nat
  src : Nat
  who : Option Attr := none
  deriving DecidableEq, Repr

/-- The scheduler of a subchannel (R341, R430): its read and write queues as one list in the order of arrival, the commands that wait on MED for
room in them, whether writes are being drained, the class the rotating pointer names, the slot of the frame it has reached, and the guaranteed
slots each class has used in the frame. -/
structure SubSt where
  q : List MedCmd := []
  med : List MedCmd := []
  draining : Bool := false
  rot : Nat := 1
  at' : Nat := 0
  used : Tab Nat := []
  deriving DecidableEq, Repr

/-- A snapshot of a freeze (R354): cause, point, time, SEQ, error lines (line address, kind), the slot of the trigger and the command history, newest first. -/
structure Snapshot where
  cause : Nat
  fp : Nat
  time : Nat
  seq : Nat
  errs : List (Nat × Nat)
  slot : Nat
  cmds : List DramCmd
  deriving DecidableEq, Repr

/-- A hold: its remaining time in ms, or no expiry (R353). -/
inductive HoldFor where
  | ms (n : Nat)
  | always
  deriving DecidableEq, Repr

/-- A channel. -/
structure ChanSt where
  /-- Snapshot ring: 8 places, by index; and the newest index while one was written. -/
  snaps : Tab Snapshot := []
  /-- Thaw times of the freezes within the last second, in ns (R353). -/
  freezes : List Nat := []
  /-- A hold asked for, to begin at thaw; or the hold in force. -/
  hold : Option HoldFor := none
  /-- The freeze in progress returns to hold at its thaw. -/
  wasHeld : Bool := false
  /-- A live retrain is due; a frequency change to a point waits for the turn. -/
  retrainDue : Bool := false
  changeTo : Option Nat := none
  /-- A lock loss or freeze trigger struck the pause: the pause's check counts as failed (R351). -/
  pauseHit : Option Nat := none
  /-- Postponed all-bank refreshes (R342). -/
  postponed : Nat := 0
  /-- Rolling activation counts per bank (R344). -/
  acts : Tab Nat := []
  /-- Last sensor reading of each sensor in °C + 128, and the sensors that are failed (R345, R346). -/
  temps : Tab Nat := []
  failed : List Nat := []
  /-- Points the thermal throttle takes off the top of the list of trained points: by step, and by DIMM temperature. -/
  throttle : Nat := 0
  dimmHot : Bool := false
  /-- The two subchannels; the slots passed, the open row of each bank with the slot of its last access, the reads issued whose data has not come
  back, the newest 64 commands; the scrub slot of the frame is taken, and the frame runs as best effort (R326, R341, R354, R438). -/
  subA : SubSt := {}
  subB : SubSt := {}
  clk : Nat := 0
  rows : Tab (Nat × Nat) := []
  bus : List Nat := []
  hist : List DramCmd := []
  scrubbed : Bool := false
  /-- Lines of a second copy that a hold has left unwritten (R353). -/
  owed : List Nat := []
  noTable : Bool := false
  /-- The last live retrain. -/
  lastRetrain : Nat := 0
  /-- CHn_DRST_N is deasserted. -/
  drstHigh : Bool := false
  selfRefresh : Bool := false
  deriving DecidableEq, Repr

structure MemSt where
  chans : Tab ChanSt
  /-- DIMMs by slot 0–31, while seated and read (R345). -/
  dimms : Tab Dimm
  /-- Board slots per channel, from the BOARD record (R335, R539). -/
  board : Tab Nat
  /-- Channels out of service at start-up with their slice disabled (R31). -/
  disabledSlices : List Nat
  /-- The label and SRC under which media commands now arrive on MED (R354, R423), and the attributes of what they are made for (R511). -/
  label : Nat × Nat
  who : Option Attr
  deriving DecidableEq, Repr
/-! ### Job compression (12_job_compression.md) -/

/-- A job or session command at the dispatcher or on a unit (R366): `kind` 0 `job.submit`, 1 `job.flush`, 2
`job.session_close`. A split compression (R369) has several pieces: `next` is the next one to enter the queue, `done` holds the
output and the source of pieces that are done and not copied, `copied` counts those copied, `total` and `src` their output
bytes and source. `slot`: the operation slot after ST_PENDING. -/
structure Job where
  req : Req
  kind : Nat
  session : Option Nat := none
  dict : Option Nat := none
  pieces : Nat := 1
  next : Nat := 1
  done : Tab (List Byte × List Byte) := []
  copied : Nat := 0
  total : Nat := 0
  src : List Byte := []
  /-- The output buffers in order: address and bytes (R363, R365). -/
  bufs : List (Nat × Nat) := []
  slot : Option Nat := none
  /-- Its ring has begun a new pass: no completion entry is written (R96). -/
  mute : Bool := false
  deriving DecidableEq, Repr

/-- A decoding table of RFC 8878: its log, and for each state the symbol, the bits that follow and the base of the next state. -/
structure FseTab where
  log : Nat
  cells : List (Nat × Nat × Nat)
  deriving DecidableEq, Repr

/-- What a Zstandard block may take over from those before it: the Huffman table (its log, and symbol and length by code), the tables of literal lengths,
offsets and match lengths, and the three repeated offsets. -/
structure ZTabs where
  huff : Option (Nat × List (Nat × Nat)) := none
  ll : Option FseTab := none
  off : Option FseTab := none
  ml : Option FseTab := none
  rep : Nat × Nat × Nat := (1, 4, 8)
  deriving DecidableEq, Repr

/-- A stream under way (R371): whether its header is out, the bytes coded so far with the newest first, the partial block held, the bits of a
byte not full yet, the tables; of a decompression the source so far. -/
structure Coder where
  begun : Bool := false
  plain : List Byte := []
  part : List Byte := []
  pend : List Bool := []
  tabs : ZTabs := {}
  fed : List Byte := []
  deriving DecidableEq, Repr

/-- A streaming session (R370–R372): its ring, context, the fixed fields, the bytes accepted, emitted and held. -/
structure Session where
  seq : Nat
  ring : Nat × Nat
  tc : Nat
  dir : Nat
  fmt : Nat
  csum : Bool
  level : Nat
  wlog2 : Nat
  blk : Nat
  dict : Option Nat := none
  broken : Bool := false
  src : Nat := 0
  out : Nat := 0
  held : Nat := 0
  coder : Coder := {}
  deriving DecidableEq, Repr

/-- A loaded dictionary (R373). -/
structure Dict where
  tc : Nat
  raw : Bool
  id : Nat
  bytes : List Byte
  deriving DecidableEq, Repr

structure JobSt where
  /-- Jobs not ended, by a number of the model's own; the dispatcher's queue holds (job, piece). -/
  jobs : Tab Job
  queue : List (Nat × Nat)
  nextJob : Nat
  /-- What unit n runs: (job, piece). -/
  units : Tab (Nat × Nat)
  sessions : Tab Session
  sessSeq : Nat
  dicts : Tab Dict
  deriving DecidableEq, Repr

/-! ### Caravan ports (13_caravan_link.md) -/

/-- A DATA bale of a message (R384, R408): its body of VLEN bytes; once it has been sent, whether from the pool and the 256 bytes it went out as, so
that a replay is bit-identical (R392). `void`: it went out as a VOID bale (R394). -/
structure BaleTx where
  vc : Nat
  body : List Byte
  som : Bool
  eom : Bool
  msg : CvnMsg
  pool : Bool := false
  void : Bool := false
  raw : List Byte := []
  deriving DecidableEq, Repr

/-- A message being received, or received whole, on a virtual channel (R408): its bytes, and the dedicated and pool buffers that hold it (R397,
R398). -/
structure BaleRx where
  bytes : List Byte := []
  own : Nat := 0
  pool : Nat := 0
  deriving DecidableEq, Repr

/-- A request that awaits its answer (R411): the message, whether it is on its way, resends made, block numbers of a GROW or RETURN. `use`: what the answer completes:
0 a page read (line), 1 a write-back, 2 a twin write (sector), 3 GROW, 4 RETURN. -/
structure CvnWait where
  tid : Nat
  use : Nat
  arg : Nat
  msg : CvnMsg
  nums : List Nat := []
  sent : Bool := false
  tries : Nat := 0
  deriving DecidableEq, Repr

/-- The key of a direction (R308): AES-256 key, IV salt, and the number of the first bale under it, unknown to a receiver until that bale comes. -/
structure LinkKey where
  key : List Byte
  salt : List Byte
  base : Option Nat := none
  deriving DecidableEq, Repr

/-- A block a lender has granted (R414): the block number, the first of its 16 granules, RAWF, and the tag area. -/
structure LentBlock where
  block : Nat
  ma : Nat
  rawf : Bool := false
  tags : Option Nat := none
  deriving DecidableEq, Repr

/-- A Caravan port. -/
structure CvnPort where
  /-- Borrower: loan ID, granted blocks, blocks being emptied to be returned, and what each used loan granule holds: LPN × 2, + 1 for a
  twin. `closing`: `cvn.reclaim` recalls the whole loan. -/
  loanB : Option Nat := none
  blocks : List Nat := []
  giving : List Nat := []
  closing : Bool := false
  uses : Tab Nat := []
  /-- Lender: loan ID and device identifier of the borrower, granted blocks, bytes stored by loan line (4 × loan granule +
  line), lines that carry the poison marking, line tags. -/
  loanL : Option (Nat × Nat) := none
  lent : List LentBlock := []
  store : Tab Line := []
  marked : List Nat := []
  tags : Tab Nat := []
  /-- Requests awaiting answers, and the kept answers of GROW and RETURN: (TID, status, count), newest first. -/
  waits : List CvnWait := []
  kept : List (Nat × Nat × Nat) := []
  nextTid : Nat := 0
  /-- The loan IDs the peer presented at the last SYNC: as borrower and as lender, 0 for none. -/
  peerSync : Option (Nat × Nat) := none
  /-- Link layer (R389–R393): round trips measured in training, DATA bales waiting, sent and not acknowledged, the counts sent and received
  in order, the count that the next bale is checked at, DROPPING, strikes of R395, when the last replay started. -/
  rtts : List Nat := []
  sendQ : List BaleTx := []
  unacked : List BaleTx := []
  sent : Nat := 0
  rcvd : Nat := 0
  rxAt : Nat := 0
  dropping : Bool := false
  strikes : Nat := 0
  replayAt : Option Nat := none
  /-- Credits (R397, R419): the peer's limits and the bales used, by VC; buffers freed on this end, and how many of them the peer has been told of;
  the VC whose credit the next bale carries. -/
  limit : Tab Nat := []
  usedCr : Tab Nat := []
  freed : Tab Nat := []
  told : Tab Nat := []
  cvc : Nat := 0
  /-- Receive buffers: the message under way on each VC, and the whole messages not yet consumed, oldest first (R396–R398, R408). -/
  parts : Tab BaleRx := []
  inbox : List (Nat × BaleRx) := []
  /-- The keys of the link (R308, R402): the sender's, the receiver's, that of the receiver's next phase, the phase the receiver is in, and whether this end
  has asked for new ones. -/
  txKey : Option LinkKey := none
  rxKey : Option LinkKey := none
  rxNext : Option LinkKey := none
  rxPhase : Bool := false
  renewing : Bool := false
  /-- The LINKCTL operation in progress: code, argument, asked by this end; and those that wait. -/
  linkOp : Option (Nat × Nat × Bool) := none
  linkNext : List (Nat × Nat × Bool) := []
  /-- Physical lanes that failed since training. -/
  badLanes : List Nat := []
  /-- Since when the port of a loan has not been UP. -/
  downAt : Option Nat := none
  /-- The page reads that wait out HOLD_MS (R417): lines. -/
  held : List Nat := []
  /-- The running millisecond of R406: when it began, FEC symbols corrected in it, bales dropped in it. -/
  win : Nat × Nat × Nat := (0, 0, 0)
  deriving DecidableEq, Repr

structure CvnSt where
  ports : Tab CvnPort
  deriving DecidableEq, Repr

/-! ### Slots (16_slot_guard.md) -/

/-- What the guards and the service of channels hold beside their registers. -/
structure SltSt where
  /-- Marked channels whose service has not started, in the order of their marks (R476). -/
  marks : List Nat := []
  /-- Slots that show fast for 3 s after a refused start, and channels whose FAILED shows fast until a slot is pulled (R473, R478). -/
  fast : List Nat := []
  failed : List Nat := []
  /-- Guards whose ramp is complete (ramp_done of R464). -/
  rampDone : List Nat := []
  /-- The two poles of a guard's transistor model, in units of 10⁻¹⁴ K (R469). -/
  d1 : Tab Int := []
  d2 : Tab Int := []
  /-- Granules allocated on a channel when its evacuation started (PCT). -/
  evacStart : Tab Nat := []
  /-- Channels whose bring-up stops at the end of its step (R577). -/
  stopping : List Nat := []
  deriving DecidableEq, Repr
/-! ### Power and thermal management (17_power_thermal.md) -/

/-- What power management and the thermal model hold beside their registers. Temperatures are exact, in °C. -/
structure PwrSt where
  /-- `pwr.set_state` commands whose reply waits for PS2 (R505); those that wait for a firmware roll to end (R553). -/
  waiters : List Req := []
  afterRoll : List Req := []
  /-- A PS3 entry waits for the links (R490). -/
  linkWait : Bool := false
  /-- A PS2 wake, or a PS3 exit, is under way; a PS2 entry follows it (R488). -/
  waking : Bool := false
  again : Bool := false
  /-- Domains that woke alone in PS2 (R487): PWR instances. -/
  woken : List Nat := []
  /-- The device has stopped: thermal shutdown or a failed supply (R8). -/
  stopped : Bool := false
  /-- THERMTRIP_N is low (R503). -/
  trip : Bool := false
  /-- dT of node i, and the reference B (R498, R499); no diode was healthy at the last calibration. -/
  rises : Tab Rat := []
  base : Rat := 0
  noDiode : Bool := false
  /-- Per diode: successive calibrations out of agreement, and those in agreement while unhealthy. -/
  diodeBad : Tab Nat := []
  diodeGood : Tab Nat := []
  /-- The oscillator trim and the last T_63 sent; the Slot Guard die uses its own sensor (R504). -/
  rcTrim : Int := 0
  t63 : Rat := 0
  ownSensor : Bool := false
  /-- The header of the Saddlebag as the last save wrote it (R496). -/
  bag : List Byte := []
  /-- `now` when PWROK rose. -/
  since : Nat := 0
  /-- The 32.768 kHz crystal runs. -/
  crystal : Bool := false
  deriving DecidableEq, Repr

/-! ### Start-up (20_startup_firmware.md) -/

/-- A `cfg.load` sequence: its caller and the bytes received. -/
structure LoadSeq where
  caller : Origin
  bytes : List Byte
  deriving DecidableEq, Repr

/-- The flash, OTP and what boot holds beside its registers. -/
structure BootSt where
  /-- 0 PWROK low; 1 held after boot step 3, SYS_RST_N low; 2 held in a warm reset; 3 booted (R541, R548, R564). -/
  phase : Nat := 0
  /-- The bytes of selector sectors 0 and 1 (R536). -/
  sels : Tab (List Byte) := []
  /-- Bytes of firmware copies 0 (A) and 1 (B), and of configuration copies 0 and 1; beyond the end the flash is erased (R535). -/
  fw : Tab (List Byte) := []
  cfg : Tab (List Byte) := []
  /-- The Zynoa firmware key whose digest the boot ROM holds (R537), fixed at manufacture (log 4). -/
  fwKey : List Byte := Config.fwKey
  /-- The owner digest in OTP (R540). -/
  owner : Option Nat := none
  /-- REG entries in force: BAR4 offset and value, in record order (R539). -/
  regs : List (Nat × Nat) := []
  /-- Steward public key and Caravan trust anchor of the KEYS record in force. -/
  stewardKey : List Byte := []
  anchor : Nat := 0
  /-- SMBus and I3C static addresses of the IDENT record in force. -/
  smbus : Nat := 0
  i3c : Nat := 0
  load : Option LoadSeq := none
  /-- A firmware roll: the version it replaces, and the slot of its operation. -/
  rollOld : Nat := 0
  setSvn : Bool := false
  /-- What the environment gave the boot that is not over: held until SYS_RST_N rises, or outputs are allowed. -/
  env : BootIn := {}
  /-- Media is kept over the warm reset under way (R549). -/
  keep : Bool := false
  /-- GRAIN, and SETLOG2, EN and BASE of every home, before the warm reset under way (R549). -/
  before : List Nat := []
  /-- When the reset began, in ns. -/
  from' : Nat := 0
  deriving DecidableEq, Repr


/-! ### Debug (19_access_control.md, 21_pins_electrical.md) -/

/-- The unlock state and the TAP. -/
structure AccSt where
  /-- The unlock nonce: value, session, time of phase 0 (R529). -/
  nonce : Option (Nat × Nat × Nat)
  /-- When the unlock duration ends, in ns. -/
  dbgUntil : Nat
  /-- The debug authority public key of the configuration block (R529, R539). -/
  dbgKey : List Byte
  /-- ERR of the TAP status (R524). -/
  tapErr : Bool
  /-- TAP_RST_N holds the TAP in Test-Logic-Reset; the instruction it holds (R530). -/
  tapReset : Bool
  tapInstr : Nat
  /-- An access of DBG to logical memory that its home has not carried out: line, place of the 8 bytes in it in bits, data of a write, the allocator's choice. -/
  tapMem : Option (Nat × Nat × Option Nat × Nat)
  deriving DecidableEq, Repr

/-! ### The whole machine -/

/-- Why the device takes a fault outcome. The spec's own faults are records and states (15_faults.md), not outcomes. -/
inductive Fault where
  /-- Raised by no meaning at present: kept for a command the device could only meet by stopping. Safe. -/
  | stopped
  deriving DecidableEq, Repr

/-- Why a command has no meaning. -/
inductive Refusal where
  /-- Raised by the arm of a command that is not modelled yet. Safe: the run stops. -/
  | notModelled (mnemonic : String)
  deriving DecidableEq, Repr

/-- The state of the device. -/
structure State where
  /-- The register fields that have been written; a field with no entry holds `dflt`. -/
  regs : List (RegKey × Nat)
  /-- Time since PWROK, in ns (DESIGN CHOICE, log 1). -/
  now : Nat
  /-- Free values drawn (the model's own field, DESIGN CHOICE, log 2). -/
  fresh : Nat
  /-- What has left the device, newest first. -/
  out : List Out
  /-- Commands that wait, first in first out. -/
  pending : List Instr
  /-- Ways, entries, lanes and rows that escalation has disabled, by source ID (16-bit SRC of R439), rising. -/
  disabled : List Nat
  /-- Messages that an escalation step of the present command owes; empty between commands. -/
  due : List Msg
  flt : FltSt
  host : HostSt
  pyx : PyxSt
  /-- A security halt is in force: the SEQ of its halt record (R297, R299). -/
  halt : Option Nat
  /-- The cause word of R540 for the configuration in force. -/
  cause : Nat
  pg : PageSt
  coh : CohSt
  sec : SecSt
  ecc : EccSt
  cdc : CdcSt
  xlt : XltSt
  mem : MemSt
  job : JobSt
  cvn : CvnSt
  slt : SltSt
  pwr : PwrSt
  boot : BootSt
  acc : AccSt
  deriving DecidableEq, Repr

/-- The device before PWROK rises: every register at its reset value (none is listed, so each reads `dflt`), every
table empty, nothing waiting (R541, R547). -/
def State.reset : State where
  regs := []
  now := 0
  fresh := 0
  out := []
  pending := []
  disabled := []
  due := []
  flt := ⟨[], [], [], []⟩
  host := ⟨[], [], [], []⟩
  pyx := ⟨[], 0, 0, 0, none, []⟩
  halt := none
  cause := 0
  pg := { pages := [], mem := [], poison := [], ctrs := [], nodes := [], badNodes := [], own := [], areas := [], chCap := [], promoQ := [], demoQ := [], forcedQ := [], moves := [], epochs := 0, cold := false, coldDue := false, hist := [], histNew := [], opPages := [], resHold := [], buckets := [], newTier := [] }
  coh := { held := [], sf := [], trk := [], reqs := [], evs := [], wbData := [], wbOut := [], dat := [], starv := [], holdQ := [], ptr := [], dir := [], bi := [], biWait := [], biLate := [], swept := [], lc := [], tick := 0, mdc := [], nodes := [], pred := [], spec := [], twins := [], parked := [], quotaQ := [], suspects := [], missAt := [], rebuild := [] }
  sec := { unver := [], rebased := [], alarms := [], haltRec := none, rekeyed := [], resumed := [], keysA := [], keysB := [], treeKey := none, drbg := none, tctr := [], tmac := [], tcache := [], sessions := [] }
  ecc := { inj := [], nextInj := 0, plog := [], pcount := 0, hits := [], scrubAt := [], scrubFrom := [], bad := [] }
  cdc := { store := [], built := none, refMedia := [], cache := [] }
  xlt := ⟨[], []⟩
  mem := ⟨[], [], [], [], (0, 6), none⟩
  job := { jobs := [], queue := [], nextJob := 0, units := [], sessions := [], sessSeq := 0, dicts := [] }
  cvn := ⟨[]⟩
  slt := {}
  pwr := {}
  boot := {}
  acc := { nonce := none, dbgUntil := 0, dbgKey := [], tapErr := false, tapReset := false, tapInstr := 1, tapMem := none }

end Sys2Proof.Machine
end

