-- ==== Sys2Proof/Machine/Regs.lean ====
section
/-!
DEFINITION. Where each register field lies (BAR4 or BAR2 offset, bits), its access code (R18), its reset value and
its legal encodings (R19), from the register tables of spec/ and the built-in defaults of R576.
-/
namespace Sys2Proof.Machine

/-- The severity that the source tables state, by index 16 × block code + sub-unit and FCLASS (R444, R576): none where
the source never sends that FCLASS. Tables R81, R139, R142, R176, R198, R231, R266, R312, R334, R358, R380, R422, R438,
R459, R482, R507, R518, R533, R558. HPT sub-unit 7 is Note for a head and Corrected for lane 7 of a PHY; the table has
one entry for both and this model takes the head's (PRESUMED, log 12). -/
def sevRow : Nat → Option Nat × Option Nat × Option Nat
  | 16 => (some 1, none, none)
  | 17 => (some 1, some 2, none)
  | 18 => (some 1, some 2, none)
  | 19 => (some 1, none, none)
  | 20 => (some 1, none, none)
  | 21 => (some 1, some 2, none)
  | 22 => (some 1, some 2, none)
  | 23 => (some 0, none, none)
  | 24 => (some 1, none, none)
  | 25 => (some 1, none, none)
  | 26 => (some 1, none, none)
  | 27 => (some 1, none, none)
  | 28 => (some 1, none, none)
  | 29 => (some 1, none, none)
  | 30 => (some 1, none, none)
  | 31 => (some 1, none, none)
  | 32 => (some 1, none, none)
  | 33 => (some 1, none, none)
  | 34 => (none, some 2, none)
  | 35 => (none, some 2, none)
  | 36 => (none, some 2, none)
  | 37 => (none, some 2, none)
  | 38 => (some 1, none, none)
  | 39 => (none, some 2, none)
  | 40 => (none, some 2, none)
  | 48 => (none, none, some 3)
  | 49 => (some 1, some 2, none)
  | 50 => (some 1, none, none)
  | 51 => (some 1, none, none)
  | 52 => (some 1, none, none)
  | 53 => (none, some 2, none)
  | 54 => (none, none, some 3)
  | 56 => (none, some 2, none)
  | 57 => (some 1, none, none)
  | 58 => (none, some 2, none)
  | 59 => (some 0, none, none)
  | 60 => (none, some 2, none)
  | 61 => (none, some 2, none)
  | 62 => (some 0, none, none)
  | 64 => (none, some 2, none)
  | 65 => (none, some 2, none)
  | 66 => (none, some 2, none)
  | 67 => (none, some 2, none)
  | 68 => (none, some 2, none)
  | 69 => (none, some 2, none)
  | 70 => (none, some 2, none)
  | 71 => (some 1, none, none)
  | 72 => (some 0, none, none)
  | 73 => (none, some 2, none)
  | 74 => (none, some 2, none)
  | 80 => (some 1, some 2, none)
  | 81 => (some 1, none, none)
  | 82 => (some 1, none, none)
  | 83 => (some 1, some 2, none)
  | 84 => (some 1, none, none)
  | 85 => (some 1, none, none)
  | 86 => (some 1, some 2, none)
  | 87 => (some 0, none, none)
  | 96 => (none, none, some 3)
  | 97 => (none, some 2, none)
  | 98 => (some 1, none, none)
  | 99 => (none, some 2, none)
  | 100 => (none, some 2, none)
  | 101 => (some 1, none, none)
  | 102 => (some 1, none, none)
  | 103 => (none, some 2, none)
  | 104 => (some 0, some 2, none)
  | 105 => (none, some 2, none)
  | 112 => (some 1, none, none)
  | 113 => (some 1, none, none)
  | 114 => (some 1, none, none)
  | 115 => (some 1, none, none)
  | 116 => (some 1, none, none)
  | 128 => (none, none, some 3)
  | 129 => (some 1, none, none)
  | 130 => (some 1, none, none)
  | 131 => (none, some 2, none)
  | 132 => (some 0, none, none)
  | 133 => (some 1, some 2, none)
  | 134 => (some 0, none, none)
  | 144 => (some 0, none, none)
  | 145 => (none, some 2, none)
  | 146 => (some 1, none, none)
  | 147 => (none, some 2, none)
  | 160 => (none, some 2, none)
  | 161 => (none, some 2, none)
  | 163 => (none, some 2, none)
  | 164 => (none, none, some 3)
  | 176 => (none, some 2, some 3)
  | 177 => (some 1, some 2, none)
  | 178 => (some 1, some 2, none)
  | 179 => (none, some 2, none)
  | 180 => (none, some 2, none)
  | 181 => (none, some 2, none)
  | 182 => (none, some 2, none)
  | 183 => (some 0, none, none)
  | 192 => (none, some 2, some 3)
  | 193 => (none, none, some 3)
  | 194 => (some 1, some 2, some 3)
  | 195 => (none, some 2, some 3)
  | 196 => (none, none, some 3)
  | 197 => (none, none, some 3)
  | 198 => (none, none, some 3)
  | 199 => (none, none, some 3)
  | 208 => (some 0, none, none)
  | 209 => (some 0, none, none)
  | 210 => (none, none, some 3)
  | 211 => (none, some 2, none)
  | 212 => (some 1, none, none)
  | 224 => (some 1, none, none)
  | 232 => (some 1, none, none)
  | 233 => (none, some 2, none)
  | 234 => (some 0, none, none)
  | 240 => (none, some 2, some 3)
  | 241 => (some 1, some 2, none)
  | 242 => (some 1, none, none)
  | 256 => (some 0, none, none)
  | 257 => (none, some 2, none)
  | 258 => (none, some 2, none)
  | 259 => (some 0, none, none)
  | 260 => (none, some 2, none)
  | 261 => (some 0, none, none)
  | 272 => (some 0, none, none)
  | 273 => (some 0, none, none)
  | 274 => (some 1, none, none)
  | 275 => (some 1, none, none)
  | 288 => (some 1, none, none)
  | 289 => (some 1, none, none)
  | 290 => (none, some 2, none)
  | 291 => (none, some 2, none)
  | 292 => (none, some 2, none)
  | 293 => (none, some 2, none)
  | 294 => (some 0, none, none)
  | 296 => (none, some 2, some 3)
  | 297 => (some 0, none, none)
  | 304 => (some 1, none, none)
  | 305 => (some 1, none, none)
  | _ => (none, none, none)

/-- One severity of `sevRow`, by FCLASS 1, 2 or 3. -/
def sevDefault (idx fclass : Nat) : Option Nat :=
  match fclass with
  | 1 => (sevRow idx).1
  | 2 => (sevRow idx).2.1
  | 3 => (sevRow idx).2.2
  | _ => none

/-- Rights word with the same three bits (R, W, X) in every class of a list (R521, R576). -/
def rights (bits : Nat) : List Nat → Nat
  | [] => 0
  | k :: ks => (bits <<< (3 * k)) ||| rights bits ks

/-- Default of `ACC_TBL` for target t and master m (R526): All means RC0–RC13. -/
def accDefault (t m : Nat) : Nat :=
  let all := rights 3 (List.range 14)
  let allX := rights 7 (List.range 14)
  let mem := t < 16
  let blk := 16 ≤ t ∧ t < 34
  if m < 8 then (if mem then rights 3 (List.range 13 ++ [15]) else if blk then all else 0)
  else if 0x0A ≤ m ∧ m ≤ 0x0D then (if mem then rights 3 (List.range 13 ++ [15]) else 0)
  else if m = 0x0F then (if mem ∨ blk then all else if t = 34 then 0 else rights 1 (List.range 14))
  else if m = 0x11 then (if mem then rights 3 (List.range 14 ++ [15]) else 0)
  else if m = 0x12 then (if mem ∨ blk ∨ t = 35 then all else if t = 34 then 3 else rights 5 (List.range 14))
  else if 0x13 ≤ m ∧ m ≤ 0x42 then (if mem then allX ||| (7 <<< 45) else if t = 34 then 3 else all)
  else 0

/-- The value a field holds while nothing has written it: the Reset column, and for a field whose Reset reads cfg the
built-in default of R576. The maps of R340, the points of `MEM_FP` and BASE of `COH_DIR_CFG` are written at boot. -/
def dflt (r : Reg) (i j : Nat) : Nat :=
  match r with
  | .HPT_CANARY_CANARY => 1314392416
  | .HPT_DEV_STS_STATUS => 1
  | .HPT_DEV_STS_HEAD => i
  | .HPT_TAG_CTL_MAXTAG => 64
  | .HPT_PORT_CFG_MAXRATE => 6
  | .HPT_RING_CFG_SQLOG2 => 4
  | .HPT_RING_CFG_CQLOG2 => 4
  | .HPT_RING_STS_PHASE => 1
  | .COH_DIR_CFG_SETLOG2 => 16
  | .COH_DIR_CFG_EN => 1
  | .COH_BI_CFG_BI_TMO => 2000
  | .COH_BI_CFG_BI_MAX => 64
  | .COH_SPEC_CTL_SPEC_EN => 1
  | .COH_SPEC_CTL_T_FURN => 1
  | .COH_SPEC_CTL_T_LEHR => 1
  | .COH_SPEC_CTL_T_CULL => 1
  | .COH_SPEC_CTL_MAXOUT => 16
  | .COH_SPEC_CTL_PREF_EN => 1
  | .COH_TWIN_CFG_TWIN_TMO => 32
  | .CDC_CTL_VERIFY => 1
  | .CDC_TRAIN_CTL_SAMPLES => 2048
  | .XLT_TIER_CTL_EPOCH_MS => 64
  | .XLT_TIER_CTL_COLD_EPOCHS => 4096
  | .XLT_TIER_CTL_INC => 1
  | .XLT_TIER_CTL_WINC => 2
  | .XLT_BUDGET_BUDGET => 5
  | .XLT_BUDGET_RED_BUDGET => 15
  | .XLT_BUDGET_EVAC => 10
  | .XLT_BUDGET_AMBER_PCT => 10
  | .XLT_BUDGET_RED_PCT => 3
  | .XLT_OBJ_FLOOR => 3
  | .XLT_OBJ_CEIL => 1
  | .XLT_OBJ_PROMO => 8
  | .XLT_OBJ_AGE => 2
  | .XLT_OBJ_CODE => 1
  | .XLT_ACCT_VALUE => if i = 256 ∧ j = 0 then 1048576 else 0
  | .SEC_CTX_KS_KS => 1
  | .SEC_CTL_RKEY => 4
  | .SEC_CTL_EXHAUST_KS => 31
  | .ECC_SCRUB_CFG_PERIOD_H => 24
  | .ECC_SCRUB_CFG_EN => 65535
  | .ECC_MARK_CFG_MARK_THR => 4
  | .ECC_MARK_CFG_MARK_WIN => 10
  | .MEM_FRZ_CTL_FRZ_WIN => 32
  | .MEM_FRZ_CTL_STORM_THR => 4
  | .MEM_REF_CTL_HOT_C => 85
  | .MEM_REF_CTL_CRIT_C => 95
  | .MEM_REF_CTL_MAXPOST => 4
  | .MEM_TRN_CTL_RETRAIN_S => 900
  | .MEM_TRN_CTL_DRIFT_PS => 20
  | .MEM_GLB_GRAIN => 3
  | .MEM_GLB_FCHG => 31
  | .JOB_CTL_UNIT_EN => 15
  | .CVN_PORT_CFG_MAXRATE => 1
  | .CVN_PORT_CFG_LOCK_TMO => 3
  | .CVN_PORT_CFG_HOLD_MS => 2
  | .CVN_PORT_CFG_LOST_S => 10
  | .CVN_PORT_CFG_REPLAY_MAX => 8
  | .CVN_LINK_STS_FAILED_LANE => 15
  | .TLG_CFG_CAP => 80
  | .TLG_STS_F => 1024
  | .TLG_HQ_QUOTA => 1023
  | .TLG_SQ_QUOTA => 1023
  | .FLT_CTL_GRACE_US => 2000
  | .FLT_CTL_PINSEV => 2
  | .FLT_CTL_ALERTSEV => 1
  | .FLT_SEQ_NEXT => 1
  | .FLT_SEV_SEV_C => (sevDefault i 1).getD 0
  | .FLT_SEV_V_C => if (sevDefault i 1).isSome then 1 else 0
  | .FLT_SEV_SEV_U => (sevDefault i 2).getD 0
  | .FLT_SEV_V_U => if (sevDefault i 2).isSome then 1 else 0
  | .FLT_SEV_SEV_F => (sevDefault i 3).getD 0
  | .FLT_SEV_V_F => if (sevDefault i 3).isSome then 1 else 0
  | .SLT_SG_LIM_ILIM => 64
  | .SLT_SG_LIM_FT => 100
  | .SLT_SG_LIM_RAMP => 4
  | .SLT_SG_LIM_RETRY_T => 10
  | .SLT_SG_LIM_RETRY_MAX => 3
  | .SLT_SG_LIM_TLIM => 150
  | .SLT_SG_MODEL_R1 => 150
  | .SLT_SG_MODEL_TAU1 => 50
  | .SLT_SG_MODEL_R2 => 400
  | .SLT_SG_MODEL_TAU2 => 400
  | .SLT_SG_MODEL_RSH => 5000
  | .SLT_CFG_TAMB_DEF => 70
  | .SLT_CFG_BTN_EN => 1
  | .PWR_CTL_AUTO_PS1 => 1
  | .PWR_CTL_IDLE_US => 10
  | .PWR_CTL_DROWSE_MS => 100
  | .PWR_CTL_WAIT_S => 10
  | .PWR_WAKE_CFG_EN => 31
  | .THM_LIMITS_WARN_C => 125
  | .THM_LIMITS_THROT_C => 140
  | .THM_LIMITS_STEP_MS => 10
  | .THM_DIODE_NODE => Config.diodeNode i
  | .THM_DIODE_HEALTHY => 1
  | .ACC_TBL_RC => accDefault i j
  | .GLB_ID_VENDOR => 7980
  | .GLB_ID_DEVICE => 2400
  | .GLB_ID_REV => 1
  | .GLB_DEVID_ID => Config.deviceId
  | .PWR_AVS_VTARGET => Config.vTarget
  | _ => 0

/-- Encodings that the field's table does not mark reserved (R19). CRIT_C of `MEM_REF_CTL` also needs HOT_C + 5 and is
checked where it is written. -/
def legal (r : Reg) (v : Nat) : Bool :=
  match r with
  | .HPT_TAG_CTL_MAXTAG => decide (1 ≤ v ∧ v ≤ 256)
  | .HPT_PORT_CFG_MAXRATE => decide (v ≤ 6)
  | .HPT_RING_CFG_SQLOG2 => decide (4 ≤ v ∧ v ≤ 16)
  | .HPT_RING_CFG_CQLOG2 => decide (4 ≤ v ∧ v ≤ 16)
  | .HPT_RING_CFG_PRIV => decide (v ≤ 2)
  | .COH_DIR_CFG_BASE => decide (v % 4 = 0)
  | .COH_DIR_CFG_SETLOG2 => decide (8 ≤ v ∧ v ≤ 24)
  | .COH_BI_CFG_BI_TMO => decide (100 ≤ v)
  | .COH_BI_CFG_BI_MAX => decide (1 ≤ v ∧ v ≤ 64)
  | .COH_SPEC_CTL_MAXOUT => decide (1 ≤ v ∧ v ≤ 32)
  | .COH_TWIN_CFG_TWIN_TMO => decide (8 ≤ v ∧ v ≤ 1000)
  | .CDC_POL_LEHR_MODE => decide (v = 0 ∨ (3 ≤ v ∧ v ≤ 6))
  | .CDC_POL_CULL_MODE => decide (v = 0 ∨ 3 ≤ v)
  | .CDC_TRAIN_CTL_SAMPLES => decide (64 ≤ v ∧ v ≤ 2048)
  | .XLT_TIER_CTL_EPOCH_MS => decide (8 ≤ v ∧ v ≤ 1024)
  | .XLT_TIER_CTL_COLD_EPOCHS => decide (64 ≤ v ∧ v ≤ 65536)
  | .XLT_BUDGET_BUDGET => decide (1 ≤ v ∧ v ≤ 25)
  | .XLT_BUDGET_RED_BUDGET => decide (1 ≤ v ∧ v ≤ 40)
  | .XLT_BUDGET_EVAC => decide (1 ≤ v ∧ v ≤ 40)
  | .XLT_BUDGET_AMBER_PCT => decide (2 ≤ v ∧ v ≤ 30)
  | .XLT_BUDGET_RED_PCT => decide (1 ≤ v ∧ v ≤ 20)
  | .XLT_OBJ_FLOOR => decide (1 ≤ v ∧ v ≤ 3)
  | .XLT_OBJ_CEIL => decide (1 ≤ v ∧ v ≤ 3)
  | .XLT_OBJ_AGE => decide (1 ≤ v ∧ v ≤ 4)
  | .XLT_OBJ_TWIN => decide (v ≤ 2)
  | .SEC_CTL_RKEY => decide (1 ≤ v ∧ v ≤ 25)
  | .ECC_SCRUB_CFG_PERIOD_H => decide (1 ≤ v ∧ v ≤ 168)
  | .ECC_MARK_CFG_MARK_THR => decide (1 ≤ v)
  | .ECC_MARK_CFG_MARK_WIN => decide (1 ≤ v)
  | .MEM_FRZ_CTL_FRZ_WIN => decide (8 ≤ v ∧ v ≤ 32)
  | .MEM_FRZ_CTL_STORM_THR => decide (1 ≤ v)
  | .MEM_MAP0_SEL => decide (v ≤ 33 ∨ v = 63)
  | .MEM_MAP1_SEL => decide (v ≤ 33 ∨ v = 63)
  | .MEM_MAP2_SEL => decide (v ≤ 33 ∨ v = 63)
  | .MEM_MAP3_SEL => decide (v ≤ 33 ∨ v = 63)
  | .MEM_MAPX_XSEL => decide (v ≤ 33 ∨ v = 63)
  | .MEM_REF_CTL_HOT_C => decide (70 ≤ v ∧ v ≤ 95)
  | .MEM_REF_CTL_CRIT_C => decide (v ≤ 110)
  | .MEM_REF_CTL_MAXPOST => decide (v ≤ 4)
  | .MEM_TRN_CTL_RETRAIN_S => decide (10 ≤ v)
  | .MEM_TRN_CTL_DRIFT_PS => decide (5 ≤ v)
  | .CVN_PORT_CFG_HOLD_MS => decide (v ≤ 100)
  | .CVN_PORT_CFG_LOST_S => decide (1 ≤ v ∧ v ≤ 60)
  | .CVN_PORT_CFG_REPLAY_MAX => decide (2 ≤ v)
  | .CVN_PORT_CFG_LEND_PCT => decide (v ≤ 50)
  | .TLG_CFG_CAP => decide (50 ≤ v ∧ v ≤ 90)
  | .FLT_CTL_GRACE_US => decide (64 ≤ v ∧ v ≤ 1000000)
  | .SLT_SG_LIM_ILIM => decide (4 ≤ v ∧ v ≤ 128)
  | .SLT_SG_LIM_FT => decide (5 ≤ v ∧ v ≤ 1000)
  | .SLT_SG_LIM_RAMP => decide (1 ≤ v ∧ v ≤ 24)
  | .SLT_SG_LIM_RETRY_T => decide (1 ≤ v ∧ v ≤ 100)
  | .SLT_SG_LIM_TLIM => decide (100 ≤ v ∧ v ≤ 175)
  | .SLT_SG_MODEL_R1 => decide (1 ≤ v)
  | .SLT_SG_MODEL_TAU1 => decide (1 ≤ v)
  | .SLT_SG_MODEL_R2 => decide (1 ≤ v)
  | .SLT_SG_MODEL_TAU2 => decide (1 ≤ v)
  | .SLT_SG_MODEL_RSH => decide (1000 ≤ v ∧ v ≤ 20000)
  | .SLT_CFG_TAMB_DEF => decide (v ≤ 125)
  | .PWR_CTL_IDLE_US => decide (1 ≤ v)
  | .PWR_CTL_DROWSE_MS => decide (1 ≤ v)
  | .PWR_CTL_WAIT_S => decide (1 ≤ v ∧ v ≤ 60)
  | .THM_LIMITS_STEP_MS => decide (1 ≤ v ∧ v ≤ 100)
  | _ => true

/-- The registers of spec/02_host_ports.md. -/
def regTable02 : List RegRow := [
  ⟨true, 0x0, 0x0, 8, 0x0, 1,
    [⟨.HPT_CANARY_CANARY, 0, 32, 1, 0, .ro, false⟩]⟩,
  ⟨true, 0x8, 0x0, 8, 0x0, 1,
    [⟨.HPT_DEV_STS_STATUS, 0, 16, 1, 0, .ro, false⟩, ⟨.HPT_DEV_STS_HEAD, 16, 3, 1, 0, .ro, false⟩, ⟨.HPT_DEV_STS_STEWARD, 19, 1, 1, 0, .ro, false⟩]⟩,
  ⟨false, 0xf00100, 0x10000, 8, 0x20, 16,
    [⟨.HPT_BIND_BASE_BASE, 21, 27, 1, 0, .rw, true⟩]⟩,
  ⟨false, 0xf00108, 0x10000, 8, 0x20, 16,
    [⟨.HPT_BIND_SIZE_SIZE, 21, 27, 1, 0, .rw, true⟩]⟩,
  ⟨false, 0xf00110, 0x10000, 8, 0x20, 16,
    [⟨.HPT_BIND_TA_TABASE, 21, 27, 1, 0, .rw, true⟩]⟩,
  ⟨false, 0xf00118, 0x10000, 8, 0x20, 16,
    [⟨.HPT_BIND_CTL_EN, 0, 1, 1, 0, .rw, true⟩, ⟨.HPT_BIND_CTL_KIND, 1, 1, 1, 0, .rw, true⟩, ⟨.HPT_BIND_CTL_TC, 2, 8, 1, 0, .rw, true⟩, ⟨.HPT_BIND_CTL_ERR, 10, 1, 1, 0, .ro, false⟩, ⟨.HPT_BIND_CTL_DC, 11, 1, 1, 0, .rw, true⟩, ⟨.HPT_BIND_CTL_DCREG, 12, 3, 1, 0, .rw, true⟩]⟩,
  ⟨false, 0xf00008, 0x10000, 8, 0x0, 1,
    [⟨.HPT_TAG_CTL_MAXTAG, 0, 9, 1, 0, .rw, false⟩, ⟨.HPT_TAG_CTL_INUSE, 9, 14, 1, 0, .ro, false⟩, ⟨.HPT_TAG_CTL_QUAR, 23, 14, 1, 0, .ro, false⟩]⟩,
  ⟨false, 0xf00010, 0x10000, 8, 0x0, 1,
    [⟨.HPT_LATE_CPL_COUNT, 0, 32, 1, 0, .ro, false⟩, ⟨.HPT_LATE_CPL_CLR, 63, 1, 1, 0, .wo, false⟩]⟩,
  ⟨false, 0xf00018, 0x10000, 8, 0x0, 1,
    [⟨.HPT_CPL_TMO_COUNT, 0, 32, 1, 0, .ro, false⟩, ⟨.HPT_CPL_TMO_CLR, 63, 1, 1, 0, .wo, false⟩]⟩,
  ⟨false, 0xf00000, 0x10000, 8, 0x0, 1,
    [⟨.HPT_HEAD_STS_LINK_UP, 0, 1, 1, 0, .ro, false⟩, ⟨.HPT_HEAD_STS_RATE, 1, 3, 1, 0, .ro, false⟩, ⟨.HPT_HEAD_STS_WIDTH, 4, 5, 1, 0, .ro, false⟩, ⟨.HPT_HEAD_STS_FLIT, 9, 2, 1, 0, .ro, false⟩, ⟨.HPT_HEAD_STS_BI_EN, 11, 1, 1, 0, .ro, false⟩, ⟨.HPT_HEAD_STS_IDE, 12, 2, 1, 0, .ro, false⟩, ⟨.HPT_HEAD_STS_BME, 14, 1, 1, 0, .ro, false⟩, ⟨.HPT_HEAD_STS_DEPARTING, 15, 1, 1, 0, .ro, false⟩, ⟨.HPT_HEAD_STS_DEP_CNT, 16, 16, 1, 0, .ro, false⟩]⟩,
  ⟨false, 0xf80000, 0x1000, 4, 0x0, 1,
    [⟨.HPT_PORT_CFG_MODE, 0, 1, 1, 0, .rwl, true⟩, ⟨.HPT_PORT_CFG_MAXRATE, 1, 3, 1, 0, .rwl, true⟩, ⟨.HPT_PORT_CFG_SRIS, 4, 1, 1, 0, .rwl, true⟩]⟩,
  ⟨false, 0xff0000, 0x0, 1, 0x0, 1,
    [⟨.HPT_LOCK_LOCK, 0, 1, 1, 0, .w1s, false⟩]⟩]

/-- The registers of spec/03_pyryx.md. -/
def regTable03 : List RegRow := [
  ⟨true, 0x80000, 0x0, 8, 0x1000, 64,
    [⟨.HPT_SQ_DB_TAIL, 0, 16, 1, 0, .wo, false⟩]⟩,
  ⟨true, 0x80008, 0x0, 8, 0x1000, 64,
    [⟨.HPT_CQ_DB_HEAD, 0, 16, 1, 0, .wo, false⟩]⟩,
  ⟨true, 0x80100, 0x0, 8, 0x1000, 64,
    [⟨.HPT_SQ_BASE_ADDR, 12, 52, 1, 0, .rw, false⟩]⟩,
  ⟨true, 0x80108, 0x0, 8, 0x1000, 64,
    [⟨.HPT_CQ_BASE_ADDR, 12, 52, 1, 0, .rw, false⟩]⟩,
  ⟨true, 0x80110, 0x0, 8, 0x1000, 64,
    [⟨.HPT_RING_CFG_SQLOG2, 0, 5, 1, 0, .rw, false⟩, ⟨.HPT_RING_CFG_CQLOG2, 5, 5, 1, 0, .rw, false⟩, ⟨.HPT_RING_CFG_PRIV, 10, 2, 1, 0, .rw, false⟩, ⟨.HPT_RING_CFG_IRQ_EN, 12, 1, 1, 0, .rw, false⟩, ⟨.HPT_RING_CFG_COAL_CNT, 13, 8, 1, 0, .rw, false⟩, ⟨.HPT_RING_CFG_COAL_US, 21, 12, 1, 0, .rw, false⟩]⟩,
  ⟨true, 0x80118, 0x0, 8, 0x1000, 64,
    [⟨.HPT_RING_CTL_EN, 0, 1, 1, 0, .rw, false⟩, ⟨.HPT_RING_CTL_ABORT, 1, 1, 1, 0, .w1s, false⟩]⟩,
  ⟨true, 0x80120, 0x0, 8, 0x1000, 64,
    [⟨.HPT_RING_STS_STATE, 0, 2, 1, 0, .ro, false⟩, ⟨.HPT_RING_STS_SQHEAD, 2, 16, 1, 0, .ro, false⟩, ⟨.HPT_RING_STS_CQTAIL, 18, 16, 1, 0, .ro, false⟩, ⟨.HPT_RING_STS_PHASE, 34, 1, 1, 0, .ro, false⟩, ⟨.HPT_RING_STS_STOPST, 35, 16, 1, 0, .ro, false⟩]⟩,
  ⟨true, 0xc0000, 0x0, 8, 0x0, 1,
    [⟨.HPT_PYX_OPDONE_DONE, 0, 64, 1, 0, .w1c, false⟩]⟩]

/-- The registers of spec/04_translation.md. -/
def regTable04 : List RegRow := [
  ⟨false, 0x600000, 0x10, 256, 0x0, 1,
    [⟨.XLT_CTX_CFG_EN, 0, 1, 1, 0, .ro, false⟩, ⟨.XLT_CTX_CFG_ROOTV, 1, 1, 1, 0, .ro, false⟩, ⟨.XLT_CTX_CFG_ROOT, 2, 33, 1, 0, .ro, false⟩]⟩,
  ⟨false, 0x600008, 0x10, 256, 0x0, 1,
    [⟨.XLT_CTX_MASK_CLMASK, 0, 16, 1, 0, .ro, false⟩, ⟨.XLT_CTX_MASK_OBMASK, 16, 8, 1, 0, .ro, false⟩, ⟨.XLT_CTX_MASK_DEFCL, 24, 4, 1, 0, .ro, false⟩, ⟨.XLT_CTX_MASK_DEFOB, 28, 3, 1, 0, .ro, false⟩]⟩,
  ⟨false, 0x602000, 0x40, 256, 0x10, 4,
    [⟨.XLT_WIN_BASE_LPN, 0, 33, 1, 0, .ro, false⟩]⟩,
  ⟨false, 0x602008, 0x40, 256, 0x10, 4,
    [⟨.XLT_WIN_LIMIT_LPN, 0, 33, 1, 0, .ro, false⟩]⟩,
  ⟨false, 0x601000, 0x0, 1, 0x0, 1,
    [⟨.XLT_S2_ROOT_A_MA, 0, 36, 1, 0, .ro, false⟩]⟩,
  ⟨false, 0x601008, 0x0, 1, 0x0, 1,
    [⟨.XLT_S2_ROOT_B_MA, 0, 36, 1, 0, .ro, false⟩]⟩,
  ⟨false, 0x601010, 0x0, 1, 0x0, 1,
    [⟨.XLT_FLUSH_STS_ACTIVE, 0, 5, 1, 0, .ro, false⟩, ⟨.XLT_FLUSH_STS_MAX_NS, 16, 16, 1, 0, .ro, false⟩, ⟨.XLT_FLUSH_STS_HUNG, 32, 16, 1, 0, .ro, false⟩]⟩,
  ⟨false, 0x601018, 0x0, 1, 0x0, 1,
    [⟨.XLT_SUBST_CNT_COUNT, 0, 32, 1, 0, .ro, false⟩, ⟨.XLT_SUBST_CNT_CLR, 63, 1, 1, 0, .wo, false⟩]⟩]

/-- The registers of spec/05_coherence.md. -/
def regTable05 : List RegRow := [
  ⟨false, 0x700000, 0x1000, 16, 0x0, 1,
    [⟨.COH_HOME_STS_TRK_USED, 0, 9, 1, 0, .ro, false⟩, ⟨.COH_HOME_STS_STARVQ, 9, 5, 1, 0, .ro, false⟩, ⟨.COH_HOME_STS_HOLDQ, 14, 7, 1, 0, .ro, false⟩, ⟨.COH_HOME_STS_LOCKED, 21, 1, 1, 0, .ro, false⟩]⟩,
  ⟨false, 0x700008, 0x1000, 16, 0x0, 1,
    [⟨.COH_HOME_CNT_NACKS, 0, 24, 1, 0, .ro, false⟩, ⟨.COH_HOME_CNT_STARVED, 24, 16, 1, 0, .ro, false⟩, ⟨.COH_HOME_CNT_SF_RECALL, 40, 16, 1, 0, .ro, false⟩, ⟨.COH_HOME_CNT_CLR, 63, 1, 1, 0, .wo, false⟩]⟩,
  ⟨false, 0x700010, 0x1000, 16, 0x0, 1,
    [⟨.COH_DIR_CFG_BASE, 0, 36, 1, 0, .rwl, true⟩, ⟨.COH_DIR_CFG_SETLOG2, 36, 5, 1, 0, .rwl, true⟩, ⟨.COH_DIR_CFG_EN, 41, 1, 1, 0, .rwl, true⟩]⟩,
  ⟨false, 0x710000, 0x0, 1, 0x0, 1,
    [⟨.COH_BI_CFG_BI_TMO, 0, 16, 1, 0, .rwl, false⟩, ⟨.COH_BI_CFG_BI_MAX, 16, 7, 1, 0, .rwl, false⟩]⟩,
  ⟨false, 0x710100, 0x8, 8, 0x0, 1,
    [⟨.COH_EPOCH_EPOCH, 0, 16, 1, 0, .ro, false⟩, ⟨.COH_EPOCH_SWEEP_WAIT, 16, 1, 1, 0, .ro, false⟩]⟩,
  ⟨false, 0x710200, 0x8, 8, 0x0, 1,
    [⟨.COH_BI_CNT_TIMEOUTS, 0, 16, 1, 0, .ro, false⟩, ⟨.COH_BI_CNT_LATE_BIRSP, 16, 16, 1, 0, .ro, false⟩, ⟨.COH_BI_CNT_DIR_RECALLS, 32, 16, 1, 0, .ro, false⟩, ⟨.COH_BI_CNT_CLR, 63, 1, 1, 0, .wo, false⟩]⟩,
  ⟨false, 0x7f0000, 0x0, 1, 0x0, 1,
    [⟨.COH_LOCK_LOCK, 0, 1, 1, 0, .w1s, false⟩]⟩]

/-- The registers of spec/06_access_paths.md. -/
def regTable06 : List RegRow := [
  ⟨false, 0x700400, 0x1000, 16, 0x0, 1,
    [⟨.COH_SPEC_CTL_SPEC_EN, 0, 1, 1, 0, .rwl, true⟩, ⟨.COH_SPEC_CTL_T_FURN, 1, 1, 1, 0, .rwl, true⟩, ⟨.COH_SPEC_CTL_T_LEHR, 2, 1, 1, 0, .rwl, true⟩, ⟨.COH_SPEC_CTL_T_CULL, 3, 1, 1, 0, .rwl, true⟩, ⟨.COH_SPEC_CTL_MAXOUT, 4, 6, 1, 0, .rwl, false⟩, ⟨.COH_SPEC_CTL_PREF_EN, 10, 1, 1, 0, .rwl, true⟩, ⟨.COH_SPEC_CTL_PFLUSH, 11, 1, 1, 0, .w1s, false⟩]⟩,
  ⟨false, 0x700408, 0x1000, 16, 0x0, 1,
    [⟨.COH_SPEC_STS_OUT, 0, 6, 1, 0, .ro, false⟩, ⟨.COH_SPEC_STS_PRED_VALID, 6, 15, 1, 0, .ro, false⟩, ⟨.COH_SPEC_STS_PROV, 21, 9, 1, 0, .ro, false⟩]⟩,
  ⟨false, 0x700410, 0x1000, 16, 0x0, 1,
    [⟨.COH_TWIN_CNT_DROPS, 0, 16, 1, 0, .ro, false⟩, ⟨.COH_TWIN_CNT_MAX_US, 16, 16, 1, 0, .ro, false⟩, ⟨.COH_TWIN_CNT_CLR, 63, 1, 1, 0, .wo, false⟩]⟩,
  ⟨false, 0x710300, 0x0, 1, 0x0, 1,
    [⟨.COH_TWIN_CFG_TWIN_TMO, 0, 16, 1, 0, .rwl, false⟩]⟩]

/-- The registers of spec/07_inline_compression.md. -/
def regTable07 : List RegRow := [
  ⟨false, 0x800000, 0x1000, 16, 0x0, 1,
    [⟨.CDC_SLICE_CNT_DEC_ERR, 0, 16, 1, 0, .ro, false⟩, ⟨.CDC_SLICE_CNT_FALLBACK, 16, 16, 1, 0, .ro, false⟩, ⟨.CDC_SLICE_CNT_VERIFY_FAIL, 32, 16, 1, 0, .ro, false⟩, ⟨.CDC_SLICE_CNT_GROW, 48, 15, 1, 0, .ro, false⟩, ⟨.CDC_SLICE_CNT_CLR, 63, 1, 1, 0, .wo, false⟩]⟩,
  ⟨false, 0x800008, 0x1000, 16, 0x0, 1,
    [⟨.CDC_SLICE_STS_FC_VALID, 0, 8, 1, 0, .ro, false⟩, ⟨.CDC_SLICE_STS_LOCKS, 8, 7, 1, 0, .ro, false⟩]⟩,
  ⟨false, 0x810000, 0x0, 1, 0x0, 1,
    [⟨.CDC_CTL_VERIFY, 0, 1, 1, 0, .rwl, false⟩, ⟨.CDC_CTL_XSCOPE, 1, 1, 1, 0, .rwl, true⟩]⟩,
  ⟨false, 0x810100, 0x8, 8, 0x0, 1,
    [⟨.CDC_POL_LEHR_MODE, 0, 3, 1, 0, .rw, true⟩, ⟨.CDC_POL_CULL_MODE, 3, 3, 1, 0, .rw, true⟩, ⟨.CDC_POL_CULL_FRIT, 6, 6, 1, 0, .rw, true⟩]⟩,
  ⟨false, 0x810200, 0x0, 1, 0x0, 1,
    [⟨.CDC_FSTORE_A_MA, 0, 36, 1, 0, .ro, false⟩]⟩,
  ⟨false, 0x810208, 0x0, 1, 0x0, 1,
    [⟨.CDC_FSTORE_B_MA, 0, 36, 1, 0, .ro, false⟩]⟩,
  ⟨false, 0x810300, 0x0, 1, 0x0, 1,
    [⟨.CDC_TRAIN_CTL_FRIT, 0, 6, 1, 0, .rw, false⟩, ⟨.CDC_TRAIN_CTL_SCOPE, 6, 8, 1, 0, .rw, false⟩, ⟨.CDC_TRAIN_CTL_ANY, 14, 1, 1, 0, .rw, false⟩, ⟨.CDC_TRAIN_CTL_START, 15, 1, 1, 0, .w1s, false⟩, ⟨.CDC_TRAIN_CTL_COMMIT, 16, 1, 1, 0, .w1s, false⟩, ⟨.CDC_TRAIN_CTL_DISCARD, 17, 1, 1, 0, .w1s, false⟩, ⟨.CDC_TRAIN_CTL_SAMPLES, 18, 12, 1, 0, .rw, false⟩]⟩,
  ⟨false, 0x810308, 0x0, 1, 0x0, 1,
    [⟨.CDC_TRAIN_STS_STATE, 0, 2, 1, 0, .ro, false⟩, ⟨.CDC_TRAIN_STS_SAMPLED, 2, 12, 1, 0, .ro, false⟩, ⟨.CDC_TRAIN_STS_RATIO_LZ, 14, 11, 1, 0, .ro, false⟩, ⟨.CDC_TRAIN_STS_RATIO_LZE, 25, 11, 1, 0, .ro, false⟩, ⟨.CDC_TRAIN_STS_REFUSED, 36, 1, 1, 0, .ro, false⟩]⟩,
  ⟨false, 0x811000, 0x20, 64, 0x0, 1,
    [⟨.CDC_FRIT_STS_CUR, 0, 1, 1, 0, .ro, false⟩, ⟨.CDC_FRIT_STS_VER0, 1, 8, 1, 0, .ro, false⟩, ⟨.CDC_FRIT_STS_VER1, 9, 8, 1, 0, .ro, false⟩, ⟨.CDC_FRIT_STS_SCOPED, 17, 1, 1, 0, .ro, false⟩, ⟨.CDC_FRIT_STS_SCOPE, 18, 8, 1, 0, .ro, false⟩, ⟨.CDC_FRIT_STS_REBUILD, 26, 1, 1, 0, .ro, false⟩]⟩,
  ⟨false, 0x811008, 0x20, 64, 0x0, 1,
    [⟨.CDC_FRIT_REF0_REF, 0, 40, 1, 0, .ro, false⟩]⟩,
  ⟨false, 0x811010, 0x20, 64, 0x0, 1,
    [⟨.CDC_FRIT_REF1_REF, 0, 40, 1, 0, .ro, false⟩]⟩,
  ⟨false, 0x8f0000, 0x0, 1, 0x0, 1,
    [⟨.CDC_LOCK_LOCK, 0, 1, 1, 0, .w1s, false⟩]⟩]

/-- The registers of spec/08_tiering.md. -/
def regTable08 : List RegRow := [
  ⟨false, 0x610000, 0x0, 1, 0x0, 1,
    [⟨.XLT_TIER_CTL_EPOCH_MS, 0, 11, 1, 0, .ro, true⟩, ⟨.XLT_TIER_CTL_COLD_EPOCHS, 11, 17, 1, 0, .ro, true⟩, ⟨.XLT_TIER_CTL_INC, 28, 3, 1, 0, .ro, true⟩, ⟨.XLT_TIER_CTL_WINC, 31, 3, 1, 0, .ro, true⟩, ⟨.XLT_TIER_CTL_COLD_LATE, 34, 16, 1, 0, .ro, false⟩]⟩,
  ⟨false, 0x610008, 0x0, 1, 0x0, 1,
    [⟨.XLT_BUDGET_BUDGET, 0, 5, 1, 0, .ro, true⟩, ⟨.XLT_BUDGET_RED_BUDGET, 5, 6, 1, 0, .ro, true⟩, ⟨.XLT_BUDGET_EVAC, 11, 6, 1, 0, .ro, true⟩, ⟨.XLT_BUDGET_AMBER_PCT, 17, 5, 1, 0, .ro, true⟩, ⟨.XLT_BUDGET_RED_PCT, 22, 5, 1, 0, .ro, true⟩]⟩,
  ⟨false, 0x610100, 0x8, 8, 0x0, 1,
    [⟨.XLT_OBJ_FLOOR, 0, 2, 1, 0, .ro, true⟩, ⟨.XLT_OBJ_CEIL, 2, 2, 1, 0, .ro, true⟩, ⟨.XLT_OBJ_PROMO, 4, 4, 1, 0, .ro, true⟩, ⟨.XLT_OBJ_AGE, 8, 3, 1, 0, .ro, true⟩, ⟨.XLT_OBJ_LEND, 11, 1, 1, 0, .ro, true⟩, ⟨.XLT_OBJ_TWIN, 12, 2, 1, 0, .ro, true⟩, ⟨.XLT_OBJ_CODE, 14, 1, 1, 0, .ro, true⟩]⟩,
  ⟨false, 0x610200, 0x0, 1, 0x0, 1,
    [⟨.XLT_PRESS_STS_LEVEL, 0, 2, 1, 0, .ro, false⟩, ⟨.XLT_PRESS_STS_SHORTFALL, 2, 1, 1, 0, .ro, false⟩, ⟨.XLT_PRESS_STS_EVAC_READY, 3, 16, 1, 0, .ro, false⟩, ⟨.XLT_PRESS_STS_EXHAUST_DROPS, 19, 32, 1, 0, .ro, false⟩, ⟨.XLT_PRESS_STS_CLR, 63, 1, 1, 0, .wo, false⟩]⟩,
  ⟨false, 0x610210, 0x8, 6, 0x0, 1,
    [⟨.XLT_CAP_COUNT, 0, 37, 1, 0, .ro, false⟩]⟩,
  ⟨false, 0x640000, 0x20, 258, 0x8, 4,
    [⟨.XLT_ACCT_VALUE, 0, 37, 1, 0, .ro, true⟩, ⟨.XLT_ACCT_TWL, 37, 1, 1, 0, .ro, true⟩]⟩,
  ⟨false, 0x620000, 0x1000, 16, 0x0, 1,
    [⟨.XLT_TIER_SLICE_PQ, 0, 9, 1, 0, .ro, false⟩, ⟨.XLT_TIER_SLICE_DQ, 9, 11, 1, 0, .ro, false⟩, ⟨.XLT_TIER_SLICE_FQ, 20, 9, 1, 0, .ro, false⟩, ⟨.XLT_TIER_SLICE_DROPS, 29, 16, 1, 0, .ro, false⟩, ⟨.XLT_TIER_SLICE_STALE, 45, 16, 1, 0, .ro, false⟩, ⟨.XLT_TIER_SLICE_CLR, 63, 1, 1, 0, .wo, false⟩]⟩]

/-- The registers of spec/09_encryption.md. -/
def regTable09 : List RegRow := [
  ⟨false, 0xa00000, 0x20, 32, 0x0, 1,
    [⟨.SEC_KS_STS_STATE, 0, 1, 1, 0, .ro, false⟩, ⟨.SEC_KS_STS_ORIGIN, 1, 1, 1, 0, .ro, false⟩, ⟨.SEC_KS_STS_GEN, 2, 16, 1, 0, .ro, false⟩, ⟨.SEC_KS_STS_REF, 18, 40, 1, 0, .ro, false⟩, ⟨.SEC_KS_STS_SWEEP, 58, 1, 1, 0, .ro, false⟩, ⟨.SEC_KS_STS_WORN, 59, 1, 1, 0, .ro, false⟩]⟩,
  ⟨false, 0xa00008, 0x20, 32, 0x0, 1,
    [⟨.SEC_KS_FLOOR_VALUE, 0, 64, 1, 0, .ro, false⟩]⟩,
  ⟨false, 0xa00010, 0x20, 32, 0x0, 1,
    [⟨.SEC_KS_HIGH_VALUE, 0, 64, 1, 0, .ro, false⟩]⟩,
  ⟨false, 0xa01000, 0x8, 256, 0x0, 1,
    [⟨.SEC_CTX_KS_KS, 0, 5, 1, 0, .rw, true⟩]⟩,
  ⟨false, 0xa02000, 0x10, 8, 0x0, 1,
    [⟨.SEC_ANS_BASE_LPN, 0, 33, 1, 0, .ro, false⟩, ⟨.SEC_ANS_BASE_EN, 63, 1, 1, 0, .ro, false⟩]⟩,
  ⟨false, 0xa02008, 0x10, 8, 0x0, 1,
    [⟨.SEC_ANS_LIMIT_LPN, 0, 33, 1, 0, .ro, false⟩, ⟨.SEC_ANS_LIMIT_EN, 63, 1, 1, 0, .ro, false⟩]⟩,
  ⟨false, 0xa03000, 0x20, 4, 0x0, 1,
    [⟨.SEC_SWEEP_CTL_OLD, 0, 5, 1, 0, .ro, false⟩, ⟨.SEC_SWEEP_CTL_NEW, 5, 5, 1, 0, .ro, false⟩, ⟨.SEC_SWEEP_CTL_STATE, 10, 2, 1, 0, .ro, false⟩, ⟨.SEC_SWEEP_CTL_BIND, 12, 1, 1, 0, .ro, false⟩, ⟨.SEC_SWEEP_CTL_ZOLD, 13, 1, 1, 0, .ro, false⟩, ⟨.SEC_SWEEP_CTL_TC, 14, 8, 1, 0, .ro, false⟩, ⟨.SEC_SWEEP_CTL_NOSPACE, 22, 1, 1, 0, .ro, false⟩]⟩,
  ⟨false, 0xa03008, 0x20, 4, 0x0, 1,
    [⟨.SEC_SWEEP_FIRST_LPN, 0, 33, 1, 0, .ro, false⟩]⟩,
  ⟨false, 0xa03010, 0x20, 4, 0x0, 1,
    [⟨.SEC_SWEEP_LIMIT_LPN, 0, 33, 1, 0, .ro, false⟩]⟩,
  ⟨false, 0xa03018, 0x20, 4, 0x0, 1,
    [⟨.SEC_SWEEP_WAY_LPN, 0, 33, 1, 0, .ro, false⟩]⟩,
  ⟨false, 0xa08000, 0x100, 16, 0x0, 1,
    [⟨.SEC_SLICE_CNT_SUSPECT, 0, 16, 1, 0, .ro, false⟩, ⟨.SEC_SLICE_CNT_ALARMS, 16, 16, 1, 0, .ro, false⟩, ⟨.SEC_SLICE_CNT_NOKEY, 32, 16, 1, 0, .ro, false⟩, ⟨.SEC_SLICE_CNT_CLR, 63, 1, 1, 0, .wo, false⟩]⟩,
  ⟨false, 0xa10000, 0x0, 1, 0x0, 1,
    [⟨.SEC_CTL_RKEY, 0, 5, 1, 0, .rwl, true⟩, ⟨.SEC_CTL_EXHAUST_KS, 5, 5, 1, 0, .rwl, true⟩]⟩,
  ⟨false, 0xa10008, 0x0, 1, 0x0, 1,
    [⟨.SEC_TREE_A_MA, 0, 36, 1, 0, .ro, false⟩]⟩,
  ⟨false, 0xa10010, 0x0, 1, 0x0, 1,
    [⟨.SEC_TREE_B_MA, 0, 36, 1, 0, .ro, false⟩]⟩,
  ⟨false, 0xa10018, 0x0, 1, 0x0, 1,
    [⟨.SEC_STS_UNVER, 0, 7, 1, 0, .ro, false⟩, ⟨.SEC_STS_UNVER_FULL, 7, 1, 1, 0, .ro, false⟩, ⟨.SEC_STS_ALARM_PEND, 8, 8, 1, 0, .ro, false⟩, ⟨.SEC_STS_ENTROPY_FAIL, 16, 1, 1, 0, .ro, false⟩, ⟨.SEC_STS_HALT_REC, 17, 1, 1, 0, .ro, false⟩]⟩,
  ⟨false, 0xaf0000, 0x0, 1, 0x0, 1,
    [⟨.SEC_LOCK_LOCK, 0, 1, 1, 0, .w1s, false⟩]⟩]

/-- The registers of spec/10_stored_data_protection.md. -/
def regTable10 : List RegRow := [
  ⟨false, 0xb00000, 0x1000, 16, 0x0, 1,
    [⟨.ECC_CH_CNT_CORR, 0, 24, 1, 0, .ro, false⟩, ⟨.ECC_CH_CNT_HEAVY, 24, 16, 1, 0, .ro, false⟩, ⟨.ECC_CH_CNT_UNCORR, 40, 16, 1, 0, .ro, false⟩, ⟨.ECC_CH_CNT_ADDR, 56, 7, 1, 0, .ro, false⟩, ⟨.ECC_CH_CNT_CLR, 63, 1, 1, 0, .wo, false⟩]⟩,
  ⟨false, 0xb00008, 0x1000, 16, 0x0, 1,
    [⟨.ECC_MARK_GROUP, 0, 4, 8, 5, .ro, false⟩, ⟨.ECC_MARK_V, 4, 1, 8, 5, .ro, false⟩]⟩,
  ⟨false, 0xb00010, 0x1000, 16, 0x0, 1,
    [⟨.ECC_SCRUB_STS_PCT, 0, 7, 1, 0, .ro, false⟩, ⟨.ECC_SCRUB_STS_PASSES, 7, 16, 1, 0, .ro, false⟩, ⟨.ECC_SCRUB_STS_BEHIND, 23, 1, 1, 0, .ro, false⟩, ⟨.ECC_SCRUB_STS_PAUSED, 24, 1, 1, 0, .ro, false⟩]⟩,
  ⟨false, 0xb00018, 0x1000, 16, 0x0, 1,
    [⟨.ECC_INJ_STS_ARMED, 0, 4, 1, 0, .ro, false⟩, ⟨.ECC_INJ_STS_FIRED, 4, 16, 1, 0, .ro, false⟩]⟩,
  ⟨false, 0xb00020, 0x1000, 16, 0x0, 1,
    [⟨.ECC_OWNER_BASE_MA, 0, 36, 1, 0, .ro, false⟩]⟩,
  ⟨false, 0xb10000, 0x0, 1, 0x0, 1,
    [⟨.ECC_SCRUB_CFG_PERIOD_H, 0, 8, 1, 0, .ro, true⟩, ⟨.ECC_SCRUB_CFG_EN, 8, 16, 1, 0, .ro, true⟩]⟩,
  ⟨false, 0xb10008, 0x0, 1, 0x0, 1,
    [⟨.ECC_MARK_CFG_MARK_THR, 0, 4, 1, 0, .rwl, false⟩, ⟨.ECC_MARK_CFG_MARK_WIN, 4, 10, 1, 0, .rwl, false⟩]⟩,
  ⟨false, 0xb10010, 0x0, 1, 0x0, 1,
    [⟨.ECC_CODE_CLASS_JOB, 0, 1, 1, 0, .ro, true⟩, ⟨.ECC_CODE_CLASS_SAMPLE, 1, 1, 1, 0, .ro, true⟩]⟩,
  ⟨false, 0xb10018, 0x0, 1, 0x0, 1,
    [⟨.ECC_SELFTEST_SLICE_FAIL, 0, 16, 1, 0, .ro, false⟩, ⟨.ECC_SELFTEST_CLUSTER_FAIL, 16, 6, 1, 0, .ro, false⟩, ⟨.ECC_SELFTEST_PORT_FAIL, 22, 4, 1, 0, .ro, false⟩, ⟨.ECC_SELFTEST_KEY_FAIL, 26, 1, 1, 0, .ro, false⟩, ⟨.ECC_SELFTEST_OTHER_FAIL, 27, 1, 1, 0, .ro, false⟩, ⟨.ECC_SELFTEST_REFUSED, 28, 1, 1, 0, .ro, false⟩]⟩,
  ⟨false, 0xbf0000, 0x0, 1, 0x0, 1,
    [⟨.ECC_LOCK_LOCK, 0, 1, 1, 0, .w1s, false⟩]⟩]

/-- The registers of spec/11_dram_controller.md. -/
def regTable11 : List RegRow := [
  ⟨false, 0xc00000, 0x10000, 16, 0x0, 1,
    [⟨.MEM_CH_STS_STATE, 0, 3, 1, 0, .ro, false⟩, ⟨.MEM_CH_STS_FP, 3, 2, 1, 0, .ro, false⟩, ⟨.MEM_CH_STS_RATE, 5, 3, 1, 0, .ro, false⟩, ⟨.MEM_CH_STS_TYPE, 8, 1, 1, 0, .ro, false⟩, ⟨.MEM_CH_STS_DIMMS, 9, 2, 1, 0, .ro, false⟩, ⟨.MEM_CH_STS_RANKS, 11, 2, 1, 0, .ro, false⟩, ⟨.MEM_CH_STS_X8, 13, 1, 1, 0, .ro, false⟩, ⟨.MEM_CH_STS_CIDB, 14, 2, 1, 0, .ro, false⟩, ⟨.MEM_CH_STS_HOT, 16, 1, 1, 0, .ro, false⟩, ⟨.MEM_CH_STS_EVAC_MARK, 17, 1, 1, 0, .ro, false⟩, ⟨.MEM_CH_STS_SENSOR_FAIL, 18, 1, 1, 0, .ro, false⟩]⟩,
  ⟨false, 0xc00008, 0x10000, 16, 0x0, 1,
    [⟨.MEM_FRZ_CTL_FRZ_WIN, 0, 6, 1, 0, .rwl, false⟩, ⟨.MEM_FRZ_CTL_STORM_THR, 6, 4, 1, 0, .rwl, false⟩, ⟨.MEM_FRZ_CTL_HOLD_END, 10, 1, 1, 0, .w1s, false⟩]⟩,
  ⟨false, 0xc00010, 0x10000, 16, 0x0, 1,
    [⟨.MEM_FRZ_STS_FROZEN, 0, 1, 1, 0, .ro, false⟩, ⟨.MEM_FRZ_STS_HELD, 1, 1, 1, 0, .ro, false⟩, ⟨.MEM_FRZ_STS_CAUSE, 2, 3, 1, 0, .ro, false⟩, ⟨.MEM_FRZ_STS_FREEZES, 5, 16, 1, 0, .ro, false⟩, ⟨.MEM_FRZ_STS_SNAP, 21, 3, 1, 0, .ro, false⟩]⟩,
  ⟨false, 0xc00100, 0x10000, 16, 0x0, 1,
    [⟨.MEM_MAP0_SEL, 0, 6, 10, 6, .rwl, true⟩]⟩,
  ⟨false, 0xc00108, 0x10000, 16, 0x0, 1,
    [⟨.MEM_MAP1_SEL, 0, 6, 10, 6, .rwl, true⟩]⟩,
  ⟨false, 0xc00110, 0x10000, 16, 0x0, 1,
    [⟨.MEM_MAP2_SEL, 0, 6, 10, 6, .rwl, true⟩]⟩,
  ⟨false, 0xc00118, 0x10000, 16, 0x0, 1,
    [⟨.MEM_MAP3_SEL, 0, 6, 10, 6, .rwl, true⟩]⟩,
  ⟨false, 0xc00120, 0x10000, 16, 0x0, 1,
    [⟨.MEM_MAPX_XSEL, 0, 6, 5, 6, .rwl, true⟩]⟩,
  ⟨false, 0xc00200, 0x10000, 16, 0x8, 4,
    [⟨.MEM_FP_RATE, 0, 3, 1, 0, .rwl, true⟩, ⟨.MEM_FP_VALID, 3, 1, 1, 0, .rwl, true⟩, ⟨.MEM_FP_TRAINED, 4, 1, 1, 0, .ro, false⟩]⟩,
  ⟨false, 0xc00300, 0x10000, 16, 0x20, 2,
    [⟨.MEM_TIM0_CL, 0, 10, 1, 0, .rw, false⟩, ⟨.MEM_TIM0_CWL, 10, 10, 1, 0, .rw, false⟩, ⟨.MEM_TIM0_RCD, 20, 10, 1, 0, .rw, false⟩, ⟨.MEM_TIM0_RP, 30, 10, 1, 0, .rw, false⟩, ⟨.MEM_TIM0_RAS, 40, 10, 1, 0, .rw, false⟩, ⟨.MEM_TIM0_WR, 50, 10, 1, 0, .rw, false⟩]⟩,
  ⟨false, 0xc00308, 0x10000, 16, 0x20, 2,
    [⟨.MEM_TIM1_RRD_S, 0, 8, 1, 0, .rw, false⟩, ⟨.MEM_TIM1_RRD_L, 8, 8, 1, 0, .rw, false⟩, ⟨.MEM_TIM1_CCD_L, 16, 8, 1, 0, .rw, false⟩, ⟨.MEM_TIM1_CCD_L_WR, 24, 8, 1, 0, .rw, false⟩, ⟨.MEM_TIM1_WTR_S, 32, 8, 1, 0, .rw, false⟩, ⟨.MEM_TIM1_WTR_L, 40, 8, 1, 0, .rw, false⟩, ⟨.MEM_TIM1_RTP, 48, 8, 1, 0, .rw, false⟩, ⟨.MEM_TIM1_FAW, 56, 8, 1, 0, .rw, false⟩]⟩,
  ⟨false, 0xc00310, 0x10000, 16, 0x20, 2,
    [⟨.MEM_TIM2_RFC1, 0, 12, 1, 0, .rw, false⟩, ⟨.MEM_TIM2_RFCSB, 12, 12, 1, 0, .rw, false⟩, ⟨.MEM_TIM2_REFI, 24, 16, 1, 0, .rw, false⟩]⟩,
  ⟨false, 0xc00360, 0x10000, 16, 0x0, 1,
    [⟨.MEM_TIM_SEL_ACT, 0, 1, 1, 0, .ro, false⟩]⟩,
  ⟨false, 0xc00400, 0x10000, 16, 0x0, 1,
    [⟨.MEM_REF_CTL_SB, 0, 1, 1, 0, .rwl, true⟩, ⟨.MEM_REF_CTL_HOT_C, 1, 7, 1, 0, .rwl, false⟩, ⟨.MEM_REF_CTL_CRIT_C, 8, 8, 1, 0, .rwl, false⟩, ⟨.MEM_REF_CTL_MAXPOST, 16, 3, 1, 0, .rwl, false⟩, ⟨.MEM_REF_CTL_FORCE_2X, 19, 1, 1, 0, .rw, false⟩]⟩,
  ⟨false, 0xc00408, 0x10000, 16, 0x0, 1,
    [⟨.MEM_RFM_CFG_RFM_EN, 0, 1, 1, 0, .ro, false⟩, ⟨.MEM_RFM_CFG_PRAC_EN, 1, 1, 1, 0, .ro, false⟩, ⟨.MEM_RFM_CFG_RAAIMT, 2, 8, 1, 0, .ro, false⟩, ⟨.MEM_RFM_CFG_RAAMMT, 10, 8, 1, 0, .ro, false⟩, ⟨.MEM_RFM_CFG_RAADEC, 18, 2, 1, 0, .ro, false⟩]⟩,
  ⟨false, 0xc00500, 0x10000, 16, 0x0, 1,
    [⟨.MEM_TRN_CTL_RETRAIN_S, 0, 16, 1, 0, .rwl, false⟩, ⟨.MEM_TRN_CTL_DRIFT_PS, 16, 8, 1, 0, .rwl, false⟩]⟩,
  ⟨false, 0xc00508, 0x10000, 16, 0x0, 1,
    [⟨.MEM_TRN_STS_LAST, 0, 2, 1, 0, .ro, false⟩, ⟨.MEM_TRN_STS_RETRAINS, 2, 16, 1, 0, .ro, false⟩, ⟨.MEM_TRN_STS_FAILS, 18, 8, 1, 0, .ro, false⟩, ⟨.MEM_TRN_STS_MAX_PAUSE, 26, 16, 1, 0, .ro, false⟩]⟩,
  ⟨false, 0xc00600, 0x10000, 16, 0x0, 1,
    [⟨.MEM_CNT_RFM, 0, 32, 1, 0, .ro, false⟩, ⟨.MEM_CNT_ABO, 32, 16, 1, 0, .ro, false⟩, ⟨.MEM_CNT_CAPAR, 48, 15, 1, 0, .ro, false⟩, ⟨.MEM_CNT_CLR, 63, 1, 1, 0, .wo, false⟩]⟩,
  ⟨false, 0xc0f000, 0x0, 1, 0x0, 1,
    [⟨.MEM_GLB_GRAIN, 0, 2, 1, 0, .rwl, true⟩, ⟨.MEM_GLB_FCHG, 2, 5, 1, 0, .ro, false⟩]⟩,
  ⟨false, 0xc0ff00, 0x0, 1, 0x0, 1,
    [⟨.MEM_LOCK_LOCK, 0, 1, 1, 0, .w1s, false⟩]⟩]

/-- The registers of spec/12_job_compression.md. -/
def regTable12 : List RegRow := [
  ⟨false, 0x900000, 0x1000, 4, 0x0, 1,
    [⟨.JOB_UNIT_STS_BUSY, 0, 1, 1, 0, .ro, false⟩, ⟨.JOB_UNIT_STS_RETIRED, 1, 1, 1, 0, .ro, false⟩, ⟨.JOB_UNIT_STS_SESS_V, 2, 1, 1, 0, .ro, false⟩, ⟨.JOB_UNIT_STS_SESS, 3, 6, 1, 0, .ro, false⟩, ⟨.JOB_UNIT_STS_PIECE, 9, 1, 1, 0, .ro, false⟩]⟩,
  ⟨false, 0x900008, 0x1000, 4, 0x0, 1,
    [⟨.JOB_UNIT_CNT_JOBS, 0, 24, 1, 0, .ro, false⟩, ⟨.JOB_UNIT_CNT_DATA_ERR, 24, 16, 1, 0, .ro, false⟩, ⟨.JOB_UNIT_CNT_RAW_BLK, 40, 16, 1, 0, .ro, false⟩, ⟨.JOB_UNIT_CNT_HANGS, 56, 7, 1, 0, .ro, false⟩, ⟨.JOB_UNIT_CNT_CLR, 63, 1, 1, 0, .wo, false⟩]⟩,
  ⟨false, 0x910000, 0x0, 1, 0x0, 1,
    [⟨.JOB_STS_QUEUED, 0, 9, 1, 0, .ro, false⟩, ⟨.JOB_STS_SESSIONS, 9, 7, 1, 0, .ro, false⟩, ⟨.JOB_STS_DICTS, 16, 5, 1, 0, .ro, false⟩, ⟨.JOB_STS_HIST_MIB, 21, 10, 1, 0, .ro, false⟩]⟩,
  ⟨false, 0x910008, 0x0, 1, 0x0, 1,
    [⟨.JOB_CTL_UNIT_EN, 0, 4, 1, 0, .rwl, true⟩]⟩,
  ⟨false, 0x911000, 0x10, 16, 0x0, 1,
    [⟨.JOB_DICT_V, 0, 1, 1, 0, .ro, false⟩, ⟨.JOB_DICT_KIND, 1, 1, 1, 0, .ro, false⟩, ⟨.JOB_DICT_TC, 2, 8, 1, 0, .ro, false⟩, ⟨.JOB_DICT_SIZE, 10, 22, 1, 0, .ro, false⟩, ⟨.JOB_DICT_DICTID, 32, 32, 1, 0, .ro, false⟩]⟩,
  ⟨false, 0x911008, 0x10, 16, 0x0, 1,
    [⟨.JOB_DICT_USE_USERS, 0, 16, 1, 0, .ro, false⟩, ⟨.JOB_DICT_USE_ADLER, 16, 32, 1, 0, .ro, false⟩]⟩,
  ⟨false, 0x9f0000, 0x0, 1, 0x0, 1,
    [⟨.JOB_LOCK_LOCK, 0, 1, 1, 0, .w1s, false⟩]⟩]

/-- The registers of spec/13_caravan_link.md. -/
def regTable13 : List RegRow := [
  ⟨false, 0xe00000, 0x10000, 2, 0x0, 1,
    [⟨.CVN_PORT_CFG_AUTO_UP, 0, 1, 1, 0, .ro, true⟩, ⟨.CVN_PORT_CFG_MAXRATE, 1, 1, 1, 0, .rwl, true⟩, ⟨.CVN_PORT_CFG_COMPAT, 2, 1, 1, 0, .ro, true⟩, ⟨.CVN_PORT_CFG_LOCK_TMO, 3, 6, 1, 0, .rwl, false⟩, ⟨.CVN_PORT_CFG_HOLD_MS, 9, 7, 1, 0, .rwl, false⟩, ⟨.CVN_PORT_CFG_LOST_S, 16, 6, 1, 0, .rwl, false⟩, ⟨.CVN_PORT_CFG_REPLAY_MAX, 22, 4, 1, 0, .rwl, false⟩, ⟨.CVN_PORT_CFG_LEND_EN, 26, 1, 1, 0, .ro, true⟩, ⟨.CVN_PORT_CFG_BORROW_EN, 27, 1, 1, 0, .ro, true⟩, ⟨.CVN_PORT_CFG_LEND_PCT, 28, 6, 1, 0, .ro, true⟩, ⟨.CVN_PORT_CFG_LCLASS, 34, 4, 1, 0, .rwl, false⟩]⟩,
  ⟨false, 0xe00008, 0x10000, 2, 0x0, 1,
    [⟨.CVN_LINK_STS_STATE, 0, 3, 1, 0, .ro, false⟩, ⟨.CVN_LINK_STS_RATE, 3, 1, 1, 0, .ro, false⟩, ⟨.CVN_LINK_STS_WIDTH, 4, 1, 1, 0, .ro, false⟩, ⟨.CVN_LINK_STS_LEADER, 5, 1, 1, 0, .ro, false⟩, ⟨.CVN_LINK_STS_COMPAT_ACT, 6, 1, 1, 0, .ro, false⟩, ⟨.CVN_LINK_STS_SPARE_USED, 7, 1, 1, 0, .ro, false⟩, ⟨.CVN_LINK_STS_FAILED_LANE, 8, 4, 1, 0, .ro, false⟩, ⟨.CVN_LINK_STS_XOFF_TX, 12, 1, 1, 0, .ro, false⟩, ⟨.CVN_LINK_STS_XOFF_RX, 13, 1, 1, 0, .ro, false⟩, ⟨.CVN_LINK_STS_RTT_NS, 14, 11, 1, 0, .ro, false⟩, ⟨.CVN_LINK_STS_HEADROOM, 25, 10, 1, 0, .ro, false⟩, ⟨.CVN_LINK_STS_KEYPH, 35, 1, 1, 0, .ro, false⟩]⟩,
  ⟨false, 0xe00010, 0x10000, 2, 0x0, 1,
    [⟨.CVN_PEER_ID_ID, 0, 64, 1, 0, .ro, false⟩]⟩,
  ⟨false, 0xe00018, 0x10000, 2, 0x0, 1,
    [⟨.CVN_CNT_CHK_DROP, 0, 16, 1, 0, .ro, false⟩, ⟨.CVN_CNT_AUTH_DROP, 16, 16, 1, 0, .ro, false⟩, ⟨.CVN_CNT_REPLAYS, 32, 16, 1, 0, .ro, false⟩, ⟨.CVN_CNT_RESENDS, 48, 15, 1, 0, .ro, false⟩, ⟨.CVN_CNT_CLR, 63, 1, 1, 0, .wo, false⟩]⟩,
  ⟨false, 0xe00040, 0x10000, 2, 0x8, 9,
    [⟨.CVN_LANE_CNT_CORR, 0, 32, 1, 0, .ro, false⟩, ⟨.CVN_LANE_CNT_FAILED, 32, 1, 1, 0, .ro, false⟩]⟩,
  ⟨false, 0xe00100, 0x10000, 2, 0x0, 1,
    [⟨.CVN_LEND_STS_GRANTED, 0, 31, 1, 0, .ro, false⟩, ⟨.CVN_LEND_STS_LOAN_V, 31, 1, 1, 0, .ro, false⟩, ⟨.CVN_LEND_STS_ASKED, 32, 31, 1, 0, .ro, false⟩, ⟨.CVN_LEND_STS_FOREIGN, 63, 1, 1, 0, .ro, false⟩]⟩,
  ⟨false, 0xe00108, 0x10000, 2, 0x0, 1,
    [⟨.CVN_BORROW_STS_HELD, 0, 31, 1, 0, .ro, false⟩, ⟨.CVN_BORROW_STS_LOAN_V, 31, 1, 1, 0, .ro, false⟩, ⟨.CVN_BORROW_STS_EMPTY, 32, 31, 1, 0, .ro, false⟩, ⟨.CVN_BORROW_STS_LOST, 63, 1, 1, 0, .ro, false⟩]⟩,
  ⟨false, 0xe00110, 0x10000, 2, 0x0, 1,
    [⟨.CVN_BORROW_MAX_MAX, 0, 31, 1, 0, .ro, true⟩]⟩,
  ⟨false, 0xef0000, 0x0, 1, 0x0, 1,
    [⟨.CVN_LOCK_LOCK, 0, 1, 1, 0, .w1s, false⟩]⟩]

/-- The registers of spec/14_tollgate.md. -/
def regTable14 : List RegRow := [
  ⟨false, 0x500000, 0x0, 1, 0x0, 1,
    [⟨.TLG_CFG_CAP, 0, 7, 1, 0, .ro, true⟩]⟩,
  ⟨false, 0x500008, 0x0, 1, 0x0, 1,
    [⟨.TLG_STS_F, 0, 11, 1, 0, .ro, false⟩, ⟨.TLG_STS_DERATED, 11, 1, 1, 0, .ro, false⟩, ⟨.TLG_STS_N_NOM, 12, 5, 1, 0, .ro, false⟩, ⟨.TLG_STS_N, 17, 5, 1, 0, .ro, false⟩, ⟨.TLG_STS_DELIV_NOM, 22, 14, 1, 0, .ro, false⟩, ⟨.TLG_STS_DELIV, 36, 14, 1, 0, .ro, false⟩, ⟨.TLG_STS_EVAC, 50, 1, 1, 0, .ro, false⟩, ⟨.TLG_STS_DERATES, 51, 13, 1, 0, .ro, false⟩]⟩,
  ⟨false, 0x500100, 0x8, 16, 0x0, 1,
    [⟨.TLG_GUAR_BW, 0, 14, 1, 0, .ro, true⟩, ⟨.TLG_GUAR_EFF, 14, 14, 1, 0, .ro, false⟩]⟩,
  ⟨false, 0x501000, 0x80, 8, 0x8, 16,
    [⟨.TLG_HQ_QUOTA, 0, 10, 1, 0, .ro, true⟩, ⟨.TLG_HQ_COUNT, 10, 10, 1, 0, .ro, false⟩, ⟨.TLG_HQ_WAITING, 20, 1, 1, 0, .ro, false⟩]⟩,
  ⟨false, 0x502000, 0x80, 16, 0x8, 16,
    [⟨.TLG_SQ_QUOTA, 0, 10, 1, 0, .ro, true⟩, ⟨.TLG_SQ_COUNT, 10, 10, 1, 0, .ro, false⟩, ⟨.TLG_SQ_WAITING, 20, 1, 1, 0, .ro, false⟩]⟩,
  ⟨false, 0x503000, 0x100, 16, 0x0, 1,
    [⟨.TLG_CH_STS_RSV_NORM, 0, 10, 1, 0, .ro, false⟩, ⟨.TLG_CH_STS_RSV_HOT, 10, 10, 1, 0, .ro, false⟩, ⟨.TLG_CH_STS_COUNTED, 20, 1, 1, 0, .ro, false⟩, ⟨.TLG_CH_STS_BW, 21, 14, 1, 0, .ro, false⟩, ⟨.TLG_CH_STS_FRAME_NS, 35, 13, 1, 0, .ro, false⟩]⟩,
  ⟨false, 0x503010, 0x100, 16, 0x8, 16,
    [⟨.TLG_CH_SLOT_SLOTS, 0, 11, 1, 0, .ro, false⟩, ⟨.TLG_CH_SLOT_USED, 11, 11, 1, 0, .ro, false⟩]⟩]

/-- The registers of spec/15_faults.md. -/
def regTable15 : List RegRow := [
  ⟨false, 0x300000, 0x0, 1, 0x0, 1,
    [⟨.FLT_CTL_GRACE_US, 0, 20, 1, 0, .rwl, true⟩, ⟨.FLT_CTL_PINSEV, 20, 2, 1, 0, .rwl, false⟩, ⟨.FLT_CTL_ALERTSEV, 22, 2, 1, 0, .rwl, false⟩, ⟨.FLT_CTL_NOTE_MIRROR, 24, 1, 1, 0, .rw, false⟩]⟩,
  ⟨false, 0x300008, 0x0, 1, 0x0, 1,
    [⟨.FLT_STS_USED, 0, 9, 1, 0, .ro, false⟩, ⟨.FLT_STS_FATAL, 9, 9, 1, 0, .ro, false⟩, ⟨.FLT_STS_TIMERS, 18, 9, 1, 0, .ro, false⟩, ⟨.FLT_STS_ERR, 27, 1, 1, 0, .ro, false⟩, ⟨.FLT_STS_ALERT, 28, 1, 1, 0, .ro, false⟩, ⟨.FLT_STS_SEVT_FAIL, 29, 1, 1, 0, .ro, false⟩, ⟨.FLT_STS_DISABLED, 30, 8, 1, 0, .ro, false⟩]⟩,
  ⟨false, 0x300010, 0x0, 1, 0x0, 1,
    [⟨.FLT_SEQ_NEXT, 0, 64, 1, 0, .ro, false⟩]⟩,
  ⟨false, 0x300018, 0x0, 1, 0x0, 1,
    [⟨.FLT_OVF_OVERWRITTEN, 0, 16, 1, 0, .ro, false⟩, ⟨.FLT_OVF_DROPPED, 16, 16, 1, 0, .ro, false⟩, ⟨.FLT_OVF_SRCDROP, 32, 16, 1, 0, .ro, false⟩, ⟨.FLT_OVF_FATAL_OVF, 48, 15, 1, 0, .ro, false⟩, ⟨.FLT_OVF_CLR, 63, 1, 1, 0, .wo, false⟩]⟩,
  ⟨false, 0x300020, 0x0, 1, 0x0, 1,
    [⟨.FLT_OVF_MSG0_MSG, 0, 64, 1, 0, .ro, false⟩]⟩,
  ⟨false, 0x300028, 0x0, 1, 0x0, 1,
    [⟨.FLT_OVF_MSG1_MSG, 0, 64, 1, 0, .ro, false⟩]⟩,
  ⟨false, 0x301000, 0x8, 512, 0x0, 1,
    [⟨.FLT_SEV_SEV_C, 0, 2, 1, 0, .rw, true⟩, ⟨.FLT_SEV_V_C, 2, 1, 1, 0, .rw, true⟩, ⟨.FLT_SEV_SEV_U, 4, 2, 1, 0, .rw, true⟩, ⟨.FLT_SEV_V_U, 6, 1, 1, 0, .rw, true⟩, ⟨.FLT_SEV_SEV_F, 8, 2, 1, 0, .rw, true⟩, ⟨.FLT_SEV_V_F, 10, 1, 1, 0, .rw, true⟩, ⟨.FLT_SEV_CHKFAIL, 11, 1, 1, 0, .ro, false⟩]⟩,
  ⟨false, 0x3f0000, 0x0, 1, 0x0, 1,
    [⟨.FLT_LOCK_LOCK, 0, 1, 1, 0, .w1s, false⟩]⟩]

/-- The registers of spec/16_slot_guard.md. -/
def regTable16 : List RegRow := [
  ⟨false, 0xd00000, 0x100, 32, 0x0, 1,
    [⟨.SLT_SG_STS_STATE, 0, 3, 1, 0, .ro, false⟩, ⟨.SLT_SG_STS_PRSNT, 3, 1, 1, 0, .ro, false⟩, ⟨.SLT_SG_STS_GATE, 4, 1, 1, 0, .ro, false⟩, ⟨.SLT_SG_STS_PG, 5, 1, 1, 0, .ro, false⟩, ⟨.SLT_SG_STS_TMR, 6, 1, 1, 0, .ro, false⟩, ⟨.SLT_SG_STS_FET_SHORT, 7, 1, 1, 0, .ro, false⟩, ⟨.SLT_SG_STS_ATTEMPTS, 8, 3, 1, 0, .ro, false⟩, ⟨.SLT_SG_STS_LAST_FAULT, 11, 4, 1, 0, .ro, false⟩, ⟨.SLT_SG_STS_LED, 15, 3, 1, 0, .ro, false⟩, ⟨.SLT_SG_STS_THERM_HOLD, 18, 1, 1, 0, .ro, false⟩]⟩,
  ⟨false, 0xd00008, 0x100, 32, 0x0, 1,
    [⟨.SLT_SG_MEAS_VIN, 0, 16, 1, 0, .ro, false⟩, ⟨.SLT_SG_MEAS_VOUT, 16, 16, 1, 0, .ro, false⟩, ⟨.SLT_SG_MEAS_I, 32, 16, 1, 0, .ro, false⟩, ⟨.SLT_SG_MEAS_TFET, 48, 16, 1, 0, .ro, false⟩]⟩,
  ⟨false, 0xd00010, 0x100, 32, 0x0, 1,
    [⟨.SLT_SG_LIM_ILIM, 0, 8, 1, 0, .ro, true⟩, ⟨.SLT_SG_LIM_FT, 8, 10, 1, 0, .ro, true⟩, ⟨.SLT_SG_LIM_RAMP, 18, 5, 1, 0, .ro, true⟩, ⟨.SLT_SG_LIM_RETRY_T, 23, 7, 1, 0, .ro, true⟩, ⟨.SLT_SG_LIM_RETRY_MAX, 30, 3, 1, 0, .ro, true⟩, ⟨.SLT_SG_LIM_TLIM, 33, 8, 1, 0, .ro, true⟩]⟩,
  ⟨false, 0xd00018, 0x100, 32, 0x0, 1,
    [⟨.SLT_SG_MODEL_R1, 0, 10, 1, 0, .rwl, true⟩, ⟨.SLT_SG_MODEL_TAU1, 10, 10, 1, 0, .rwl, true⟩, ⟨.SLT_SG_MODEL_R2, 20, 10, 1, 0, .rwl, true⟩, ⟨.SLT_SG_MODEL_TAU2, 30, 14, 1, 0, .rwl, true⟩, ⟨.SLT_SG_MODEL_RSH, 44, 16, 1, 0, .rwl, true⟩]⟩,
  ⟨false, 0xd00020, 0x100, 32, 0x0, 1,
    [⟨.SLT_SG_CNT_FAULTS, 0, 16, 1, 0, .ro, false⟩, ⟨.SLT_SG_CNT_RETRIES, 16, 16, 1, 0, .ro, false⟩, ⟨.SLT_SG_CNT_PRESENCE, 32, 16, 1, 0, .ro, false⟩, ⟨.SLT_SG_CNT_PRESSES, 48, 15, 1, 0, .ro, false⟩, ⟨.SLT_SG_CNT_CLR, 63, 1, 1, 0, .wo, false⟩]⟩,
  ⟨false, 0xd10000, 0x8, 16, 0x0, 1,
    [⟨.SLT_CH_SVC_SVC, 0, 3, 1, 0, .ro, false⟩, ⟨.SLT_CH_SVC_STEP, 3, 2, 1, 0, .ro, false⟩, ⟨.SLT_CH_SVC_BYCMD, 5, 1, 1, 0, .ro, false⟩, ⟨.SLT_CH_SVC_PCT, 6, 7, 1, 0, .ro, false⟩, ⟨.SLT_CH_SVC_CANCEL_OPEN, 13, 1, 1, 0, .ro, false⟩, ⟨.SLT_CH_SVC_BYMARK, 14, 1, 1, 0, .ro, false⟩, ⟨.SLT_CH_SVC_MARK_WAIT, 15, 1, 1, 0, .ro, false⟩]⟩,
  ⟨false, 0xd10100, 0x0, 1, 0x0, 1,
    [⟨.SLT_CFG_TAMB_DEF, 0, 8, 1, 0, .rwl, true⟩, ⟨.SLT_CFG_TAMB_FITTED, 8, 1, 1, 0, .rwl, true⟩, ⟨.SLT_CFG_AUTO_ON, 9, 1, 1, 0, .rwl, true⟩, ⟨.SLT_CFG_BTN_EN, 10, 1, 1, 0, .rwl, true⟩]⟩,
  ⟨false, 0xd10108, 0x0, 1, 0x0, 1,
    [⟨.SLT_STS_TAMB, 0, 16, 1, 0, .ro, false⟩, ⟨.SLT_STS_TAMB_FAIL, 16, 1, 1, 0, .ro, false⟩, ⟨.SLT_STS_FETSHORT, 17, 1, 1, 0, .ro, false⟩, ⟨.SLT_STS_LINK_OK, 18, 1, 1, 0, .ro, false⟩, ⟨.SLT_STS_SELFTEST_OK, 19, 1, 1, 0, .ro, false⟩]⟩,
  ⟨false, 0xdf0000, 0x0, 1, 0x0, 1,
    [⟨.SLT_LOCK_LOCK, 0, 1, 1, 0, .w1s, false⟩]⟩]

/-- The registers of spec/17_power_thermal.md. -/
def regTable17 : List RegRow := [
  ⟨false, 0x100000, 0x0, 1, 0x0, 1,
    [⟨.PWR_STATE_PS, 0, 2, 1, 0, .ro, false⟩, ⟨.PWR_STATE_ENTERING, 2, 1, 1, 0, .ro, false⟩, ⟨.PWR_STATE_PS2_WAKES, 3, 16, 1, 0, .ro, false⟩]⟩,
  ⟨false, 0x100008, 0x0, 1, 0x0, 1,
    [⟨.PWR_CTL_AUTO_PS1, 0, 1, 1, 0, .rw, true⟩, ⟨.PWR_CTL_AUTO_PS2, 1, 1, 1, 0, .rw, true⟩, ⟨.PWR_CTL_IDLE_US, 2, 10, 1, 0, .rw, false⟩, ⟨.PWR_CTL_DROWSE_MS, 12, 12, 1, 0, .rw, false⟩, ⟨.PWR_CTL_WAIT_S, 24, 6, 1, 0, .rw, false⟩]⟩,
  ⟨false, 0x100010, 0x0, 1, 0x0, 1,
    [⟨.PWR_DOM_STS_D, 0, 2, 31, 2, .ro, false⟩]⟩,
  ⟨false, 0x100100, 0x8, 31, 0x0, 1,
    [⟨.PWR_DOM_PWR_MW, 0, 24, 1, 0, .ro, false⟩]⟩,
  ⟨false, 0x101000, 0x0, 1, 0x0, 1,
    [⟨.PWR_WAKE_CFG_EN, 1, 6, 1, 0, .rw, false⟩]⟩,
  ⟨false, 0x101008, 0x0, 1, 0x0, 1,
    [⟨.PWR_AON_TIMER_COUNT, 0, 32, 1, 0, .ro, false⟩, ⟨.PWR_AON_TIMER_CMP, 32, 32, 1, 0, .rw, false⟩]⟩,
  ⟨false, 0x101010, 0x0, 1, 0x0, 1,
    [⟨.PWR_LAST_WAKE_SRC, 0, 3, 1, 0, .ro, false⟩, ⟨.PWR_LAST_WAKE_FROM, 3, 2, 1, 0, .ro, false⟩, ⟨.PWR_LAST_WAKE_PORT, 5, 2, 1, 0, .ro, false⟩, ⟨.PWR_LAST_WAKE_SLOT, 7, 5, 1, 0, .ro, false⟩, ⟨.PWR_LAST_WAKE_AT, 12, 32, 1, 0, .ro, false⟩]⟩,
  ⟨false, 0x101018, 0x0, 1, 0x0, 1,
    [⟨.PWR_SADDLE_STS_GEN, 0, 32, 1, 0, .ro, false⟩, ⟨.PWR_SADDLE_STS_BAD, 32, 8, 1, 0, .ro, false⟩]⟩,
  ⟨false, 0x200000, 0x0, 1, 0x0, 1,
    [⟨.THM_STS_TMAX, 0, 16, 1, 0, .ro, false⟩, ⟨.THM_STS_HOTNODE, 16, 6, 1, 0, .ro, false⟩, ⟨.THM_STS_LEVEL, 22, 2, 1, 0, .ro, false⟩, ⟨.THM_STS_STEP, 24, 4, 1, 0, .ro, false⟩, ⟨.THM_STS_MODEL, 28, 2, 1, 0, .ro, false⟩, ⟨.THM_STS_HEALTHY, 30, 5, 1, 0, .ro, false⟩]⟩,
  ⟨false, 0x200008, 0x0, 1, 0x0, 1,
    [⟨.THM_LIMITS_WARN_C, 0, 8, 1, 0, .rw, true⟩, ⟨.THM_LIMITS_THROT_C, 8, 8, 1, 0, .rw, true⟩, ⟨.THM_LIMITS_STEP_MS, 16, 7, 1, 0, .rw, false⟩]⟩,
  ⟨false, 0x200100, 0x8, 24, 0x0, 1,
    [⟨.THM_DIODE_T, 0, 16, 1, 0, .ro, false⟩, ⟨.THM_DIODE_NODE, 16, 6, 1, 0, .ro, false⟩, ⟨.THM_DIODE_HEALTHY, 22, 1, 1, 0, .ro, false⟩]⟩,
  ⟨false, 0x1f0000, 0x0, 1, 0x0, 1,
    [⟨.PWR_LOCK_LOCK, 0, 1, 1, 0, .w1s, false⟩]⟩,
  ⟨false, 0x2f0000, 0x0, 1, 0x0, 1,
    [⟨.THM_LOCK_LOCK, 0, 1, 1, 0, .w1s, false⟩]⟩]

/-- The registers of spec/18_performance_counters.md. -/
def regTable18 : List RegRow := [
  ⟨false, 0x400000, 0x8, 256, 0x0, 1,
    [⟨.PMU_CNT_COUNT, 0, 48, 1, 0, .ro, false⟩, ⟨.PMU_CNT_SAT, 48, 1, 1, 0, .ro, false⟩, ⟨.PMU_CNT_ERR, 49, 1, 1, 0, .ro, false⟩, ⟨.PMU_CNT_CLR, 63, 1, 1, 0, .wo, false⟩]⟩,
  ⟨false, 0x401000, 0x8, 256, 0x0, 1,
    [⟨.PMU_CTL_EVENT, 0, 8, 1, 0, .rw, false⟩, ⟨.PMU_CTL_EN, 8, 1, 1, 0, .rw, false⟩, ⟨.PMU_CTL_FILT, 9, 1, 1, 0, .rw, false⟩, ⟨.PMU_CTL_FSET, 10, 4, 1, 0, .rw, false⟩]⟩,
  ⟨false, 0x402000, 0x40, 16, 0x0, 1,
    [⟨.PMU_FS_MASK0_MASK, 0, 64, 1, 0, .rw, false⟩]⟩,
  ⟨false, 0x402008, 0x40, 16, 0x0, 1,
    [⟨.PMU_FS_MASK1_MASK, 0, 3, 1, 0, .rw, false⟩]⟩,
  ⟨false, 0x402010, 0x40, 16, 0x0, 1,
    [⟨.PMU_FS_BASE_LPN, 0, 33, 1, 0, .rw, false⟩]⟩,
  ⟨false, 0x402018, 0x40, 16, 0x0, 1,
    [⟨.PMU_FS_LIMIT_LPN, 0, 33, 1, 0, .rw, false⟩]⟩,
  ⟨false, 0x402020, 0x40, 16, 0x0, 1,
    [⟨.PMU_FS_SEL_CLSET, 0, 16, 1, 0, .rw, false⟩, ⟨.PMU_FS_SEL_TIERSET, 16, 7, 1, 0, .rw, false⟩, ⟨.PMU_FS_SEL_PRIVSET, 24, 4, 1, 0, .rw, false⟩, ⟨.PMU_FS_SEL_RANGE_EN, 28, 1, 1, 0, .rw, false⟩]⟩,
  ⟨false, 0x403000, 0x0, 1, 0x0, 1,
    [⟨.PMU_GCTL_FREEZE, 0, 1, 1, 0, .rw, false⟩]⟩,
  ⟨false, 0x403008, 0x0, 1, 0x0, 1,
    [⟨.PMU_GSTS_FROZEN, 0, 1, 1, 0, .ro, false⟩, ⟨.PMU_GSTS_ANY_SAT, 1, 1, 1, 0, .ro, false⟩, ⟨.PMU_GSTS_ANY_ERR, 2, 1, 1, 0, .ro, false⟩]⟩,
  ⟨false, 0x4f0000, 0x0, 1, 0x0, 1,
    [⟨.PMU_LOCK_LOCK, 0, 1, 1, 0, .w1s, false⟩]⟩]

/-- The registers of spec/19_access_control.md. -/
def regTable19 : List RegRow := [
  ⟨false, 0x1100000, 0x400, 37, 0x8, 67,
    [⟨.ACC_TBL_RC, 0, 48, 1, 0, .ro, true⟩]⟩,
  ⟨false, 0x1110000, 0x100, 37, 0x10, 16,
    [⟨.ACC_RNG_BASE_ADDR, 0, 48, 1, 0, .ro, true⟩, ⟨.ACC_RNG_BASE_CLASS, 48, 4, 1, 0, .ro, true⟩, ⟨.ACC_RNG_BASE_EN, 52, 1, 1, 0, .ro, true⟩]⟩,
  ⟨false, 0x1110008, 0x100, 37, 0x10, 16,
    [⟨.ACC_RNG_LIMIT_ADDR, 0, 48, 1, 0, .ro, true⟩, ⟨.ACC_RNG_LIMIT_CLASS, 48, 4, 1, 0, .ro, true⟩, ⟨.ACC_RNG_LIMIT_EN, 52, 1, 1, 0, .ro, true⟩]⟩,
  ⟨false, 0x1118000, 0x0, 1, 0x0, 1,
    [⟨.ACC_DBG_LEVEL, 0, 2, 1, 0, .ro, false⟩, ⟨.ACC_DBG_REMAIN, 2, 17, 1, 0, .ro, false⟩, ⟨.ACC_DBG_EXTEST, 19, 1, 1, 0, .ro, false⟩]⟩,
  ⟨false, 0x1118008, 0x0, 1, 0x0, 1,
    [⟨.ACC_STS_DENIALS, 0, 32, 1, 0, .ro, false⟩, ⟨.ACC_STS_LAST_TGT, 32, 6, 1, 0, .ro, false⟩, ⟨.ACC_STS_LAST_MST, 38, 7, 1, 0, .ro, false⟩, ⟨.ACC_STS_CLR, 63, 1, 1, 0, .wo, false⟩]⟩,
  ⟨false, 0x11f0000, 0x0, 1, 0x0, 1,
    [⟨.ACC_LOCK_LOCK, 0, 1, 1, 0, .w1s, false⟩]⟩]

/-- The registers of spec/20_startup_firmware.md. -/
def regTable20 : List RegRow := [
  ⟨false, 0x0, 0x0, 1, 0x0, 1,
    [⟨.GLB_ID_VENDOR, 0, 16, 1, 0, .ro, false⟩, ⟨.GLB_ID_DEVICE, 16, 16, 1, 0, .ro, false⟩, ⟨.GLB_ID_REV, 32, 8, 1, 0, .ro, false⟩]⟩,
  ⟨false, 0x8, 0x0, 1, 0x0, 1,
    [⟨.GLB_DEVID_ID, 0, 64, 1, 0, .ro, false⟩]⟩,
  ⟨false, 0x10, 0x0, 1, 0x0, 1,
    [⟨.GLB_BOOT_STS_STEP, 0, 4, 1, 0, .ro, false⟩, ⟨.GLB_BOOT_STS_FWCOPY, 4, 1, 1, 0, .ro, false⟩, ⟨.GLB_BOOT_STS_BOOT_ALT, 5, 1, 1, 0, .ro, false⟩, ⟨.GLB_BOOT_STS_ROMREC, 6, 1, 1, 0, .ro, false⟩, ⟨.GLB_BOOT_STS_REFUSED, 7, 1, 1, 0, .ro, false⟩, ⟨.GLB_BOOT_STS_CAUSE, 8, 8, 1, 0, .ro, false⟩, ⟨.GLB_BOOT_STS_BADCOPY, 16, 2, 1, 0, .ro, false⟩, ⟨.GLB_BOOT_STS_BOOT_MS, 18, 32, 1, 0, .ro, false⟩]⟩,
  ⟨false, 0x18, 0x0, 1, 0x0, 1,
    [⟨.GLB_CFG_STS_GEN, 0, 64, 1, 0, .ro, false⟩]⟩,
  ⟨false, 0x20, 0x0, 1, 0x0, 1,
    [⟨.GLB_RST_STS_LAST, 0, 1, 1, 0, .ro, false⟩, ⟨.GLB_RST_STS_MEDIA_KEPT, 1, 1, 1, 0, .ro, false⟩, ⟨.GLB_RST_STS_WARM_CNT, 2, 16, 1, 0, .rws, false⟩]⟩,
  ⟨false, 0x28, 0x0, 1, 0x0, 1,
    [⟨.GLB_FW_VER_VERSION, 0, 64, 1, 0, .ro, false⟩]⟩,
  ⟨false, 0x30, 0x0, 1, 0x0, 1,
    [⟨.GLB_FW_STS_ROLL, 0, 2, 1, 0, .ro, false⟩, ⟨.GLB_FW_STS_CLUSTER, 2, 3, 1, 0, .ro, false⟩, ⟨.GLB_FW_STS_STAGED_KIB, 5, 15, 1, 0, .ro, false⟩]⟩,
  ⟨false, 0x38, 0x0, 1, 0x0, 1,
    [⟨.GLB_OTP_SVN_MIN, 0, 32, 1, 0, .ro, false⟩, ⟨.GLB_OTP_OWNED, 32, 1, 1, 0, .ro, false⟩]⟩,
  ⟨false, 0x1000, 0x20, 8, 0x8, 4,
    [⟨.GLB_GRANT_CTX, 0, 64, 1, 0, .ro, true⟩]⟩,
  ⟨false, 0x1000000, 0x8, 48, 0x0, 1,
    [⟨.ENG_STS_STATE, 0, 3, 1, 0, .ro, false⟩, ⟨.ENG_STS_NEWFW, 3, 1, 1, 0, .ro, false⟩]⟩,
  ⟨false, 0x1001000, 0x0, 1, 0x0, 1,
    [⟨.ENG_GLB_HEALTHY, 0, 6, 1, 0, .ro, false⟩, ⟨.ENG_GLB_RETIRED, 6, 48, 1, 0, .ro, false⟩]⟩]

/-- The registers of spec/21_pins_electrical.md. -/
def regTable21 : List RegRow := [
  ⟨false, 0x102000, 0x0, 1, 0x0, 1,
    [⟨.PWR_AVS_VTARGET, 0, 10, 1, 0, .ro, false⟩, ⟨.PWR_AVS_VMEAS, 10, 10, 1, 0, .ro, false⟩]⟩,
  ⟨false, 0x102100, 0x8, 8, 0x0, 1,
    [⟨.PWR_RAIL_MON_MV, 0, 13, 1, 0, .ro, false⟩, ⟨.PWR_RAIL_MON_TRIP, 13, 1, 1, 0, .ro, false⟩, ⟨.PWR_RAIL_MON_CHAN, 14, 4, 1, 0, .ro, false⟩]⟩]

/-- Every register of BAR4 and of the Pyryx pages of BAR2, but for the record windows `FLT_REC`, which
`readWord` and `writeWord` handle themselves. -/
def regTable : List RegRow :=
  regTable02 ++ regTable03 ++ regTable04 ++ regTable05 ++ regTable06 ++ regTable07 ++ regTable08 ++ regTable09 ++ regTable10 ++ regTable11 ++ regTable12 ++ regTable13 ++ regTable14 ++ regTable15 ++ regTable16 ++ regTable17 ++ regTable18 ++ regTable19 ++ regTable20 ++ regTable21

end Sys2Proof.Machine
end

