-- ==== Sys2Proof/Machine/Ops.lean ====
section
/-!
DEFINITION. The named operations over the state: tables, register fields, outputs and MSI-X, the event logs, and the
fault collector with the escalation steps (15_faults.md).
-/
namespace Sys2Proof.Machine
open Sys2Proof

/-! ### Tables -/

/-- The value under a key. -/
def tget {α : Type} (k : Nat) : Tab α → Option α
  | [] => none
  | (k', v) :: t => if k' = k then some v else tget k t

/-- The table without a key. -/
def tdel {α : Type} (k : Nat) : Tab α → Tab α
  | [] => []
  | (k', v) :: t => if k' = k then tdel k t else (k', v) :: tdel k t

/-- Insert at the key's place; the key must be absent. -/
def tins {α : Type} (k : Nat) (v : α) : Tab α → Tab α
  | [] => [(k, v)]
  | (k', v') :: t => if k < k' then (k, v) :: (k', v') :: t else (k', v') :: tins k v t

/-- Put a value under a key, in place of any earlier one. -/
def tput {α : Type} (k : Nat) (v : α) (t : Tab α) : Tab α := tins k v (tdel k t)

/-- The value under a key, or a default. -/
def tgetD {α : Type} (d : α) (k : Nat) (t : Tab α) : α := (tget k t).getD d

/-- Put a value, listing nothing where it is the default (the canonical form of a memory). -/
def tputD {α : Type} [DecidableEq α] (d : α) (k : Nat) (v : α) (t : Tab α) : Tab α :=
  if v = d then tdel k t else tput k v t

/-- The keys rise strictly. -/
def Tab.sorted {α : Type} : Tab α → Bool
  | [] => true
  | [_] => true
  | (k, _) :: (k', v') :: t => k < k' && Tab.sorted ((k', v') :: t)

/-- The canonical form of the memory: the listed lines rise strictly, and none of them reads as an unlisted line does (R131). -/
def Memory.wf (m : Tab Line) : Bool := m.sorted && m.all (fun p => decide (p.2 ≠ 0))

/-- A rising list of numbers with one more, or with one fewer. -/
def linsert (k : Nat) : List Nat → List Nat
  | [] => [k]
  | x :: xs => if k < x then k :: x :: xs else if k = x then x :: xs else x :: linsert k xs

def lremove (k : Nat) (l : List Nat) : List Nat := l.filter (fun x => decide (x ≠ k))

/-- A member set by a Bool. -/
def lset (k : Nat) (b : Bool) (l : List Nat) : List Nat := if b then linsert k l else lremove k l

/-! ### Register fields -/

def regKeyLt (a b : RegKey) : Bool :=
  a.r.ctorIdx < b.r.ctorIdx ||
    (a.r.ctorIdx == b.r.ctorIdx && (a.i < b.i || (a.i == b.i && a.j < b.j)))

def rget (k : RegKey) : List (RegKey × Nat) → Option Nat
  | [] => none
  | (k', v) :: t => if k' = k then some v else rget k t

def rdel (k : RegKey) : List (RegKey × Nat) → List (RegKey × Nat)
  | [] => []
  | (k', v) :: t => if k' = k then rdel k t else (k', v) :: rdel k t

def rins (k : RegKey) (v : Nat) : List (RegKey × Nat) → List (RegKey × Nat)
  | [] => [(k, v)]
  | (k', v') :: t => if regKeyLt k k' then (k, v) :: (k', v') :: t else (k', v') :: rins k v t

/-- The value a register field holds. -/
def State.get (s : State) (r : Reg) (i j : Nat := 0) : Nat :=
  match rget ⟨r, i, j⟩ s.regs with
  | some v => v
  | none => dflt r i j

/-- Set a register field, by the device itself (no access code applies). -/
def State.put (s : State) (r : Reg) (v : Nat) (i j : Nat := 0) : State :=
  { s with regs := rins ⟨r, i, j⟩ v (rdel ⟨r, i, j⟩ s.regs) }

/-- A one-bit field as a Bool. -/
def State.isSet (s : State) (r : Reg) (i j : Nat := 0) : Bool := decide (s.get r i j ≠ 0)

/-- Add to a count that saturates at `max`. -/
def State.bump (s : State) (r : Reg) (max : Nat) (i j : Nat := 0) : State :=
  s.put r (satAdd max (s.get r i j) 1) i j

/-- Drop a field's written value: it reads its reset value again. -/
def State.unput (s : State) (r : Reg) (i j : Nat := 0) : State :=
  { s with regs := rdel ⟨r, i, j⟩ s.regs }

/-- Keep the fields a test accepts; every other one returns to its reset value. -/
def State.keepRegs (s : State) (keep : RegKey → Bool) : State :=
  { s with regs := s.regs.filter (fun p => keep p.1) }

/-- The next free value. -/
def State.draw (s : State) : Nat := Config.freeValue s.fresh

/-- One free value has been taken. -/
def State.drawn (s : State) : State := { s with fresh := s.fresh + 1 }

/-- Something leaves the device. -/
def State.emit (s : State) (o : Out) : State := { s with out := o :: s.out }

/-- Time on the `sys.time_sync` base, in µs, as records hold it: 50 bits (R102, R449). -/
def State.stamp (s : State) : Nat := ((s.now : Int) + s.pyx.timeBase).toNat / 1000 % 2 ^ 50

/-! ### Power domains and performance counters (R483, R508–R515) -/

/-- The condition of a power domain (R483): 0 off, 1 on, 2 retention, 3 clock-gated. An instance that is not in use is off in every state. -/
def State.domState (s : State) (j : Nat) : Nat :=
  let inUse : Bool :=
    if 2 ≤ j ∧ j ≤ 17 then !s.mem.disabledSlices.contains (j - 2)
    else if 18 ≤ j ∧ j ≤ 21 then s.host.perstHigh.contains (j - 18)
    else if 24 ≤ j ∧ j ≤ 29 then (List.range 8).any (fun e => decide (s.get .ENG_STS_STATE (8 * (j - 24) + e) < 2 ∨ s.get .ENG_STS_STATE (8 * (j - 24) + e) = 4))
    else if j = 30 then s.get .JOB_CTL_UNIT_EN != 0
    else decide (1 ≤ j)
  if ¬ inUse ∨ s.disabled.contains (bPwr * 1024 + j * 16) ∨ s.boot.phase < 2 ∨ s.pwr.stopped then 0
  else
    let ec := decide (24 ≤ j ∧ j ≤ 29)
    match s.get .PWR_STATE_PS with
    | 0 => 1
    | 1 => if ec ∨ j = 30 then 3 else 1
    | 2 => if s.pwr.woken.contains j then 1 else if (2 ≤ j ∧ j ≤ 17) ∨ ec then 2 else if j = 30 then 0 else 1
    | _ => 0

/-- The attributes of a request of a head, before stage 2 has resolved. -/
def headAttr (h lpn cls : Nat) : Attr := { master := some h, priv := 0, lpn := lpn, cls := cls, tier := 6 }

/-- A unit of R508. -/
inductive PmuUnit where
  | slice (n : Nat) | head (h : Nat) | cluster (c : Nat) | port (p : Nat) | global
  deriving DecidableEq, Repr

/-- The counters of a unit: first and number (R508). -/
def unitCounters : PmuUnit → Nat × Nat
  | .slice n => (8 * n, 8)
  | .head h => (128 + 8 * h, 8)
  | .cluster c => (192 + 4 * c, 4)
  | .port p => (216 + 8 * p, 8)
  | .global => (232, 24)

/-- Filter set f accepts an occurrence (R512). -/
def State.filterOk (s : State) (f : Nat) (a : Attr) : Bool :=
  (match a.master with
    | some m => if m < 64 then bit (s.get .PMU_FS_MASK0_MASK f) m else bit (s.get .PMU_FS_MASK1_MASK f) (m - 64)
    | none => true)
  && bit (s.get .PMU_FS_SEL_PRIVSET f) a.priv
  && (!s.isSet .PMU_FS_SEL_RANGE_EN f ||
      decide (s.get .PMU_FS_BASE_LPN f ≤ a.lpn ∧ a.lpn < s.get .PMU_FS_LIMIT_LPN f))
  && bit (s.get .PMU_FS_SEL_CLSET f) a.cls
  && bit (s.get .PMU_FS_SEL_TIERSET f) a.tier

/-- COUNT plus k, with the stop at 2^48 − 1 and sticky SAT (R509). -/
def State.pmuAdd (s : State) (n k : Nat) : State :=
  let c := s.get .PMU_CNT_COUNT n + k
  if c ≤ 0xFFFFFFFFFFFF then s.put .PMU_CNT_COUNT c n
  else (s.put .PMU_CNT_COUNT 0xFFFFFFFFFFFF n).put .PMU_CNT_SAT 1 n

/-- One counter sees an event: it counts when enabled, when its EVENT is the code, and when its filter accepts. -/
def State.pmuSee (s : State) (n code k : Nat) (a : Option Attr) : State :=
  if s.isSet .PMU_CTL_EN n ∧ s.get .PMU_CTL_EVENT n = code ∧
      (s.isSet .PMU_CTL_FILT n = false ∨ (match a with | some a => s.filterOk (s.get .PMU_CTL_FSET n) a | none => false) = true)
  then s.pmuAdd n k else s

/-- The counters from `lo`, `n` of them, see an event. -/
def State.pmuRange (s : State) (lo : Nat) : Nat → Nat → Nat → Option Attr → State
  | 0, _, _, _ => s
  | n + 1, code, k, a => (s.pmuSee (lo + n) code k a).pmuRange lo n code k a

/-- The counters of a unit count (R510, R515): its domain is on, the instance is in use, and no freeze stops them. -/
def State.unitCounts (s : State) (u : PmuUnit) : Bool :=
  !s.isSet .PMU_GCTL_FREEZE && (match u with
    | .slice n => s.domState (2 + n)
    | .head h => s.domState (18 + h / 2)
    | .cluster c => s.domState (24 + c)
    | .port p => s.domState (22 + p)
    | .global => s.domState 1) == 1

/-- An event of a unit occurs k times (R509, R512): the unit's counters, and for slices and heads the global sums with
codes 0x80 + e and 0xC0 + e. -/
def State.count (s : State) (u : PmuUnit) (code k : Nat) (a : Option Attr) : State :=
  if ¬ s.unitCounts u then s
  else
    let s1 := s.pmuRange (unitCounters u).1 (unitCounters u).2 code k a
    match u with
    | .slice _ => s1.pmuRange 232 24 (0x80 + code) k a
    | .head _ => s1.pmuRange 232 24 (0xC0 + code) k a
    | _ => s1

/-! ### Heads -/

def State.head (s : State) (h : Nat) : HeadSt := tgetD {} h s.host.heads

def State.setHead (s : State) (h : Nat) (v : HeadSt) : State :=
  { s with host := { s.host with heads := tput h v s.host.heads } }

/-- The block size of a Dynamic Capacity region of a head: a power of two from 2 MiB to 1 GiB (R51; log 41). -/
def dcBlock (h r : Nat) : Nat := 2 ^ (21 + Config.dcBlockLog h r % 10)

def State.ring (s : State) (h r : Nat) : RingSt := tgetD {} (64 * h + r) s.host.rings

def State.setRing (s : State) (h r : Nat) (v : RingSt) : State :=
  { s with host := { s.host with rings := tput (64 * h + r) v s.host.rings } }

/-- The heads whose STEWARD bit is 1. -/
def State.stewards (s : State) : List Nat := (List.range 8).filter (fun h => s.isSet .HPT_DEV_STS_STEWARD h)

/-- Signal an MSI-X vector of a head: a message where bus-master enable is set and the vector is unmasked, else its
pending bit (R56). -/
def State.msix (s : State) (h v : Nat) : State :=
  if s.isSet .HPT_HEAD_STS_BME h ∧ (tgetD {} v (s.head h).msix).mask = false then s.emit (.msix h v)
  else s.setHead h { s.head h with msixPend := linsert v (s.head h).msixPend }

/-- Place a record in an event log of a head; a full log drops it and counts the overflow (R68). -/
def State.logCxl (s : State) (h log : Nat) (rc : CxlRec) : State :=
  let hd := s.head h
  let l := tgetD {} log hd.logs
  if l.recs.length ≥ 256 then
    let l' := { l with
      overflow := true
      ovfCount := satAdd 0xFFFF l.ovfCount 1
      ovfFirst := if l.overflow then l.ovfFirst else s.stamp
      ovfLast := s.stamp }
    s.setHead h { hd with logs := tput log l' hd.logs }
  else
    let l' := { l with recs := l.recs ++ [{ rc with handle := l.nextHandle }], nextHandle := l.nextHandle + 1 }
    let s' := s.setHead h { hd with logs := tput log l' hd.logs }
    if bit hd.irqPolicy log then s'.msix h (log + 1) else s'

/-- The same record to a list of heads. -/
def State.logAll (s : State) (log : Nat) (rc : CxlRec) : List Nat → State
  | [] => s
  | h :: hs => (s.logCxl h log rc).logAll log rc hs

/-! ### Channels (R33, R262) -/

/-- XOR of the lowest k nibbles. -/
def nibXor : Nat → Nat → Nat
  | 0, _ => 0
  | k + 1, x => (x % 16) ^^^ nibXor k (x / 16)

/-- A channel is in service: SERVICE, FROZEN, HELD or PAUSED. -/
def State.inService (s : State) (c : Nat) : Bool :=
  let st := s.get .MEM_CH_STS_STATE c
  decide (2 ≤ st ∧ st ≤ 5)

/-- STATUS of a head as it reads (R58): once boot has ended, media is unavailable while no channel is in service. -/
def State.status (s : State) (h : Nat) : Nat :=
  let v := s.get .HPT_DEV_STS_STATUS h
  if v = stOk ∧ ¬ (List.range 16).any s.inService then stMediaNotReady else v

/-- b of R33: the interleave grain is 2^b granules. -/
def State.grainB (s : State) : Nat := match s.get .MEM_GLB_GRAIN with | 0 => 0 | 1 => 1 | 2 => 2 | _ => 4

/-- The channel of a granule (R33, R338). -/
def State.chanOf (s : State) (ma : Nat) : Nat :=
  let b := s.grainB
  bits ma b 4 ^^^ nibXor 8 (ma / 2 ^ (b + 4))

/-- The local granule index (R33). -/
def State.localOf (s : State) (ma : Nat) : Nat :=
  let b := s.grainB
  ma / 2 ^ (b + 4) * 2 ^ b + ma % 2 ^ b

/-- The granule of a channel with a local index: the inverse of `chanOf` and `localOf`. -/
def State.maOf (s : State) (c loc : Nat) : Nat :=
  let b := s.grainB
  let hi := loc / 2 ^ b
  hi * 2 ^ (b + 4) + (c ^^^ nibXor 8 hi) * 2 ^ b + loc % 2 ^ b

/-- Every copy of a fixed metadata area on a channel: where it begins, by local index, and its granules (R579). -/
def State.areasOn (s : State) (c : Nat) : List (Nat × Nat) :=
  s.pg.areas.flatMap (fun p => (p.2.places.filter (fun ma => decide (s.chanOf ma = c))).map (fun ma => (s.localOf ma, p.2.size)))

/-- Granules of the fixed metadata areas of a channel. -/
def State.chFixed (s : State) (c : Nat) : Nat := (s.areasOn c).foldl (fun a p => a + p.2) 0

/-- Granules of a channel that no fixed metadata area takes. -/
def State.chRoom (s : State) (c : Nat) : Nat := tgetD 0 c s.pg.chCap - s.chFixed c

/-- Granules of a node unit (R287). -/
abbrev unitLen : Nat := 256

/-- The copies of node units on a channel, by local index (R287); copy A is `true`. -/
def State.unitsOn (s : State) (c : Nat) : List (Nat × Bool) :=
  (s.pg.nodes.filter (fun p => decide (p.1 / 2 ^ 24 = 3))).flatMap (fun p =>
    (if s.chanOf p.2.a = c then [(s.localOf p.2.a, true)] else []) ++ (if s.chanOf p.2.b = c then [(s.localOf p.2.b, false)] else []))

/-- Granules of pages and loans on a channel: roles 1, 2, 3 and 6 (R320). -/
def State.chPages (s : State) (c : Nat) : Nat :=
  (s.pg.own.filter (fun p => decide (p.2.role ≠ 0 ∧ s.chanOf p.1 = c))).length

/-- Granules in use on a channel, of roles 1 to 6. -/
def State.chUsed (s : State) (c : Nat) : Nat := s.chPages c + unitLen * (s.unitsOn c).length

/-- The owner entry of a granule (R320), which the allocator last wrote for it: of an image, twin, tag table or loan; of a node unit; or of a fixed area. -/
def State.ownAt (s : State) (ma : Nat) : Option Own :=
  match tget ma s.pg.own with
  | some o => if o.role ≠ 0 then some o else
    match (s.unitsOn (s.chanOf ma)).find? (fun u => decide (u.1 ≤ s.localOf ma ∧ s.localOf ma < u.1 + unitLen)) with
    | some u => some { lpn := 0, role := if u.2 then 4 else 5, code := 1, start := decide (u.1 = s.localOf ma) }
    | none => some o
  | none =>
    match (s.unitsOn (s.chanOf ma)).find? (fun u => decide (u.1 ≤ s.localOf ma ∧ s.localOf ma < u.1 + unitLen)) with
    | some u => some { lpn := 0, role := if u.2 then 4 else 5, code := 1, start := decide (u.1 = s.localOf ma) }
    | none =>
      match (s.areasOn (s.chanOf ma)).find? (fun a => decide (a.1 ≤ s.localOf ma ∧ s.localOf ma < a.1 + a.2)) with
      | some a => some { lpn := 0, role := 7, code := 1, start := decide (a.1 = s.localOf ma) }
      | none => none

/-- Physically free granules of a channel. -/
def State.chFree (s : State) (c : Nat) : Nat := s.chRoom c - s.chUsed c

/-- A channel that takes allocations: in service and not being evacuated (R257, R262). -/
def State.canPlace (s : State) (c : Nat) : Bool := s.inService c && decide (s.get .SLT_CH_SVC_SVC c = 0)

/-- Physically free granules of the other channels in service (R262). -/
def State.othersFree (s : State) (c : Nat) : Nat :=
  ((List.range 16).filter (fun d => d ≠ c && s.inService d)).foldl (fun a d => a + s.chFree d) 0

/-- Granules allocated on a channel, its fixed areas among them (R262, R579). -/
def State.chAlloc (s : State) (c : Nat) : Nat := s.chUsed c + s.chFixed c

/-- Granules that evacuation of a channel lacks: of free media elsewhere, or of USABLE without it (R262, R481). -/
def State.evacLack (s : State) (c : Nat) : Nat :=
  max (s.chAlloc c - s.othersFree c)
    (s.get .XLT_CAP_COUNT 1 + s.get .XLT_CAP_COUNT 2 + (if s.canPlace c then s.chRoom c else 0) - s.get .XLT_CAP_COUNT 0)

/-- Channel c is ready for evacuation (R262). -/
def State.evacReady (s : State) (c : Nat) : Bool := decide (s.evacLack c = 0)

/-- An evacuation runs (R432, R475): some channel is EVACUATING. -/
def State.evacuating (s : State) : Bool := (List.range 16).any (fun c => s.get .SLT_CH_SVC_SVC c == 1)

/-! ### Fault collector -/

/-- The source ID of a message (R439). -/
def srcId (m : Msg) : Nat := m.code * 1024 + m.inst * 16 + m.sub

/-- The sources that list an escalation step after the grace timer (the source tables named at `sevRow`). -/
def hasEscalation (m : Msg) : Bool :=
  match m.code with
  | 0x01 => decide (m.inst < 8 ∧ m.sub = 4)
  | 0x02 => decide (m.sub = 6)
  | 0x03 => decide (m.sub = 1 ∨ m.sub = 2 ∨ m.sub = 4)
  | 0x04 => decide (m.sub = 0 ∨ m.sub = 2 ∨ m.sub = 3 ∨ m.sub = 5 ∨ m.sub = 6 ∨ m.sub = 0xA)
  | 0x05 => decide (m.sub = 1 ∨ m.sub = 4 ∨ m.sub = 5)
  | 0x06 => decide (m.sub = 5 ∨ m.sub = 6)
  | 0x07 => decide (m.sub = 1 ∨ m.sub = 2)
  | 0x08 => decide (m.sub = 1 ∨ m.sub = 2 ∨ m.sub = 5)
  | 0x09 => decide (m.sub = 2 ∨ m.sub = 3)
  | 0x0A => decide (m.sub = 0 ∨ m.sub = 1 ∨ m.sub = 3)
  | 0x0B => decide (m.inst < 32 ∧ (m.sub = 0 ∨ m.sub = 1 ∨ m.sub = 3 ∨ m.sub = 4))
  | 0x0C => decide (m.inst < 31 ∧ m.sub = 0)
  | 0x0E => decide ((m.inst = 0 ∧ (m.sub = 8 ∨ m.sub = 9)) ∨ (m.inst ≠ 0 ∧ m.sub = 0))
  | 0x10 => decide (m.sub = 4)
  | 0x11 => decide (m.sub = 3)
  | 0x12 => decide (m.sub = 2 ∨ m.sub = 3 ∨ m.sub = 5)
  | _ => false

/-- The message starts a grace timer: its source lists a step, and for a slot its channel is in service (R482). -/
def State.escalates (s : State) (m : Msg) : Bool := hasEscalation m && (decide (m.code ≠ 0x0B) || s.inService (m.inst / 2))

/-- The step sets Maintenance Needed (R454): it marks or removes a channel, retires an engine, a job unit or a
power-domain instance, or switches off a cluster. -/
def needsMaintenance (m : Msg) : Bool :=
  match m.code with
  | 0x04 => decide (m.sub ≠ 6)
  | 0x09 => decide (m.sub = 3)
  | 0x0A | 0x0B | 0x0C | 0x12 => true
  | _ => false

/-- A message of severity Note or Corrected (FCLASS 1), Contained (2), or fixed class Fatal (3, FIXED). -/
def msg1 (code inst sub : Nat) (addr : Nat := 0) (extra : Nat := 0) (kind : Nat := 0) : Msg :=
  { code := code, inst := inst, sub := sub, fclass := 1, addr := addr, extra := extra, kind := kind }

def msg2 (code inst sub : Nat) (addr : Nat := 0) (extra : Nat := 0) (kind : Nat := 0) : Msg :=
  { code := code, inst := inst, sub := sub, fclass := 2, addr := addr, extra := extra, kind := kind }

def msgFatal (code inst sub : Nat) (addr : Nat := 0) (extra : Nat := 0) (kind : Nat := 0) : Msg :=
  { code := code, inst := inst, sub := sub, fclass := 3, fixed := true, addr := addr, extra := extra, kind := kind }

/-- Mark a channel for evacuation (R476): it waits, with MARK_WAIT = 1, while it lacks room or another channel is EVACUATING; the Note of
the wait is due once. A channel whose mark or service is under way keeps its place. -/
def State.markEvac (s : State) (c : Nat) : State :=
  let s := s.put .MEM_CH_STS_EVAC_MARK 1 c
  if s.get .SLT_CH_SVC_SVC c ≠ 0 ∨ s.slt.marks.contains c then s
  else
    let s : State := { s with slt := { s.slt with marks := s.slt.marks ++ [c] } }
    if s.evacReady c ∧ ¬ s.evacuating then s
    else ({ s with due := s.due ++ [msg1 bSlt (2 * c) 7] } : State).put .SLT_CH_SVC_MARK_WAIT 1 c

/-- Switch a cache way, an entry, a lane or a row off for good (until the next reset). -/
def State.disable (s : State) (src : Nat) : State := { s with disabled := linsert src s.disabled }

/-! ### Channels and their points -/

/-- The data rate of a RATE code, in MT/s (`MEM_CH_STS`). -/
def rateOf (code : Nat) : Nat :=
  match code with
  | 0 => 4400 | 1 => 4800 | 2 => 5600 | 3 => 6400 | 4 => 7200 | 5 => 8000 | 6 => 8800 | _ => 12800

def State.chan (s : State) (c : Nat) : ChanSt := tgetD {} c s.mem.chans

def State.setChan (s : State) (c : Nat) (v : ChanSt) : State :=
  { s with mem := { s.mem with chans := tput c v s.mem.chans } }

/-- The trained points of a channel, by falling rate. -/
def State.trained (s : State) (c : Nat) : List Nat :=
  let ok := (List.range 4).filter (fun p => s.isSet .MEM_FP_TRAINED c p)
  let add := fun (l : List Nat) p =>
    l.takeWhile (fun x => decide (rateOf (s.get .MEM_FP_RATE c p) ≤ rateOf (s.get .MEM_FP_RATE c x))) ++ p ::
      l.dropWhile (fun x => decide (rateOf (s.get .MEM_FP_RATE c p) ≤ rateOf (s.get .MEM_FP_RATE c x)))
  ok.foldl add []

/-- Ask for the lowest trained point (the escalation of MEM 0x6). -/
def State.askLowest (s : State) (c : Nat) : State :=
  match (s.trained c).getLast? with
  | some p => s.setChan c { s.chan c with changeTo := some p }
  | none => s

/-- Engines that are healthy or rolling (R554, R555). -/
def State.healthy (s : State) : Nat :=
  ((List.range 48).filter (fun n => decide (s.get .ENG_STS_STATE n = 0 ∨ s.get .ENG_STS_STATE n = 4))).length

/-- Recount the healthy and the retired engines (`ENG_GLB`, R554). -/
def State.countEngines (s : State) : State :=
  let st := fun n => s.get .ENG_STS_STATE n
  let retired := ((List.range 48).filter (fun n => decide (st n = 2))).foldl (fun a n => a + 2 ^ n) 0
  (s.put .ENG_GLB_HEALTHY s.healthy).put .ENG_GLB_RETIRED retired

/-- Engines of a cluster have left: fewer than 40 healthy ones are reported once (R555). -/
def State.fewEngines (s : State) (cluster : Nat) : State :=
  let was := s.get .ENG_GLB_HEALTHY
  let s := s.countEngines
  if 40 ≤ was ∧ s.get .ENG_GLB_HEALTHY < 40 then { s with due := s.due ++ [msgFatal bEng (48 + cluster) 4] } else s

/-- The fields that a source's escalation step reloads from the configuration block are reloaded (R459, R533). -/
def State.reloadFields (s : State) (m : Msg) : State :=
  let s := (tgetD [] (srcId m) s.flt.reload).foldl (fun (s : State) x => s.put x.1.r x.2 x.1.i x.1.j) s
  { s with flt := { s.flt with reload := tdel (srcId m) s.flt.reload } }

/-- A unit that an escalation step has disabled. -/
def State.isOff (s : State) (code inst sub : Nat) : Bool := s.disabled.contains (code * 1024 + inst * 16 + sub)

/-- The escalation step of a source, as its chapter's table states it. -/
def State.escalate (s : State) (m : Msg) : State :=
  match m.code with
  | 0x04 =>
    if m.sub = 6 then s.askLowest m.inst else s.markEvac m.inst
  | 0x12 => s.markEvac m.inst
  | 0x0B => s.markEvac (m.inst / 2)
  | 0x05 => if m.sub = 1 then s.emit (.event 0x0501 m.inst 0) else s.disable (srcId m)
  | 0x08 => if m.sub = 2 then s.emit (.event 0x0802 m.inst m.addr) else s.disable (srcId m)
  | 0x09 => if m.sub = 3 then s.put .JOB_UNIT_STS_RETIRED 1 m.inst else s.disable (srcId m)
  | 0x0A =>
    if m.sub = 3 then
      (((List.range 8).map (fun k => 8 * (m.inst - 48) + k)).foldl (fun s n => s.put .ENG_STS_STATE 3 n) s).fewEngines (m.inst - 48)
    else (s.put .ENG_STS_STATE 2 m.inst).fewEngines (m.inst / 8)
  | 0x0C => s.disable (srcId m)
  | 0x0E =>
    if m.inst = 0 ∧ m.sub = 8 then s.reloadFields m
    else if m.inst = 0 ∧ m.sub = 9 then
      ({ s with flt := { s.flt with off := linsert m.addr s.flt.off } } : State).put .FLT_STS_DISABLED (satAdd 255 (s.get .FLT_STS_DISABLED) 1)
    else s.disable (srcId m)
  | 0x10 => s.reloadFields m
  | _ => s.disable (srcId m)

/-- The two words of a message (R439). -/
def msgWord (m : Msg) (w : Nat) : Nat :=
  match w with
  | 0 => srcId m + m.kind * 2 ^ 16 +
      (m.fclass + 4 * b2n m.fixed + 8 * b2n m.active + 16 * b2n m.ended + 32 * b2n m.inj) * 2 ^ 24 + (m.addr % 2 ^ 32) * 2 ^ 32
  | _ => m.addr / 2 ^ 32 % 2 ^ 32 + (m.extra % 2 ^ 32) * 2 ^ 32

/-- The effective severity of a message and whether the fixed class applied (R442). -/
def State.severity (s : State) (m : Msg) : Nat × Bool :=
  let k := 16 * m.code + m.sub
  if m.fixed then (m.fclass, false)
  else
    let (v, sv) := match m.fclass with
      | 1 => (s.get .FLT_SEV_V_C k, s.get .FLT_SEV_SEV_C k)
      | 2 => (s.get .FLT_SEV_V_U k, s.get .FLT_SEV_SEV_U k)
      | _ => (s.get .FLT_SEV_V_F k, s.get .FLT_SEV_SEV_F k)
    if v = 1 ∧ s.get .FLT_SEV_CHKFAIL k = 0 then (sv, false) else (m.fclass, true)

/-- Whether a message merges into a record (R449). -/
def merges (m : Msg) (sev time : Nat) (r : FltRec) : Bool :=
  decide (sev ≤ 1 ∧ srcId r.msg = srcId m ∧ r.msg.kind = m.kind ∧ r.sev = sev ∧ r.count < 63 ∧
    time - r.time ≤ 1000000 ∧ r.time - time ≤ 1000000)

/-- The entry whose record has the highest, or the lowest, SEQ among those a test accepts. -/
def newest (ok : FltRec → Bool) : Tab FltRec → Option (Nat × FltRec)
  | [] => none
  | (k, r) :: t =>
    match newest ok t with
    | some (k', r') => if ok r ∧ r'.seq < r.seq then some (k, r) else some (k', r')
    | none => if ok r then some (k, r) else none

def oldest (ok : FltRec → Bool) : Tab FltRec → Option (Nat × FltRec)
  | [] => none
  | (k, r) :: t =>
    match oldest ok t with
    | some (k', r') => if ok r ∧ r.seq < r'.seq then some (k, r) else some (k', r')
    | none => if ok r then some (k, r) else none

/-- The lowest free entry of a range of the queue. -/
def freeEntry (t : Tab FltRec) (off : List Nat) (lo n : Nat) : Option Nat :=
  ((List.range n).map (· + lo)).find? (fun k => (tget k t).isNone && !off.contains k)

/-- The entry a record takes and whether it overwrites one (R450). -/
def allocEntry (t : Tab FltRec) (off : List Nat) (sev : Nat) : Option (Nat × Option FltRec) :=
  let among := fun ok => (oldest ok t).map (fun p => (p.1, some p.2))
  if sev = 3 then
    match freeEntry t off 0 32, freeEntry t off 32 224 with
    | some k, _ => some (k, none)
    | none, some k => some (k, none)
    | none, none => among (fun r => decide (r.sev ≠ 3))
  else
    match freeEntry t off 32 224 with
    | some k => some (k, none)
    | none => among (fun r => decide (r.sev ≤ 1) && !r.tmr && !r.active)

def State.setRecs (s : State) (t : Tab FltRec) : State := { s with flt := { s.flt with recs := t } }

/-- The CXL mirror a record takes (R68, R454): by its source, or as the caller of `report` names it. -/
inductive Mirror where
  /-- By the source table of R454. -/
  | std
  /-- Poison returned to an access of a head: General Media Event Record with a DPA. -/
  | poison (h dpa : Nat)
  /-- Translation fault of an access of a head: TYPE 2. -/
  | xlat (h dpa b : Nat)
  /-- Security alarm: TYPE 3. -/
  | alarm (a b c : Nat)
  /-- Media poison: TYPE 1 naming the LPN. -/
  | media (a : Nat)
  /-- Access denied to a head: TYPE 0 to that head (R524). -/
  | toHead (h : Nat)
  deriving DecidableEq, Repr

/-- The log of a severity (R443). -/
def logOf (sev : Nat) : Nat := match sev with | 2 => 2 | 3 => 3 | _ => 0

/-- Mirror a new record to CXL (R454). -/
def State.mirror (s : State) (r : FltRec) (k : Mirror) : State :=
  if r.sev = 0 ∧ ¬ s.isSet .FLT_CTL_NOTE_MIRROR then s
  else
    let log := logOf r.sev
    match k with
    | .poison h dpa => s.logCxl h log { handle := 0, kind := 2, a := dpa, record := some r }
    | .xlat h dpa b => s.logCxl h log { handle := 0, kind := 3, typ := 2, a := dpa, b := b, record := some r }
    | .toHead h => s.logCxl h log { handle := 0, kind := 3, typ := 0, record := some r }
    | .alarm a b c => s.logAll log { handle := 0, kind := 3, typ := 3, a := a, b := b, c := c, record := some r } s.stewards
    | .media a => s.logAll log { handle := 0, kind := 3, typ := 1, a := a, record := some r } s.stewards
    | .std =>
      let kind := if r.msg.code = bSlt ∨ (r.msg.code = bMem ∧ (r.msg.sub = 6 ∨ r.msg.sub = 7 ∨ r.msg.sub = 9)) then 1
        else if r.msg.code = bMem ∨ r.msg.code = bEcc then 0 else 3
      s.logAll log { handle := 0, kind := kind, record := some r } s.stewards

/-- Order the escalation of a message and mirror it as a TYPE 5 record in the Warning log (R445, R454): `why` 1 expiry,
2 second Contained, 3 dropped. A message that `flt.inject` delivered takes no step (R457). -/
def State.orderEscalation (s : State) (m : Msg) (direct : Bool) (seq why : Nat) (r : Option FltRec) : State :=
  let s := if direct then s else s.escalate m
  s.logAll 1 { handle := 0, kind := 3, typ := 5, a := seq, b := why, maint := needsMaintenance m, record := r,
               lost := if r.isNone then some m else none } s.stewards

/-- A message with ENDED clears ACTIVE in every record of its SRC and KIND (R449). -/
def endActive (m : Msg) (t : Tab FltRec) : Tab FltRec :=
  t.map (fun p => if srcId p.2.msg = srcId m ∧ p.2.msg.kind = m.kind then (p.1, { p.2 with active := false }) else p)

/-- The record with a running timer that shares a SRC (R446). -/
def timed (src : Nat) (t : Tab FltRec) : Option (Nat × FltRec) := newest (fun r => decide (srcId r.msg = src) && r.tmr) t

/-- Take one message and make, merge or drop its record (R442–R451). Answers the state, the SEQ made (0 when merged or
dropped) and whether a record was overwritten or dropped (FAB 0xA, R459). -/
def State.collect (s : State) (m : Msg) (k : Mirror) (direct : Bool) : State × Nat × Bool :=
  if m.ended then (s.setRecs (endActive m s.flt.recs), 0, false)
  else
    let (sev, fb) := s.severity m
    match newest (merges m sev s.stamp) s.flt.recs with
    | some (i, r) =>
      (s.setRecs (tput i { r with count := satAdd 63 r.count 1, active := r.active || m.active } s.flt.recs), 0, false)
    | none =>
      match allocEntry s.flt.recs s.flt.off sev with
      | none =>
        if sev = 3 then
          let s := s.bump .FLT_OVF_FATAL_OVF 0x7FFF
          let s := if s.get .FLT_OVF_MSG0_MSG = 0 ∧ s.get .FLT_OVF_MSG1_MSG = 0 then
              (s.put .FLT_OVF_MSG0_MSG (msgWord m 0)).put .FLT_OVF_MSG1_MSG (msgWord m 1)
            else s
          (s.bump .FLT_OVF_DROPPED 0xFFFF, 0, true)
        else
          let s := s.bump .FLT_OVF_DROPPED 0xFFFF
          let s := if sev = 2 ∧ s.escalates m then s.orderEscalation m direct 0 3 none else s
          (s, 0, true)
      | some (i, old) =>
        let seq := s.get .FLT_SEQ_NEXT
        let second := if sev = 2 then timed (srcId m) s.flt.recs else none
        let timer := decide ((sev = 1 ∨ sev = 2) ∧ second = none) && s.escalates m
        let r : FltRec :=
          { msg := m, seq := seq, time := s.stamp, count := 0, sev := sev, fallbk := fb, tmr := timer,
            ack := false, esc := second.isSome, active := m.active, direct := direct }
        let s := s.put .FLT_SEQ_NEXT (seq + 1)
        let s := if old.isSome then s.bump .FLT_OVF_OVERWRITTEN 0xFFFF else s
        let s := match old with
          | some o => if o.tmr then s.orderEscalation o.msg o.direct o.seq 1 (some o) else s
          | none => s
        let s := match second with
          | some (j, o) => s.setRecs (tput j { o with tmr := false, esc := true } s.flt.recs)
          | none => s
        let s := s.setRecs (tput i r s.flt.recs)
        let s := if sev = 3 then { s with flt := { s.flt with ring := (r :: s.flt.ring).take 16 } } else s
        let s := s.mirror r k
        let s := if second.isSome then s.orderEscalation m direct seq 2 (some r) else s
        (s, seq, old.isSome)

/-- The FAB 0xA Note that reports an overwrite or a drop (R450, R459). -/
def ovfNote : Msg := { code := bFab, inst := 0, sub := 0xA, fclass := 1 }

/-- Collect messages in order. -/
def State.collectAll (s : State) : List Msg → State
  | [] => s
  | m :: l => ((s.collect m .std false).1).collectAll l

/-- The messages that escalation steps owe: a marked channel that waits (R476), too few engines (R555). -/
def State.afterSteps (s : State) : State := ({ s with due := [] } : State).collectAll s.due

/-- Deliver a message to the collector; an overwrite or a drop is reported by a Note whose own loss is only counted. -/
def State.reportK (s : State) (m : Msg) (k : Mirror) (direct : Bool) : State × Nat :=
  let s := s.count .global 0x06 1 none
  match s.collect m k direct with
  | (s', seq, true) => ((s'.collect ovfNote .std false).1.afterSteps, seq)
  | (s', seq, false) => (s'.afterSteps, seq)

/-- Deliver a message of a block (R439, R441). -/
def State.report (s : State) (m : Msg) : State := (s.reportK m .std false).1

/-- Deliver a message with a mirror of its own. -/
def State.reportTo (s : State) (m : Msg) (k : Mirror) : State := (s.reportK m k false).1

/-- ERR_N is driven low (R453). -/
def State.errLow (s : State) (halted : Bool) : Bool :=
  halted || s.flt.recs.any (fun p => decide (s.get .FLT_CTL_PINSEV ≤ p.2.sev))

/-- MALERT_N is driven low (R453). -/
def State.alertLow (s : State) (halted : Bool) : Bool :=
  halted || s.flt.recs.any (fun p => decide (s.get .FLT_CTL_ALERTSEV ≤ p.2.sev))

/-! ### Homes (R30, R31) -/

/-- The home slice an LPN hashes to (R30). -/
def homeHash (lpn : Nat) : Nat := nibXor 8 lpn ^^^ (lpn / 2 ^ 32 % 2)

/-- The home slice of a page; the neighbour serves for a disabled slice (R31). -/
def State.home (s : State) (lpn : Nat) : Nat :=
  let h := homeHash lpn
  if s.mem.disabledSlices.contains h then h ^^^ 1 else h

/-! ### Events that notify (R578) -/

/-- The four words of a record window (R449); all 0 while the entry is free. -/
def recWord (r : FltRec) (w : Nat) : Nat :=
  match w with
  | 0 => msgWord r.msg 0
  | 1 => msgWord r.msg 1
  | 2 => r.seq
  | _ => r.time % 2 ^ 50 + r.count * 2 ^ 50 + 2 ^ 56 + r.sev * 2 ^ 57 + b2n r.fallbk * 2 ^ 59 + b2n r.tmr * 2 ^ 60 +
      b2n r.ack * 2 ^ 61 + b2n r.esc * 2 ^ 62 + b2n r.active * 2 ^ 63

/-- A record as four 8-byte output fields from an offset on. -/
def recOut (off : Nat) (r : FltRec) : Output :=
  [(off, 8, recWord r 0), (off + 8, 8, recWord r 1), (off + 16, 8, recWord r 2), (off + 24, 8, recWord r 3)]

/-- A Pyryx asynchronous notification of an event: a TYPE 4 record in the Informational log of every Steward head, MSI-X
vector 6 there, and an MCTP notification to the registered EID, whose content is the 80 data bytes of the record (R455). -/
def State.notify (s : State) (a b c : Nat) (r : Option FltRec) : State :=
  let s := s.logAll 0 { handle := 0, kind := 3, typ := 4, a := a, b := b, c := c, record := r } s.stewards
  let s := s.stewards.foldl (fun s h => s.msix h 6) s
  match s.pyx.receiver with
  | some (eid, _) => s.emit (.mctpNotify eid 2 ((match r with | some f => recOut 0 f | none => []) ++ [(0x20, 1, 4), (0x28, 8, a), (0x30, 8, b), (0x38, 8, c)]))
  | none => s

/-- A fault message whose event is notified too: the notification carries the record, where the message made one of its own. -/
def State.reportNotify (s : State) (m : Msg) (a b c : Nat) : State :=
  let t := s.report m
  t.notify a b c ((newest (fun r => decide (s.get .FLT_SEQ_NEXT ≤ r.seq ∧ srcId r.msg = srcId m)) t.flt.recs).map (·.2))

end Sys2Proof.Machine
end

