-- ==== Sys2Proof/Machine/Operands.lean ====
section
/-!
DEFINITION. The operand forms of a Pyryx request: its inline parameters, its reserved bits and its header fields
(R82, R83, R86 step 5).
-/
namespace Sys2Proof.Machine
open Sys2Proof

/-- An inline parameter: `size` bytes at a byte offset of the request (0x10–0x3F), little-endian. -/
def par (r : Req) (off size : Nat) : Nat := bits r.param (8 * (off - 0x10)) (8 * size)

/-- A flag bit of the byte at an offset. -/
def parBit (r : Req) (off b : Nat) : Bool := bit r.param (8 * (off - 0x10) + b)

/-- `width` bits of the parameter at an offset, from bit `lo` of that byte up. -/
def parBits (r : Req) (off lo width : Nat) : Nat := bits r.param (8 * (off - 0x10) + lo) width

/-- The parameter bits that no listed field covers; a field is (byte offset, bit within it, width in bits). -/
def unlisted (p : Nat) : List (Nat × Nat × Nat) → Nat
  | [] => p
  | (off, lo, w) :: fs =>
    let at' := 8 * (off - 0x10) + lo
    unlisted (p - bits p at' w * 2 ^ at') fs

/-- The lowest byte of a number that is not 0, among 48. -/
def firstByte (p : Nat) : Nat := ((List.range 48).find? (fun k => decide (bits p (8 * k) 8 ≠ 0))).getD 0

/-- The byte offset of the first reserved parameter byte that is not 0 (R86 step 5, R102). -/
def reservedAt (fs : List (Nat × Nat × Nat)) (r : Req) : Option Nat :=
  let p := unlisted r.param fs
  if p = 0 then none else some (0x10 + firstByte p)

/-- Whole bytes at an offset. -/
def fld (off size : Nat) : Nat × Nat × Nat := (off, 0, 8 * size)

/-- Bits of the byte at an offset. -/
def fbits (off lo w : Nat) : Nat × Nat × Nat := (off, lo, w)

/-- The lowest offset among checks that fail: (offset, the field is valid). -/
def firstBad : List (Nat × Bool) → Option Nat
  | [] => none
  | (off, ok) :: cs =>
    match firstBad cs with
    | some o => if ok then some o else some (min off o)
    | none => if ok then none else some off

/-- Optional offsets, lowest first. -/
def minOff : Option Nat → Option Nat → Option Nat
  | some a, some b => some (min a b)
  | some a, none => some a
  | none, b => b

/-- What the opcode table and its chapter say of a command: opcode, lowest privilege (0 Observer, 1 Tenant, 2 Steward),
whether the mailbox and MCTP carry it, its listed parameter fields, CTXV (0: must be 0; 1: must be 1; 2: either), the
longest payload it takes (0: none), and whether it produces output data. -/
structure CmdInfo where
  op : Nat
  priv : Nat
  mbox : Bool := true
  mctp : Bool := false
  fields : List (Nat × Nat × Nat) := []
  ctx : Nat := 0
  payload : Nat := 0
  output : Bool := false
  deriving DecidableEq, Repr

/-- The opcodes of the opcode table (R105): each family's first opcode, and how many it has. -/
def opcodes : List Nat :=
  [(0x0100, 8), (0x0200, 4), (0x0300, 8), (0x0400, 3), (0x0500, 8), (0x0600, 7), (0x0700, 9), (0x0800, 5), (0x0900, 6), (0x0A00, 7), (0x0B00, 6),
   (0x0C00, 4), (0x0D00, 6), (0x0E00, 4), (0x0F00, 5), (0x1000, 4), (0x1100, 5)].flatMap (fun (f : Nat × Nat) => (List.range f.2).map (f.1 + ·))

/-- The command takes inline parameters below 0x38 (payload) or 0x30 (output): the host addresses of R83 are listed
fields of a ring request that sets PLPTR or OUTPTR. -/
def ptrFields (r : Req) : List (Nat × Nat × Nat) :=
  (if r.plptr then [fld 0x38 8] else []) ++ (if r.outptr then [fld 0x30 8] else [])

/-- The request came on a ring. -/
def onRing (r : Req) : Bool := match r.origin with | .ring _ _ => true | _ => false

/-- The longest payload of the transport (R82, R92, R97). -/
def plenMax (r : Req) : Nat :=
  match r.origin with
  | .mailbox _ => 262080
  | .ring _ _ => 1048576
  | .mctp _ _ _ => 65536

/-- The first invalid header field (R82, R83): reserved flags, PLPTR and OUTPTR, PLEN, reserved bits beside CTXV, CTXV,
alignment of the host addresses. -/
def badHeader (info : CmdInfo) (r : Req) : Option Nat :=
  firstBad [
    (0x02, decide (r.rsvFlags = 0)),
    (0x02, onRing r || (!r.plptr && !r.outptr)),
    (0x02, !(onRing r) || decide (r.plen = 0) || r.plptr),
    (0x02, !(onRing r) || !info.output || r.outptr),
    (0x08, decide (r.plen ≤ info.payload ∧ r.plen ≤ plenMax r)),
    (0x0C, decide (r.rsvTc = 0)),
    (0x0C, decide (info.ctx ≠ 0) || !r.ctxv),
    (0x0C, decide (info.ctx ≠ 1) || r.ctxv),
    (0x30, !r.outptr || decide (par r 0x30 8 % 64 = 0)),
    (0x38, !r.plptr || decide (par r 0x38 8 % 64 = 0))]

end Sys2Proof.Machine
end

