-- ==== Sys2Proof/Machine/Pyryx.lean ====
section
/-!
DEFINITION. How a Pyryx request is checked, served and answered (R82–R101, R577): written once, used by every command.
-/
namespace Sys2Proof.Machine
open Sys2Proof

/-! ### Replies -/

/-- Ring registers count modulo the CQ size (R94). -/
def State.cqSize (s : State) (h r : Nat) : Nat := 2 ^ s.get .HPT_RING_CFG_CQLOG2 h r

def State.sqSize (s : State) (h r : Nat) : Nat := 2 ^ s.get .HPT_RING_CFG_SQLOG2 h r

/-- Send the ring's MSI-X message when the unsignalled completions reach COAL_CNT (R95). -/
def State.ringIrq (s : State) (h r : Nat) : State :=
  let rg := s.ring h r
  if s.isSet .HPT_RING_CFG_IRQ_EN h r ∧ 0 < rg.unsignalled ∧ max 1 (s.get .HPT_RING_CFG_COAL_CNT h r) ≤ rg.unsignalled then
    (s.setRing h r { rg with unsignalled := 0 }).msix h (8 + r)
  else s

/-- The 32 bytes of a reply or of a completion-ring entry (R85); SQHEAD and RING are 0 off the rings, as is PHASE. -/
def replyImage (phase : Nat) (final : Bool) (status tag result detail outlen sqhead ring : Nat) : Output :=
  [(0x00, 2, status), (0x02, 1, phase + 2 * b2n final), (0x03, 1, 1), (0x04, 4, tag), (0x08, 8, result), (0x10, 4, detail), (0x14, 4, outlen),
   (0x18, 2, sqhead), (0x1A, 1, ring)]

/-- Output fields moved up by some bytes. -/
def outShift (k : Nat) (o : Output) : Output := o.map (fun f => (f.1 + k, f.2))

/-- The bytes that leave with a reply, an entry or a notification: the entry of a ring, the reply with its output on the mailbox, and over MCTP the
message of type 0x7E with vendor ID and kind byte, and the subtype of a notification (R85, R92, R97, R578). -/
def Out.bytes (o : Out) : Option Output :=
  let mctp := fun (kind : Nat) (body : Output) => (([(0, 1, 0x7E), (1, 2, 0x1F2C), (3, 1, kind)] : Output) ++ outShift 4 body)
  match o with
  | .cqe _ r _ phase final status tag result detail outlen sqhead => some (replyImage phase final status tag result detail outlen sqhead r)
  | .reply dst final status tag result detail outlen output =>
    let body := replyImage 0 final status tag result detail outlen 0 0 ++ outShift 0x20 output
    match dst with
    | .mctp _ _ _ => some (mctp 2 body)
    | _ => some body
  | .mctpNotify _ sub content => some (mctp 3 ((0, 1, sub) :: outShift 1 content))
  | _ => none

/-- The transmission units of an MCTP message of some bytes by its binding (R97): 64 bytes on I3C and SMBus; 64 to 512 on PCIe VDM, which of
them an implementation decides. -/
def mctpUnits (binding bytes : Nat) : Nat :=
  let unit := if binding = 2 then 64 + Config.vdmUnit % 449 else 64
  (bytes + unit - 1) / unit

/-- Write a completion-ring entry at CQTAIL with the current PHASE (R85, R94, R95). A ring that is not RUNNING or
DRAINING takes none (R96). -/
def State.writeCqe (s : State) (h r : Nat) (final noirq : Bool) (status tag result detail outlen : Nat) : State :=
  let st := s.get .HPT_RING_STS_STATE h r
  if st = 1 ∨ st = 3 then
    let idx := s.get .HPT_RING_STS_CQTAIL h r
    let ph := s.get .HPT_RING_STS_PHASE h r
    let s1 := s.emit (.cqe h r idx ph final status tag result detail outlen (s.get .HPT_RING_STS_SQHEAD h r))
    let nx := (idx + 1) % s.cqSize h r
    let s2 := (s1.put .HPT_RING_STS_CQTAIL nx h r).put .HPT_RING_STS_PHASE (if nx = 0 then 1 - ph else ph) h r
    let rg := s2.ring h r
    (s2.setRing h r { rg with
      unreleased := rg.unreleased + 1
      unsignalled := if noirq then rg.unsignalled else rg.unsignalled + 1 }).ringIrq h r
  else s

/-- Answer a request on the transport it came by (R85, R92, R95, R97). -/
def State.reply (s : State) (q : Req) (status result detail outlen : Nat) (output : Output) : State :=
  match q.origin with
  | .mailbox h =>
    let hd := s.head h.val
    let s1 := s.setHead h.val
      { hd with mbox := some { code := 0, status := status, detail := detail, result := result, tag := q.tag }, mboxBusy := false }
    (s1.emit (.reply q.origin false status q.tag result detail outlen output)).msix h.val 0
  | .ring h r =>
    let s1 := if outlen = 0 then s else s.emit (.hostWrite h.val (par q 0x30 8) outlen output)
    let s2 := s1.writeCqe h.val r.val false q.noirq status q.tag result detail outlen
    let rg := s2.ring h.val r.val
    s2.setRing h.val r.val { rg with inFlight := rg.inFlight - 1, fenced := rg.fenced && !q.fence }
  | .mctp e _ _ =>
    ({ s with pyx := { s.pyx with mctp := tputD 0 e.val (tgetD 0 e.val s.pyx.mctp - 1) s.pyx.mctp } } : State).emit
      (.reply q.origin false status q.tag result detail outlen output)

/-! ### Power states seen by a request (R484–R488) -/

/-- The device serves requests: it has booted, has not stopped, and is not dormant. -/
def State.alive (s : State) : Bool := s.boot.phase == 3 && !s.pwr.stopped && s.get .PWR_STATE_PS != 3

/-- AON cycles since PWROK (`PWR_AON_TIMER`). -/
def State.aonCount (s : State) : Nat := (s.now - s.pwr.since) * 32768 / 1000000000 % 2 ^ 32

/-- A PS2 entry is cancelled (R486 step 1): commands that waited for PS2 are answered ST_ABORTED (DESIGN CHOICE, log 54). -/
def State.cancelEntry (s : State) : State :=
  if s.isSet .PWR_STATE_ENTERING ∧ ¬ s.pwr.linkWait then
    let w := s.pwr.waiters
    let s := ({ s with pwr := { s.pwr with waiters := [] } } : State).put .PWR_STATE_ENTERING 0
    w.foldl (fun (s : State) q => s.reply q stAborted 0 0 0 []) s
  else s

/-- Every channel leaves self-refresh. -/
def State.exitSelfRefresh (s : State) : State :=
  (List.range 16).foldl (fun (s : State) c =>
    if (s.chan c).selfRefresh then (s.setChan c { s.chan c with selfRefresh := false }).emit (.dram c 6 0) else s) s

/-- A demand wake begins (R487): it is counted and `PWR_LAST_WAKE` written, once. -/
def State.beginWake (s : State) : State :=
  if s.pwr.waking then s
  else
    let s : State := { s with pwr := { s.pwr with waking := true } }
    let s := (s.bump .PWR_STATE_PS2_WAKES 0xFFFF).put .PWR_LAST_WAKE_SRC 7
    (((s.put .PWR_LAST_WAKE_FROM 2).put .PWR_LAST_WAKE_PORT 0).put .PWR_LAST_WAKE_SLOT 0).put .PWR_LAST_WAKE_AT s.aonCount

/-- A demand wake ends (R487, R488): the device is in PS0, and an entry asked for meanwhile starts again. -/
def State.endWake (s : State) : State :=
  let again := s.pwr.again
  let s := ({ s with pwr := { s.pwr with waking := false, again := false } } : State).put .PWR_STATE_PS 0
  (if again then s.put .PWR_STATE_ENTERING 1 else s).exitSelfRefresh

/-- The lowest-numbered cluster with a healthy engine wakes in PS2 (R487). -/
def State.wakeCluster (s : State) : State :=
  match (List.range 6).find? (fun k => (List.range 8).any (fun e => s.get .ENG_STS_STATE (8 * k + e) == 0)) with
  | some k => { s with pwr := { s.pwr with woken := linsert (24 + k) s.pwr.woken } }
  | none => s

/-- Work that needs the slices (R484, R486, R487): it ends idleness, cancels a PS2 entry, and in PS2 wakes every slice before it
proceeds. -/
def State.wakeMem (s : State) : State :=
  match s.get .PWR_STATE_PS with
  | 0 => s.cancelEntry
  | 1 => (s.put .PWR_STATE_PS 0).cancelEntry
  | 2 => s.beginWake.endWake
  | _ => s

/-- Commands that reach memory (R487): those that name pages, walk stage 1, load a dictionary, or act on a channel. -/
def memOps : List Nat :=
  [0x0303, 0x0306, 0x0307, 0x0400, 0x0500, 0x0501, 0x0502, 0x0503, 0x0504, 0x0605, 0x0703, 0x0704, 0x0706, 0x0707, 0x0901, 0x0902, 0x0903,
   0x0905, 0x0A03]

/-- What the arrival of a command does to the power state: `pwr.set_state` cancels no entry; in PS2 a command that reaches no memory wakes
only a cluster. -/
def State.touch (s : State) (op : Nat) : State :=
  match s.get .PWR_STATE_PS with
  | 0 => if op = 0x0F01 then s else s.cancelEntry
  | 1 => (s.put .PWR_STATE_PS 0).cancelEntry
  | 2 => if memOps.contains op then s.wakeMem else s.wakeCluster
  | _ => s

/-! ### Operation slots (R100) -/

/-- The slot a new operation takes: the lowest free one, else the one whose operation ended first. -/
def State.freeSlot (s : State) : Option Nat :=
  match (List.range 64).find? (fun k => (tget k s.pyx.slots).isNone) with
  | some k => some k
  | none =>
    s.pyx.slots.foldl (fun (b : Option Nat) p =>
      if p.2.running then b
      else match b with
        | none => some p.1
        | some k => match tget k s.pyx.slots with
          | some o => if p.2.endedAt < o.endedAt then some p.1 else b
          | none => b) none

/-- The handle the next operation gets: slot in [5:0], sequence count in [63:6]. -/
def State.nextHandle (s : State) : Nat := (s.pyx.seq + 1) * 64 + (s.freeSlot).getD 0

/-- The ring pass an operation belongs to. -/
def State.passOf (s : State) (o : Origin) : Nat :=
  match o with
  | .ring h r => (s.ring h.val r.val).pass
  | _ => 0

/-- Occupy a slot with a new operation. -/
def State.openOp (s : State) (slot : Nat) (q : Req) (k : OpKind) (ready : Option (Nat × Nat × Nat)) : State :=
  let seq := s.pyx.seq + 1
  let o : OpSlot :=
    { seq := seq, running := true, status := stPending, detail := 0, result := 0, progress := 0, origin := q.origin,
      tag := q.tag, pass := s.passOf q.origin, kind := k, ready := ready, at' := s.now, endedAt := 0 }
  let s := { s with pyx := { s.pyx with slots := tput slot o s.pyx.slots, seq := seq } }
  match q.origin with
  | .ring h r => let rg := s.ring h.val r.val; s.setRing h.val r.val { rg with finals := rg.finals + 1 }
  | _ => s

/-- The running operation a test picks: slot and contents. -/
def State.findOp (s : State) (p : OpKind → Bool) : Option (Nat × OpSlot) :=
  (s.pyx.slots.find? (fun x => x.2.running && x.2.ready.isNone && p x.2.kind))

/-- End the operation of a slot and signal it where R100 says: a FINAL entry on its ring in the same pass, OPDONE and
vector 6, or an MCTP notification. NOIRQ of the request bears on its own completion: the FINAL entry always counts towards a message
(DESIGN CHOICE, log 104). -/
def State.endOp (s : State) (slot status detail result : Nat) : State :=
  match tget slot s.pyx.slots with
  | none => s
  | some o =>
    if o.running = false then s
    else
      let o' := { o with running := false, status := status, detail := detail, result := result, progress := 100,
                         endedAt := s.pyx.ended + 1 }
      let s := { s with pyx := { s.pyx with slots := tput slot o' s.pyx.slots, ended := s.pyx.ended + 1 } }
      if o.quiet then s
      else match o.origin with
      | .ring h r =>
        let rg := s.ring h.val r.val
        if rg.pass ≠ o.pass then s
        else
          let s := s.setRing h.val r.val { rg with finals := rg.finals - 1 }
          if s.get .HPT_RING_STS_STATE h.val r.val = 1 then s.writeCqe h.val r.val true false status o.tag result detail 0 else s
      | .mailbox h =>
        let d := s.get .HPT_PYX_OPDONE_DONE h.val
        (s.put .HPT_PYX_OPDONE_DONE (d ||| 2 ^ slot) h.val).msix h.val 6
      | .mctp _ _ _ =>
        match s.pyx.receiver with
        | some (eid, _) => s.emit (.mctpNotify eid 1 (replyImage 0 true status o.tag result detail 0 0 0))
        | none => s

/-- The work of an operation is done: OPERATION_END will end it with these values. -/
def State.readyOp (s : State) (slot status detail result : Nat) : State :=
  match tget slot s.pyx.slots with
  | none => s
  | some o =>
    if o.running = false ∨ o.ready.isSome then s
    else { s with pyx := { s.pyx with slots := tput slot { o with ready := some (status, detail, result) } s.pyx.slots } }

/-- The work of the running operation of a kind is done, if there is one. -/
def State.endKind (s : State) (p : OpKind → Bool) (status detail result : Nat) : State :=
  match s.findOp p with
  | some (slot, _) => s.readyOp slot status detail result
  | none => s

/-- PROGRESS of the running operation of a kind. -/
def State.progress (s : State) (p : OpKind → Bool) (pct : Nat) : State :=
  match s.findOp p with
  | some (slot, o) => { s with pyx := { s.pyx with slots := tput slot { o with progress := min 100 pct } s.pyx.slots } }
  | none => s

/-- End an operation without any signal (R100: a warm reset; R548). -/
def State.endSilent (s : State) (slot status detail : Nat) : State :=
  match tget slot s.pyx.slots with
  | none => s
  | some o =>
    { s with pyx := { s.pyx with
        slots := tput slot { o with running := false, status := status, detail := detail, endedAt := s.pyx.ended + 1 } s.pyx.slots
        ended := s.pyx.ended + 1 } }

/-! ### Privilege and grants (R89, R90) -/

/-- The mailbox privilege of a head: 2 Steward, 1 Tenant. -/
def State.headPriv (s : State) (h : Nat) : Nat := if s.isSet .HPT_DEV_STS_STEWARD h then 2 else 1

/-- The caller's privilege: 0 Observer, 1 Tenant, 2 Steward (R89). -/
def State.priv (s : State) (o : Origin) : Nat :=
  match o with
  | .mailbox h => s.headPriv h.val
  | .ring h r => min (s.headPriv h.val) (s.get .HPT_RING_CFG_PRIV h.val r.val)
  | .mctp _ st _ => if st then 2 else 0

/-- Context tc is granted to head h: an enabled binding entry names it, or `GLB_GRANT` does (R90). -/
def State.granted (s : State) (h tc : Nat) : Bool :=
  (List.range 16).any (fun i => s.isSet .HPT_BIND_CTL_EN h i && s.get .HPT_BIND_CTL_TC h i == tc)
    || bit (s.get .GLB_GRANT_CTX h (tc / 64)) (tc % 64)

/-- The head a request came by. -/
def headOf (o : Origin) : Option Nat :=
  match o with
  | .mailbox h => some h.val
  | .ring h _ => some h.val
  | .mctp _ _ _ => none

/-- A Tenant caller acts for this context (R90); every other caller of sufficient privilege does. -/
def State.mayUse (s : State) (o : Origin) (tc : Nat) : Bool :=
  match s.priv o with
  | 1 => match headOf o with | some h => s.granted h tc | none => false
  | _ => true

/-! ### Serving a request -/

/-- What a command answers: STATUS, DETAIL, RESULT, output, the state after it, and the operation it starts (a reply of
ST_PENDING). -/
structure Ans where
  status : Nat := 0
  detail : Nat := 0
  result : Nat := 0
  outlen : Nat := 0
  output : Output := []
  st : State
  op : Option OpKind := none
  ready : Option (Nat × Nat × Nat) := none
  /-- The reply comes later (R311). -/
  later : Bool := false

/-- ST_OK with a result. -/
def ok (s : State) (result : Nat := 0) (detail : Nat := 0) : Ans := { st := s, result := result, detail := detail }

/-- ST_OK with output data. -/
def okOut (s : State) (result outlen : Nat) (output : Output) (detail : Nat := 0) : Ans :=
  { st := s, result := result, detail := detail, outlen := outlen, output := output }

/-- A refusal: the state is the one before the command (R87). -/
def refuse (s : State) (status detail : Nat) : Ans := { st := s, status := status, detail := detail }

/-- ST_BUSY with the device's estimate, 1 to 10,000 µs: a free value within that range (R88; log 2). -/
def busy (s : State) : Ans := { st := s.drawn, status := stBusy, detail := s.draw % 10000 + 1 }

/-- ST_PENDING: the operation goes on. -/
def pend (s : State) (k : OpKind) (detail : Nat := 0) : Ans := { st := s, status := stPending, op := some k, detail := detail }

/-- ST_PENDING for work that is done by the time of the reply: OPERATION_END follows. -/
def pendDone (s : State) (k : OpKind) (status detail result : Nat) : Ans :=
  { st := s, status := stPending, op := some k, ready := some (status, detail, result) }

/-- The opcodes ROM recovery answers (R544). -/
def romOps : List Nat := [0x0100, 0x0101, 0x0200, 0x0201, 0x1000, 0x1001, 0x1002]

/-- Step 4 of R86: the device's state. -/
def State.stateCheck (s : State) (op : Nat) : Option (Nat × Nat) :=
  if s.halt.isSome ∧ ¬ (op = 0x0700 ∨ op = 0x0D01 ∨ op = 0x0100) then some (stFaulted, (s.halt.getD 0) % 2 ^ 32)
  else if s.get .HPT_DEV_STS_STATUS 0 = stPending ∧ ¬ (op = 0x0100 ∨ op = 0x0101) then some (stBusy, 100)
  else if s.get .HPT_DEV_STS_STATUS 0 = stCfgInvalid ∧
      ¬ (op / 256 = 0x01 ∨ op / 256 = 0x02 ∨ op / 256 = 0x10 ∨ op / 256 = 0x0D) then some (stCfgInvalid, s.cause)
  else if s.isSet .GLB_BOOT_STS_ROMREC ∧ ¬ romOps.contains op then some (stCfgInvalid, s.cause)
  else none

/-- The transport number of ST_BAD_OPCODE (R88). -/
def transport (o : Origin) : Nat := match o with | .mailbox _ => 0 | .ring _ _ => 1 | .mctp _ _ _ => 2

/-- The device takes a request now: it is alive, the mailbox has no command in progress, and a command of a ring has started with its FENCE
(R82, R95, R98). -/
def State.takes (s : State) (q : Req) : Bool :=
  s.alive && (match q.origin with
    | .mailbox h => !(s.head h.val).mboxBusy
    | .ring h r => (s.ring h.val r.val).started.any (fun x => !x.wait && x.fence == q.fence)
    | .mctp _ _ _ => true)

/-- The transport of a request takes note of it: the mailbox is busy until the reply, a ring's started command runs, and the requests outstanding
of an EID are one more (R97, R98). -/
def State.begin (s : State) (q : Req) : State :=
  match q.origin with
  | .mailbox h => s.setHead h.val { s.head h.val with mboxBusy := true }
  | .ring h r =>
    let rg := s.ring h.val r.val
    match rg.started.find? (fun x => !x.wait && x.fence == q.fence) with
    | some x => s.setRing h.val r.val { rg with started := rg.started.erase x }
    | none => s
  | .mctp e _ _ => { s with pyx := { s.pyx with mctp := tputD 0 e.val (tgetD 0 e.val s.pyx.mctp + 1) s.pyx.mctp } }

/-- The request is its EID's fifth (R97). -/
def State.fifth (s : State) (q : Req) : Bool := match q.origin with | .mctp e _ _ => decide (4 < tgetD 0 e.val s.pyx.mctp) | _ => false

/-- The checks of R86, in their order, before resource and object state; with those of R92 and R97 before them; `deny` is a refusal of step 3 that names the request's own operands. Answers
STATUS and DETAIL of the first failure. -/
def State.check (s : State) (info : CmdInfo) (q : Req) (bad : Option Nat) (deny : Option (Nat × Nat) := none) : Option (Nat × Nat) :=
  let allowed := match q.origin with | .mailbox _ => info.mbox | .ring _ _ => true | .mctp _ _ _ => info.mctp
  let pre := match q.origin with
    | .mailbox _ => if q.opcode ≠ info.op then some (stBadParam, 0) else if q.payload.length ≠ q.plen then some (stBadParam, 8) else none
    | .ring _ _ => none
    | .mctp _ _ _ => if q.payload.length ≠ q.plen then some (stBadParam, 8) else none
  match pre with
  | some e => some e
  | none =>
    if q.hver ≠ 1 then some (stBadParam, 3)
    else if ¬ opcodes.contains q.opcode ∨ ¬ allowed then some (stBadOpcode, transport q.origin)
    else if s.priv q.origin < info.priv ∧ ¬ (info.op = 0x0201 ∧ s.get .HPT_DEV_STS_STATUS 0 = stCfgInvalid ∧ ¬ onRing q) then
      some (stNoPriv, info.priv)
    else if s.priv q.origin = 1 ∧ info.ctx = 1 ∧ ¬ (q.ctxv ∧ s.mayUse q.origin q.tc.val) then some (stNoPriv, 3)
    else if s.priv q.origin = 1 ∧ info.ctx = 2 ∧ q.ctxv ∧ ¬ s.mayUse q.origin q.tc.val then some (stNoPriv, 3)
    else if deny.isSome then deny
    else
      match s.stateCheck info.op with
      | some e => some e
      | none =>
        match minOff (minOff (badHeader info q) (reservedAt (info.fields ++ ptrFields q) q)) bad with
        | some off => some (stBadParam, off)
        | none => none

/-- Write the answer of a command: its operation slot where it goes on, then the reply. -/
def Ans.finish (a : Ans) (s : State) (q : Req) : State :=
  if a.later then a.st
  else match a.op with
  | none => a.st.reply q a.status a.result a.detail a.outlen a.output
  | some k =>
    match s.freeSlot with
    | none => s.drawn.reply q stBusy 0 (s.draw % 10000 + 1) 0 []
    | some slot => (a.st.openOp slot q k a.ready).reply q stPending s.nextHandle a.detail 0 []

/-- Serve a request the device takes: the checks of R86, then the command. A failed check has no effect beyond its reply (R87). A fifth request
of an EID is busy as a resource is, after the checks (R97; DEDUCED, log 105). -/
def answer (info : CmdInfo) (q : Req) (bad : Option Nat) (body : State → Ans) (s : State) (deny : Option (Nat × Nat)) : State :=
  match s.check info q bad deny with
  | some (st, d) => s.reply q st 0 d 0 []
  | none => if s.fifth q then s.drawn.reply q stBusy 0 (s.draw % 10000 + 1) 0 [] else (body s).finish s q

/-- Serve a request, which its engine's cluster counts. One that the device does not take leaves the state. -/
def serve (info : CmdInfo) (q : Req) (bad : Option Nat) (body : State → Ans) (s : State)
    (deny : Option (Nat × Nat) := none) : Host.Outcome State Fault Refusal :=
  if s.takes q then .next (answer info q bad body (((s.begin q).touch info.op).count (.cluster (q.engine.val / 8)) 0x01 1 none) deny) else .next s

end Sys2Proof.Machine
end

