-- ==== Sys2Proof/Machine/Views.lean ====
section
/-!
DEFINITION. What a register reads: the fields that are counts or states of other parts of the state, and the word of a
register made of its fields (R17–R20).
-/
namespace Sys2Proof.Machine
open Sys2Proof

/-- The pattern of a slot's LED (R462, R473, R474): 0 dark, 1 steady, 2 blink, 3 fast, 4 wink. A slot that may not show dark, its output
being at 1.0 V or more, shows steady (DESIGN CHOICE, log 48). -/
def State.led (s : State) (n : Nat) : Nat :=
  let st := s.get .SLT_SG_STS_STATE n
  let svc := s.get .SLT_CH_SVC_SVC (n / 2)
  if st = 5 ∨ st = 6 ∨ s.isSet .SLT_SG_STS_FET_SHORT n ∨ n ∈ s.slt.fast ∨ n / 2 ∈ s.slt.failed then 3
  else if svc = 1 ∨ svc = 2 ∨ svc = 4 ∨ st = 3 then 2
  else if st = 2 then 4
  else if st = 4 ∨ 1000 ≤ s.get .SLT_SG_MEAS_VOUT n then 1
  else 0

/-- TAMB in 1/16 °C, as the transistor models use it (R470): the sensor's reading, or TAMB_DEF where none is fitted or it fails. -/
def State.tamb (s : State) : Int :=
  if s.isSet .SLT_CFG_TAMB_FITTED ∧ ¬ s.isSet .SLT_STS_TAMB_FAIL then (BitVec.ofNat 16 (s.get .SLT_STS_TAMB)).toInt
  else 16 * s.get .SLT_CFG_TAMB_DEF

/-- Progress of an evacuation (PCT of `SLT_CH_SVC`): the share of the granules it began with that has left the channel. -/
def State.evacPct (s : State) (c : Nat) : Nat :=
  match s.get .SLT_CH_SVC_SVC c with
  | 1 => let n := tgetD 0 c s.slt.evacStart; if n = 0 then 100 else 100 * (n - s.chUsed c) / n
  | 2 | 3 => 100
  | _ => 0

/-- The job a unit runs. -/
def State.unitJob (s : State) (n : Nat) : Option Job := (tget n s.job.units).bind (fun u => tget u.1 s.job.jobs)

/-- The history a session holds: 2^WLOG2 bytes for Zstandard, the 32 KiB window of Deflate else (R360, R370). -/
def Session.hist (x : Session) : Nat := if x.fmt = 0 then 2 ^ x.wlog2 else 32768

def State.histBytes (s : State) : Nat := s.job.sessions.foldl (fun a x => a + x.2.hist) 0

/-- Jobs and sessions that name a dictionary slot. -/
def State.dictUsers (s : State) (d : Nat) : Nat :=
  (s.job.jobs.filter (fun x => x.2.dict == some d)).length + (s.job.sessions.filter (fun x => x.2.dict == some d)).length

/-- A field as a read of its register sees it: computed where the state holds its content elsewhere, else as stored. -/
def State.view (s : State) (r : Reg) (i j : Nat) : Nat :=
  match r with
  | .FLT_STS_USED => s.flt.recs.length
  | .FLT_STS_FATAL => (s.flt.recs.filter (fun p => decide (p.2.sev = 3))).length
  | .FLT_STS_TIMERS => (s.flt.recs.filter (fun p => p.2.tmr)).length
  | .FLT_STS_ERR => b2n (s.errLow s.halt.isSome)
  | .FLT_STS_ALERT => b2n (s.alertLow s.halt.isSome)
  | .HPT_DEV_STS_STATUS => s.status i
  | .HPT_TAG_CTL_INUSE => (s.head i).tags.length
  | .HPT_TAG_CTL_QUAR => (s.head i).quar.length
  | .HPT_HEAD_STS_BI_EN => b2n (s.head i).biDec
  | .COH_HOME_STS_TRK_USED => (s.coh.trk.filter (fun t => s.home (t.1 / 64) == i)).length
  | .COH_HOME_STS_STARVQ => (tgetD [] i s.coh.starv).length
  | .COH_HOME_STS_HOLDQ => (tgetD [] i s.coh.holdQ).length
  | .COH_HOME_STS_LOCKED => b2n (s.pg.pages.any (fun p => p.2.pl.lock && s.home p.1 == i))
  | .COH_SPEC_STS_OUT => (s.coh.spec.filter (fun x => s.home (x.line / 64) == i)).length
  | .COH_SPEC_STS_PRED_VALID => (s.coh.pred.filter (fun x => x.1 / 16384 == i)).length
  | .COH_SPEC_STS_PROV => (s.coh.lc.filter (fun x => x.2.prov && s.home (x.1 / 64) == i)).length
  | .TLG_HQ_WAITING => b2n (s.coh.quotaQ.any (fun q => q.agent == i && q.cls == j))
  | .CVN_LINK_STS_XOFF_TX =>
    let c := tgetD {} i s.cvn.ports
    let used := c.parts.foldl (fun n x => n + x.2.pool) (c.inbox.foldl (fun n x => n + x.2.pool) 0)
    b2n (!s.isSet .CVN_LINK_STS_COMPAT_ACT i && decide (1024 - used < s.get .CVN_LINK_STS_HEADROOM i))
  | .CVN_LEND_STS_GRANTED => (tgetD {} i s.cvn.ports).lent.length
  | .CVN_LEND_STS_LOAN_V => b2n (tgetD {} i s.cvn.ports).loanL.isSome
  | .CVN_BORROW_STS_HELD =>
    let c := tgetD {} i s.cvn.ports
    c.blocks.length + c.giving.length + ((c.waits.filter (fun w => w.msg.op == 5)).foldl (fun n w => n + w.nums.length) 0)
  | .CVN_BORROW_STS_LOAN_V => b2n (tgetD {} i s.cvn.ports).loanB.isSome
  | .CVN_BORROW_STS_EMPTY =>
    let c := tgetD {} i s.cvn.ports
    ((c.blocks ++ c.giving).filter (fun b => !c.uses.any (fun u => u.1 / 16 == b))).length
  | .ECC_SCRUB_STS_PAUSED =>
    let st := s.get .MEM_CH_STS_STATE i
    b2n (st == 3 || st == 5 || (s.chan i).selfRefresh)
  | .SLT_SG_STS_LED => s.led i
  | .SLT_STS_TAMB => (BitVec.ofInt 16 s.tamb).toNat
  | .SLT_CH_SVC_PCT => s.evacPct i
  | .XLT_PRESS_STS_EVAC_READY => (List.range 16).foldl (fun a c => a + b2n (s.evacReady c) * 2 ^ c) 0
  | .JOB_UNIT_STS_BUSY => b2n (tget i s.job.units).isSome
  | .JOB_UNIT_STS_SESS_V => b2n ((s.unitJob i).any (fun j => j.session.isSome))
  | .JOB_UNIT_STS_SESS => ((s.unitJob i).bind (·.session)).getD 0
  | .JOB_UNIT_STS_PIECE => b2n ((s.unitJob i).any (fun j => decide (1 < j.pieces)))
  | .JOB_STS_QUEUED => s.job.queue.length
  | .JOB_STS_SESSIONS => s.job.sessions.length
  | .JOB_STS_DICTS => s.job.dicts.length
  | .JOB_STS_HIST_MIB => (s.histBytes + 2 ^ 20 - 1) / 2 ^ 20
  | .JOB_DICT_V => b2n (tget i s.job.dicts).isSome
  | .JOB_DICT_KIND => ((tget i s.job.dicts).map (fun d => b2n d.raw)).getD 0
  | .JOB_DICT_TC => ((tget i s.job.dicts).map (·.tc)).getD 0
  | .JOB_DICT_SIZE => ((tget i s.job.dicts).map (·.bytes.length)).getD 0
  | .JOB_DICT_DICTID => ((tget i s.job.dicts).map (·.id)).getD 0
  | .JOB_DICT_USE_USERS => s.dictUsers i
  | .JOB_DICT_USE_ADLER => ((tget i s.job.dicts).map (fun d => adler32 d.bytes)).getD 0
  | .PWR_AON_TIMER_COUNT => s.aonCount
  | .PWR_DOM_STS_D => s.domState j
  | .ACC_DBG_REMAIN => if s.get .ACC_DBG_LEVEL = 0 then 0 else (s.acc.dbgUntil - s.now + 999999999) / 1000000000
  | .ACC_DBG_EXTEST => b2n (decide (s.boot.phase = 1 ∨ s.boot.phase = 2 ∨ s.get .ACC_DBG_LEVEL = 2))
--VIEWS
  | r => s.get r i j

/-- The bits a field contributes to its register; a write-only field reads 0. -/
def State.fieldBits (s : State) (f : FieldRow) (i j : Nat) : Nat :=
  match f.acc with
  | .wo => 0
  | .w1s => if f.width = 1 ∧ f.lo = 0 then s.get f.reg i j % 2 else 0
  | _ =>
    if f.rep = 1 then (s.view f.reg i j % 2 ^ f.width) * 2 ^ f.lo
    else (List.range f.rep).foldl (fun a k => a + (s.view f.reg i k % 2 ^ f.width) * 2 ^ (f.lo + k * f.step)) 0

/-- The word of a register at its indices. -/
def State.rowWord (s : State) (row : RegRow) (i j : Nat) : Nat :=
  row.fields.foldl (fun a f => a + s.fieldBits f i j) 0

/-- The register that holds a field. -/
def rowOf (r : Reg) : Option RegRow := regTable.find? (fun row => row.fields.any (fun f => decide (f.reg = r)))

/-- The word of the register that holds a field. -/
def State.word (s : State) (r : Reg) (i j : Nat := 0) : Nat :=
  match rowOf r with
  | some row => s.rowWord row i j
  | none => 0

end Sys2Proof.Machine
end

