-- ==== Sys2Proof/Machine/Faults.lean ====
section
/-!
DEFINITION. The meanings of the fault commands and events (15_faults.md): FLT_QUERY to FLT_INJECT, FAULT_MESSAGE,
GRACE_TIMER_EXPIRE, RECORD_ACK_WRITE, RECORD_VALID_CLEAR.
-/
namespace Sys2Proof.Machine
open Sys2Proof

/-- The outcome type of a meaning. -/
abbrev Res := Host.Outcome State Fault Refusal

/-- The entry of the valid record with a SEQ. -/
def State.recBySeq (s : State) (seq : Nat) : Option (Nat × FltRec) :=
  s.flt.recs.find? (fun p => decide (p.2.seq = seq))

/-- Acknowledge the record of an entry (R445): its timer stops. A record with ESC = 1 is not acknowledged (R447). -/
def State.ackRec (s : State) (k : Nat) : State :=
  match tget k s.flt.recs with
  | some r => if r.esc then s else s.setRecs (tput k { r with ack := true, tmr := false } s.flt.recs)
  | none => s

/-- Clear the record of an entry (R452): not while ACTIVE = 1. -/
def State.clearRec (s : State) (k : Nat) : State :=
  match tget k s.flt.recs with
  | some r => if r.active then s else s.setRecs (tdel k s.flt.recs)
  | none => s

/-- FLT_QUERY (R457). -/
def execFltQuery (q : Req) (s : State) : Res :=
  serve { op := 0x0D00, priv := 0, mctp := true, output := true } q none (fun s =>
    let seq := s.get .FLT_SEQ_NEXT
    okOut s (s.word .FLT_STS_USED) 64
      [(0x00, 8, s.word .FLT_CTL_GRACE_US), (0x08, 8, s.word .FLT_STS_USED), (0x10, 8, seq),
       (0x18, 8, s.word .FLT_OVF_OVERWRITTEN), (0x20, 8, s.get .FLT_OVF_MSG0_MSG), (0x28, 8, s.get .FLT_OVF_MSG1_MSG),
       (0x30, 8, match oldest (fun _ => true) s.flt.recs with | some (_, r) => r.seq | none => 0),
       (0x38, 8, seq - 1)]) s

/-- Insert a record by its SEQ. -/
def insertSeq (r : FltRec) : List FltRec → List FltRec
  | [] => [r]
  | x :: xs => if r.seq ≤ x.seq then r :: x :: xs else x :: insertSeq r xs

/-- Records in rising order of SEQ. -/
def bySeq (l : List FltRec) : List FltRec := l.foldr insertSeq []

/-- Output of several records, 32 bytes each. -/
def recsOut : Nat → List FltRec → Output
  | _, [] => []
  | off, r :: rs => recOut off r ++ recsOut (off + 32) rs

/-- FLT_READ_RECORDS (R457, R458): the records with SEQ ≥ first, oldest first, from the queue or, with SADDLE, from the
Saddlebag ring. The queue holds valid records only, so VALID_ONLY changes nothing there. -/
def execFltReadRecords (q : Req) (s : State) : Res :=
  serve { op := 0x0D01, priv := 0, mctp := true, output := true, fields := [fld 0x10 8, fld 0x18 2, fbits 0x1A 0 2] } q
    (firstBad [(0x18, decide (1 ≤ par q 0x18 2 ∧ par q 0x18 2 ≤ 256))]) (fun s =>
      let src := if parBit q 0x1A 1 then s.flt.ring else s.flt.recs.map (·.2)
      let l := (bySeq (src.filter (fun r => decide (par q 0x10 8 ≤ r.seq)))).take (par q 0x18 2)
      okOut s l.length (32 * l.length) (recsOut 0 l)) s

/-- FLT_ACK (R445, R447, R458). -/
def execFltAck (q : Req) (s : State) : Res :=
  serve { op := 0x0D02, priv := 2, mctp := true, fields := [fld 0x10 8] } q none (fun s =>
    match s.recBySeq (par q 0x10 8) with
    | none => refuse s stStale 0
    | some (k, r) => if r.esc then refuse s stStale 0 else ok (s.ackRec k)) s

/-- FLT_CLEAR (R452, R457, R458). -/
def execFltClear (q : Req) (s : State) : Res :=
  serve { op := 0x0D03, priv := 2, mctp := true, fields := [fld 0x10 8, fbits 0x18 0 1] } q none (fun s =>
    if parBit q 0x18 0 then
      let gone := s.flt.recs.filter (fun p => !p.2.active)
      ok (s.setRecs (s.flt.recs.filter (fun p => p.2.active))) gone.length
    else
      match s.recBySeq (par q 0x10 8) with
      | none => refuse s stStale 0
      | some (k, r) => if r.active then refuse s stBusy 0 else ok (s.clearRec k) 1) s

/-- Write one severity-table entry (R444). -/
def State.setSev (s : State) (k fclass sev v : Nat) : State :=
  match fclass with
  | 1 => (s.put .FLT_SEV_SEV_C sev k).put .FLT_SEV_V_C v k
  | 2 => (s.put .FLT_SEV_SEV_U sev k).put .FLT_SEV_V_U v k
  | _ => (s.put .FLT_SEV_SEV_F sev k).put .FLT_SEV_V_F v k

/-- FLT_SET_SEVERITY (R444, R457, R458). -/
def execFltSetSeverity (q : Req) (s : State) : Res :=
  serve { op := 0x0D04, priv := 2, mctp := true, fields := [fld 0x10 1, fld 0x11 1, fld 0x12 1, fbits 0x13 0 3] } q
    (firstBad [(0x10, decide (instances (par q 0x10 1) ≠ 0)), (0x11, decide (par q 0x11 1 < 16)),
      (0x12, decide (1 ≤ par q 0x12 1 ∧ par q 0x12 1 ≤ 3))]) (fun s =>
      ok (s.setSev (16 * par q 0x10 1 + par q 0x11 1) (par q 0x12 1) (parBits q 0x13 0 2) (parBits q 0x13 2 1))) s

/-- The message in the 16 parameter bytes of `flt.inject`, with INJ = 1 (R439, R457). -/
def injected (q : Req) : Msg :=
  { code := parBits q 0x11 2 6, inst := bits (par q 0x10 2) 4 6, sub := parBits q 0x10 0 4, kind := par q 0x12 1,
    fclass := parBits q 0x13 0 2, fixed := parBit q 0x13 2, active := parBit q 0x13 3, ended := parBit q 0x13 4,
    inj := true, addr := par q 0x14 8, extra := par q 0x1C 4 }

/-- FLT_INJECT (R457, R458): no containing action, and no escalation step later. -/
def execFltInject (q : Req) (s : State) : Res :=
  let m := injected q
  serve { op := 0x0D05, priv := 2, mctp := true, fields := [fld 0x10 3, fbits 0x13 0 6, fld 0x14 12] } q
    (firstBad [(0x10, decide (m.inst < instances m.code)), (0x13, decide (m.fclass ≠ 0)), (0x13, !(m.active && m.ended))])
    (fun s => let (s', seq) := s.reportK m .std true; ok s' seq) s

/-- GRACE_TIMER_EXPIRE (R445): the timer of an entry expires unacknowledged. -/
def execGraceTimerExpire (entry : Fin 256) (s : State) : Res :=
  match tget entry.val s.flt.recs with
  | some r =>
    if r.tmr then
      let r' := { r with tmr := false, esc := true }
      .next ((s.setRecs (tput entry.val r' s.flt.recs)).orderEscalation r.msg r.direct r.seq 1 (some r')).afterSteps
    else .next s
  | none => .next s

/-- RECORD_ACK_WRITE (R445, R447): ACK of a record window written 1. -/
def execRecordAckWrite (entry : Fin 256) (s : State) : Res := .next (s.ackRec entry.val)

/-- RECORD_VALID_CLEAR (R452): VALID of a record window written 1. -/
def execRecordValidClear (entry : Fin 256) (s : State) : Res := .next (s.clearRec entry.val)

end Sys2Proof.Machine
end

