-- ==== Sys2Proof/Machine/Pmu.lean ====
section
/-!
DEFINITION. The performance counters (18_performance_counters.md): what counts, the `pmu` commands, PMU_FREEZE and
PMU_COUNTER_CLEAR.
-/
namespace Sys2Proof.Machine
open Sys2Proof

/-- A clear of a counter (R514). -/
def State.pmuClear (s : State) (n : Nat) : State :=
  ((s.put .PMU_CNT_COUNT 0 n).put .PMU_CNT_SAT 0 n).put .PMU_CNT_ERR 0 n

/-- A range of counters cleared. -/
def State.pmuClearRange (s : State) (lo : Nat) : Nat → State
  | 0 => s
  | n + 1 => (s.pmuClear (lo + n)).pmuClearRange lo n

/-- The slice and head event codes that are not reserved. -/
def sliceEvent (e : Nat) : Bool := decide (e ≤ 0x10 ∨ (0x20 ≤ e ∧ e ≤ 0x26))

def headEvent (e : Nat) : Bool := decide (e ≤ 0x08)

/-- The event codes a counter's unit defines (Events of 18_performance_counters.md). -/
def legalEvent (n e : Nat) : Bool :=
  if n < 128 then sliceEvent e
  else if n < 192 then headEvent e
  else if n < 216 then decide (e ≤ 4)
  else if n < 232 then decide (e ≤ 8)
  else decide (e ≤ 8) || (decide (0x80 < e ∧ e < 0xC0) && sliceEvent (e - 0x80)) || (decide (0xC0 < e) && headEvent (e - 0xC0))

/-- Bytes of a payload as a little-endian number. -/
def payNat (bs : List Byte) (off size : Nat) : Nat :=
  ((bs.drop off).take size).foldr (fun b a => b.toNat + 256 * a) 0

/-- A bitmap of 256 counters, 32 bytes. -/
def State.pmuMap (s : State) (f : Reg) : Nat := (List.range 256).foldl (fun a n => a + (s.get f n % 2) * 2 ^ n) 0

/-- PMU_QUERY (R516). -/
def execPmuQuery (q : Req) (s : State) : Res :=
  serve { op := 0x0E00, priv := 0, mctp := true, output := true } q none (fun s =>
    okOut s (s.word .PMU_GSTS_FROZEN) 64 [(0x00, 32, s.pmuMap .PMU_CTL_EN), (0x20, 32, s.pmuMap .PMU_CNT_SAT)]) s

/-- The fields of `pmu.config` by kind. -/
def pmuConfigFields (kind : Nat) : List (Nat × Nat × Nat) :=
  if kind = 0 then [fld 0x10 1, fld 0x12 2, fld 0x14 1, fbits 0x15 0 6] else [fld 0x10 1, fld 0x11 1]

/-- The checks of R517 on `pmu.config`. -/
def pmuConfigBad (q : Req) : Option Nat :=
  let kind := par q 0x10 1
  let n := par q 0x12 2
  firstBad [
    (0x10, decide (kind ≤ 1)),
    (0x12, decide (kind ≠ 0 ∨ n < 256)),
    (0x14, decide (kind ≠ 0) || legalEvent n (par q 0x14 1)),
    (0x11, decide (kind ≠ 1 ∨ par q 0x11 1 < 16)),
    (0x08, decide (q.plen = if kind = 1 then 48 else 0)),
    (0x48, decide (kind ≠ 1 ∨ payNat q.payload 8 8 < 8)),
    (0x50, decide (kind ≠ 1 ∨ ¬ bit (payNat q.payload 0x23 1) 4 ∨ payNat q.payload 0x10 8 < payNat q.payload 0x18 8)),
    (0x62, decide (kind ≠ 1 ∨ payNat q.payload 0x22 1 < 128)),
    (0x63, decide (kind ≠ 1 ∨ payNat q.payload 0x23 1 < 32)),
    (0x64, decide (kind ≠ 1 ∨ payNat q.payload 0x24 12 = 0))]

/-- PMU_CONFIG (R514, R516, R517). -/
def execPmuConfig (q : Req) (s : State) : Res :=
  serve { op := 0x0E01, priv := 2, mctp := true, payload := 48, fields := pmuConfigFields (par q 0x10 1) } q
    (pmuConfigBad q) (fun s =>
      if par q 0x10 1 = 0 then
        let n := par q 0x12 2
        let ev := par q 0x14 1
        let en := parBits q 0x15 0 1
        let filt := parBits q 0x15 1 1
        let fset := parBits q 0x15 2 4
        if s.isSet .PMU_CTL_EN n ∧ ¬ (s.get .PMU_CTL_EVENT n = ev ∧ s.get .PMU_CTL_FILT n = filt ∧ s.get .PMU_CTL_FSET n = fset) then
          busy s
        else ok ((((s.put .PMU_CTL_EVENT ev n).put .PMU_CTL_EN en n).put .PMU_CTL_FILT filt n).put .PMU_CTL_FSET fset n)
      else
        let f := par q 0x11 1
        if (List.range 256).any (fun n => s.isSet .PMU_CTL_EN n && s.isSet .PMU_CTL_FILT n && s.get .PMU_CTL_FSET n == f) then busy s
        else
          let p := q.payload
          let s := (s.put .PMU_FS_MASK0_MASK (payNat p 0 8) f).put .PMU_FS_MASK1_MASK (payNat p 8 8) f
          let s := (s.put .PMU_FS_BASE_LPN (payNat p 0x10 8 % 2 ^ 33) f).put .PMU_FS_LIMIT_LPN (payNat p 0x18 8 % 2 ^ 33) f
          let s := (s.put .PMU_FS_SEL_CLSET (payNat p 0x20 2) f).put .PMU_FS_SEL_TIERSET (payNat p 0x22 1) f
          ok ((s.put .PMU_FS_SEL_PRIVSET (payNat p 0x23 1 % 16) f).put .PMU_FS_SEL_RANGE_EN (b2n (bit (payNat p 0x23 1) 4)) f)) s

/-- A range of counters is legal (R517). -/
def pmuRangeBad (q : Req) : Option Nat :=
  firstBad [(0x10, decide (par q 0x10 2 < 256)), (0x12, decide (1 ≤ par q 0x12 2 ∧ par q 0x12 2 ≤ 256)),
    (0x12, decide (256 ≤ par q 0x10 2 ∨ par q 0x10 2 + par q 0x12 2 ≤ 256))]

/-- PMU_READ (R515, R516, R517). With SNAP the counters are frozen for the read and resumed; in a model whose commands
take one step each, every read is such a snapshot. -/
def execPmuRead (q : Req) (s : State) : Res :=
  serve { op := 0x0E02, priv := 0, mctp := true, output := true, fields := [fld 0x10 2, fld 0x12 2, fbits 0x14 0 1] } q
    (pmuRangeBad q) (fun s =>
      let n := par q 0x12 2
      okOut s 0 (8 * n) ((List.range n).map (fun k => (8 * k, 8, s.word .PMU_CNT_COUNT (par q 0x10 2 + k))))) s

/-- PMU_CLEAR (R514, R516, R517). -/
def execPmuClear (q : Req) (s : State) : Res :=
  serve { op := 0x0E03, priv := 2, mctp := true, fields := [fld 0x10 2, fld 0x12 2] } q (pmuRangeBad q)
    (fun s => ok (s.pmuClearRange (par q 0x10 2) (par q 0x12 2))) s

/-- PMU_FREEZE (R515): FREEZE written. -/
def execPmuFreeze (on : Bool) (s : State) : Res :=
  .next ((s.put .PMU_GCTL_FREEZE (b2n on)).put .PMU_GSTS_FROZEN (b2n on))

/-- PMU_COUNTER_CLEAR (R514): CLR of a counter written 1. -/
def execPmuCounterClear (n : Fin 256) (s : State) : Res := .next (s.pmuClear n.val)

end Sys2Proof.Machine
end

