-- ==== Sys2Proof/Machine/Tollgate.lean ====
section
/-!
DEFINITION. The tollgate (14_tollgate.md): the factor F and the frame slots, the `tlg` commands and FRAME_BOUNDARY.
Bandwidths are in units of 0.25 GB/s.
-/
namespace Sys2Proof.Machine
open Sys2Proof

/-- A channel is counted (R432). -/
def State.counted (s : State) (c : Nat) : Bool := decide (s.get .MEM_CH_STS_STATE c = 2)

/-- (2,048 − RSV) × rate: the channel bandwidth BW_c of R429 is this over 64,000, in 0.25 GB/s. -/
def bwNum (rsv rate : Nat) : Nat := (2048 - rsv) * rate

/-- Bandwidth of a channel at its current point (R429). -/
def State.chBw (s : State) (c : Nat) : Nat :=
  bwNum (if s.isSet .MEM_CH_STS_HOT c then s.get .TLG_CH_STS_RSV_HOT c else s.get .TLG_CH_STS_RSV_NORM c)
    (rateOf (s.get .MEM_CH_STS_RATE c))

/-- The highest rate among a channel's trained points. -/
def State.topRate (s : State) (c : Nat) : Nat :=
  (List.range 4).foldl (fun a p => if s.isSet .MEM_FP_TRAINED c p then max a (rateOf (s.get .MEM_FP_RATE c p)) else a) 0

/-- Bandwidth of a channel at its highest trained point, not HOT (R432). -/
def State.chBwNom (s : State) (c : Nat) : Nat := bwNum (s.get .TLG_CH_STS_RSV_NORM c) (s.topRate c)

/-- The least of a list of bandwidths; 0 of none. -/
def least : List Nat → Nat
  | [] => 0
  | [x] => x
  | x :: xs => min x (least xs)

/-- The channels a test accepts. -/
def channels (p : Nat → Bool) : List Nat := (List.range 16).filter p

/-- N of R432. -/
def State.nCounted (s : State) : Nat := (channels s.counted).length

/-- DELIV × 6,400,000: N × min BW_c × (100 − EVAC while an evacuation runs). -/
def State.delivNum (s : State) : Nat :=
  s.nCounted * least ((channels s.counted).map s.chBw) * (if s.evacuating then 100 - s.get .XLT_BUDGET_EVAC else 100)

/-- DELIV_NOM × 64,000 (R432). -/
def State.delivNomNum (s : State) : Nat :=
  (channels s.inService).length * least ((channels s.inService).map s.chBwNom)

/-- Σ B_k (R433). -/
def State.sumB (s : State) : Nat := (List.range 16).foldl (fun a k => a + s.get .TLG_GUAR_BW k) 0

/-- F of R434. -/
def State.factor (s : State) : Nat :=
  if s.sumB = 0 then 1024
  else min 1024 (1024 * s.get .TLG_CFG_CAP * s.delivNum / (100 * 6400000 * s.sumB))

/-- EFF of every class follows F (R434): B_k × F ÷ 1,024, rounded down. -/
def State.setEff (s : State) (f : Nat) : Nat → State
  | 0 => s
  | k + 1 => (s.put .TLG_GUAR_EFF (s.get .TLG_GUAR_BW k * f / 1024) k).setEff f k

/-- The tollgate's view of each channel (`TLG_CH_STS`). -/
def State.setChTlg (s : State) : Nat → State
  | 0 => s
  | c + 1 =>
    (((s.put .TLG_CH_STS_COUNTED (b2n (s.counted c)) c).put .TLG_CH_STS_BW (s.chBw c / 64000) c).put .TLG_CH_STS_FRAME_NS
      (16384000 / rateOf (s.get .MEM_CH_STS_RATE c)) c).setChTlg c

/-- Recompute N, DELIV, F and EFF after an event of R434; a crossing of 1,024 raises TLG_DERATED or TLG_RESTORED, each a
Note and a notification. -/
def State.retoll (s : State) : State :=
  let f := s.factor
  let old := s.get .TLG_STS_F
  let s := s.setChTlg 16
  let s := (((s.put .TLG_STS_N s.nCounted).put .TLG_STS_N_NOM (channels s.inService).length).put .TLG_STS_DELIV
    (s.delivNum / 6400000)).put .TLG_STS_DELIV_NOM (s.delivNomNum / 64000)
  let s := (s.put .TLG_STS_EVAC (b2n s.evacuating)).put .TLG_STS_F f
  let s := (s.put .TLG_STS_DERATED (b2n (decide (f < 1024)))).setEff f 16
  if f < 1024 ∧ old = 1024 then (s.bump .TLG_STS_DERATES 0x1FFF).reportNotify (msg1 bTlg 0 0) 2 f 0
  else if f = 1024 ∧ old < 1024 then s.reportNotify (msg1 bTlg 0 1) 2 f 0
  else s

/-- Nothing waits at a channel's controller any more, and no row is open. -/
def State.clearQueues (s : State) (c : Nat) : State :=
  let clear := fun (b : SubSt) => { b with q := [], med := [], draining := false }
  let ch := s.chan c
  s.setChan c { ch with subA := clear ch.subA, subB := clear ch.subB, rows := [], bus := [] }

/-- Set a channel's STATE, and recompute the factor (R434). A channel out of service has no command waiting. -/
def State.setChState (s : State) (c st : Nat) : State :=
  let s := if st = 0 ∨ st = 1 ∨ 6 ≤ st then s.clearQueues c else s
  (s.put .MEM_CH_STS_STATE st c).retoll

/-- s(k, c) of R435, rounded up. -/
def State.slotsOf (s : State) (k c : Nat) : Nat :=
  let d := 1024 * rateOf (s.get .MEM_CH_STS_RATE c) * s.nCounted
  if d = 0 then 0 else (s.get .TLG_GUAR_BW k * s.get .TLG_STS_F * 64000 + d - 1) / d

/-- Eight bytes per class from a register with a class index. -/
def State.perClass (s : State) (r : Reg) (i : Nat) (classFirst : Bool) : Output :=
  (List.range 16).map (fun k => (8 * k, 8, if classFirst then s.word r k else s.word r i k))

/-- TLG_QUERY (R436, R437). -/
def execTlgQuery (q : Req) (s : State) : Res :=
  let kind := par q 0x10 1
  let ix := par q 0x11 1
  serve { op := 0x0C00, priv := 0, mctp := true, output := true, fields := [fld 0x10 2] } q
    (firstBad [(0x10, decide (kind ≤ 3)),
      (0x11, decide (kind > 3 ∨ ix < (match kind with | 0 => 1 | 1 => 8 | _ => 16)))]) (fun s =>
      match kind with
      | 0 => okOut s (s.word .TLG_STS_F) 128 (s.perClass .TLG_GUAR_BW 0 true)
      | 1 => okOut s (s.word .TLG_STS_F) 128 (s.perClass .TLG_HQ_QUOTA ix false)
      | 2 => okOut s (s.word .TLG_STS_F) 128 (s.perClass .TLG_SQ_QUOTA ix false)
      | _ => okOut s (s.word .TLG_STS_F) 136 (s.perClass .TLG_CH_SLOT_SLOTS ix false ++ [(0x80, 8, s.word .TLG_CH_STS_BW ix)])) s

/-- Set a quota at every point of a mask (R427). -/
def State.setQuota (s : State) (r : Reg) (mask cls quota : Nat) : Nat → State
  | 0 => s
  | n + 1 => (if bit mask n then s.put r quota n cls else s).setQuota r mask cls quota n

/-- TLG_SET_QUOTA (R427, R436, R437): nothing already admitted is cancelled. -/
def execTlgSetQuota (q : Req) (s : State) : Res :=
  let point := par q 0x10 1
  serve { op := 0x0C01, priv := 2, fields := [fld 0x10 1, fld 0x12 2, fld 0x14 1, fld 0x16 2] } q
    (firstBad [(0x10, decide (point ≤ 1)),
      (0x12, decide (par q 0x12 2 ≠ 0 ∧ (point ≠ 0 ∨ par q 0x12 2 < 256))), (0x14, decide (par q 0x14 1 < 16)),
      (0x16, decide (par q 0x16 2 ≤ 1023))]) (fun s =>
      ok (if point = 0 then s.setQuota .TLG_HQ_QUOTA (par q 0x12 2) (par q 0x14 1) (par q 0x16 2) 8
        else s.setQuota .TLG_SQ_QUOTA (par q 0x12 2) (par q 0x14 1) (par q 0x16 2) 16)) s

/-- The excess of Σ B_k over CAP × DELIV_NOM, in 0.25 GB/s, rounded up (R433, R437); 0 while R433 holds. -/
def excess (sum cap delivNomNum : Nat) : Nat :=
  let lim := cap * delivNomNum
  let need := sum * 6400000
  if need ≤ lim then 0 else (need - lim + 6399999) / 6400000

/-- TLG_SET_GUARANTEE (R433, R436, R437). Lowering a guarantee is always admitted. -/
def execTlgSetGuarantee (q : Req) (s : State) : Res :=
  let k := par q 0x10 1
  let b := par q 0x12 2
  serve { op := 0x0C02, priv := 2, fields := [fld 0x10 1, fld 0x12 2] } q
    (firstBad [(0x10, decide (1 ≤ k ∧ k ≤ 15))]) (fun s =>
      let s' := s.put .TLG_GUAR_BW b k
      let x := excess s'.sumB (s.get .TLG_CFG_CAP) s.delivNomNum
      if s.get .TLG_GUAR_BW k < b ∧ x ≠ 0 then refuse s stOvercommit x
      else ok s'.retoll s'.sumB) s

/-- TLG_SET_CAP (R434, R436, R437). -/
def execTlgSetCap (q : Req) (s : State) : Res :=
  let cap := par q 0x10 1
  serve { op := 0x0C03, priv := 2, fields := [fld 0x10 1] } q (firstBad [(0x10, decide (50 ≤ cap ∧ cap ≤ 90))]) (fun s =>
    let x := excess s.sumB cap s.delivNomNum
    if x ≠ 0 then refuse s stOvercommit x else ok (s.put .TLG_CFG_CAP cap).retoll) s

/-- The new slot counts of a frame (R435), and the guaranteed slots each class used in the frame that ended. -/
def State.setSlots (s : State) (c : Nat) (used : Nat → Nat) : Nat → State
  | 0 => s
  | k + 1 =>
    let s := s.put .TLG_CH_SLOT_USED (used k % 2048) c k
    (if s.counted c then s.put .TLG_CH_SLOT_SLOTS (s.slotsOf k c) c k else s).setSlots c used k

/-- FRAME_BOUNDARY (R430, R435): a channel's frame ends on both subchannels, and its unused slots lapse. An uncounted channel keeps its last slots. -/
def execFrameBoundary (c : Fin 16) (s : State) : Res :=
  let ch := s.chan c.val
  let start := fun (b : SubSt) => { b with at' := 0, used := [] }
  .next ((s.setChan c.val { ch with subA := start ch.subA, subB := start ch.subB, scrubbed := false, noTable := false }).setSlots c.val
    (fun k => tgetD 0 k ch.subA.used + tgetD 0 k ch.subB.used) 16)

end Sys2Proof.Machine
end

