-- ==== Sys2Proof/Machine/Pages.lean ====
section
/-!
DEFINITION. Pages and the media under them: homes and channels, placement entries, the granule allocator, capacity
accounts and pressure, counters and key slots, poison, twins (01, 04, 07, 08, 09, 10).
-/
namespace Sys2Proof.Machine
open Sys2Proof

/-! ### Homes, channels, DRAM addresses (R30–R35, R338–R340) -/

/-- The lowest-numbered enabled slice, where the capacity unit runs (R266). -/
def State.capSlice (s : State) : Nat := if s.mem.disabledSlices.contains 0 then 1 else 0

/-- A granule that the allocator never hands out and that no entry may name (R34). -/
def State.isHole (s : State) (ma : Nat) : Bool :=
  !s.inService (s.chanOf ma) || decide (tgetD 0 (s.chanOf ma) s.pg.chCap ≤ s.localOf ma)

/-- The CLA bit that feeds a destination of R339; 63 where none does. -/
def State.mapSel (s : State) (c d : Nat) : Nat :=
  match d / 10 with
  | 0 => s.get .MEM_MAP0_SEL c (d % 10)
  | 1 => s.get .MEM_MAP1_SEL c (d % 10)
  | 2 => s.get .MEM_MAP2_SEL c (d % 10)
  | _ => s.get .MEM_MAP3_SEL c (d % 10)

/-- The bit a selector takes from a channel line address. -/
def selBit (cla sel : Nat) : Nat := if sel = 63 then 0 else cla / 2 ^ sel % 2

/-- The DRAM address of a channel line address (R339): SC, RK, CID, BG, BA, COL, ROW. -/
structure DramAddr where
  sc : Nat
  rk : Nat
  cid : Nat
  bg : Nat
  ba : Nat
  col : Nat
  row : Nat
  deriving DecidableEq, Repr

def State.dramAddr (s : State) (c cla : Nat) : DramAddr :=
  let d := fun k => selBit cla (s.mapSel c k)
  let x := fun j => selBit cla (s.get .MEM_MAPX_XSEL c j)
  let num := fun lo n => (List.range n).foldl (fun a k => a + d (lo + k) * 2 ^ k) 0
  { sc := d 0, rk := num 1 2, cid := num 3 2
    bg := (d 5 ^^^ x 0) + (d 6 ^^^ x 1) * 2 + (d 7 ^^^ x 2) * 4
    ba := (d 8 ^^^ x 3) + (d 9 ^^^ x 4) * 2
    col := num 10 7, row := num 17 18 }

/-- The map of a channel with 2^n installed lines is accepted (R340); `used` lists the destinations the geometry of the
DIMMs has. -/
def State.mapOk (s : State) (c n : Nat) (used : List Nat) : Bool :=
  let dests := (List.range 40).filter (fun d => decide (s.mapSel c d ≠ 63))
  let feeds := fun b => (dests.filter (fun d => decide (s.mapSel c d = b))).length
  (List.range n).all (fun b => decide (feeds b = 1))
    && dests.all (fun d => decide (s.mapSel c d < n) && used.contains d)
    && [(0, 5), (1, 6), (2, 7), (3, 8), (4, 9)].all (fun p =>
      s.get .MEM_MAPX_XSEL c p.1 == 63 || s.get .MEM_MAPX_XSEL c p.1 != s.mapSel c p.2)

/-! ### Pages -/

def State.page (s : State) (lpn : Nat) : Page := tgetD {} lpn s.pg.pages

/-- Put a page; a page with every field 0 is not listed. -/
def State.putPage (s : State) (lpn : Nat) (p : Page) : State :=
  { s with pg := { s.pg with pages := tputD {} lpn p s.pg.pages } }

def State.tier (s : State) (lpn : Nat) : Nat := (s.page lpn).pl.tier

/-- The page holds media or a lender location: Furnace, Lehr, Cullet, Caravan, Table (R254). -/
def hasImage (tier : Nat) : Bool := decide (1 ≤ tier ∧ tier ≤ 5)

/-- The page is stored raw: Furnace, Table, or Lehr or Cullet with NS = 1 (R125). -/
def isRaw (p : Place) : Bool := decide (p.tier = 1 ∨ p.tier = 5 ∨ ((p.tier = 2 ∨ p.tier = 3) ∧ p.ns = true))

/-- Granules of the image on this device (R232). -/
def imageLen (p : Place) : Nat := if isRaw p then 16 else if p.tier = 2 ∨ p.tier = 3 then p.len else 0

/-- Granules of a local twin. -/
def twinLen (p : Page) : Nat := if p.pl.twk = 1 then (if p.tw.tns then 16 else p.tw.tlen) else 0

/-- What a page charges to its account: image, local twin and 3 granules of metadata while it holds media (R254). -/
def pageCharge (p : Page) : Nat := if hasImage p.pl.tier then imageLen p.pl + twinLen p + 3 else 0

/-- The fault kind of an ill-formed placement entry (R125): 0x20 S2_FORMAT, 0x21 S2_HOLE. -/
def State.placeFault (s : State) (p : Place) : Option Nat :=
  if p.tier = 6 ∨ p.twk = 3 ∨ (p.twk = 2 ∧ p.tier = 4) ∨ (p.twk = 0 ∧ p.tier = 5) ∨ (p.tier = 4 ∧ p.ns)
      ∨ (p.tier = 5 ∧ p.code = 0) ∨ (isRaw p ∧ p.ma % 16 ≠ 0)
      ∨ ((p.tier = 2 ∨ p.tier = 3 ∨ p.tier = 4) ∧ p.ns = false ∧ p.len = 0)
      ∨ ((p.tier = 2 ∨ p.tier = 3) ∧ p.ns = false ∧ 16 < p.ma % 16 + p.len) then some 0x20
  else if (List.range (imageLen p)).any (fun k => s.isHole (p.ma + k)) then some 0x21
  else none

/-- The node of a level, 1 to 3, that holds an LPN's entry (R121, R127). -/
def nodeKey (lvl lpn : Nat) : Nat := lvl * 2 ^ 24 + lpn / 2 ^ (33 - 8 * lvl)

/-- The level of the first node on the way to an LPN that cannot be read (R127): S2_MEDIA. -/
def State.nodeBad (s : State) (lpn : Nat) : Option Nat :=
  if s.pg.badNodes = [] then none
  else if s.pg.badNodes.contains 0 then some 1
  else [1, 2, 3].find? (fun l => s.pg.badNodes.contains (nodeKey l lpn))

/-- The stage-2 fault of a page, with its level (R127): S2_MEDIA, S2_FORMAT, S2_HOLE. -/
def State.s2Fault (s : State) (lpn : Nat) : Option (Nat × Nat) :=
  match s.nodeBad lpn with
  | some l => some (0x22, l)
  | none => (s.placeFault (s.page lpn).pl).map (fun k => (k, 3))

/-! ### The allocator (R222) -/

/-- A granule belongs to a copy of a node unit, or to a fixed area (R287, R579). -/
def State.inUnit (s : State) (ma : Nat) : Bool :=
  (s.unitsOn (s.chanOf ma)).any (fun u => decide (u.1 ≤ s.localOf ma ∧ s.localOf ma < u.1 + unitLen))
    || (s.areasOn (s.chanOf ma)).any (fun a => decide (a.1 ≤ s.localOf ma ∧ s.localOf ma < a.1 + a.2))

/-- The map of used granules of a block of 16, as a 16-bit number. -/
def State.blockMap (s : State) (blk : Nat) : Nat :=
  s.pg.own.foldl (fun a p => if p.1 / 16 = blk ∧ p.2.role ≠ 0 then a + 2 ^ (p.1 % 16) else a) 0
    ||| (if s.pg.nodes = [] ∧ s.pg.areas = [] then 0 else (List.range 16).foldl (fun a k => if s.inUnit (16 * blk + k) then a + 2 ^ k else a) 0)

/-- What an allocation finds taken in a block: granules in use, and, under a grain that spreads a block over channels, holes (R34, R35). -/
def State.busyMap (s : State) (blk : Nat) : Nat :=
  let m := s.blockMap blk
  if s.grainB = 4 then m
  else m ||| (List.range 16).foldl (fun a k => if s.isHole (16 * blk + k) then a + 2 ^ k else a) 0

/-- The blocks in which some granule is used, of a channel. -/
def State.usedBlocks (s : State) (c : Nat) : List Nat :=
  (s.pg.own.foldl (fun (l : List Nat) p =>
    if p.2.role ≠ 0 ∧ s.chanOf (p.1 / 16 * 16) = c then linsert (p.1 / 16) l else l) [])

/-- The lowest offset of a block where n free granules begin. -/
def freeAt (map n : Nat) : Option Nat := (List.range (17 - n)).find? (fun o => decide (map / 2 ^ o % 2 ^ n = 0))

/-- The length of the longest free run of a block. -/
def longestRun (map : Nat) : Nat := ((List.range 17).filter (fun n => (freeAt map n).isSome)).foldl max 0

/-- The first wholly free block of a channel at or after a local position, trying `n` positions. -/
def State.freshBlock (s : State) (c loc : Nat) : Nat → Option Nat
  | 0 => none
  | n + 1 =>
    let room := tgetD 0 c s.pg.chCap / 16
    let ma := s.maOf c (loc % room * 16)
    if room = 0 then none
    else if ma % 16 = 0 ∧ s.busyMap (ma / 16) = 0 then some (ma / 16)
    else s.freshBlock c (loc + 1) n

/-- Positions after which a free block must have come, if the channel has one. -/
def State.tries (s : State) (c : Nat) : Nat := 16 * ((s.usedBlocks c).length + 16 * (s.unitsOn c).length + s.chFixed c / 16 + 2)

/-- The block an allocation of n granules takes on a channel, and its place in it: from the list with the shortest run of
at least n. Which block of that list is not specified (R222): `hint` stands for the choice. -/
def State.findRun (s : State) (c n hint : Nat) : Option Nat :=
  let used := s.usedBlocks c
  let fit := used.filter (fun b => decide (n ≤ longestRun (s.busyMap b)))
  let best := fit.foldl (fun a b => min a (longestRun (s.busyMap b))) 16
  let cand := fit.filter (fun b => decide (longestRun (s.busyMap b) = best))
  let blk := if cand = [] then s.freshBlock c hint (s.tries c) else cand[hint % cand.length]?
  blk.bind (fun b => (freeAt (s.busyMap b) n).map (fun o => 16 * b + o))

/-- The owner entries of n granules (R320). -/
def State.ownEach (s : State) (ma lpn role code : Nat) : Nat → State
  | 0 => s
  | n + 1 =>
    let s := { s with pg := { s.pg with own := tput (ma + n) ⟨lpn, role, code, decide (n = 0)⟩ s.pg.own } }
    s.ownEach ma lpn role code n

/-- Write the owner entries of an allocation (R320), counted as granules allocated (R511). -/
def State.ownRun (s : State) (ma lpn role code n : Nat) : State :=
  if n = 0 then s else (s.ownEach ma lpn role code n).count .global 0x07 n none

/-- Cancel the injections armed on a granule, each as fired without effect (R331). -/
def State.cancelAt (s : State) (ma : Nat) : State :=
  let mine := fun (x : Inj) => decide (x.kind < 3 ∧ x.la / 4 = ma)
  let n := (s.ecc.inj.filter mine).length
  if n = 0 then s
  else
    let c := s.chanOf ma
    let s := { s with ecc := { s.ecc with inj := s.ecc.inj.filter (fun x => !mine x) } }
    (s.put .ECC_INJ_STS_FIRED (satAdd 0xFFFF (s.get .ECC_INJ_STS_FIRED c) n) c).put .ECC_INJ_STS_ARMED
      (s.get .ECC_INJ_STS_ARMED c - n) c

/-- The channel among a list with the most free granules, the lowest-numbered of a tie. -/
def State.roomiest (s : State) (l : List Nat) : Option Nat :=
  l.foldl (fun (b : Option Nat) c => match b with
    | none => some c
    | some d => if s.chFree d < s.chFree c then some c else b) none

/-! ### Tag tables and node units (R280, R287) -/

/-- A raw frame under the Strong code has a tag table (R279, R280). -/
def needsTags (p : Place) : Bool := isRaw p && p.code == 1

/-- The lowest even offset of a block where two free granules begin. -/
def freePair (map : Nat) : Option Nat := (List.range 8).find? (fun o => decide (map / 4 ^ o % 4 = 0))

/-- Two granules, aligned, for a tag table: on a channel of choice, in a block in use if one has room (R280; which is DESIGN CHOICE, log 112). -/
def State.tagRoomOn (s : State) (c hint : Nat) : Option Nat :=
  match (s.usedBlocks c).find? (fun b => (freePair (s.busyMap b)).isSome) with
  | some b => (freePair (s.busyMap b)).map (fun o => 16 * b + 2 * o)
  | none => (s.freshBlock c hint (s.tries c)).map (fun b => 16 * b)

/-- Where a tag table goes: the frame's channel if it can, else the channel with the most free granules. -/
def State.tagRoom (s : State) (prim hint : Nat) (avoid : List Nat) : Option Nat :=
  match (if avoid.contains (s.chanOf prim) then none else s.tagRoomOn (s.chanOf prim) hint) with
  | some ma => some ma
  | none => (List.range 16).findSome? (fun c => if s.canPlace c && !avoid.contains c then s.tagRoomOn c hint else none)

/-- A range of a channel's granules, by local index, is installed, and free. -/
def State.rangeFree (s : State) (c loc n : Nat) : Bool :=
  decide (loc + n ≤ tgetD 0 c s.pg.chCap)
    && !s.pg.own.any (fun p => decide (p.2.role ≠ 0 ∧ s.chanOf p.1 = c ∧ loc ≤ s.localOf p.1 ∧ s.localOf p.1 < loc + n))
    && !(s.unitsOn c).any (fun u => decide (u.1 < loc + n ∧ loc < u.1 + unitLen))
    && !(s.areasOn c).any (fun a => decide (a.1 < loc + n ∧ loc < a.1 + a.2))

/-- The lowest free place for a copy of a node unit on a channel, but for one: 256 granules, aligned, of the channel's own (DESIGN CHOICE, log 113). -/
def State.findUnit (s : State) (c : Nat) (but : Option Nat := none) : Option Nat :=
  if s.canPlace c then
    ((List.range (s.pg.own.length + s.pg.nodes.length + 2)).find? (fun k => s.rangeFree c (unitLen * k) unitLen && but != some (s.maOf c (unitLen * k)))).map
      (fun k => s.maOf c (unitLen * k))
  else none

/-! ### Fixed metadata areas (R579) -/

/-- The highest place on a channel where n free granules lie together; the model puts fixed areas as high as they go (DESIGN CHOICE, log 20). -/
def State.topFree (s : State) (c n : Nat) : Option Nat :=
  let ends := tgetD 0 c s.pg.chCap :: ((s.areasOn c).map (·.1) ++ (s.unitsOn c).map (·.1)
    ++ (s.pg.own.filter (fun p => decide (p.2.role ≠ 0 ∧ s.chanOf p.1 = c))).map (fun p => s.localOf p.1))
  (ends.filter (fun e => decide (n ≤ e) && s.rangeFree c (e - n) n)).foldl (fun (b : Option Nat) e => match b with
    | none => some (e - n)
    | some d => if d < e - n then some (e - n) else b) none

/-- Give an area a copy on a channel: no place, no copy. -/
def State.putCopy (s : State) (code n c : Nat) : State :=
  match s.topFree c n with
  | some loc =>
    let a := tgetD { size := n, places := [] } code s.pg.areas
    { s with pg := { s.pg with areas := tput code { a with places := a.places ++ [s.maOf c loc] } s.pg.areas } }
  | none => s

/-- The registers that report where an area lies (R579). -/
def areaRegs2 (code : Nat) : List (Reg × Nat) :=
  if code < 16 then [(.ECC_OWNER_BASE_MA, code)]
  else match code with
    | 16 => [(.XLT_S2_ROOT_A_MA, 0), (.XLT_S2_ROOT_B_MA, 0)]
    | 18 => [(.SEC_TREE_A_MA, 0), (.SEC_TREE_B_MA, 0)]
    | 19 => [(.CDC_FSTORE_A_MA, 0), (.CDC_FSTORE_B_MA, 0)]
    | 17 => []
    | n => [(.COH_DIR_CFG_BASE, n - 32)]

/-- The registers of an area follow its places. -/
def State.showArea (s : State) (code : Nat) : State :=
  let l := (tgetD { size := 0, places := [] } code s.pg.areas).places
  ((areaRegs2 code).zip l).foldl (fun (s : State) x => s.put x.1.1 x.2 x.1.2) s

/-- The copies of an area on a channel go to other channels: the roomiest that holds no other copy, or, if every other one does, the roomiest. -/
def State.moveArea (s : State) (code c : Nat) : State :=
  let a := tgetD { size := 0, places := [] } code s.pg.areas
  let keep := a.places.filter (fun ma => s.chanOf ma != c)
  let cs := (List.range 16).filter (fun d => d ≠ c && s.canPlace d && d ≠ code)
  match s.roomiest (cs.filter (fun d => !keep.any (fun ma => s.chanOf ma == d))) <|> s.roomiest cs with
  | some d =>
    let t := ({ s with pg := { s.pg with areas := tput code { a with places := keep } s.pg.areas } } : State).putCopy code a.size d
    if (tgetD a code t.pg.areas).places.length = a.places.length then t.showArea code else s
  | none => s

/-- A node pair from the free list (R123, R287): on the two roomiest channels that have units; a device with one channel keeps both copies there
(DESIGN CHOICE, log 113). -/
def State.takeUnit (s : State) : Option (Nat × Nat) :=
  let cs := (List.range 16).filter (fun c => (s.findUnit c).isSome)
  match s.roomiest cs with
  | none => none
  | some c =>
    match s.findUnit c with
    | none => none
    | some a =>
      (match s.roomiest (lremove c cs) with
        | some d => s.findUnit d
        | none => s.findUnit c (some a)).map (fun b => (a, b))

/-- Where the pool keeps a node of level 1 or 2 (R579): its place in a copy. -/
def poolPlace (key : Nat) : Nat := 16 * (if key / 2 ^ 24 = 1 then key % 2 ^ 24 else 256 + key % 2 ^ 24)

/-- The pair of a new node: a unit of the free list for level 3, its place in the pool for levels 1 and 2 (R130, R579). -/
def State.nodePair (s : State) (key : Nat) : Option Node :=
  if key / 2 ^ 24 = 3 then s.takeUnit.map (fun p => { a := p.1, b := p.2 })
  else match tget 17 s.pg.areas with
    | some p => match p.places with
      | [a, b] =>
        let at' := fun (m : Nat) => s.maOf (s.chanOf m) (s.localOf m + poolPlace key)
        some { a := at' a, b := at' b }
      | _ => none
    | none => none

/-- Each of n granules becomes free. -/
def State.freeEach (s : State) (ma : Nat) : Nat → State
  | 0 => s
  | n + 1 =>
    let s := match tget (ma + n) s.pg.own with
      | some o => { s with pg := { s.pg with own := tput (ma + n) { o with role := 0 } s.pg.own } }
      | none => s
    (s.cancelAt (ma + n)).freeEach ma n

/-- Release granules: ROLE 0, the code kept (R320), counted as granules released (R511). -/
def State.freeRun (s : State) (ma n : Nat) : State :=
  if n = 0 then s else (s.freeEach ma n).count .global 0x08 n none

/-- A tag table is released (R280). -/
def State.freeTab (s : State) (t : Option Nat) : State := match t with | some ma => s.freeRun ma 2 | none => s

/-- The tag-pointer of a page follows its new frame (R280): a table for a Strong raw frame, none for any other image. None: no room. The old table is
released by the caller. -/
def State.giveTags (s : State) (lpn hint : Nat) (avoid : List Nat) : Option State :=
  let p := s.page lpn
  if needsTags p.pl then (s.tagRoom p.pl.ma hint avoid).map (fun t => (s.ownRun t lpn 3 1 2).putPage lpn { p with tag := some t })
  else some (s.putPage lpn { p with tag := none })

/-- Where a primary of n granules goes (R257): the home's channel if it has room, else the roomiest one. -/
def State.placePrimary (s : State) (lpn n hint : Nat) (avoid : List Nat) : Option Nat :=
  let h := s.home lpn
  let ok := fun c => s.canPlace c && !avoid.contains c
  match (if ok h then s.findRun h n hint else none) with
  | some ma => some ma
  | none => ((s.roomiest ((List.range 16).filter ok))).bind (fun c => s.findRun c n hint)

/-- Where a local twin goes (R251): channel (c + 8) mod 16 if it can, else the roomiest channel with no granule of the
primary. -/
def State.placeTwin (s : State) (prim n hint : Nat) (avoid : List Nat) : Option Nat :=
  let own := (List.range 16).map (fun k => s.chanOf (prim + k))
  let c := (s.chanOf prim + 8) % 16
  let ok := fun d => s.canPlace d && !own.contains d && !avoid.contains d
  match (if ok c then s.findRun c n hint else none) with
  | some ma => some ma
  | none => (s.roomiest ((List.range 16).filter ok)).bind (fun d => s.findRun d n hint)

/-! ### Accounts and pressure (R253–R261) -/

/-- An enabled context with a window that contains an LPN. -/
def State.inWindow (s : State) (tc lpn : Nat) : Bool :=
  (List.range 4).any (fun w => decide (s.get .XLT_WIN_BASE_LPN tc w ≤ lpn ∧ lpn < s.get .XLT_WIN_LIMIT_LPN tc w))

/-- The account of a page (R253). -/
def State.acct (s : State) (lpn : Nat) : Nat :=
  ((List.range 256).find? (fun tc => s.isSet .XLT_CTX_CFG_EN tc && s.inWindow tc lpn)).getD 256

/-- B_a (R254). -/
def State.backing (s : State) (a : Nat) : Nat := if s.isSet .XLT_ACCT_TWL a then 35 else 19

def State.commit (s : State) (a : Nat) : Nat := s.get .XLT_ACCT_VALUE a 0
def State.thin (s : State) (a : Nat) : Nat := s.get .XLT_ACCT_VALUE a 1
def State.pop (s : State) (a : Nat) : Nat := s.get .XLT_ACCT_VALUE a 2
def State.used (s : State) (a : Nat) : Nat := s.get .XLT_ACCT_VALUE a 3

/-- RES_a (R254). -/
def State.res (s : State) (a : Nat) : Nat := max (tgetD 0 a s.pg.resHold) (s.commit a * s.backing a - s.used a)

/-- The account is within its commitment at a given use (R254). -/
def State.within (s : State) (a used : Nat) : Bool := decide (used ≤ s.commit a * s.backing a)

/-- The pressure level (R258): from the present level and FREE as a share of USABLE. -/
def pressLevel (cur free usable amber red : Nat) : Nat :=
  if free = 0 then 3
  else if free * 100 < red * usable ∨ (2 ≤ cur ∧ free * 100 < (red + 1) * usable) then 2
  else if free * 100 < amber * usable ∨ (1 ≤ cur ∧ free * 100 < (amber + 1) * usable) then 1
  else 0

/-- Recompute FREE, SHORTFALL and the level, with the event of a change (R258, R261, R266). -/
def State.repress (s : State) : State :=
  let us := s.get .XLT_CAP_COUNT 0
  let need := s.get .XLT_CAP_COUNT 1 + s.get .XLT_CAP_COUNT 2
  let short := decide (us < need)
  let free := us - need
  let cur := s.get .XLT_PRESS_STS_LEVEL
  let was := s.isSet .XLT_PRESS_STS_SHORTFALL
  let lvl := if short then 3 else pressLevel cur free us (s.get .XLT_BUDGET_AMBER_PCT) (s.get .XLT_BUDGET_RED_PCT)
  let s := (s.put .XLT_CAP_COUNT free 3).put .XLT_PRESS_STS_SHORTFALL (b2n short)
  let s := if short ∧ ¬ was then s.report (msg2 bSlc s.capSlice 0xD) else s
  if lvl = cur then s
  else
    let s := s.put .XLT_PRESS_STS_LEVEL lvl
    s.reportNotify (msg1 bSlc s.capSlice 0xB lvl) 1 lvl 0

/-- USABLE (R254): in-service channels that are not being evacuated, less the fixed areas (R262). -/
def State.recap (s : State) : State :=
  let us := ((List.range 16).filter s.canPlace).foldl (fun a c => a + s.chRoom c) 0
  (s.put .XLT_CAP_COUNT us 0).repress

/-- Add and take granules and pages of an account; USED, RESERVE and the level follow. -/
def State.addUse (s : State) (a plus minus popPlus popMinus : Nat) : State :=
  let r0 := s.res a
  let s := s.put .XLT_ACCT_VALUE (s.used a + plus - minus) a 3
  let s := s.put .XLT_ACCT_VALUE (s.pop a + popPlus - popMinus) a 2
  let s := s.put .XLT_CAP_COUNT (s.get .XLT_CAP_COUNT 1 + plus - minus) 1
  let s := s.put .XLT_CAP_COUNT (s.get .XLT_CAP_COUNT 2 + s.res a - r0) 2
  s.repress

/-- Replace a page, with its charge (R254). -/
def State.setPage (s : State) (lpn : Nat) (p : Page) : State :=
  let old := s.page lpn
  let s := s.putPage lpn p
  if pageCharge old = pageCharge p ∧ hasImage old.pl.tier = hasImage p.pl.tier then s
  else s.addUse (s.acct lpn) (pageCharge p) (pageCharge old) (b2n (hasImage p.pl.tier)) (b2n (hasImage old.pl.tier))

/-- Physically free granules of the device. -/
def State.physFree (s : State) : Nat := ((List.range 16).filter s.canPlace).foldl (fun a c => a + s.chFree c) 0

/-- An allocation of `n` granules for account a is backed (R255, R261). -/
def State.backed (s : State) (a n : Nat) : Bool :=
  if s.within a (s.used a + n) then !s.isSet .XLT_PRESS_STS_SHORTFALL || decide (n ≤ s.physFree)
  else if s.isSet .XLT_PRESS_STS_SHORTFALL then decide (s.get .XLT_CAP_COUNT 2 + n ≤ s.physFree)
  else
    let limit := s.commit a * s.backing a
    decide (s.used a + n - max limit (s.used a) ≤ s.get .XLT_CAP_COUNT 3)

/-- A new page of account a is within COMMIT + THIN (R255). -/
def State.popOk (s : State) (a : Nat) : Bool := decide (s.pop a < s.commit a + s.thin a)

/-! ### Counters and key slots (R270, R282, R283) -/

/-- The running sweep whose range holds an LPN. -/
def State.sweepOf (s : State) (lpn : Nat) : Option Nat :=
  (List.range 4).find? (fun k => s.get .SEC_SWEEP_CTL_STATE k ≠ 0 &&
    decide (s.get .SEC_SWEEP_FIRST_LPN k ≤ lpn ∧ lpn < s.get .SEC_SWEEP_LIMIT_LPN k))

/-- The slot a page takes when it first receives media (R270). -/
def State.slotFor (s : State) (lpn : Nat) : Nat :=
  match s.sweepOf lpn with
  | some k => if lpn < s.get .SEC_SWEEP_WAY_LPN k then s.get .SEC_SWEEP_CTL_NEW k else s.get .SEC_SWEEP_CTL_OLD k
  | none => let a := s.acct lpn; if a = 256 then 0 else s.get .SEC_CTX_KS_KS a

def State.slotActive (s : State) (ks : Nat) : Bool := s.isSet .SEC_KS_STS_STATE ks

def State.ctr (s : State) (lpn sector : Nat) : Nat := tgetD 0 (8 * lpn + sector) s.pg.ctrs

/-- The integrity tree numbers a leaf (level 0) or node by level and by what it covers (R285). -/
def treeIx (lvl lpn : Nat) : Nat := 2 ^ 33 * lvl + lpn / 8 ^ lvl

/-- Its keeper holds a node dirty (R290). -/
def State.treeDirty (s : State) (lvl lpn : Nat) : State := { s with sec := { s.sec with tcache := tput (treeIx lvl lpn) true s.sec.tcache } }

/-- Write a sector's counter under a slot; its leaf is dirty, and HIGH of the slot follows (R282, R283, R290). -/
def State.putCtr (s : State) (lpn sector ks v : Nat) : State :=
  let s := ({ s with pg := { s.pg with ctrs := tputD 0 (8 * lpn + sector) v s.pg.ctrs } } : State).treeDirty 0 lpn
  let s := s.put .SEC_KS_HIGH_VALUE (max (s.get .SEC_KS_HIGH_VALUE ks) v) ks
  if 2 ^ 63 ≤ v then s.put .SEC_KS_STS_WORN 1 ks else s

/-- Write the counters of the lowest n sectors. -/
def State.putCtrs (s : State) (lpn ks v : Nat) : Nat → State
  | 0 => s
  | n + 1 => (s.putCtrs lpn ks v n).putCtr lpn n ks v

/-- The counters of a page leave the tracking of its slot (R283). -/
def State.leaveSlot (s : State) (lpn ks : Nat) : State :=
  let top := (List.range 8).foldl (fun a k => max a (s.ctr lpn k)) (s.get .SEC_KS_FLOOR_VALUE ks)
  let s := s.put .SEC_KS_FLOOR_VALUE top ks
  let s := if 2 ^ 63 ≤ top then s.put .SEC_KS_STS_WORN 1 ks else s
  (s.put .SEC_KS_STS_REF (s.get .SEC_KS_STS_REF ks - 1) ks)

/-- A page joins a slot: REF + 1. -/
def State.joinSlot (s : State) (ks : Nat) : State := s.put .SEC_KS_STS_REF (s.get .SEC_KS_STS_REF ks + 1) ks

/-- The counters of a page are gone. -/
def State.dropCtrs (s : State) (lpn : Nat) : State :=
  ({ s with pg := { s.pg with ctrs := s.pg.ctrs.filter (fun p => decide (p.1 / 8 ≠ lpn)) } } : State).treeDirty 0 lpn

/-! ### Frit references (R214) -/

/-- The slot 0 or 1 of a frit that holds a version. -/
def State.fritSlot (s : State) (f ver : Nat) : Option Nat :=
  if ver = 0 then none
  else if s.get .CDC_FRIT_STS_VER0 f = ver then some 0
  else if s.get .CDC_FRIT_STS_VER1 f = ver then some 1
  else none

/-- The version a slot of a frit holds. -/
def State.fritVerAt (s : State) (f slot : Nat) : Nat :=
  if slot = 0 then s.get .CDC_FRIT_STS_VER0 f else s.get .CDC_FRIT_STS_VER1 f

/-- Change REF of the slot that a page's image uses; a slot that is not current and reaches 0 becomes empty, unless a
rebuild is pending (R214, R215). -/
def State.refFrit (s : State) (f ver : Nat) (up : Bool) : State :=
  match s.fritSlot f ver with
  | none => s
  | some sl =>
    let r : Reg := if sl = 0 then .CDC_FRIT_REF0_REF else .CDC_FRIT_REF1_REF
    let n := if up then s.get r f + 1 else s.get r f - 1
    let s := s.put r n f
    if n = 0 ∧ s.get .CDC_FRIT_STS_CUR f ≠ sl ∧ ¬ s.isSet .CDC_FRIT_STS_REBUILD f ∧ ¬ up then
      let s := if sl = 0 then s.put .CDC_FRIT_STS_VER0 0 f else s.put .CDC_FRIT_STS_VER1 0 f
      { s with cdc := { s.cdc with store := tdel (2 * f + sl) s.cdc.store } }
    else s

/-- MODE of a segment, 1 (ZERO) for one that is not stored, and CLEN (R201, R206). -/
def Seg.mode (g : Seg) : Nat := (g.body.headD 1).toNat % 8
def Seg.clen (g : Seg) : Nat := g.body.length

/-- The page's image has an LZE segment, so it names its frit slot. -/
def usesFrit (p : Page) : Bool := p.segs.any (fun g => decide (g.mode = 7 ∧ g.span ≠ 0))

/-! ### Releasing images -/

/-- Release what a page holds on this device's media, its local twin and its frit reference (R223, R256). Lender
locations are returned under R414: the port's own table forgets them when `cvnFree` runs. -/
def State.releaseImage (s : State) (lpn : Nat) : State :=
  let p := s.page lpn
  let s := (s.freeRun p.pl.ma (imageLen p.pl)).freeTab p.tag
  let s := s.freeRun p.tw.tma (twinLen p)
  if usesFrit p then s.refFrit p.pl.frit p.fritVer false else s

/-- The content of a page on media is gone. -/
def State.dropContent (s : State) (lpn : Nat) : State :=
  { s with pg := { s.pg with
      mem := s.pg.mem.filter (fun p => decide (p.1 / 64 ≠ lpn))
      poison := s.pg.poison.filter (fun l => decide (l / 64 ≠ lpn)) } }

/-- Turn a page into tier t (0 Zero or 7 Poisoned): VER + 1, everything it held released, its counters out of tracking
(R223, R256, R283, R302). -/
def State.emptyPage (s : State) (lpn t : Nat) : State :=
  let p := s.page lpn
  let s := s.releaseImage lpn
  let s := if hasImage p.pl.tier then s.leaveSlot lpn p.pl.ks else s
  let s := (s.dropCtrs lpn).dropContent lpn
  s.setPage lpn { pl := { tier := t, ver := (p.pl.ver + 1) % 256 }, want := p.want }

/-! ### Poison (R193, R194, R332) -/

/-- Add an entry to the device poison log (R332). -/
def State.logPoison (s : State) (lpn sector line cause : Nat) : State :=
  let e : PoisonEnt := { lpn := lpn, sector := sector, line := line, cause := cause, time := s.stamp }
  { s with ecc := { s.ecc with
      plog := (s.ecc.plog ++ [e]).drop ((s.ecc.plog.length + 1) - 4096), pcount := s.ecc.pcount + 1 } }

/-- Mark a line of media as poison, and log it; a line marked already makes no second entry. -/
def State.markPoison (s : State) (line cause : Nat) : State :=
  if s.pg.poison.contains line then s
  else
    let s := { s with pg := { s.pg with poison := linsert line s.pg.poison } }
    s.logPoison (line / 64) (line / 8 % 8) (line % 8) cause

/-- Mark n lines from a line on. -/
def State.markLines (s : State) (line : Nat) : Nat → State
  | 0 => s
  | n + 1 => let s := { s with pg := { s.pg with poison := linsert (line + n) s.pg.poison } }; s.markLines line n

/-- Poison a line of a raw page, or the whole sector of a parison (R193, R329). -/
def State.poisonMedia (s : State) (line cause : Nat) : State :=
  if isRaw (s.page (line / 64)).pl then s.markPoison line cause
  else if (s.pg.poison.contains (line / 8 * 8)) then s
  else (s.markLines (line / 8 * 8) 8).logPoison (line / 64) (line / 8 % 8) 7 cause

/-- Poison a page that a stop of its media or an unbacked write takes (R256). -/
def State.poisonPage (s : State) (lpn : Nat) : State := (s.emptyPage lpn 7).logPoison lpn 0 7 6

/-- An unbacked write (R256): the page is Poisoned, EXHAUST_DROPS rises, every Steward head and the writing head hear of
it. -/
def State.unbacked (s : State) (lpn : Nat) (head : Option Nat) : State :=
  let s := (s.poisonPage lpn).bump .XLT_PRESS_STS_EXHAUST_DROPS 0xFFFFFFFF
  let m := msg2 bSlc s.capSlice 0xC (lpn * 4096)
  let s := s.reportTo m (.media lpn)
  match head with
  | some h => if s.stewards.contains h then s else s.logCxl h 2 { handle := 0, kind := 3, typ := 1, a := lpn }
  | none => s

/-- The record of media poison to every Steward head (R68, R328). -/
def State.mediaRecord (s : State) (line cause : Nat) : State :=
  s.logAll 2 { handle := 0, kind := 3, typ := 1
               a := line / 64 + (line / 8 % 8) * 2 ^ 33 + (line % 8) * 2 ^ 36 + cause * 2 ^ 39 } s.stewards

/-! ### Queues of tiering (R246) -/

/-- Which queue: 0 promotion, 1 demotion, 2 forced. -/
def State.queue (s : State) (q n : Nat) : List MoveReq :=
  match q with
  | 0 => tgetD [] n s.pg.promoQ
  | 1 => tgetD [] n s.pg.demoQ
  | _ => tgetD [] n s.pg.forcedQ

def State.setQueue (s : State) (q n : Nat) (l : List MoveReq) : State :=
  match q with
  | 0 => ({ s with pg := { s.pg with promoQ := tputD [] n l s.pg.promoQ } }).put .XLT_TIER_SLICE_PQ l.length n
  | 1 => ({ s with pg := { s.pg with demoQ := tputD [] n l s.pg.demoQ } }).put .XLT_TIER_SLICE_DQ l.length n
  | _ => ({ s with pg := { s.pg with forcedQ := tputD [] n l s.pg.forcedQ } }).put .XLT_TIER_SLICE_FQ l.length n

/-- Enter a page in a queue of its home; a full queue discards and counts (R246). A page already queued for the same
class is not entered twice. -/
def State.enqueue (s : State) (q : Nat) (r : MoveReq) : State :=
  let n := s.home r.lpn
  let l := s.queue q n
  if l.any (fun x => decide (x.lpn = r.lpn ∧ x.cls = r.cls)) then s
  else if l.length < (if q = 1 then 1024 else 256) then s.setQueue q n (l ++ [r])
  else s.bump .XLT_TIER_SLICE_DROPS 0xFFFF n

/-- Queue a twin repair (R252). -/
def State.queueRepair (s : State) (lpn : Nat) : State :=
  s.enqueue 2 { lpn := lpn, ver := (s.page lpn).pl.ver, cls := 3, target := s.tier lpn }

/-- The twin kind a page needs (R250). -/
def State.twinNeed (s : State) (p : Page) : Nat := max (s.get .XLT_OBJ_TWIN p.pl.obj) p.want

/-- Drop a twin: TWK 0, VER unchanged, its granules released (R192). -/
def State.dropTwin (s : State) (lpn : Nat) : State :=
  let p := s.page lpn
  let s := s.freeRun p.tw.tma (twinLen p)
  s.setPage lpn { p with pl := { p.pl with twk := 0 }, tw := {} }

/-- The twin of a page can be read: local, on a channel in service and not frozen, or Caravan with its port UP. -/
def State.twinReadable (s : State) (p : Page) : Bool :=
  match p.pl.twk with
  | 1 => let c := s.chanOf p.tw.tma; s.inService c && decide (s.get .MEM_CH_STS_STATE c ≠ 3)
  | 2 => decide (s.get .CVN_LINK_STS_STATE (p.tw.tma / 2 ^ 35 % 2) = 5)
  | _ => false

end Sys2Proof.Machine
end

