-- ==== Sys2Proof/Machine/Sched.lean ====
section
/-!
DEFINITION. The scheduler of a channel (R341, R344, R354, R423, R430, R431): its read and write queues, the open rows, the slots of the frame, and the
history of the commands it issues. DRAM timing is not modelled: a command whose turn comes can issue (DESIGN CHOICE, log 126).
-/
namespace Sys2Proof.Machine
open Sys2Proof

def State.chState (s : State) (c : Nat) : Nat := s.get .MEM_CH_STS_STATE c

/-! ### Commands on the DRAM bus -/

/-- A command enters the history, which holds the newest 64 (R354). -/
def State.issued (s : State) (c : Nat) (d : DramCmd) : State :=
  let ch := s.chan c
  s.setChan c { ch with hist := ({ d with at' := ch.clk } :: ch.hist).take 64 }

/-- A command of maintenance without an address. -/
def State.maint (s : State) (c cmd : Nat) : State := s.issued c { at' := 0, cmd := cmd }

/-- Every bank of a channel is precharged. -/
def State.closeRows (s : State) (c : Nat) : State := s.setChan c { s.chan c with rows := [] }

/-- The bank of an address, as one number. -/
def bankKey (d : DramAddr) : Nat := (((d.sc * 4 + d.rk) * 4 + d.cid) * 8 + d.bg) * 4 + d.ba

/-- A row of a bank is activated (R344): at RAAIMT the controller issues RFM, which lowers the count by RAAIMT. -/
def State.activate (s : State) (c bank : Nat) : State :=
  if ¬ s.isSet .MEM_RFM_CFG_RFM_EN c then s
  else
    let ch := s.chan c
    let n := tgetD 0 bank ch.acts + 1
    let lim := s.get .MEM_RFM_CFG_RAAIMT c
    if lim ≤ n then
      (((s.setChan c { ch with acts := tputD 0 bank (n - lim) ch.acts }).bump .MEM_CNT_RFM 0xFFFFFFFF c).maint c 7).emit (.dram c 3 bank)
    else s.setChan c { ch with acts := tputD 0 bank n ch.acts }

/-- The channel address of a line. -/
def State.addrOf (s : State) (la : Nat) : DramAddr := s.dramAddr (s.chanOf (la / 4)) (4 * s.localOf (la / 4) + la % 4)

/-- A bank's row is open for an address: the same row, used within the last 64 MC cycles, which are 32 slots (R341). -/
def ChanSt.rowOpen (ch : ChanSt) (d : DramAddr) : Bool :=
  match tget (bankKey d) ch.rows with
  | some (row, t) => row == d.row && decide (ch.clk - t ≤ 32)
  | none => false

/-- Another row of the bank is open. -/
def ChanSt.rowConflict (ch : ChanSt) (d : DramAddr) : Bool :=
  match tget (bankKey d) ch.rows with
  | some (row, t) => row != d.row && decide (ch.clk - t ≤ 32)
  | none => false

/-- Speculative reads and prefetches. -/
def MedCmd.spec (m : MedCmd) : Bool := m.src == 1 || m.src == 2

/-- A read or write is issued: a conflicting row is closed and the row opened first, where it is not open. What it does counts, but for a speculative
read (R513), 64 bytes a line (DEDUCED, log 132). -/
def State.issueMed (s : State) (c : Nat) (m : MedCmd) : State :=
  let d := s.addrOf m.la
  let cmd := fun (k addr la : Nat) => DramCmd.mk 0 k d.sc d.rk d.cid d.bg d.ba addr la m.src
  let s :=
    if (s.chan c).rowOpen d then s
    else
      let s := if (s.chan c).rowConflict d then s.issued c (cmd 3 0 0) else s
      let s := if m.spec then s else s.count (.slice c) 0x22 1 m.who
      (s.issued c (cmd 0 d.row 0)).activate c (bankKey d)
  let s := s.issued c (cmd (if m.wr then 2 else 1) d.col m.la)
  let s := if m.spec then s else s.count (.slice c) (if m.wr then 0x21 else 0x20) 64 m.who
  let ch := s.chan c
  (s.setChan c { ch with rows := tput (bankKey d) (d.row, ch.clk) ch.rows, bus := if m.wr then ch.bus else ch.bus ++ [m.la] }).emit
    (.dram c (if m.wr then 1 else 0) m.la)

/-! ### What a slot serves -/

/-- The commands that no older command for the same line holds back, with their places (R341). -/
def ready : List Nat → Nat → List MedCmd → List (Nat × MedCmd)
  | _, _, [] => []
  | seen, i, m :: ms => if seen.contains m.la then ready seen (i + 1) ms else (i, m) :: ready (m.la :: seen) (i + 1) ms

/-- The oldest command whose row is open, else the oldest. -/
def openFirst (opn : MedCmd → Bool) (l : List (Nat × MedCmd)) : Option (Nat × MedCmd) :=
  match l.find? (fun x => opn x.2) with
  | some x => some x
  | none => l.head?

/-- The place of a command in the rotation of the pointer. -/
def SubSt.rotation (b : SubSt) : List Nat := (List.range 15).map (fun j => 1 + (b.rot - 1 + j) % 15)

/-- The guaranteed slots a class has that are eligible and unused (R430): `g` of them in the frame, the j-th from slot ⌊j × 1,024 ÷ g⌋ on. -/
def SubSt.unused (b : SubSt) (g k : Nat) : Nat := min g (((b.at' + 1) * g + 1023) / 1024) - tgetD 0 k b.used

/-- Guaranteed slots of a class on a subchannel: half, the odd one on A. -/
def halfSlots (slots sc : Nat) : Nat := if sc = 0 then (slots + 1) / 2 else slots / 2

/-- What best effort serves (R341, R430): the slot of a scrub behind its time; writes while they are drained; else the reads, and a write that
another command for its line waits for; speculative reads last. -/
def bestEffort (b : SubSt) (opn : MedCmd → Bool) (scrubDue : Bool) (l : List (Nat × MedCmd)) : Option (Nat × MedCmd) :=
  let work := l.filter (fun x => !x.2.spec)
  let writes := work.filter (fun x => x.2.wr)
  let awaited := fun (x : Nat × MedCmd) => (b.q.drop (x.1 + 1)).any (fun m => m.la == x.2.la)
  match if scrubDue then work.find? (fun x => x.2.src == 3) else none with
  | some x => some x
  | none =>
    match if b.draining then openFirst opn writes else none with
    | some x => some x
    | none =>
      match openFirst opn (work.filter (fun x => !x.2.wr || awaited x)) with
      | some x => some x
      | none => openFirst opn (l.filter (fun x => x.2.spec))

/-- The command a slot serves, and the class that claims it, if one does (R430). `g`: the guaranteed slots of each class on the subchannel; `wrOk`: writes
may be issued (R353). -/
def pick (b : SubSt) (opn : MedCmd → Bool) (g : Nat → Nat) (wrOk scrubDue : Bool) : Option (Nat × MedCmd × Option Nat) :=
  let l := (ready [] 0 b.q).filter (fun x => wrOk || !x.2.wr)
  let mine := fun k => l.filter (fun x => x.2.cls == k && !x.2.spec && x.2.src != 3)
  match b.rotation.find? (fun k => decide (0 < b.unused (g k) k) && !(mine k).isEmpty) with
  | some k => (openFirst opn (mine k)).map (fun x => (x.1, x.2, some k))
  | none => (bestEffort b opn scrubDue l).map (fun x => (x.1, x.2, none))

/-- Writes are drained from 48 on until 16 are left. -/
def SubSt.drainNow (b : SubSt) : SubSt :=
  let n := (b.q.filter (·.wr)).length
  { b with draining := if 48 ≤ n then true else if n ≤ 16 then false else b.draining }

/-- Commands that wait on MED move up in their order while their queue has room for 64. -/
def SubSt.fill (b : SubSt) : List MedCmd → SubSt
  | [] => { b with med := [] }
  | m :: ms =>
    if (b.q.filter (fun x => x.wr == m.wr)).length < 64 then ({ b with q := b.q ++ [m] } : SubSt).drainNow.fill ms
    else { b with med := m :: ms }

/-- A subchannel of a channel. -/
def ChanSt.sub (ch : ChanSt) (sc : Nat) : SubSt := if sc = 0 then ch.subA else ch.subB

/-- Put a subchannel. -/
def ChanSt.putSub (ch : ChanSt) (sc : Nat) (b : SubSt) : ChanSt := if sc = 0 then { ch with subA := b } else { ch with subB := b }

/-- More than 1 % of the scrub period has passed beyond what the progress of the pass accounts for (R326). -/
def State.scrubLate (s : State) (c : Nat) : Bool :=
  match tget c s.ecc.scrubFrom with
  | some t => decide ((s.get .ECC_SCRUB_STS_PCT c + 1) * (s.get .ECC_SCRUB_CFG_PERIOD_H * 36000000000) < s.now - t)
  | none => false

/-- One slot of a subchannel (R430, R431). A frame run as best effort gives no class a slot of its own (R438). -/
def State.slotOf (s : State) (c sc : Nat) : State :=
  let ch := s.chan c
  let b := ch.sub sc
  let wrOk := decide (s.chState c = 2)
  let g := fun k => if ch.noTable then 0 else halfSlots (s.get .TLG_CH_SLOT_SLOTS c k) sc
  let due := !ch.scrubbed && s.scrubLate c
  let next := fun (b : SubSt) => { b with at' := min 1023 (b.at' + 1) }
  match pick b (fun m => ch.rowOpen (s.addrOf m.la)) g wrOk due with
  | none => (s.setChan c (ch.putSub sc (next b))).count (.slice c) 0x25 1 none
  | some (i, m, cls) =>
    let b := match cls with
      | some k => { b with rot := k % 15 + 1, used := tput k (tgetD 0 k b.used + 1) b.used }
      | none => b
    let b := next (({ b with q := b.q.eraseIdx i } : SubSt).drainNow.fill b.med)
    let s := if m.spec then s else s.count (.slice c) (if cls.isSome then 0x23 else 0x24) 1 m.who
    (s.setChan c { ch.putSub sc b with scrubbed := ch.scrubbed || (due && m.src == 3) }).issueMed c m

/-- No command waits at a channel. -/
def ChanSt.quiet (ch : ChanSt) : Bool := ch.subA.q.isEmpty && ch.subB.q.isEmpty

/-- The slots of a stretch of time pass at both subchannels at once; once nothing waits the rest pass unused. -/
def State.runSlots (s : State) (c : Nat) : Nat → State
  | 0 => s
  | n + 1 =>
    let ch := s.chan c
    if ch.quiet then
      let skip := fun (b : SubSt) => { b with at' := min 1023 (b.at' + n + 1) }
      (s.setChan c { ch with clk := ch.clk + n + 1, subA := skip ch.subA, subB := skip ch.subB }).count (.slice c) 0x25 (2 * n + 2) none
    else
      let s := (s.slotOf c 0).slotOf c 1
      (s.setChan c { s.chan c with clk := (s.chan c).clk + 1 }).runSlots c n

/-- The slots of 1 µs: the rate in MT/s over 16. -/
def State.slotsPerUs (s : State) (c : Nat) : Nat := rateOf (s.get .MEM_CH_STS_RATE c) / 16

/-- What passes on an empty command queue: 1 µs (DESIGN CHOICE, log 1), in which every channel in service or in hold serves its slots. Everything else that
time brings is a command of its own. -/
def State.tick (s : State) : State :=
  let s := { s with now := s.now + 1000 }
  (List.range 16).foldl (fun (s : State) c =>
    if s.chState c = 2 ∨ s.chState c = 4 then s.runSlots c (s.slotsPerUs c) else s) s

/-! ### Commands from MED -/

/-- Media commands arrive from now on under a class label and SRC (R354, R423), made for an occurrence with these attributes (R511). -/
def State.under (s : State) (cls src : Nat) (who : Option Attr := none) : State := { s with mem := { s.mem with label := (cls, src), who := who } }

/-- Media commands arrive from now on for a request, or for an access of the device's own (R44), with these attributes. -/
def State.underFor (s : State) (a : Attr) (src : Nat) : State := s.under a.cls src (some a)

/-- The attributes of an access that no host's or agent's request makes (R511). -/
def State.ownAttr (s : State) (master : Option Nat) (lpn cls : Nat) : Attr :=
  { master := master, priv := 3, lpn := lpn, cls := cls, tier := (s.page lpn).pl.tier }

/-- The label of what no request, move or scrub asks for. -/
def State.uncharged (s : State) : State := s.under 0 6

/-- A media command arrives at its controller (R341). -/
def State.arriveAs (s : State) (la : Nat) (wr : Bool) (cls src : Nat) : State :=
  let c := s.chanOf (la / 4)
  let ch := s.chan c
  let sc := (s.addrOf la).sc
  let b := ch.sub sc
  s.setChan c (ch.putSub sc (b.fill (b.med ++ [MedCmd.mk la wr cls src s.mem.who])))

/-- A media command arrives under the label in force. -/
def State.arrive (s : State) (la : Nat) (wr : Bool) : State := s.arriveAs la wr s.mem.label.1 s.mem.label.2

/-- A read of a line waits at its controller. -/
def State.readWaits (s : State) (la : Nat) : Bool :=
  let ch := s.chan (s.chanOf (la / 4))
  let b := ch.sub (s.addrOf la).sc
  (b.q ++ b.med).any (fun m => m.la == la && !m.wr)

/-- A read that has not been issued is withdrawn. -/
def State.withdraw (s : State) (la : Nat) : State :=
  let c := s.chanOf (la / 4)
  let ch := s.chan c
  let sc := (s.addrOf la).sc
  let b := ch.sub sc
  let keep := fun (l : List MedCmd) => l.filter (fun m => !(m.la == la && !m.wr))
  let ch := ch.putSub sc { b with q := keep b.q, med := keep b.med }
  s.setChan c { ch with bus := ch.bus.erase la }

/-- Slots pass until a read has been issued. -/
def State.serveUntil (s : State) (la : Nat) : Nat → State
  | 0 => s
  | n + 1 =>
    if ¬ s.readWaits la then s
    else
      let c := s.chanOf (la / 4)
      let s := s.slotOf c (s.addrOf la).sc
      (s.setChan c { s.chan c with clk := (s.chan c).clk + 1 }).serveUntil la n

/-- The data of a read comes back (R341): the read was issued before, or is now, behind every command that the rules put before it. A channel that has
stopped issuing has read it before (R352). -/
def State.fetchLine (s : State) (la : Nat) : State :=
  let c := s.chanOf (la / 4)
  let s := if (s.chan c).bus.contains la ∨ s.readWaits la then s else s.arrive la false
  let b := (s.chan c).sub (s.addrOf la).sc
  let s := if s.chState c = 2 ∨ s.chState c = 4 then s.serveUntil la (b.q.length + b.med.length + 1) else s
  s.withdraw la

/-- The guaranteed classes have not claimed every slot of a channel's frame on some subchannel (R183; DEDUCED, log 126). -/
def State.slotLeft (s : State) (c : Nat) : Bool :=
  (List.range 2).any (fun sc => decide (((List.range 16).map (fun k => halfSlots (s.get .TLG_CH_SLOT_SLOTS c k) sc)).sum < 1024))

/-- Every command that waits is issued, as before self-refresh or a pause of power: in the order of their arrival. -/
def State.drainQueues (s : State) (c : Nat) : State :=
  let ch := s.chan c
  let l := ch.subA.q ++ ch.subA.med ++ ch.subB.q ++ ch.subB.med
  let clear := fun (b : SubSt) => { b with q := [], med := [], draining := false }
  let s := l.foldl (fun (s : State) m => s.issueMed c m) (s.setChan c { ch with subA := clear ch.subA, subB := clear ch.subB })
  s.setChan c { s.chan c with bus := ch.bus }

/-! ### Writes of lines (R331, R353) -/

/-- The symbols of a mask, each XORed with the pattern byte (R331). -/
def maskErr (mask pattern : Nat) : List (Nat × Byte) := ((List.range 80).filter (fun k => bit mask k)).map (fun k => (k, BitVec.ofNat 8 pattern))

/-- An armed injection of a kind fires on a line (R331): the symbols it changes, and ECC 0x9. -/
def State.fire (s : State) (kind la : Nat) : State × List (Nat × Byte) :=
  match s.ecc.inj.find? (fun x => decide (x.kind = kind ∧ x.la = la)) with
  | none => (s, [])
  | some x =>
    let c := s.chanOf (la / 4)
    let s := { s with ecc := { s.ecc with inj := s.ecc.inj.filter (fun y => decide (y.handle ≠ x.handle)) } }
    let s := (s.bump .ECC_INJ_STS_FIRED 0xFFFF c).put .ECC_INJ_STS_ARMED (s.get .ECC_INJ_STS_ARMED c - 1) c
    (s.report { msg1 bEcc c 9 la with inj := true }, maskErr x.mask x.pattern)

/-- A write of a media line: a write-side injection stays in the stored codeword (R331); else the line is whole again. -/
def State.writeLine (s : State) (la : Nat) : State :=
  let (s, m) := (s.arrive la true).fire 1 la
  { s with ecc := { s.ecc with bad := tputD [] la m s.ecc.bad } }

/-- Writes of n lines from a line address on. -/
def State.writeLines (s : State) (la : Nat) : Nat → State
  | 0 => s
  | n + 1 => (s.writeLines la n).writeLine (la + n)

/-- Writes of n lines of one of the two copies of a structure: those on a channel in hold are owed until the hold ends (R353). -/
def State.writeCopy (s : State) (la : Nat) : Nat → State
  | 0 => s
  | n + 1 =>
    let s := s.writeCopy la n
    let c := s.chanOf ((la + n) / 4)
    if s.chState c = 4 then s.setChan c { s.chan c with owed := linsert (la + n) (s.chan c).owed } else s.writeLine (la + n)

/-- A line of a copy has not been rewritten since a hold. -/
def State.owes (s : State) (la : Nat) : Bool := (s.chan (s.chanOf (la / 4))).owed.contains la

/-- The lines owed are written. -/
def State.payOwed (s : State) (c : Nat) : State :=
  let l := (s.chan c).owed
  l.foldl (fun (s : State) la => s.writeLine la) (s.setChan c { s.chan c with owed := [] })

end Sys2Proof.Machine
end

