-- ==== Sys2Proof/Machine/Dram.lean ====
section
/-!
DEFINITION. The DRAM controller (11_dram_controller.md): freezes and holds, training, frequency points, refresh,
sensors, the `mem` commands and the channel events.
-/
namespace Sys2Proof.Machine
open Sys2Proof

/-! ### Freeze and hold (R351–R354) -/

/-- Freezes of the last second, and whether one more is the STORM_THR-th (R353). -/
def State.storm (s : State) (c : Nat) : Bool :=
  decide (s.get .MEM_FRZ_CTL_STORM_THR c ≤
    ((s.chan c).freezes.filter (fun t => decide (s.now - t ≤ 1000000000))).length + 1)

/-- Write a snapshot of a freeze into the ring (R354). -/
def State.snapshot (s : State) (c : Nat) (sn : Snapshot) : State :=
  let ch := s.chan c
  let ix := if ch.snaps = [] then 0 else (s.get .MEM_FRZ_STS_SNAP c + 1) % 8
  (s.setChan c { ch with snaps := tput ix sn ch.snaps }).put .MEM_FRZ_STS_SNAP ix c

/-- A freeze trigger at a channel (R351, R352). `cause` is CAUSE of R354 and `m` the message of the trigger. A trigger
while frozen changes nothing; in a hold only causes 2, 4, 5 and 6 freeze; during a pause the freeze stands and the pause's
check counts as failed. -/
def State.freeze (s : State) (c cause : Nat) (m : Option Msg) (errs : List (Nat × Nat)) : State :=
  let (s, seq) := match m with | some m => s.reportK m .std false | none => (s, s.get .FLT_SEQ_NEXT - 1)
  let st := s.chState c
  let held := decide (st = 4)
  if ¬ (st = 2 ∨ st = 4 ∨ st = 5) ∨ (held ∧ ¬ (cause = 2 ∨ cause = 4 ∨ cause = 5 ∨ cause = 6)) then s
  else if s.isSet .MEM_FRZ_STS_FROZEN c then s
  else
    let storm := s.storm c
    let (s, seq) := if storm then s.reportK (msg2 bMem c 2) .std false else (s, seq)
    let cause := if storm then 3 else cause
    let ch := s.chan c
    let s := s.setChan c { ch with
      freezes := s.now :: (ch.freezes.filter (fun t => decide (s.now - t ≤ 1000000000)))
      wasHeld := held
      hold := if storm then some .always else ch.hold
      pauseHit := if st = 5 then some cause else none
      retrainDue := ch.retrainDue || decide (cause = 4) }
    let s := ((s.put .MEM_FRZ_STS_FROZEN 1 c).put .MEM_FRZ_STS_CAUSE cause c).bump .MEM_FRZ_STS_FREEZES 0xFFFF c
    let s := s.snapshot c
      { cause := cause, fp := s.get .MEM_CH_STS_FP c, time := ((s.now : Int) + s.pyx.timeBase).toNat % 2 ^ 64, seq := seq,
        errs := errs.take 8, slot := ch.clk, cmds := ch.hist }
    let s := s.put .MEM_FRZ_STS_HELD 0 c
    if st = 5 then s else s.setChState c 3

/-- The hold of a channel ends (R353). -/
def State.endHold (s : State) (c : Nat) : State :=
  let s := s.setChan c { s.chan c with hold := none, wasHeld := false }
  if s.chState c = 4 then ((s.put .MEM_FRZ_STS_HELD 0 c).setChState c 2).payOwed c else s

/-- FREEZE_THAW (R352 step 5, R353): service resumes, or the hold asked for, forced or interrupted begins. -/
def execFreezeThaw (c : Fin 16) (s : State) : Res :=
  if s.chState c.val = 3 then
    let ch := s.chan c.val
    let s := s.put .MEM_FRZ_STS_FROZEN 0 c.val
    if ch.hold.isSome then
      let s := if s.get .MEM_FRZ_STS_CAUSE c.val = 3 then (s.markEvac c.val).afterSteps else s
      .next (((s.setChan c.val { ch with wasHeld := false }).put .MEM_FRZ_STS_HELD 1 c.val).setChState c.val 4)
    else .next (s.setChState c.val 2)
  else .next s

/-- HOLD_EXPIRE (R353): the duration of a hold has passed. A hold without expiry goes on. -/
def execHoldExpire (c : Fin 16) (s : State) : Res :=
  match s.chState c.val, (s.chan c.val).hold with
  | 4, some (.ms _) => .next (s.endHold c.val)
  | _, _ => .next s

/-- HOLD_END (R353): HOLD_END of `MEM_FRZ_CTL` written 1. -/
def execHoldEnd (c : Fin 16) (s : State) : Res := .next (if s.chState c.val = 4 then s.endHold c.val else s)

/-- CA_ALERT (R344, R352, R358): CHn_ALERT_N is low. The DRAM's status tells a back-off from a command/address parity
alert. A back-off is answered by RFM; `served`: within its window. -/
def execCaAlert (c : Fin 16) (backoff served : Bool) (s : State) : Res :=
  if backoff then
    let s := (((s.bump .MEM_CNT_ABO 0xFFFF c.val).bump .MEM_CNT_RFM 0xFFFFFFFF c.val).maint c.val 7).emit (.dram c.val 3 0)
    .next (if served then s else s.report (msg2 bMem c.val 5))
  else .next ((s.bump .MEM_CNT_CAPAR 0x7FFF c.val).freeze c.val 2 (some (msg2 bMem c.val 0)) [])

/-- MC_LOCK_LOSS (R351, R358): the PLL or PHY of a channel loses lock; a live retrain is due after the freeze. -/
def execMcLockLoss (c : Fin 16) (s : State) : Res := .next (s.freeze c.val 4 (some (msg2 bMem c.val 0xA)) [])

/-! ### Temperature (R343, R345–R347) -/

/-- The two slots of a channel. -/
def slotsOfCh (c : Nat) : List Nat := [2 * c, 2 * c + 1]

/-- HOT of a channel after a poll (R343): it enters at HOT_C, and leaves at least 3 °C below. Temperatures are °C + 128. -/
def State.hotNow (s : State) (c : Nat) : Bool :=
  let ch := s.chan c
  let hot := s.get .MEM_REF_CTL_HOT_C c + 128
  s.isSet .MEM_REF_CTL_FORCE_2X c || !ch.failed.isEmpty
    || ch.temps.any (fun p => decide (hot ≤ p.2))
    || (s.isSet .MEM_CH_STS_HOT c && ch.temps.any (fun p => decide (hot < p.2 + 3)))

/-- HOT follows, with the factor of R434. -/
def State.setHot (s : State) (c : Nat) : State :=
  let h := b2n (s.hotNow c)
  if h = s.get .MEM_CH_STS_HOT c then s else (s.put .MEM_CH_STS_HOT h c).retoll

/-! ### Frequency points (R350, R351) -/

/-- The highest point a throttle lets a channel run (R351, R502). -/
def State.topPoint (s : State) (c : Nat) : Option Nat :=
  let l := s.trained c
  let ch := s.chan c
  l[min (ch.throttle + b2n ch.dimmHot) (l.length - 1)]?

/-- The point a request for p ends at: p, or the highest allowed where that is lower (R351). -/
def State.allowed (s : State) (c p : Nat) : Nat :=
  match s.topPoint c with
  | some t => if rateOf (s.get .MEM_FP_RATE c p) ≤ rateOf (s.get .MEM_FP_RATE c t) then p else t
  | none => p

/-- Ask for a change of point. -/
def State.askPoint (s : State) (c p : Nat) : State := s.setChan c { s.chan c with changeTo := some (s.allowed c p) }

/-- Ask for the change a throttle needs: down to the highest allowed point where the channel runs above it. -/
def State.askThrottle (s : State) (c : Nat) : State :=
  match s.topPoint c with
  | some t =>
    if rateOf (s.get .MEM_FP_RATE c t) < rateOf (s.get .MEM_CH_STS_RATE c) then s.setChan c { s.chan c with changeTo := some t }
    else s
  | none => s

/-- A sensor's reading reaches the channel (R345–R347). `t` is °C + 128; none: three transfers failed. -/
def State.sensor (s : State) (slot sensor : Nat) (t : Option Nat) : State :=
  let c := slot / 2
  let id := 4 * (slot % 2) + sensor
  let ch := s.chan c
  match t with
  | none =>
    if ch.failed.contains id then s
    else
      let s := (s.setChan c { ch with failed := linsert id ch.failed }).put .MEM_CH_STS_SENSOR_FAIL 1 c
      (s.report { msg1 bMem c 7 with active := true }).setHot c
  | some v =>
    let fails := lremove id ch.failed
    let crit := s.get .MEM_REF_CTL_CRIT_C c + 128
    let s := s.setChan c { ch with temps := tput id v ch.temps, failed := fails, dimmHot := decide (crit ≤ v) || (ch.dimmHot &&
      (decide (crit < v + 5) || ch.temps.any (fun p => decide (p.1 ≠ id ∧ crit < p.2 + 5)))) }
    let s := if ch.failed ≠ [] ∧ fails = [] then s.report { msg1 bMem c 7 with ended := true } else s
    let s := (s.put .MEM_CH_STS_SENSOR_FAIL (b2n (!fails.isEmpty)) c).setHot c
    if crit ≤ v then (s.report (msg2 bMem c 6)).askThrottle c else s

/-- SENSOR_POLL (R345–R347): the 16 ms poll of one sensor of a powered DIMM that has not failed; `pmic`: its PMIC reports a fault, which is a
Memory Module event (R68). -/
def execSensorPoll (slot : Fin 32) (sensor : Fin 4) (t : Option Nat) (pmic : Bool) (s : State) : Res :=
  if ¬ s.isSet .SLT_SG_STS_GATE slot.val then .next s
  else
  let s := if (s.chan (slot.val / 2)).failed.contains (4 * (slot.val % 2) + sensor.val) then s else s.sensor slot.val sensor.val t
  .next (if pmic then s.logAll 0 { handle := 0, kind := 1, a := slot.val } s.stewards else s)

/-- SENSOR_REPOLL (R346): the 1 s poll of a failed sensor; the first good read clears the failure. -/
def execSensorRepoll (slot : Fin 32) (sensor : Fin 4) (t : Option Nat) (s : State) : Res :=
  match t with
  | none => .next s
  | some _ =>
    if s.isSet .SLT_SG_STS_GATE slot.val ∧ (s.chan (slot.val / 2)).failed.contains (4 * (slot.val % 2) + sensor.val) then
      .next (s.sensor slot.val sensor.val t)
    else .next s

/-! ### Refresh, calibration, activation limits (R342, R344, R349) -/

/-- A refresh is issued, for which the rows are closed; each bank count falls as RAADEC says: 0 by RAAIMT, 1 by half of it (PRESUMED, log 21). -/
def State.refresh (s : State) (c : Nat) : State :=
  let s := (s.closeRows c).maint c (if s.isSet .MEM_REF_CTL_SB c then 6 else 5)
  let ch := s.chan c
  let dec := let i := s.get .MEM_RFM_CFG_RAAIMT c; if s.get .MEM_RFM_CFG_RAADEC c = 0 then i else i / 2
  (s.setChan c { ch with acts := ch.acts.filterMap (fun p => if p.2 ≤ dec then none else some (p.1, p.2 - dec)) }).emit
    (.dram c 2 0)

/-- REFRESH_DUE (R342): an interval tREFI of a rank ends. The refresh is issued, or postponed up to MAXPOST; a further
postponement is refused: the refresh is issued at once and reported. -/
def execRefreshDue (c : Fin 16) (postpone : Bool) (s : State) : Res :=
  let ch := s.chan c.val
  if postpone then
    if ch.postponed < s.get .MEM_REF_CTL_MAXPOST c.val then .next (s.setChan c.val { ch with postponed := ch.postponed + 1 })
    else .next ((s.refresh c.val).report (msg1 bMem c.val 8))
  else
    let n := ch.postponed
    let s := (List.range (n + 1)).foldl (fun s _ => s.refresh c.val) s
    .next (s.setChan c.val { s.chan c.val with postponed := 0 })

/-- ZQ_CALIBRATION (R349): ZQ calibration of every rank, every 128 ms. -/
def execZqCalibration (c : Fin 16) (s : State) : Res :=
  .next (if s.inService c.val then (s.maint c.val 10).emit (.dram c.val 4 0) else s)

/-- OSCILLATOR_READ (R349): the interval oscillators are read; a live retrain is due at a drift above DRIFT_PS or
RETRAIN_S after the last one. -/
def execOscillatorRead (c : Fin 16) (driftPs : Nat) (s : State) : Res :=
  let s := if s.inService c.val then s.maint c.val 9 else s
  let ch := s.chan c.val
  if s.inService c.val ∧ (s.get .MEM_TRN_CTL_DRIFT_PS c.val < driftPs ∨
      s.get .MEM_TRN_CTL_RETRAIN_S c.val * 1000000000 ≤ s.now - ch.lastRetrain) then
    .next (s.setChan c.val { ch with retrainDue := true })
  else .next s

/-- The turn may pass to a channel: it is in SERVICE and no channel holds the turn (R349). -/
def State.turnFree (s : State) (c : Nat) : Bool := s.get .MEM_GLB_FCHG == 31 && s.chState c == 2

/-- LIVE_RETRAIN_START (R349 step 1): a due retrain takes the turn and the channel pauses. -/
def execLiveRetrainStart (c : Fin 16) (s : State) : Res :=
  if (s.chan c.val).retrainDue ∧ s.turnFree c.val then .next ((s.put .MEM_GLB_FCHG c.val).setChState c.val 5) else .next s

/-- The longest pause so far (`MEM_TRN_STS`.MAX_PAUSE). -/
def State.pauseTime (s : State) (c ns : Nat) : State :=
  s.put .MEM_TRN_STS_MAX_PAUSE (max (s.get .MEM_TRN_STS_MAX_PAUSE c) (min ns 0xFFFF)) c

/-- The end of a pause: service resumes, or the freeze that struck it goes on (R351). -/
def State.endPause (s : State) (c : Nat) : State :=
  let hit := (s.chan c).pauseHit
  let s := (s.put .MEM_GLB_FCHG 31).setChan c { s.chan c with pauseHit := none }
  s.setChState c (if hit.isSome then 3 else 2)

/-- LIVE_RETRAIN_DONE (R349 steps 3–5, R351): the check passed, or the previous values were restored. -/
def execLiveRetrainDone (c : Fin 16) (passed : Bool) (pauseNs : Nat) (s : State) : Res :=
  let ch := s.chan c.val
  if s.chState c.val = 5 ∧ s.get .MEM_GLB_FCHG = c.val ∧ ch.retrainDue then
    let good := passed && ch.pauseHit.isNone
    let s := (s.bump .MEM_TRN_STS_RETRAINS 0xFFFF c.val).pauseTime c.val pauseNs
    let s := s.put .MEM_TRN_STS_LAST (if good then 1 else 2) c.val
    let s := if good then s else (s.bump .MEM_TRN_STS_FAILS 0xFF c.val).report (msg2 bMem c.val 3)
    let s := s.setChan c.val { s.chan c.val with retrainDue := false, lastRetrain := s.now }
    let s := s.endPause c.val
    .next (s.endKind (fun k => k == .retrain c.val) stOk 0 (s.get .MEM_TRN_STS_LAST c.val))
  else .next s

/-- The timings of a point, in a timing set (R350). Their values are for firmware to choose (DESIGN CHOICE, log 126). -/
def State.setTiming (s : State) (c p set : Nat) : State :=
  let fields : List (Reg × Nat) :=
    [(.MEM_TIM0_CL, 10), (.MEM_TIM0_CWL, 10), (.MEM_TIM0_RCD, 10), (.MEM_TIM0_RP, 10), (.MEM_TIM0_RAS, 10), (.MEM_TIM0_WR, 10),
     (.MEM_TIM1_RRD_S, 8), (.MEM_TIM1_RRD_L, 8), (.MEM_TIM1_CCD_L, 8), (.MEM_TIM1_CCD_L_WR, 8), (.MEM_TIM1_WTR_S, 8), (.MEM_TIM1_WTR_L, 8),
     (.MEM_TIM1_RTP, 8), (.MEM_TIM1_FAW, 8), (.MEM_TIM2_RFC1, 12), (.MEM_TIM2_RFCSB, 12), (.MEM_TIM2_REFI, 16)]
  fields.zipIdx.foldl (fun (s : State) x => s.put x.1.1 (Config.timing c p x.2 % 2 ^ x.1.2) c set) s

/-- FREQ_CHANGE_START (R350 step 1, R351): the shadow holds the new point's timings; a change that waits takes the turn and the channel pauses. -/
def execFreqChangeStart (c : Fin 16) (s : State) : Res :=
  if (s.chan c.val).changeTo.isSome ∧ s.turnFree c.val ∧ ¬ (s.chan c.val).retrainDue then
    let p := (s.chan c.val).changeTo.getD 0
    let s := (List.range (s.chan c.val).postponed).foldl (fun (s : State) _ => s.refresh c.val) s
    let s := ((s.setChan c.val { s.chan c.val with postponed := 0 }).maint c.val 4).maint c.val 11
    .next (((s.setTiming c.val p (1 - s.get .MEM_TIM_SEL_ACT c.val)).put .MEM_GLB_FCHG c.val).setChState c.val 5)
  else .next s

/-- Every channel of a `mem.set_freq` has changed: the RESULT mask (R356). -/
def State.freqResult (s : State) : State :=
  match s.findOp (fun k => match k with | .setFreq l _ => l.all (fun c => (s.chan c).changeTo.isNone) | _ => false) with
  | some (slot, o) =>
    match o.kind with
    | .setFreq l fp =>
      s.readyOp slot stOk 0 ((l.filter (fun c => decide (s.get .MEM_CH_STS_FP c = fp))).foldl (fun a c => a + 2 ^ c) 0)
    | _ => s
  | none => s

/-- FREQ_CHANGE_DONE (R350 step 7, R351): the change passes, or the channel falls back to the old point and the new one
is marked untrained. -/
def execFreqChangeDone (c : Fin 16) (passed : Bool) (pauseNs : Nat) (s : State) : Res :=
  let ch := s.chan c.val
  match ch.changeTo with
  | none => .next s
  | some p =>
    if s.chState c.val = 5 ∧ s.get .MEM_GLB_FCHG = c.val ∧ ¬ ch.retrainDue then
      let good := passed && ch.pauseHit.isNone
      let s := (((s.maint c.val 12).maint c.val 8).closeRows c.val).pauseTime c.val pauseNs
      let s :=
        if good then
          ((s.put .MEM_CH_STS_FP p c.val).put .MEM_CH_STS_RATE (s.get .MEM_FP_RATE c.val p) c.val).put .MEM_TIM_SEL_ACT
            (1 - s.get .MEM_TIM_SEL_ACT c.val) c.val
        else ((s.put .MEM_FP_TRAINED 0 c.val p).bump .MEM_TRN_STS_FAILS 0xFF c.val).report (msg2 bMem c.val 4)
      let s := s.setChan c.val { s.chan c.val with changeTo := none }
      .next ((s.endPause c.val).freqResult)
    else .next s

/-! ### Populations and bring-up (R335–R337, R340, R348) -/

/-- The least n with 2^n ≥ v, up to 40. -/
def clog2 (v : Nat) : Nat := ((List.range 41).find? (fun n => decide (v ≤ 2 ^ n))).getD 40

/-- Two modules that may share a channel (R337). -/
def sameKind (a b : Dimm) : Bool :=
  a.mrdimm == b.mrdimm && a.width == b.width && a.density == b.density && a.height == b.height && a.ranks == b.ranks

/-- The DIMMs a channel uses: position 0, and position 1 where it fits (R336, R337). -/
def State.dimmsUsed (s : State) (c : Nat) : List Nat :=
  let ok := fun (d : Dimm) => d.supported && !(d.mrdimm && decide (1 < tgetD 1 c s.mem.board))
  match tget (2 * c) s.mem.dimms, tget (2 * c + 1) s.mem.dimms with
  | some a, some b =>
    if ok a then (if ok b ∧ sameKind a b then [2 * c, 2 * c + 1] else [2 * c]) else if ok b then [2 * c + 1] else []
  | some a, none => if ok a then [2 * c] else []
  | none, some b => if ok b then [2 * c + 1] else []
  | none, none => []

/-- The destinations of the built map in rising CLA order (R340): n is log2 of the installed lines. -/
def mapOrder (n ranks height dimms : Nat) : List Nat :=
  let low := [0, 5, 10, 11, 12, 13, 14, 15, 16, 6, 7, 8, 9] ++ (if ranks = 2 then [1] else [])
  let cids := (List.range (clog2 height)).map (· + 3)
  let top := cids ++ (if dimms = 2 then [2] else [])
  low ++ (List.range (n - low.length - top.length)).map (· + 17) ++ top

/-- Selector of a destination under an order. -/
def selOf (order : List Nat) (d : Nat) : Nat :=
  match order.idxOf? d with | some k => k | none => 63

/-- Write the map of a channel (R339, R340). -/
def State.writeMap (s : State) (c : Nat) (order : List Nat) : State :=
  let s := (List.range 40).foldl (fun s d =>
    let v := selOf order d
    match d / 10 with
    | 0 => s.put .MEM_MAP0_SEL v c (d % 10)
    | 1 => s.put .MEM_MAP1_SEL v c (d % 10)
    | 2 => s.put .MEM_MAP2_SEL v c (d % 10)
    | _ => s.put .MEM_MAP3_SEL v c (d % 10)) s
  (List.range 5).foldl (fun s j => s.put .MEM_MAPX_XSEL (selOf order (17 + j)) c j) s

/-- A REG entry in force names the register that holds a field (R539). -/
def State.cfgNames (s : State) (r : Reg) (i j : Nat) : Bool :=
  match rowOf r with
  | some row => s.boot.regs.any (fun e => decide (e.1 = row.base + row.s1 * i + row.s2 * j))
  | none => false

/-- The configuration block names the whole map of a channel (R340). -/
def State.mapNamed (s : State) (c : Nat) : Bool :=
  s.cfgNames .MEM_MAP0_SEL c 0 && s.cfgNames .MEM_MAP1_SEL c 0 && s.cfgNames .MEM_MAP2_SEL c 0 && s.cfgNames .MEM_MAP3_SEL c 0
    && s.cfgNames .MEM_MAPX_XSEL c 0

/-- RATE codes that R335 allows, highest first, for a module on a board with `slots` slots a channel. -/
def rateCodes (mrdimm : Bool) (slots : Nat) : List Nat :=
  if mrdimm then [7, 6] else if slots ≤ 1 then [5, 4, 3, 2, 1, 0] else [3, 2, 1, 0]

/-- The built points of a channel (R576), where no entry names them. -/
def State.buildPoints (s : State) (c : Nat) (d : Dimm) : State :=
  let l := rateCodes d.mrdimm (tgetD 1 c s.mem.board)
  (List.range 4).foldl (fun (s : State) p =>
    if s.cfgNames .MEM_FP_RATE c p then s
    else (s.put .MEM_FP_RATE (l.getD p 0) c p).put .MEM_FP_VALID (b2n (decide (p < l.length))) c p) s

/-- Take over what the DIMMs of a channel say (R335–R337, R340, R344, R576): TYPE to CIDB, capacity, refresh management, frequency points
and the address map, unless the configuration block named them. The channel of a disabled slice stays out of service (R31). -/
def State.populate (s : State) (c : Nat) : State :=
  let used := s.dimmsUsed c
  let seated := (slotsOfCh c).filter (fun k => (tget k s.mem.dimms).isSome)
  let s := seated.foldl (fun s k => if used.contains k then s else s.report (msg2 bMem c 9)) s
  match used with
  | [] => s.put .MEM_CH_STS_DIMMS 0 c
  | k :: _ =>
    let d := tgetD {} k s.mem.dimms
    let cap := used.foldl (fun a k => a + (tgetD {} k s.mem.dimms).granules) 0
    let s := ((s.put .MEM_CH_STS_TYPE (b2n d.mrdimm) c).put .MEM_CH_STS_DIMMS used.length c).put .MEM_CH_STS_RANKS d.ranks c
    let s := (s.put .MEM_CH_STS_X8 (b2n (decide (d.width = 8))) c).put .MEM_CH_STS_CIDB (clog2 d.height) c
    let s := (s.put .MEM_RFM_CFG_RFM_EN (b2n d.rfm) c).put .MEM_RFM_CFG_PRAC_EN (b2n d.prac) c
    let s := ((s.put .MEM_RFM_CFG_RAAIMT d.raaimt c).put .MEM_RFM_CFG_RAAMMT d.raammt c).put .MEM_RFM_CFG_RAADEC d.raadec c
    let s := { s with pg := { s.pg with chCap := tputD 0 c cap s.pg.chCap } }
    let n := clog2 (4 * cap)
    let order := mapOrder n d.ranks d.height used.length
    let s := (if s.mapNamed c then s else s.writeMap c order).buildPoints c d
    if s.mem.disabledSlices.contains c then s else s.setChState c 7

/-- The check of the map as the channel enters service (R340). -/
def State.mapCheck (s : State) (c : Nat) : Bool :=
  match s.dimmsUsed c with
  | [] => false
  | k :: rest =>
    let d := tgetD {} k s.mem.dimms
    let n := clog2 (4 * tgetD 0 c s.pg.chCap)
    s.mapOk c n (mapOrder n d.ranks d.height (rest.length + 1))

/-- TRAINING_DONE (R340, R348): boot or bring-up training of a channel ends; `ok` lists the points that trained. The
channel starts at its highest trained point, and goes to INIT; without one, or with a refused map, it stays out of
service. -/
def execTrainingDone (c : Fin 16) (ok : List (Fin 4)) (s : State) : Res :=
  if s.chState c.val ≠ 7 ∨ s.mem.disabledSlices.contains c.val then .next s
  else
    let s := (List.range 4).foldl (fun s p =>
      let t := s.isSet .MEM_FP_VALID c.val p && ok.any (fun q => q.val == p)
      s.put .MEM_FP_TRAINED (b2n t) c.val p) s
    let bad := (List.range 4).filter (fun p => s.isSet .MEM_FP_VALID c.val p && !s.isSet .MEM_FP_TRAINED c.val p)
    let s := if bad = [] then s else s.report (msg2 bMem c.val 3)
    match s.trained c.val with
    | [] => .next ((if bad = [] then s.report (msg2 bMem c.val 3) else s).setChState c.val 6)
    | p :: _ =>
      let s := (s.put .MEM_CH_STS_FP p c.val).put .MEM_CH_STS_RATE (s.get .MEM_FP_RATE c.val p) c.val
      let s := (s.setChan c.val { s.chan c.val with lastRetrain := s.now }).setTiming c.val p (s.get .MEM_TIM_SEL_ACT c.val)
      if s.mapCheck c.val then .next (s.setChState c.val 1)
      else .next ((s.report (msg2 bMem c.val 9)).setChState c.val 1)

/-- The owner table of a channel marks every granule free with CODE 1 (R325). -/
def State.clearOwner (s : State) (c : Nat) : State :=
  { s with pg := { s.pg with own := s.pg.own.filter (fun p => decide (s.chanOf p.1 ≠ c)) } }

/-- Cancel the injections armed on a channel, each as fired without effect (R324). -/
def State.cancelInj (s : State) (c : Nat) : State :=
  let mine := fun (x : Inj) => decide (x.kind < 3 ∧ s.chanOf (x.la / 4) = c)
  let n := (s.ecc.inj.filter mine).length
  let s := { s with ecc := { s.ecc with inj := s.ecc.inj.filter (fun x => !mine x) } }
  (s.put .ECC_INJ_STS_FIRED (satAdd 0xFFFF (s.get .ECC_INJ_STS_FIRED c) n) c).put .ECC_INJ_STS_ARMED 0 c

/-- MEDIA_INIT_DONE (R324, R325): a channel in INIT with an accepted map has been written with zero codewords: marks
cleared, injections cancelled, every granule free, and the channel enters service. -/
def execMediaInitDone (c : Fin 16) (s : State) : Res :=
  if s.chState c.val = 1 ∧ s.mapCheck c.val ∧ ¬ s.mem.disabledSlices.contains c.val then
    let s := (List.range 8).foldl (fun s i => (s.put .ECC_MARK_V 0 c.val i).put .ECC_MARK_GROUP 0 c.val i) s
    let s := ((s.cancelInj c.val).clearOwner c.val).setChState c.val 2
    .next s.recap
  else .next s

/-! ### Commands (R356, R357) -/

/-- A command of a snapshot's history (R354): AGE in MC cycles, of which a slot has two, and what it was. -/
def cmdWords (slot : Nat) (d : DramCmd) : Nat × Nat :=
  ((2 * (slot - d.at')) % 2 ^ 32 + d.cmd * 2 ^ 32 + d.sc * 2 ^ 36 + d.rk * 2 ^ 37 + d.cid * 2 ^ 39 + d.bg * 2 ^ 41 + d.ba * 2 ^ 44 + d.addr % 2 ^ 18 * 2 ^ 46,
   d.la + d.src * 2 ^ 38)

/-- Bytes of a snapshot (R354). Where fewer than 64 commands have been issued, the rest of the history is a free value (DESIGN CHOICE, log 126). -/
def snapOut (c : Nat) (sn : Snapshot) (fresh : Nat) : Output :=
  [(0, 2, 0x5E7A), (2, 1, c), (3, 1, sn.cause), (4, 1, sn.errs.length), (5, 1, sn.fp), (8, 8, sn.time), (0x10, 8, sn.seq)]
  ++ (List.range sn.errs.length).map (fun i => let e := sn.errs.getD i (0, 0); (0x20 + 8 * i, 8, e.1 + e.2 * 2 ^ 38))
  ++ (List.range 64).flatMap (fun e => match sn.cmds[e]? with
    | some d => [(0x80 + 16 * e, 8, (cmdWords sn.slot d).1), (0x88 + 16 * e, 8, (cmdWords sn.slot d).2)]
    | none => [(0x80 + 16 * e, 8, Config.freeValue (fresh + 2 * e)), (0x88 + 16 * e, 8, Config.freeValue (fresh + 2 * e + 1))])

/-- Output bytes of a DIMM (R356); a negative temperature is signed in 8 bits, and °C + 128 mod 256 less 128 is its byte. -/
def State.dimmOut (s : State) (c pos : Nat) : Output :=
  match tget (2 * c + pos) s.mem.dimms with
  | none => []
  | some d =>
    let off := 0x40 + 32 * pos
    let hottest := ((s.chan c).temps.filter (fun p => decide (p.1 / 4 = pos))).foldl (fun a p => max a p.2) 0
    [(off, 1, 1), (off + 1, 1, d.width), (off + 2, 1, d.ranks), (off + 3, 1, d.density), (off + 4, 1, d.height),
     (off + 5, 1, (hottest + 128) % 256), (off + 8, 8, d.granules * 256), (off + 16, 16, d.part)]

/-- MEM_QUERY (R356, R357). -/
def execMemQuery (q : Req) (s : State) : Res :=
  let c := par q 0x10 1
  serve { op := 0x0900, priv := 0, mctp := true, output := true, fields := [fld 0x10 1] } q
    (firstBad [(0x10, decide (c < 16))]) (fun s =>
      okOut s (s.word .MEM_CH_STS_STATE c) 128
        ([(0, 8, s.word .MEM_FRZ_STS_FROZEN c), (8, 8, s.word .MEM_TRN_STS_LAST c), (0x10, 8, s.word .MEM_CNT_RFM c)]
          ++ (List.range 4).map (fun p => (0x18 + 8 * p, 8, s.word .MEM_FP_RATE c p)) ++ s.dimmOut c 0 ++ s.dimmOut c 1)) s

/-- The channels of a 16-bit mask. -/
def maskList (m : Nat) : List Nat := (List.range 16).filter (fun c => bit m c)

/-- MEM_SET_FREQ (R350, R351, R356, R357). -/
def execMemSetFreq (q : Req) (s : State) : Res :=
  let mask := par q 0x10 2
  let p := par q 0x12 1
  serve { op := 0x0901, priv := 2, fields := [fld 0x10 2, fld 0x12 1] } q
    (firstBad [(0x10, decide (mask ≠ 0)), (0x12, decide (p < 4)),
      (0x12, (maskList mask).all (fun c => s.isSet .MEM_FP_VALID c p && s.isSet .MEM_FP_TRAINED c p))]) (fun s =>
      match (maskList mask).find? (fun c => !s.inService c) with
      | some c => refuse s stMediaNotReady c
      | none => pend ((maskList mask).foldl (fun s c => s.askPoint c p) s) (.setFreq (maskList mask) p)) s

/-- MEM_RETRAIN (R349, R356, R357). -/
def execMemRetrain (q : Req) (s : State) : Res :=
  let c := par q 0x10 1
  serve { op := 0x0902, priv := 2, fields := [fld 0x10 1] } q (firstBad [(0x10, decide (c < 16))]) (fun s =>
    if ¬ s.inService c then refuse s stMediaNotReady c
    else pend (s.setChan c { s.chan c with retrainDue := true }) (.retrain c)) s

/-- MEM_FREEZE_EXTEND (R353, R356, R357). -/
def execMemFreezeExtend (q : Req) (s : State) : Res :=
  let c := par q 0x10 1
  let d := par q 0x14 4
  serve { op := 0x0903, priv := 2, fields := [fld 0x10 1, fld 0x14 4] } q
    (firstBad [(0x10, decide (c < 16)), (0x14, decide (d ≤ 10000))]) (fun s =>
      let st := s.chState c
      if d = 0 then ok (if st = 4 then s.endHold c else s.setChan c { s.chan c with hold := none })
      else if st = 3 ∨ st = 4 then ok (s.setChan c { s.chan c with hold := some (.ms d) })
      else refuse s stStale 0) s

/-- MEM_SNAPSHOT_READ (R354, R356, R357). -/
def execMemSnapshotRead (q : Req) (s : State) : Res :=
  let c := par q 0x10 1
  let ix := par q 0x11 1
  serve { op := 0x0904, priv := 2, output := true, fields := [fld 0x10 2] } q
    (firstBad [(0x10, decide (c < 16)), (0x11, decide (ix < 8 ∨ ix = 0xFF))]) (fun s =>
      match tget (if ix = 0xFF then s.get .MEM_FRZ_STS_SNAP c else ix) (s.chan c).snaps with
      | none => refuse s stStale 0
      | some sn => okOut { s with fresh := s.fresh + 128 } 0 1152 (snapOut c sn s.fresh)) s

end Sys2Proof.Machine
end

