-- ==== Sys2Proof/Machine/Cipher.lean ====
section
/-!
DEFINITION. The ciphers and check codes that the spec names (R200, R275, R277, R308, R314, R386): bytes as field elements, AES-256, XTS with
ciphertext stealing, GHASH and GCM, CRC-64.
-/
namespace Sys2Proof.Machine
open Sys2Proof

/-! ### Bytes -/

/-- A little-endian number of bytes. -/
def leNat (bs : List Byte) : Nat := bs.foldr (fun b a => b.toNat + 256 * a) 0

/-- n bytes of a number, lowest first. -/
def natBytes (n v : Nat) : List Byte := (List.range n).map (fun i => BitVec.ofNat 8 (v / 256 ^ i))

/-- Bytes combined one by one. -/
def xorBytes (a b : List Byte) : List Byte := a.zipWith (· ^^^ ·) b

/-- Pieces of n bytes, the last one shorter. -/
def chunks (n : Nat) (bs : List Byte) : List (List Byte) :=
  (List.range ((bs.length + n - 1) / n)).map (fun k => (bs.drop (n * k)).take n)

/-! ### A field of 256 elements -/

/-- Multiply by x: `poly` is the field polynomial without x^8. -/
def timesX (poly a : Byte) : Byte := if a.getLsbD 7 then (a <<< 1) ^^^ poly else a <<< 1

/-- The product of two elements, over the bits of the second. -/
def fieldMul (poly : Byte) (a b : Byte) : Byte :=
  ((List.range 8).foldl (fun (x : Byte × Byte) k => (if b.getLsbD k then x.1 ^^^ x.2 else x.1, timesX poly x.2)) (0, a)).1

/-- A power of an element. -/
def fieldPow (poly a : Byte) : Nat → Byte
  | 0 => 1
  | n + 1 => fieldMul poly a (fieldPow poly a n)

/-- The inverse of an element, 0 of 0. -/
def fieldInv (poly a : Byte) : Byte :=
  let a2 := fieldMul poly a a
  let a3 := fieldMul poly a2 a
  let a6 := fieldMul poly a3 a3
  let a12 := fieldMul poly a6 a6
  let a15 := fieldMul poly a12 a3
  let a240 := (List.range 4).foldl (fun x _ => fieldMul poly x x) a15
  fieldMul poly a240 (fieldMul poly a12 a2)

/-! ### AES-256 (FIPS 197) -/

/-- The field polynomial of AES. -/
abbrev aesPoly : Byte := 0x1B

/-- SubBytes of a byte, and its inverse. -/
def subByte (a : Byte) : Byte :=
  let b := fieldInv aesPoly a
  b ^^^ b.rotateLeft 1 ^^^ b.rotateLeft 2 ^^^ b.rotateLeft 3 ^^^ b.rotateLeft 4 ^^^ 0x63
def unsubByte (a : Byte) : Byte := fieldInv aesPoly (a.rotateLeft 1 ^^^ a.rotateLeft 3 ^^^ a.rotateLeft 6 ^^^ 0x05)

/-- The words of an expanded key, the latest first, after n more than the key's eight. -/
def expandKey (key : List Byte) : Nat → List (List Byte)
  | 0 => (chunks 4 key).reverse
  | n + 1 =>
    let w := expandKey key n
    let last := w.headD []
    let t :=
      if n % 8 = 0 then xorBytes ((last.drop 1 ++ last.take 1).map subByte) [fieldPow aesPoly 2 (n / 8), 0, 0, 0]
      else if n % 8 = 4 then last.map subByte
      else last
    xorBytes (w.getD 7 []) t :: w

/-- The fifteen round keys. -/
def roundKeys (key : List Byte) : List (List Byte) := chunks 16 ((expandKey key 52).reverse.flatten)

/-- Rows of the state shifted: row r by r columns, or back. -/
def shiftRows (by' : Nat) (b : List Byte) : List Byte := (List.range 16).map (fun i => b.getD ((i + 4 * (by' * (i % 4))) % 16) 0)

/-- Columns mixed by the coefficients of a row. -/
def mixColumns (c : List Byte) (b : List Byte) : List Byte :=
  (List.range 16).map (fun i => (List.range 4).foldl (fun a k => a ^^^ fieldMul aesPoly (c.getD ((k + 4 - i % 4) % 4) 0) (b.getD (i / 4 * 4 + k) 0)) 0)

/-- Encrypt a block. -/
def aesEnc (key blk : List Byte) : List Byte :=
  let ks := roundKeys key
  let b := ((ks.drop 1).take 13).foldl (fun b k => xorBytes (mixColumns [2, 3, 1, 1] (shiftRows 1 (b.map subByte))) k) (xorBytes blk (ks.getD 0 []))
  xorBytes (shiftRows 1 (b.map subByte)) (ks.getD 14 [])

/-- Decrypt a block. -/
def aesDec (key blk : List Byte) : List Byte :=
  let ks := (roundKeys key).reverse
  let b := (shiftRows 3 (xorBytes blk (ks.getD 0 []))).map unsubByte
  let b := ((ks.drop 1).take 13).foldl (fun b k => (shiftRows 3 (mixColumns [14, 11, 13, 9] (xorBytes b k))).map unsubByte) b
  xorBytes b (ks.getD 14 [])

/-! ### XTS (IEEE 1619-2018, R202, R275) -/

/-- The tweak of block j of a data unit. -/
def xtsTweak (k2 : List Byte) (lbn : Nat) : Nat → List Byte
  | 0 => aesEnc k2 (natBytes 16 lbn)
  | j + 1 =>
    let t := leNat (xtsTweak k2 lbn j)
    natBytes 16 (if 2 ^ 127 ≤ t then (2 * t) ^^^ 0x87 else 2 * t)

/-- One block under its tweak, by the block cipher given. -/
def xtsBlock (f : List Byte → List Byte) (t b : List Byte) : List Byte := xorBytes (f (xorBytes b t)) t

/-- A data unit of 16 bytes or more: `swap` says that the tweaks of the last full block and of the stolen one change places, as decryption has
them. -/
def xtsUnit (f : List Byte → List Byte) (k2 : List Byte) (lbn : Nat) (swap : Bool) (d : List Byte) : List Byte :=
  let n := d.length / 16
  let r := d.length % 16
  let blk := fun (j : Nat) => (d.drop (16 * j)).take 16
  let one := fun (j : Nat) => xtsBlock f (xtsTweak k2 lbn j) (blk j)
  if r = 0 then (List.range n).flatMap one
  else
    let t1 := xtsTweak k2 lbn (if swap then n else n - 1)
    let t2 := xtsTweak k2 lbn (if swap then n - 1 else n)
    let c := xtsBlock f t1 (blk (n - 1))
    (List.range (n - 1)).flatMap one ++ xtsBlock f t2 (d.drop (16 * n) ++ c.drop r) ++ c.take r

def xtsEnc (k1 k2 : List Byte) (lbn : Nat) (d : List Byte) : List Byte := xtsUnit (aesEnc k1) k2 lbn false d
def xtsDec (k1 k2 : List Byte) (lbn : Nat) (d : List Byte) : List Byte := xtsUnit (aesDec k1) k2 lbn true d

/-! ### GHASH, the tag of R277, and GCM (NIST SP 800-38D) -/

/-- A block as a number, its first byte highest. -/
def beNat (bs : List Byte) : Nat := bs.foldl (fun a b => 256 * a + b.toNat) 0

/-- The bytes of a block number. -/
def beBytes (n v : Nat) : List Byte := (natBytes n v).reverse

/-- The product of two blocks. -/
def ghashMul (x y : Nat) : Nat :=
  ((List.range 128).foldl (fun (a : Nat × Nat) k =>
    (if x / 2 ^ (127 - k) % 2 = 1 then a.1 ^^^ a.2 else a.1, if a.2 % 2 = 1 then (a.2 / 2) ^^^ (0xE1 * 2 ^ 120) else a.2 / 2)) (0, y)).1

/-- The blocks of a byte string, zero-padded. -/
def ghashBlocks (bs : List Byte) : List Nat := (chunks 16 bs).map (fun c => beNat (c ++ List.replicate (16 - c.length) 0))

/-- GHASH of A and C. -/
def ghash (h : Nat) (a c : List Byte) : Nat :=
  (ghashBlocks a ++ ghashBlocks c ++ [8 * a.length * 2 ^ 64 + 8 * c.length]).foldl (fun y b => ghashMul (y ^^^ b) h) 0

/-- The 8-byte tag of ciphertext C under K and the block N (R277). -/
def tag64 (k n c : List Byte) : List Byte :=
  let h := beNat (aesEnc k (List.replicate 16 0))
  (xorBytes (beBytes 16 (ghash h [] c)) (aesEnc k n)).take 8

/-- The counter block of GCM for a 96-bit IV. -/
def gcmBlock (iv : List Byte) (j : Nat) : List Byte := iv ++ beBytes 4 j

/-- Encrypt, or decrypt, the bytes of a GCM message. -/
def gcmCrypt (k iv p : List Byte) : List Byte :=
  let cs := chunks 16 p
  (List.range cs.length).flatMap (fun j => xorBytes (cs.getD j []) (aesEnc k (gcmBlock iv (j + 2))))

/-- The 96-bit tag of R308. -/
def gcmTag (k iv a c : List Byte) : List Byte :=
  let h := beNat (aesEnc k (List.replicate 16 0))
  (xorBytes (beBytes 16 (ghash h a c)) (aesEnc k (gcmBlock iv 1))).take 12

/-! ### The block N (R278) -/

/-- N of a data tag: write counter, LBN, key slot, and the line of a raw page. -/
def dataNonce (ctr lbn ks : Nat) (line : Option Nat) : List Byte :=
  natBytes 16 (ctr % 2 ^ 64 + lbn % 2 ^ 36 * 2 ^ 64 + ks % 32 * 2 ^ 100
    + (match line with | some l => l % 8 * 2 ^ 105 + 2 ^ 108 | none => 0) + 2 ^ 127)

/-- N of a tree MAC: the node's counter in its parent, the lowest LPN it covers, its level. -/
def treeNonce (ctr lpn lvl : Nat) : List Byte :=
  natBytes 16 (ctr % 2 ^ 64 + lpn % 2 ^ 33 * 2 ^ 64 + lvl % 16 * 2 ^ 100 + 2 * 2 ^ 108 + 2 ^ 127)

/-! ### CRC-64 (R386) -/

/-- The CRC of bytes: polynomial 0x42F0E1EBA9EA3693, most significant bit first, from an initial value. -/
def crc64 (init : Nat) (bs : List Byte) : Nat :=
  bs.foldl (fun a b => (List.range 8).foldl (fun (x : Nat) _ =>
    if 2 ^ 63 ≤ x then (2 * x % 2 ^ 64) ^^^ 0x42F0E1EBA9EA3693 else 2 * x) (a ^^^ (b.toNat * 2 ^ 56))) init

end Sys2Proof.Machine
end

