-- ==== Sys2Proof/Machine/Hash.lean ====
section
/-!
DEFINITION. The hash, the key derivation, the key wrap and the signature that the spec names (R274, R529, R537, R538, R545): SHA-384 (FIPS 180-4),
HKDF-Expand (RFC 5869), AES Key Wrap (NIST SP 800-38F) and ECDSA P-384 (FIPS 186). The standards are named by the spec and not restated
(PRESUMED, log 5).
-/
namespace Sys2Proof.Machine
open Sys2Proof

/-! ### SHA-384 -/

/-- The whole part of the k-th root of v, below 2^n, found from its highest bit down. -/
def rootBits (k v : Nat) : Nat → Nat
  | 0 => 0
  | n + 1 =>
    let r := 2 * rootBits k (v / 2 ^ k) n
    if (r + 1) ^ k ≤ v then r + 1 else r

/-- The first primes, up to 409. -/
def primes : List Nat := (List.range 410).filter (fun n => decide (2 ≤ n) && (List.range 21).all (fun d => decide (d < 2) || decide (n ≤ d) || decide (n % d ≠ 0)))

/-- The first 64 bits of the fraction of a prime's k-th root. -/
def rootFraction (k p : Nat) : BitVec 64 := BitVec.ofNat 64 (rootBits k (p * 2 ^ (64 * k)) 70)

/-- The round constants and the initial hash. -/
def shaRounds : List (BitVec 64) := primes.map (rootFraction 3)
def shaStart : List (BitVec 64) := ((primes.drop 8).take 8).map (rootFraction 2)

/-- The words of a 128-byte block, highest byte first. -/
def shaWords (b : List Byte) : List (BitVec 64) := (chunks 8 b).map (fun w => BitVec.ofNat 64 (beNat w))

/-- The message schedule, the latest word first, after n more than the block's sixteen. -/
def shaSchedule (b : List Byte) : Nat → List (BitVec 64)
  | 0 => (shaWords b).reverse
  | n + 1 =>
    let w := shaSchedule b n
    let x := w.getD 14 0
    let y := w.getD 1 0
    ((y.rotateRight 19 ^^^ y.rotateRight 61 ^^^ (y >>> 6)) + w.getD 6 0 + (x.rotateRight 1 ^^^ x.rotateRight 8 ^^^ (x >>> 7)) + w.getD 15 0) :: w

/-- One round on the eight working words: round constant and schedule word. -/
def shaRound (v : List (BitVec 64)) (kw : BitVec 64 × BitVec 64) : List (BitVec 64) :=
  let a := v.getD 0 0
  let e := v.getD 4 0
  let t := v.getD 7 0 + (e.rotateRight 14 ^^^ e.rotateRight 18 ^^^ e.rotateRight 41) + ((e &&& v.getD 5 0) ^^^ (~~~e &&& v.getD 6 0)) + kw.1 + kw.2
  let m := (a &&& v.getD 1 0) ^^^ (a &&& v.getD 2 0) ^^^ (v.getD 1 0 &&& v.getD 2 0)
  [t + (a.rotateRight 28 ^^^ a.rotateRight 34 ^^^ a.rotateRight 39) + m, a, v.getD 1 0, v.getD 2 0, v.getD 3 0 + t, e, v.getD 5 0, v.getD 6 0]

/-- One block. -/
def shaBlock (h : List (BitVec 64)) (b : List Byte) : List (BitVec 64) :=
  h.zipWith (· + ·) ((shaRounds.zip (shaSchedule b 64).reverse).foldl shaRound h)

/-- SHA-384 of a byte string. -/
def sha384 (m : List Byte) : List Byte :=
  let pad := (0x80 : Byte) :: List.replicate ((111 + 128 - m.length % 128) % 128) 0
  let h := (chunks 128 (m ++ pad ++ beBytes 16 (8 * m.length))).foldl shaBlock shaStart
  ((h.take 6).map (fun w => beBytes 8 w.toNat)).flatten

/-! ### Key derivation and key wrap (R274) -/

/-- HMAC with SHA-384, of a key of at most 128 bytes. -/
def hmac384 (key m : List Byte) : List Byte :=
  let k := key ++ List.replicate (128 - key.length) 0
  sha384 (k.map (· ^^^ 0x5C) ++ sha384 (k.map (· ^^^ 0x36) ++ m))

/-- The bytes of "zynoa nx960 key import". -/
def importInfo : List Byte := ("zynoa nx960 key import".toList.map (fun c => BitVec.ofNat 8 c.toNat))

/-- The key-wrapping key of a session's Export Master Secret: the first 32 bytes of HKDF-Expand, which its first block holds (R274). -/
def wrapKey (ems : List Byte) : List Byte := (hmac384 ems (importInfo ++ [1])).take 32

/-- Steps i + k down to i + 1 of round j of an unwrap: the register A and the semiblocks. -/
def unwrapSteps (key : List Byte) (j i : Nat) : Nat → List Byte × List (List Byte) → List Byte × List (List Byte)
  | 0, x => x
  | k + 1, (a, r) =>
    let b := aesDec key (xorBytes a (beBytes 8 (j * r.length + i + k + 1)) ++ r.getD (i + k) [])
    unwrapSteps key j i k (b.take 8, r.set (i + k) (b.drop 8))

/-- The rounds of an unwrap from round j - 1 down. -/
def unwrapRounds (key : List Byte) : Nat → List Byte × List (List Byte) → List Byte × List (List Byte)
  | 0, x => x
  | j + 1, x => unwrapRounds key j (unwrapSteps key j 0 x.2.length x)

/-- AES Key Wrap undone: none where the integrity check fails. -/
def keyUnwrap (key c : List Byte) : Option (List Byte) :=
  let x := unwrapRounds key 6 (c.take 8, chunks 8 (c.drop 8))
  if x.1 = List.replicate 8 0xA6 then some x.2.flatten else none

/-! ### ECDSA P-384 -/

/-- The field prime, the order of the group and the coefficient b. -/
def ecP : Nat := 2 ^ 384 - 2 ^ 128 - 2 ^ 96 + 2 ^ 32 - 1
def ecN : Nat := 0xFFFFFFFFFFFFFFFFFFFFFFFFFFFFFFFFFFFFFFFFFFFFFFFFC7634D81F4372DDF581A0DB248B0A77AECEC196ACCC52973
def ecB : Nat := 0xB3312FA7E23EE7E4988E056BE3F82D19181D9C6EFE8141120314088F5013875AC656398D8A2ED19D2A85C8EDD3EC2AEF

/-- The base point. -/
def ecG : Nat × Nat :=
  (0xAA87CA22BE8B05378EB1C71EF320AD746E1D3B628BA79B9859F741E082542A385502F25DBF55296C3A545E3872760AB7,
   0x3617DE4A96262C6F5D9E98BF9292DC29F8F41DBD289A147CE9DA3113B5F0B8C00A60B1CE1D7E819D7A431D7C90EA0E5F)

/-- a^e modulo m, over the low n bits of e. -/
def modPow (m a e : Nat) : Nat → Nat
  | 0 => 1
  | n + 1 => let h := modPow m (a * a % m) (e / 2) n; if e % 2 = 1 then h * a % m else h

/-- The inverse modulo a prime. -/
def modInv (m a : Nat) : Nat := modPow m (a % m) (m - 2) 384

/-- The chord or tangent of slope l through two points. -/
def ecChord (l : Nat) (a b : Nat × Nat) : Nat × Nat :=
  let x := (l * l + 2 * ecP - a.1 - b.1) % ecP
  (x, (l * (a.1 + ecP - x) + ecP - a.2) % ecP)

/-- The sum of two points of the curve; none is the point at infinity. -/
def ecAdd : Option (Nat × Nat) → Option (Nat × Nat) → Option (Nat × Nat)
  | none, q => q
  | p, none => p
  | some a, some b =>
    if a.1 ≠ b.1 then some (ecChord ((b.2 + ecP - a.2) * modInv ecP (b.1 + ecP - a.1) % ecP) a b)
    else if a.2 ≠ b.2 ∨ a.2 = 0 then none
    else some (ecChord (3 * (a.1 * a.1 + ecP - 1) * modInv ecP (2 * a.2) % ecP) a b)

/-- A multiple of a point, over the low n bits of the factor. -/
def ecMul (p : Option (Nat × Nat)) (k : Nat) : Nat → Option (Nat × Nat)
  | 0 => none
  | n + 1 => let h := ecMul (ecAdd p p) (k / 2) n; if k % 2 = 1 then ecAdd p h else h

/-- A point on the curve y² = x³ − 3x + b. -/
def onCurve (p : Nat × Nat) : Bool :=
  decide (p.1 < ecP) && decide (p.2 < ecP) && (p.2 * p.2 % ecP == (p.1 * p.1 * p.1 + 3 * (ecP - p.1) + ecB) % ecP)

/-- ECDSA P-384 with SHA-384: public key (x then y), message and signature (r then s) verify (R529, R538, R545). -/
def ecdsaOk (key m sig : List Byte) : Bool :=
  let q := (beNat (key.take 48), beNat (key.drop 48))
  let r := beNat (sig.take 48)
  let t := beNat (sig.drop 48)
  decide (0 < r) && decide (r < ecN) && decide (0 < t) && decide (t < ecN) && onCurve q &&
    (let w := modInv ecN t
     match ecAdd (ecMul (some ecG) (beNat (sha384 m) * w % ecN) 384) (ecMul (some q) (r * w % ecN) 384) with
     | some x => x.1 % ecN == r
     | none => false)

end Sys2Proof.Machine
end

