-- ==== Sys2Proof/Machine/Symbols.lean ====
section
/-!
DEFINITION. The two Reed–Solomon codes of DRAM lines (R313–R316): their field, the check symbols of a line, and the decoder.
Positions are exponents of the codeword polynomial; polynomials are lists of coefficients, the constant first.
-/
namespace Sys2Proof.Machine
open Sys2Proof

/-! ### The field (R314) -/

/-- Product, power and inverse under x^8 + x^4 + x^3 + x^2 + 1. -/
def rsMul (a b : Byte) : Byte := fieldMul 0x1D a b
def rsInv (a : Byte) : Byte := fieldInv 0x1D a

/-- The power of α that belongs to a position. -/
def rsPow (k : Nat) : Byte := fieldPow 0x1D 2 (k % 255)

/-! ### Polynomials -/

/-- Without leading zeros. -/
def polyTrim (p : List Byte) : List Byte := ((p.reverse).dropWhile (· == 0)).reverse

/-- Sum, scaling, product, value, derivative. -/
def polyAdd : List Byte → List Byte → List Byte
  | [], q => q
  | p, [] => p
  | a :: p, b :: q => (a ^^^ b) :: polyAdd p q
def polyScale (c : Byte) (p : List Byte) : List Byte := p.map (rsMul c)
def polyMul (p q : List Byte) : List Byte := p.foldr (fun a acc => polyAdd (polyScale a q) (0 :: acc)) []
def polyAt (p : List Byte) (x : Byte) : Byte := p.foldr (fun a acc => a ^^^ rsMul x acc) 0
def polyDeriv (p : List Byte) : List Byte := (List.range (p.length - 1)).map (fun i => if i % 2 = 0 then p.getD (i + 1) 0 else 0)

/-- Quotient and remainder, both without leading zeros; the divisor is not 0. -/
def polyDiv (d : List Byte) : Nat → List Byte → List Byte → List Byte × List Byte
  | 0, q, r => (polyTrim q, polyTrim r)
  | n + 1, q, r =>
    let r := polyTrim r
    if r.length < d.length then (polyTrim q, r)
    else
      let t := List.replicate (r.length - d.length) 0 ++ [rsMul (r.getLastD 0) (rsInv (d.getLastD 0))]
      polyDiv d n (polyAdd q t) (polyAdd r (polyMul t d))

/-! ### Codewords (R313–R315) -/

/-- Check symbols of a code. -/
def checks (strong : Bool) : Nat := if strong then 16 else 8

/-- The generator polynomial with r roots. -/
def rsGen : Nat → List Byte
  | 0 => [1]
  | r + 1 => polyMul (rsGen r) [rsPow r, 1]

/-- The position of a stored symbol: check symbols are the low coefficients, the message the high ones. -/
def symPos (strong : Bool) (sym : Nat) : Nat := if strong then (if sym < 64 then 16 + sym else sym - 64) else (if sym < 72 then 8 + sym else sym - 72)

/-- The stored symbol at a position, none for a symbol of the line address, which is never stored. -/
def posSym (strong : Bool) (pos : Nat) : Option Nat :=
  if 80 ≤ pos then none
  else some (if strong then (if pos < 16 then pos + 64 else pos - 16) else (if pos < 8 then pos + 72 else pos - 8))

/-- The 80 symbols stored for a line: data, spare bytes under the Light code, and the check symbols, over the line address too; under the poison
marking every check symbol is XORed with 0x5A (R315). -/
def codeword (strong : Bool) (la : Nat) (data spare : List Byte) (marked : Bool) : List Byte :=
  let r := checks strong
  let body := if strong then data else data ++ spare
  let rem := (polyDiv (rsGen r) 100 [] (List.replicate r 0 ++ body ++ natBytes 5 la)).2
  body ++ (List.range r).map (fun j => rem.getD j 0 ^^^ (if marked then 0x5A else 0))

/-! ### The decoder (R314–R316) -/

/-- An error word: the positions that are wrong, with what each was XORed by. -/
abbrev ErrWord := List (Nat × Byte)

/-- One more error at a position. -/
def errAdd (e : ErrWord) (p : Nat) (v : Byte) : ErrWord :=
  let old := match e.find? (fun x => x.1 == p) with | some x => x.2 | none => 0
  let rest := e.filter (fun x => x.1 != p)
  if old ^^^ v = 0 then rest else rest ++ [(p, old ^^^ v)]

/-- The r syndromes of an error word. -/
def syndromes (r : Nat) (e : ErrWord) : List Byte := (List.range r).map (fun j => e.foldl (fun a x => a ^^^ rsMul x.2 (rsPow (j * x.1))) 0)

/-- The key equation by Euclid's algorithm: the locator and the evaluator, once the remainder has fewer than `stop` coefficients. -/
def keyEq (stop : Nat) : Nat → List Byte → List Byte → List Byte → List Byte → List Byte × List Byte
  | 0, _, r1, _, t1 => (t1, r1)
  | n + 1, r0, r1, t0, t1 =>
    if r1.length ≤ stop then (t1, r1)
    else
      let (q, r2) := polyDiv r1 100 [] r0
      keyEq stop n r1 r2 t1 (polyTrim (polyAdd t0 (polyMul q t1)))

/-- The error word a decoder finds from its syndromes in a codeword of `len` symbols, with some positions erased; none where it finds none. -/
def rsDecode (len r : Nat) (erased : List Nat) (syn : List Byte) : Option ErrWord :=
  if syn.all (· == 0) then some []
  else
    let gamma := erased.foldl (fun p k => polyMul p [1, rsPow k]) [1]
    let t := polyTrim ((polyMul syn gamma).take r)
    let (lambda, omega) := keyEq ((r + erased.length) / 2) (r + 1) (List.replicate r 0 ++ [1]) t [] [1]
    let psi := polyTrim (polyMul lambda gamma)
    let roots := (List.range len).filter (fun k => polyAt psi (rsPow (255 - k)) == 0)
    if roots.length + 1 ≠ psi.length then none
    else
      let d := polyDeriv psi
      let e := (roots.map (fun k =>
        let x := rsPow (255 - k)
        (k, rsMul (rsPow k) (rsMul (polyAt omega x) (rsInv (polyAt d x)))))).filter (fun x => x.2 != 0)
      if syndromes r e = syn then some e else none

/-! ### Two codewords of a bale (R387) -/

/-- The r check symbols of a message, by division from its highest symbol down. -/
def rsRem (r : Nat) (msg : List Byte) : List Byte :=
  let g := rsGen r
  msg.reverse.foldl (fun (c : List Byte) m =>
    let fb := m ^^^ c.getLastD 0
    ((0 :: c.dropLast).zip g).map (fun x => x.1 ^^^ rsMul fb x.2)) (List.replicate r 0)

/-- Every second byte, from byte j on. -/
def everyOther (j n : Nat) (b : List Byte) : List Byte := (List.range n).map (fun i => b.getD (2 * i + j) 0)

/-- The eight FEC bytes behind the first 248 of a bale. -/
def fecBytes (b : List Byte) : List Byte :=
  let c0 := rsRem 4 (everyOther 0 124 b)
  let c1 := rsRem 4 (everyOther 1 124 b)
  (c0.zip c1).flatMap (fun x => [x.1, x.2])

/-- What the decoder of codeword j corrects, by byte of the bale: at most 2 symbols; none where it fails. -/
def fecWord (j : Nat) (b : List Byte) : Option (List (Nat × Byte)) :=
  let w := everyOther j 4 (b.drop 248) ++ everyOther j 124 b
  match rsDecode 128 4 [] ((List.range 4).map (fun i => polyAt w (rsPow i))) with
  | some e => if e.length ≤ 2 then some (e.map (fun x => (if x.1 < 4 then 248 + 2 * x.1 + j else 2 * (x.1 - 4) + j, x.2))) else none
  | none => none

/-- The corrections of a bale's two codewords. -/
def fecFix (b : List Byte) : Option (List (Nat × Byte)) :=
  match fecWord 0 b, fecWord 1 b with
  | some x, some y => some (x ++ y)
  | _, _ => none

/-! ### Outcomes (R315, R316) -/

/-- An outcome of a DRAM read (R316). -/
inductive CodeOut where
  | clean | corrected | heavy | poison | address | uncorrectable
  deriving DecidableEq, Repr

/-- The groups that symbols lie in (R313). -/
def groupsOf (syms : List Nat) : List Nat := (List.range 10).filter (fun g => syms.any (fun x => x / 8 == g))

/-- The row of R316 that an error word falls in, by code and marked group. -/
def classify (strong : Bool) (mark : Option Nat) (e : ErrWord) : CodeOut :=
  let syms := e.filterMap (fun x => posSym strong x.1)
  let n := syms.length
  if e = [] then .clean
  else if n ≠ e.length then .address
  else if ¬ strong then (if n ≤ 2 then .corrected else if n ≤ 4 then .heavy else .uncorrectable)
  else match mark with
    | some g =>
      let m := (syms.filter (fun x => x / 8 != g)).length
      if m ≤ 2 then .corrected else if m ≤ 4 then .heavy else .uncorrectable
    | none => if n ≤ 4 ∨ (n ≤ 8 ∧ (groupsOf syms).length = 1) then .corrected else if n ≤ 8 then .heavy else .uncorrectable

/-- One hypothesis of R315 on an error word: the row it falls in, and the error word the decoder takes away. -/
def tryDecode (strong : Bool) (mark : Option Nat) (e : ErrWord) : Option (CodeOut × ErrWord) :=
  let er := match strong, mark with | true, some g => (List.range 8).map (fun m => symPos true (8 * g + m)) | _, _ => []
  match rsDecode 85 (checks strong) er (syndromes (checks strong) e) with
  | none => none
  | some found => match classify strong (if strong then mark else none) found with
    | .uncorrectable => none
    | o => some (o, found)

/-- What a decoder's answer leaves wrong. -/
def leftOver (e found : ErrWord) : ErrWord := found.foldl (fun a x => errAdd a x.1 x.2) e

/-- The symbols of data and spare bytes among what is left wrong. -/
def residue (strong : Bool) (e : ErrWord) : List (Nat × Byte) :=
  e.filterMap (fun x => match posSym strong x.1 with
    | some y => if y < (if strong then 64 else 72) then some (y, x.2) else none
    | none => none)

/-- The check symbols of the marking, as an error word on a plain codeword. -/
def markWord (strong : Bool) : ErrWord := (List.range (checks strong)).map (fun j => (j, 0x5A))

/-- The checker on a line whose read differs from what was stored by `e`, the line address counted among its symbols (R315, R316): the outcome, the symbols
corrected, and the data and spare bytes that a miscorrection, or an error word that is itself a codeword, leaves different. A line stored without the marking
is too far from a marked one to be taken for it within the limits (R315). -/
def checkLine (strong : Bool) (mark : Option Nat) (marked : Bool) (e : ErrWord) : CodeOut × List Nat × List (Nat × Byte) :=
  if e = [] then (if marked then .poison else .clean, [], []) else
  let plain := tryDecode strong mark (if marked then (markWord strong).foldl (fun a x => errAdd a x.1 x.2) e else e)
  let asMarked := if marked then (tryDecode strong mark e).bind (fun x => if residue strong (leftOver e x.2) = [] then some x else none) else none
  let asPlain := fun (x : CodeOut × ErrWord) =>
    (x.1, x.2.filterMap (fun y => posSym strong y.1),
      residue strong (leftOver (if marked then (markWord strong).foldl (fun a y => errAdd a y.1 y.2) e else e) x.2))
  let asPoison := fun (x : CodeOut × ErrWord) => (if x.1 = .address then CodeOut.address else .poison, ([] : List Nat), ([] : List (Nat × Byte)))
  match plain, asMarked with
  | none, none => (.uncorrectable, [], [])
  | some p, none => asPlain p
  | none, some m => asPoison m
  | some p, some m => if p.2.length < m.2.length then asPlain p else asPoison m

end Sys2Proof.Machine
end

