-- ==== Sys2Proof/Machine/Ecc.lean ====
section
/-!
DEFINITION. Stored-data protection (10_stored_data_protection.md): the outcomes of the code checker, device marks,
injections, and the `ecc` commands.
-/
namespace Sys2Proof.Machine
open Sys2Proof

/-! ### The checker (R315–R318) -/

/-- The entry of `ECC_MARK` for a line of a channel: 4 × subchannel + rank. -/
def State.markIx (s : State) (la : Nat) : Nat :=
  let c := s.chanOf (la / 4)
  let d := s.dramAddr c (4 * s.localOf (la / 4) + la % 4)
  4 * d.sc + d.rk

/-- The device mark that applies to a line. -/
def State.markOf (s : State) (la : Nat) : Option Nat :=
  let c := s.chanOf (la / 4)
  let i := s.markIx la
  if s.isSet .ECC_MARK_V c i then some (s.get .ECC_MARK_GROUP c i) else none

/-- A line corrected with 2 or more symbols within one group (R318): at MARK_THR of them within MARK_WIN the group is
marked, or refused as a second mark. -/
def State.markHit (s : State) (la g : Nat) : State :=
  let c := s.chanOf (la / 4)
  let i := s.markIx la
  let key := 1000 * c + 10 * i + g
  let hits := s.now :: (tgetD [] key s.ecc.hits).filter (fun t => decide (s.now - t ≤ s.get .ECC_MARK_CFG_MARK_WIN * 1000000))
  let s := { s with ecc := { s.ecc with hits := tput key hits s.ecc.hits } }
  if hits.length < s.get .ECC_MARK_CFG_MARK_THR then s
  else if s.isSet .ECC_MARK_V c i then (if s.get .ECC_MARK_GROUP c i = g then s else s.report (msg2 bEcc c 5 la))
  else ((s.put .ECC_MARK_GROUP g c i).put .ECC_MARK_V 1 c i).report (msg2 bEcc c 5 la)

/-- A line as the checker leaves it: its address, its outcome, the data and spare bytes (64 to 71) that differ though the code lets them
pass, and whether an injection fired on it. -/
structure LineOut where
  la : Nat
  out : CodeOut
  left : List (Nat × Byte) := []
  inj : Bool := false

/-- The sub-unit that reports an outcome (R334). -/
def outSub : CodeOut → Option Nat
  | .corrected => some 0
  | .heavy => some 1
  | .uncorrectable => some 2
  | .address => some 3
  | .clean | .poison => none

/-- The messages of one read, of one line or several (R334): one for each outcome kind it meets, with the first line of that kind and
their number. -/
def State.eccSay (s : State) (l : List LineOut) : State :=
  [0, 1, 2, 3].foldl (fun (s : State) sub =>
    match l.filter (fun x => outSub x.out == some sub) with
    | [] => s
    | x :: xs =>
      let c := s.chanOf (x.la / 4)
      let m := if sub ≤ 1 then msg1 bEcc c sub x.la ((xs.length + 1) % 256) else msg2 bEcc c sub x.la ((xs.length + 1) % 256)
      s.report { m with inj := (x :: xs).any (·.inj) }) s

/-- What a non-speculative read of a line does besides delivering it and its message (R317, R318): counters, marks, and
the freeze of a Strong uncorrectable or address outcome. -/
def State.codeEffects (s : State) (la : Nat) (syms : List Nat) (strong : Bool) (out : CodeOut) (inj : Bool) : State :=
  let c := s.chanOf (la / 4)
  match out with
  | .clean => s
  | .poison => s
  | .corrected =>
    let s := s.bump .ECC_CH_CNT_CORR 0xFFFFFF c
    match groupsOf syms with
    | [g] => if strong ∧ 2 ≤ syms.length then s.markHit la g else s
    | _ => s
  | .heavy => s.bump .ECC_CH_CNT_HEAVY 0xFFFF c
  | .address =>
    let s := (s.bump .ECC_CH_CNT_UNCORR 0xFFFF c).bump .ECC_CH_CNT_ADDR 0x7F c
    if strong then s.freeze c 1 (some { msg2 bMem c 1 with inj := inj }) [(la, 1)] else s
  | .uncorrectable =>
    let s := s.bump .ECC_CH_CNT_UNCORR 0xFFFF c
    if strong then s.freeze c 0 (some { msg2 bMem c 1 with inj := inj }) [(la, 0)] else s

/-- The code of a granule, as its owner entry records (R319, R320): CODE 1 where it has never been allocated. -/
def State.strongAt (s : State) (ma : Nat) : Bool := match tget ma s.pg.own with | some o => o.code == 1 | none => true

/-- The DIMM that holds a line has no power (R340, R468): the position RK[1] names, or any where one DIMM is used. -/
def State.lineLost (s : State) (la : Nat) : Bool :=
  let c := s.chanOf (la / 4)
  let off := fun (n : Nat) => !s.isSet .SLT_SG_STS_GATE n
  match s.get .MEM_CH_STS_DIMMS c with
  | 0 => false
  | 1 => off (2 * c) && off (2 * c + 1)
  | _ => off (2 * c + (s.dramAddr c (4 * s.localOf (la / 4) + la % 4)).rk / 2)

/-- The error word of a read: symbols of the line, and the bytes by which the address that answered differs from the one meant (R314). -/
def errWord (strong : Bool) (la : Nat) (syms : List (Nat × Byte)) (addr : Option Nat) : ErrWord :=
  let e := syms.foldl (fun (e : ErrWord) x => errAdd e (symPos strong x.1) x.2) []
  match addr with
  | some a => (List.range 5).foldl (fun (e : ErrWord) i => errAdd e (80 + i) (BitVec.ofNat 8 ((a ^^^ la) / 256 ^ i))) e
  | none => e

/-- A line of a non-speculative read goes through the checker: what it makes of it, and every effect but the message (R6, R314–R318, R331). -/
def State.readOne (s : State) (la : Nat) (e : ReadErr) (marked : Bool) : State × LineOut :=
  let (s, m) := (s.fetchLine la).fire 0 la
  let stored := tgetD [] la s.ecc.bad
  let strong := s.strongAt (la / 4)
  let word := errWord strong la (e.syms.map (fun x => (x.1.val, x.2)) ++ m ++ stored) (e.addr.map (·.val))
  let (out, syms, left) := if s.lineLost la then (CodeOut.uncorrectable, [], []) else checkLine strong (s.markOf la) marked word
  let inj := m ++ stored != []
  (s.codeEffects la syms strong out inj, { la := la, out := out, left := left, inj := inj })

/-- A read of one line, with its message. -/
def State.readLine (s : State) (la : Nat) (e : ReadErr) (marked : Bool) : State × LineOut :=
  let (s, r) := s.readOne la e marked
  (s.eccSay [r], r)

/-! ### Where the lines of a page lie -/

/-- Start offsets of the records of an image (R203): the position each segment gets, or none for a ZERO segment, and the
length of the image in granules. -/
def layoutFrom : Nat → Nat → List Nat → List (Option Nat) × Nat
  | pos, _, [] => ([], (pos + 255) / 256)
  | pos, anchor, span :: rest =>
    if span = 0 then let (l, n) := layoutFrom pos anchor rest; (none :: l, n)
    else
      let g := pos / 256
      let at' := if g ≠ anchor then (if pos % 256 ≠ 0 then (g + 1) * 256 else pos) else pos
      let (l, n) := layoutFrom (at' + span) (at' / 256) rest
      (some at' :: l, n)

/-- The layout of an image: record lengths in bytes to starts and LEN (R203). -/
def layout (spans : List Nat) : List (Option Nat) × Nat := layoutFrom 32 0 spans

/-- HINT of an image (R204): a nibble for each of segments 1 to 7. -/
def hintOf (starts : List (Option Nat)) : Nat :=
  (List.range 7).foldl (fun a k =>
    a + (match starts.getD (k + 1) none with | some p => p / 256 % 16 | none => 15) * 16 ^ k) 0

/-- Record lengths of a page's image in bytes. -/
def spansOf (p : Page) : List Nat := p.segs.map (fun g => 16 * g.span)

/-- The line address that a read of a line of a page fetches first (R178): the line itself of a raw frame, else the first
line of the segment's record. -/
def State.laOf (_s : State) (p : Page) (ma line : Nat) (raw : Bool) : Nat :=
  if raw then 4 * ma + line % 64
  else 4 * ma + (((layout (spansOf p)).1.getD (line / 8 % 8) none).getD 32) / 64

/-- The sectors of a parison with bytes in a line of its image. -/
def sectorsAt (p : Page) (off : Nat) : List Nat :=
  let st := (layout (spansOf p)).1
  (List.range 8).filter (fun k => match st.getD k none with
    | some a => decide (a < off + 64 ∧ off < a + (spansOf p).getD k 0)
    | none => false)

/-- Poison the content that a media line of a page's primary holds (R331 kind 2, R328). -/
def State.poisonAt (s : State) (lpn la cause : Nat) : State :=
  let p := s.page lpn
  if isRaw p.pl then s.markPoison (64 * lpn + (la - 4 * p.pl.ma)) cause
  else (sectorsAt p (64 * (la - 4 * p.pl.ma))).foldl (fun s k => s.poisonMedia (64 * lpn + 8 * k) cause) s

/-! ### Commands (R332, R333) -/

/-- The channel word of the `ecc.query` output. -/
def execEccQuery (q : Req) (s : State) : Res :=
  let c := par q 0x10 1
  serve { op := 0x0800, priv := 0, mctp := true, output := true, fields := [fld 0x10 1] } q
    (firstBad [(0x10, decide (c < 16))]) (fun s =>
      okOut s (s.word .ECC_CH_CNT_CORR c) 64
        [(0, 8, s.word .ECC_MARK_GROUP c), (8, 8, s.word .ECC_SCRUB_STS_PCT c), (0x10, 8, s.word .ECC_INJ_STS_ARMED c),
         (0x18, 8, s.word .ECC_SELFTEST_SLICE_FAIL), (0x20, 8, s.word .ECC_SCRUB_CFG_PERIOD_H),
         (0x28, 8, s.word .ECC_MARK_CFG_MARK_THR), (0x30, 8, s.word .ECC_CODE_CLASS_JOB)]) s

/-- ECC_SET_CODE. -/
def execEccSetCode (q : Req) (s : State) : Res :=
  serve { op := 0x0801, priv := 2, fields := [fld 0x10 2] } q
    (firstBad [(0x10, decide (par q 0x10 1 ≤ 1)), (0x11, decide (par q 0x11 1 ≤ 1))]) (fun s =>
      ok (if par q 0x10 1 = 0 then s.put .ECC_CODE_CLASS_JOB (par q 0x11 1) else s.put .ECC_CODE_CLASS_SAMPLE (par q 0x11 1))) s

/-- Begin a new pass on every enabled channel (R332). -/
def State.restartScrub (s : State) : Nat → State
  | 0 => s
  | c + 1 =>
    let s := if bit (s.get .ECC_SCRUB_CFG_EN) c then
        ({ s with ecc := { s.ecc with scrubAt := tdel c s.ecc.scrubAt, scrubFrom := tput c s.now s.ecc.scrubFrom } }).put
          .ECC_SCRUB_STS_PCT 0 c
      else s
    s.restartScrub c

/-- ECC_SCRUB_CFG. -/
def execEccScrubCfg (q : Req) (s : State) : Res :=
  let h := par q 0x10 2
  serve { op := 0x0802, priv := 2, fields := [fld 0x10 4, fbits 0x14 0 1] } q (firstBad [(0x10, decide (h ≤ 168))]) (fun s =>
    let s := if h = 0 then s else s.put .ECC_SCRUB_CFG_PERIOD_H h
    let s := s.put .ECC_SCRUB_CFG_EN (par q 0x12 2)
    ok (if parBit q 0x14 0 then s.restartScrub 16 else s)) s

/-- The sources that name a SECDED or parity array (R321, with the sub-unit tables of the owning chapters). -/
def isArray (code sub : Nat) : Bool :=
  match code with
  | 0x01 => decide (sub = 4)
  | 0x02 => decide (sub = 6)
  | 0x03 => decide (1 ≤ sub ∧ sub ≤ 4)
  | 0x05 => decide (sub = 4 ∨ sub = 5)
  | 0x06 => decide (sub = 6)
  | 0x07 => decide (sub = 1 ∨ sub = 2)
  | 0x08 => decide (sub = 1 ∨ sub = 5)
  | 0x09 => decide (sub = 2)
  | 0x0A => decide (sub = 1)
  | 0x0E => decide (sub = 0 ∨ sub = 8 ∨ sub = 9)
  | 0x10 => decide (sub = 4)
  | 0x13 => decide (sub ≤ 1)
  | _ => false

/-- The checks of R333 on `ecc.inject`. -/
def State.injectBad (s : State) (q : Req) : Option Nat :=
  let k := par q 0x10 1
  let ma := par q 0x18 8
  let src := par q 0x18 2
  let low := decide (k < 3)
  firstBad [
    (0x10, decide (k ≤ 3)),
    (0x18, !low || (decide (ma < 2 ^ 36) && !s.isHole ma)),
    (0x20, !low || decide (par q 0x20 1 ≤ 3)),
    (0x22, !low || decide (par q 0x22 10 ≠ 0)),
    (0x2C, !low || decide (par q 0x2C 1 ≠ 0)),
    (0x18, low || (isArray (src / 1024) (src % 16) && decide (src / 16 % 64 < instances (src / 1024)))),
    (0x1A, low || decide (1 ≤ par q 0x1A 1 ∧ par q 0x1A 1 ≤ 2)),
    (0x21, low || decide (par q 0x21 1 ≤ 12))]

/-- Parameter fields of `ecc.inject` by kind. -/
def injectFields (k : Nat) : List (Nat × Nat × Nat) :=
  if k < 3 then [fld 0x10 1, fld 0x18 8, fld 0x20 1, fld 0x22 10, fld 0x2C 1]
  else [fld 0x10 1, fld 0x18 2, fld 0x1A 1, fld 0x1C 4, fld 0x20 2]

/-- ECC_INJECT (R331–R333). Poison (kind 2) is written at once. -/
def execEccInject (q : Req) (s : State) : Res :=
  let k := par q 0x10 1
  let ma := par q 0x18 8
  let la := 4 * ma + par q 0x20 1
  serve { op := 0x0803, priv := 2, fields := injectFields k } q (s.injectBad q) (fun s =>
    let c := s.chanOf ma
    let role := match s.ownAt ma with | some o => o.role | none => 0
    if k = 2 ∧ (role = 4 ∨ role = 5 ∨ role = 7) then refuse s stBadParam 0x18
    else if k < 3 ∧ 8 ≤ s.get .ECC_INJ_STS_ARMED c then busy s
    else if k = 3 ∧ 4 ≤ (s.ecc.inj.filter (fun x => decide (x.kind = 3 ∧ x.la / 1024 = par q 0x18 2 / 1024))).length then busy s
    else
      let h := s.ecc.nextInj % 256
      let s := { s with ecc := { s.ecc with nextInj := s.ecc.nextInj + 1 } }
      if k = 2 then
        let s := match tget ma s.pg.own with
          | some o => if o.role = 1 then s.poisonAt o.lpn la 7 else s
          | none => s
        ok ((s.bump .ECC_INJ_STS_FIRED 0xFFFF c).report { msg1 bEcc c 9 la with inj := true }) h
      else if k = 3 then
        ok { s with ecc := { s.ecc with inj := s.ecc.inj ++ [Inj.mk h 3 (par q 0x18 2) (par q 0x1C 4) (par q 0x20 2)] } } h
      else
        let s := { s with ecc := { s.ecc with inj := s.ecc.inj ++ [Inj.mk h k la (par q 0x22 10) (par q 0x2C 1)] } }
        ok (s.put .ECC_INJ_STS_ARMED (s.get .ECC_INJ_STS_ARMED c + 1) c) h) s

/-- An entry of the device poison log, by its index since cold reset (R332): zeros for one older than the log. -/
def State.poisonOut (s : State) (off i : Nat) : Output :=
  let first := s.ecc.pcount - s.ecc.plog.length
  if i < first then []
  else match s.ecc.plog[i - first]? with
    | some e => [(off, 8, e.lpn + e.sector * 2 ^ 33 + e.line * 2 ^ 36 + e.cause * 2 ^ 39), (off + 8, 8, e.time)]
    | none => []

/-- ECC_POISON_LIST (R332, R333). -/
def execEccPoisonList (q : Req) (s : State) : Res :=
  let i0 := par q 0x10 4
  let n := par q 0x14 2
  serve { op := 0x0804, priv := 0, output := true, fields := [fld 0x10 6] } q
    (firstBad [(0x14, decide (1 ≤ n ∧ n ≤ 4096))]) (fun s =>
      let m := min n (s.ecc.pcount - i0)
      okOut s m (16 * m) ((List.range m).flatMap (fun k => s.poisonOut (16 * k) (i0 + k)))) s

end Sys2Proof.Machine
end

