-- ==== Sys2Proof/Machine/Codec.lean ====
section
/-!
DEFINITION. The inline codec (R199–R221): headers and frames, the token streams, the predictors, the frit tables, and
the choice of a mode for a sector.
-/
namespace Sys2Proof.Machine
open Sys2Proof

/-! ### Bytes and words -/

/-- The 64 bytes of a line. -/
def lineBytes (l : Line) : List Byte := (List.range 64).map (fun i => BitVec.ofNat 8 (l.toNat / 256 ^ i))

/-- The line of 64 bytes. -/
def bytesLine (bs : List Byte) : Line := BitVec.ofNat 512 (leNat (bs.take 64))

/-- Lines of a sector from its bytes. -/
def bytesLines : Nat → List Byte → List Line
  | 0, _ => []
  | n + 1, bs => bytesLine bs :: bytesLines n (bs.drop 64)

/-- Words of w bytes. -/
def words (w : Nat) : Nat → List Byte → List Nat
  | 0, _ => []
  | n + 1, bs => leNat (bs.take w) :: words w n (bs.drop w)

/-! ### Token streams (R208, R209) -/

/-- Copy k bytes from `off` back; `out` is the output so far, newest byte first. Before the output lies the dictionary. -/
def copyMatch (dict : List Byte) : Nat → Nat → List Byte → Option (List Byte)
  | 0, _, out => some out
  | k + 1, off, out =>
    let src := if off ≤ out.length then out[off - 1]?
      else if off - out.length ≤ dict.length then dict[dict.length - (off - out.length)]? else none
    match src with
    | some b => if out.length < 512 then copyMatch dict k off (b :: out) else none
    | none => none

/-- Run a token stream (R208): fuel, latest offset, remaining bytes, output newest first. The answer is the 512 bytes;
none is a decode error. -/
def lzRun (dict : List Byte) : Nat → Nat → List Byte → List Byte → Option (List Byte)
  | 0, _, _, _ => none
  | _, _, [], _ => none
  | fuel + 1, latest, t :: bs, out =>
    let v := t.toNat
    if v < 0x40 then
      if bs.length < v + 1 ∨ 512 < out.length + v + 1 then none
      else lzRun dict fuel latest (bs.drop (v + 1)) ((bs.take (v + 1)).reverse ++ out)
    else if v < 0x80 then
      match bs with
      | b :: bs' =>
        let off := v % 8 * 256 + b.toNat + 1
        (copyMatch dict (v / 8 % 8 + 3) off out).bind (lzRun dict fuel off bs')
      | [] => none
    else if v < 0xC0 then
      match bs with
      | b0 :: b1 :: bs' =>
        let off := b0.toNat + 256 * b1.toNat + 1
        (copyMatch dict (v % 64 + 3) off out).bind (lzRun dict fuel off bs')
      | _ => none
    else if v = 0xC0 then (if out.length = 512 ∧ bs.all (· == 0) then some out.reverse else none)
    else (copyMatch dict (v % 64 + 2) latest out).bind (lzRun dict fuel latest bs)

/-- Decode a token stream without, or with, a dictionary. -/
def lzDecode (dict bs : List Byte) : Option (List Byte) := lzRun dict (bs.length + 1) 1 bs []

/-! ### Predictors (R210) -/

/-- Words from byte planes: word i has byte j at plane offset n × j + i. -/
def unplane (w n : Nat) (bs : List Byte) : List Nat :=
  (List.range n).map (fun i => (List.range w).foldl (fun a j => a + (bs.getD (n * j + i) 0).toNat * 256 ^ j) 0)

/-- Undo the XOR prediction. -/
def unxor : Nat → List Nat → List Nat
  | _, [] => []
  | prev, r :: rs => let w := r ^^^ prev; w :: unxor w rs

/-- Undo the zig-zag difference of I32D. -/
def undelta : Nat → List Nat → List Nat
  | _, [] => []
  | prev, r :: rs =>
    let d := if r % 2 = 1 then (2 ^ 32 - 1 - r / 2) else r / 2
    let w := (prev + d) % 2 ^ 32
    w :: undelta w rs

/-- Words as bytes. -/
def unwords (w : Nat) (ws : List Nat) : List Byte := ws.flatMap (natBytes w)

/-- The inverse of F64X, F32X and I32D on a residual (modes 4, 5, 6). -/
def unpredict (mode : Nat) (res : List Byte) : List Byte :=
  match mode with
  | 4 => unwords 8 (unxor 0 (unplane 8 64 res))
  | 5 => unwords 4 (unxor 0 (unplane 4 128 res))
  | 6 => unwords 4 (undelta 0 (unplane 4 128 res))
  | _ => res

/-! ### Frits (R211–R213) -/

/-- The symbols of one code length, by rising value. -/
def symsOf (lens : List Nat) (l : Nat) : List Nat := (List.range 256).filter (fun s => lens.getD s 0 == l)

/-- Canonical codes of lengths `l` and up: (symbol, length, code) (R213). -/
def canonFrom (lens : List Nat) : Nat → Nat → Nat → List (Nat × Nat × Nat)
  | 0, _, _ => []
  | n + 1, l, code =>
    let ss := symsOf lens l
    let here := (List.range ss.length).map (fun i => (ss.getD i 0, l, code + i))
    here ++ canonFrom lens n (l + 1) ((code + ss.length) * 2)

/-- The codes of a table. -/
def canon (lens : List Nat) : List (Nat × Nat × Nat) := canonFrom lens 12 1 0

/-- A table is valid: Kraft sum 1, or one symbol of length 1 (R213). -/
def validTable (lens : List Nat) : Bool :=
  lens.length == 256 && lens.all (fun l => decide (l ≤ 12)) &&
    (decide ((lens.filter (fun l => decide (l ≠ 0))).foldl (fun a l => a + 2 ^ (12 - l)) 0 = 4096) ||
      (lens.filter (fun l => decide (l ≠ 0)) == [1]))

/-- Read one symbol, most significant bit of the code first. -/
def readSym (codes : List (Nat × Nat × Nat)) : Nat → Nat → Nat → List Bool → Option (Nat × List Bool)
  | 0, _, _, _ => none
  | _, _, _, [] => none
  | fuel + 1, code, len, b :: bs =>
    let code' := 2 * code + b2n b
    match codes.find? (fun c => c.2.1 == len + 1 && c.2.2 == code') with
    | some c => some (c.1, bs)
    | none => readSym codes fuel code' (len + 1) bs

/-- Read n symbols of a table as bytes. -/
def readSyms (codes : List (Nat × Nat × Nat)) : Nat → List Bool → Option (List Byte × List Bool)
  | 0, bs => some ([], bs)
  | n + 1, bs => do
    let (s, bs1) ← readSym codes 12 0 0 bs
    let (r, bs2) ← readSyms codes n bs1
    pure (BitVec.ofNat 8 s :: r, bs2)

/-- Turn an LZE bit stream into token bytes (R211): literals by LIT, every other byte by CTL; bits after the end token
must be 0. -/
def unEntropy (lit ctl : List (Nat × Nat × Nat)) : Nat → List Bool → Option (List Byte)
  | 0, _ => none
  | fuel + 1, bs => do
    let (t, bs1) ← readSym ctl 12 0 0 bs
    if t = 0xC0 then (if bs1.all (· == false) then some [0xC0] else none)
    else
      let (r, bs2) ← if t < 0x40 then readSyms lit (t + 1) bs1
        else if t < 0x80 then readSyms ctl 1 bs1
        else if t < 0xC0 then readSyms ctl 2 bs1
        else some ([], bs1)
      let rest ← unEntropy lit ctl fuel bs2
      pure (BitVec.ofNat 8 t :: r ++ rest)

/-- The bits of bytes, bit 0 first. -/
def bitsOf (bs : List Byte) : List Bool := bs.flatMap (fun b => (List.range 8).map (fun k => b.getLsbD k))

/-! ### Segment bodies (R206) -/

/-- Repeat 8 bytes over a sector. -/
def pattern (v : List Byte) : List Byte := (List.range 512).map (fun i => v.getD (i % 8) 0)

/-- Decode a segment body of CLEN bytes; `frit` holds the slot its FRITVER names. None is a decode error (R206–R211). -/
def decodeBody (frit : Option Frit) (body : List Byte) : Option (List Byte) :=
  match body with
  | [] => none
  | m :: rest =>
    let n := body.length
    if 8 ≤ m.toNat then none
    else match m.toNat with
      | 0 => if n = 513 then some rest else none
      | 2 => if n = 16 ∧ (rest.drop 8).all (· == 0) then some (pattern (rest.take 8)) else none
      | 3 => if 16 ≤ n ∧ n ≤ 512 then lzDecode [] rest else none
      | 4 | 5 | 6 => if 16 ≤ n ∧ n ≤ 512 then (lzDecode [] rest).map (unpredict m.toNat) else none
      | 7 =>
        match rest, frit with
        | v :: bits, some f =>
          if 16 ≤ n ∧ n ≤ 512 ∧ v.toNat = f.ver then
            (unEntropy (canon f.lit) (canon f.ctl) 600 (bitsOf bits)).bind (lzDecode f.dict)
          else none
        | _, _ => none
      | _ => none

/-! ### Header and frame (R200, R201) -/

/-- The 64-bit frame of a record (R201). -/
def frameWord (k span clen lpn : Nat) : Nat := k + span * 16 + clen * 2 ^ 12 + (lpn % 2 ^ 32) * 2 ^ 32

/-- The 32-byte header of a parison (R200). -/
def headerBytes (lpn ver frit fritVer : Nat) (segs : List Seg) : List Byte :=
  let (st, len) := layout (segs.map (fun g => 16 * g.span))
  let zmap := (List.range 8).foldl (fun a k => a + (if (st.getD k none).isNone then 2 ^ k else 0)) 0
  let lze := (List.range 8).foldl (fun a k => a + (if (segs.getD k {}).mode = 7 ∧ (segs.getD k {}).span ≠ 0 then 2 ^ k else 0)) 0
  let start := (List.range 8).map (fun k => BitVec.ofNat 8 (((st.getD k none).getD 0) / 16))
  let front := natBytes 2 0x7A9C ++ [BitVec.ofNat 8 (len + 16), BitVec.ofNat 8 zmap] ++ start ++
    [BitVec.ofNat 8 (if lze = 0 then 0 else frit), BitVec.ofNat 8 (if lze = 0 then 0 else fritVer), BitVec.ofNat 8 lze, 0] ++
    natBytes 8 (lpn + ver * 2 ^ 40) ++ natBytes 4 0
  front ++ natBytes 4 (crc32c front)

/-! ### Choosing an encoding (R207, R219–R221) -/

/-- The body of PATTERN for a sector that repeats 8 bytes. -/
def patternBody (sec : List Byte) : List Byte := (2 : Byte) :: sec.take 8 ++ List.replicate 7 0

/-- The sector repeats its first 8 bytes. -/
def isPattern (sec : List Byte) : Bool := sec == pattern (sec.take 8)

/-- The modes that the policy of an objective lets a tier's encoder use (R219): the one named, or under AUTO and under LZE
without a frit, LZ to I32D. -/
def policyModes (pol : Nat) (hasFrit : Bool) : List Nat :=
  match pol with
  | 0 => [3, 4, 5, 6]
  | 7 => if hasFrit then [7] else [3, 4, 5, 6]
  | m => [m]

/-- What the encoder stores for a sector (R219, R220): its body. `body` is the stream an encoder of that policy chose;
how hard it searches is not specified. A body of a mode outside the policy or above 512 bytes gives RAW, and so does one
that VERIFY finds to decode to other bytes (second answer). -/
def encodeSector (pol : Nat) (frit : Option Frit) (verify : Bool) (sec body : List Byte) : List Byte × Bool :=
  if isPattern sec then (patternBody sec, false)
  else
    let raw := (0 : Byte) :: sec
    let m := (body.headD 0).toNat
    if ¬ (policyModes pol frit.isSome).contains m ∨ body.length < 16 ∨ 512 < body.length then (raw, false)
    else if decodeBody frit body = some sec then (body, false)
    else if verify then (raw, true)
    else (body, false)

/-- A record for a body of CLEN bytes (R201): SPAN in 16-byte units. -/
def segOf (body : List Byte) : Seg :=
  { span := (16 + body.length + 15) / 16, body := body }

end Sys2Proof.Machine
end

