-- ==== Sys2Proof/Machine/Stored.lean ====
section
/-!
DEFINITION. What media holds of a page, byte by byte: segments and raw lines under the page's key with their tags, the image of a parison, and the leaves
and nodes of the integrity tree (R199–R205, R275–R290); and what a reader makes of bytes that differ.
-/
namespace Sys2Proof.Machine
open Sys2Proof

/-! ### The frit caches (R218) -/

/-- The bytes of a slot in the frit store (R212). -/
def fritBytes (f : Nat) (x : Frit) (ref : Nat) : List Byte :=
  let head := natBytes 1 f ++ natBytes 1 x.ver ++ natBytes 2 (b2n x.oneTc + x.scope * 256)
  let body := x.lit.map (BitVec.ofNat 8) ++ x.ctl.map (BitVec.ofNat 8) ++ List.replicate 448 0 ++ x.dict
  natBytes 2 0x7F1A ++ head ++ natBytes 2 0 ++ natBytes 8 ref ++ natBytes 4 (crc32c (body ++ head)) ++ natBytes 2 x.nsamp ++ List.replicate 42 0 ++ body

/-- Write n lines of a slot in both copies of the frit store (R218). -/
def State.writeSlot (s : State) (x n : Nat) : State :=
  ((tgetD { size := 0, places := [] } 19 s.pg.areas).places).foldl (fun (s : State) ma => s.writeCopy (4 * s.maOf (s.chanOf ma) (s.localOf ma + 20 * x)) n) s

/-- FC_VALID of a slice follows its cache. -/
def State.showFrits (s : State) (n : Nat) : State :=
  s.put .CDC_SLICE_STS_FC_VALID (s.cdc.cache.foldl (fun a x => if x.1 / 8 = n then a + 2 ^ (x.1 % 8) else a) 0) n

/-- The codec of a slice uses slot x of the frit store: a miss fills a free cache slot, or any one (R218). A disabled slot is not used (R231). -/
def State.fritUse (s : State) (n x : Nat) : State :=
  if s.cdc.cache.any (fun c => decide (c.1 / 8 = n ∧ c.2 = x)) then s
  else
    let ways := if s.isOff bCdc n 5 then 7 else 8
    let i := ((List.range ways).find? (fun i => (tget (8 * n + i) s.cdc.cache).isNone)).getD (s.draw % ways)
    ({ s.drawn with cdc := { s.cdc with cache := tput (8 * n + i) x s.cdc.cache } } : State).showFrits n

/-- Cache slots that hold slot x of the store are invalid. -/
def State.fritDrop (s : State) (x : Nat) : State :=
  (List.range 16).foldl (fun (s : State) n => s.showFrits n)
    { s with cdc := { s.cdc with cache := s.cdc.cache.filter (fun c => decide (c.2 ≠ x)) } }

/-! ### Ciphertext and tags (R202, R275–R279) -/

/-- The material of a slot: copy A, or copy B where A is uncorrectable (R269). -/
def State.keyMat (s : State) (ks : Nat) : KeyMat :=
  match tget ks s.sec.keysA with
  | some m => m
  | none => tgetD { k1 := [], k2 := [], kt := [] } ks s.sec.keysB

/-- The bytes of a sector, as content. -/
def State.sectorBytes (s : State) (lpn k : Nat) : List Byte := (List.range 8).flatMap (fun i => lineBytes (tgetD 0 (64 * lpn + 8 * k + i) s.pg.mem))

/-- Bytes up to a length, with zeros. -/
def padTo (n : Nat) (bs : List Byte) : List Byte := bs ++ List.replicate (n - bs.length) 0

/-- CT of a stored segment (R202); of a sector that carries the marking it is 0 (R329). -/
def State.segCt (s : State) (lpn k : Nat) : List Byte :=
  let p := s.page lpn
  let body := (p.segs.getD k {}).body
  if s.pg.poison.contains (64 * lpn + 8 * k) then List.replicate body.length 0
  else xtsEnc (s.keyMat p.pl.ks).k1 (s.keyMat p.pl.ks).k2 (8 * lpn + k) body

/-- The tag of a segment's ciphertext. -/
def State.segTag (s : State) (lpn k : Nat) (ct : List Byte) : List Byte :=
  let ks := (s.page lpn).pl.ks
  tag64 (s.keyMat ks).kt (dataNonce (s.ctr lpn k) (8 * lpn + k) ks none) ct

/-- The record of a segment (R201): frame, TAG, CT, PAD. -/
def State.recordBytes (s : State) (lpn k : Nat) : List Byte :=
  let g := (s.page lpn).segs.getD k {}
  let ct := s.segCt lpn k
  padTo (16 * g.span) (natBytes 8 (frameWord k g.span g.clen lpn) ++ s.segTag lpn k ct ++ ct)

/-- The ciphertext of a sector of a raw frame; a line that carries the marking is 0 (R329). -/
def State.rawSector (s : State) (lpn k : Nat) : List Byte :=
  let m := s.keyMat (s.page lpn).pl.ks
  let ct := xtsEnc m.k1 m.k2 (8 * lpn + k) (s.sectorBytes lpn k)
  (List.range 8).flatMap (fun i => if s.pg.poison.contains (64 * lpn + 8 * k + i) then List.replicate 64 0 else (ct.drop (64 * i)).take 64)

/-- The tag of a line of a raw frame, given its ciphertext. -/
def State.lineTag (s : State) (line : Nat) (ct : List Byte) : List Byte :=
  let ks := (s.page (line / 64)).pl.ks
  tag64 (s.keyMat ks).kt (dataNonce (s.ctr (line / 64) (line / 8 % 8)) (line / 8) ks (some (line % 8))) ct

/-- The stored tags of a sector of a raw frame, by line; those of marked lines are 0. -/
def State.sectorTags (s : State) (lpn k : Nat) : List (List Byte) :=
  let ct := s.rawSector lpn k
  (List.range 8).map (fun i =>
    let l := 64 * lpn + 8 * k + i
    if s.pg.poison.contains l then List.replicate 8 0 else s.lineTag l ((ct.drop (64 * i)).take 64))

/-- The image of a page as media, or a lender, holds it (R199, R203, R275). -/
def State.imageBytes (s : State) (lpn : Nat) : List Byte :=
  let p := s.page lpn
  if isRaw p.pl then (List.range 8).flatMap (fun k => s.rawSector lpn k)
  else
    let st := (layout (spansOf p)).1
    padTo (256 * p.pl.len) ((List.range 8).foldl (fun (b : List Byte) k => match st.getD k none with
      | some a => padTo a b ++ s.recordBytes lpn k
      | none => b) (headerBytes lpn p.laid p.pl.frit p.fritVer p.segs))

/-! ### Finding a record (R204, R205) -/

/-- The hint of a segment: 0xF for a ZERO one; segment 0 has none and starts in granule 0. -/
def hintAt (pl : Place) (k : Nat) : Nat := if k = 0 then 0 else pl.hint / 16 ^ (k - 1) % 16

/-- The stored segment after k. -/
def nextHint (pl : Place) (k : Nat) : Option Nat := ((List.range 8).filter (fun j => decide (k < j ∧ hintAt pl j ≠ 15))).head?

/-- The first and last granule that a read of a segment takes. -/
def readSpan (pl : Place) (k : Nat) : Nat × Nat :=
  let first := hintAt pl k
  (first, match nextHint pl k with | none => pl.len - 1 | some m => if hintAt pl m = first then first else hintAt pl m - 1)

/-- The checks on the hints of an entry. -/
def hintsOk (pl : Place) (k : Nat) : Bool :=
  let used := ((List.range 8).map (hintAt pl)).filter (· != 15)
  used.all (fun h => decide (h < pl.len)) && (List.range (used.length - 1)).all (fun i => decide (used.getD i 0 ≤ used.getD (i + 1) 0))
    && (match nextHint pl k with | some m => decide (hintAt pl k ≤ hintAt pl m) | none => true)

/-- A frame as read: SEGIDX, SPAN, CLEN, LPNLO. -/
def frameOf (img : List Byte) (p : Nat) : Nat × Nat × Nat × Nat :=
  let w := leNat ((img.drop p).take 8)
  (bits w 0 3, bits w 4 8, bits w 12 12, bits w 32 32)

/-- The checks on a frame at an offset, within byte range lo to hi. -/
def frameOk (img : List Byte) (lpn p lo hi : Nat) : Bool :=
  let (_, span, clen, low) := frameOf img p
  decide (low = lpn % 2 ^ 32 ∧ 2 ≤ span ∧ span ≤ 34 ∧ 16 ≤ clen ∧ clen ≤ 513 ∧ clen ≤ 16 * span - 16 ∧ lo ≤ p ∧ p + 16 * span ≤ hi)

/-- Follow the chain to segment k: the offset of its record, or none where a check fails. -/
def followChain (img : List Byte) (lpn k lo hi : Nat) : Nat → Nat → Nat → Option Nat
  | 0, _, _ => none
  | n + 1, p, least =>
    let (i, span, _, _) := frameOf img p
    if ¬ frameOk img lpn p lo hi ∨ k < i ∨ i < least then none
    else if i = k then some p
    else followChain img lpn k lo hi n (p + 16 * span) (i + 1)

/-- The record that the header names (R205): where MAGIC, FMT, LPN and HCRC are good and the frame passes its checks. -/
def byHeader (img : List Byte) (lpn k : Nat) : Option Nat :=
  let w := fun (o n : Nat) => leNat ((img.drop o).take n)
  let p := 16 * w (4 + k) 1
  if w 0 2 = 0x7A9C ∧ w 2 1 / 16 = 1 ∧ bits (w 0x10 8) 0 33 = lpn ∧ w 0x1C 4 = crc32c (img.take 0x1C)
      ∧ frameOk img lpn p 32 img.length ∧ (frameOf img p).1 = k then some p
  else none

/-! ### What a reader makes of bytes that differ (R205, R209, R277, R293) -/

/-- Bytes with some of them XORed, by offset. -/
def flip (bs : List Byte) (d : List (Nat × Byte)) : List Byte := d.foldl (fun (b : List Byte) x => b.modify x.1 (· ^^^ x.2)) bs

/-- What the checks above the code find: what the device wrote; other content that passes all of them; a tag that does not match; a body that does not
decode; no record. -/
inductive Verdict where
  | sound
  | changed (bytes : List Byte)
  | tag
  | decode
  | frame
  deriving DecidableEq, Repr

/-- The frit slot of a page's version. -/
def State.fritOf (s : State) (f ver : Nat) : Option Frit := (s.fritSlot f ver).bind (fun sl => tget (2 * f + sl) s.cdc.store)

/-- A record at an offset: its tag, then its body (R211: a FRITVER other than the header's is a frame error). -/
def State.judgeRecord (s : State) (lpn k : Nat) (img : List Byte) (p : Nat) : Verdict :=
  let pg := s.page lpn
  let (_, _, clen, _) := frameOf img p
  let tag := (img.drop (p + 8)).take 8
  let ct := (img.drop (p + 16)).take clen
  if s.segTag lpn k ct ≠ tag then .tag
  else
    let body := xtsDec (s.keyMat pg.pl.ks).k1 (s.keyMat pg.pl.ks).k2 (8 * lpn + k) ct
    let lze := (body.headD 0).toNat = 7
    if lze ∧ (body.getD 1 0).toNat ≠ pg.fritVer then .frame
    else match decodeBody (if lze then s.fritOf pg.pl.frit pg.fritVer else none) body with
      | some sec => .changed sec
      | none => .decode

/-- A segment read from an image that differs by `d`: the verdict, and whether the header had to serve (R204, R205). -/
def State.judgeSeg (s : State) (lpn k : Nat) (d : List (Nat × Byte)) : Verdict × Bool :=
  if d = [] then (.sound, false)
  else
    let pg := s.page lpn
    let img := flip (s.imageBytes lpn) d
    let (first, last) := readSpan pg.pl k
    let here := if hintsOk pg.pl k then followChain img lpn k (256 * first) (256 * (last + 1)) 8 (if first = 0 then 32 else 256 * first) 0 else none
    let found := match here with | some p => some (p, false) | none => (byHeader img lpn k).map (fun p => (p, true))
    match found with
    | none => (.frame, true)
    | some (p, head) =>
      let rec' := s.recordBytes lpn k
      if some p = (layout (spansOf pg)).1.getD k none ∧ (img.drop p).take rec'.length = rec' then (.sound, head)
      else (s.judgeRecord lpn k img p, head)

/-- A line of a raw frame whose ciphertext and stored tag differ. -/
def State.judgeLine (s : State) (line : Nat) (d dt : List (Nat × Byte)) : Verdict :=
  if d = [] ∧ dt = [] then .sound
  else
    let lpn := line / 64
    let k := line / 8 % 8
    let m := s.keyMat (s.page lpn).pl.ks
    let sec := s.rawSector lpn k
    let ct := flip ((sec.drop (64 * (line % 8))).take 64) d
    if s.lineTag line ct ≠ flip ((s.sectorTags lpn k).getD (line % 8) []) dt then .tag
    else .changed (((xtsDec m.k1 m.k2 (line / 8) (sec.take (64 * (line % 8)) ++ ct ++ sec.drop (64 * (line % 8) + 64))).drop (64 * (line % 8))).take 64)

/-- Content that passed every check stands in media: the lines take it. -/
def State.takeBytes (s : State) (line : Nat) (bs : List Byte) : State :=
  { s with pg := { s.pg with mem := (List.range (bs.length / 64)).foldl (fun t i => tputD 0 (line + i) (bytesLine (bs.drop (64 * i))) t) s.pg.mem } }

/-! ### The integrity tree (R285–R290) -/

/-- The stored bytes of a leaf, or of a node (R286). -/
def State.nodeBytes (s : State) (lvl lpn : Nat) : List Byte :=
  match lvl with
  | 0 => (List.range 8).flatMap (fun k => natBytes 8 (s.ctr lpn k))
  | l + 1 =>
    let child := fun (j : Nat) => 2 ^ 33 * l + 8 * (lpn / 8 ^ (l + 1)) + j
    ((List.range 8).flatMap (fun j => natBytes 8 (tgetD 0 (child j) s.sec.tctr))) ++ ((List.range 8).flatMap (fun j => natBytes 8 (tgetD 0 (child j) s.sec.tmac)))

/-- The MAC of a node's bytes under a counter. -/
def State.nodeMac (s : State) (lvl lpn ctr : Nat) (bs : List Byte) : Nat :=
  leNat (tag64 (s.sec.treeKey.getD []) (treeNonce ctr (lpn / 8 ^ lvl * 8 ^ lvl) lvl) bs)

/-- A node's bytes pass against its parent (R289). `d`: how they differ from what was written. -/
def State.nodePasses (s : State) (lvl lpn : Nat) (d : List (Nat × Byte)) : Bool :=
  if d = [] then true
  else
    let bs := flip (s.nodeBytes lvl lpn) d
    let c := tgetD 0 (treeIx lvl lpn) s.sec.tctr
    if c = 0 then bs.all (· == 0) else s.nodeMac lvl lpn c bs == tgetD 0 (treeIx lvl lpn) s.sec.tmac

/-- Bytes of a node that passed stand in media: what they hold is what the node holds. -/
def State.takeNode (s : State) (lvl lpn : Nat) (bs : List Byte) : State :=
  let w := fun (i : Nat) => leNat ((bs.drop (8 * i)).take 8)
  match lvl with
  | 0 => { s with pg := { s.pg with ctrs := (List.range 8).foldl (fun t k => tputD 0 (8 * lpn + k) (w k) t) s.pg.ctrs } }
  | l + 1 =>
    let child := fun (j : Nat) => 2 ^ 33 * l + 8 * (lpn / 8 ^ (l + 1)) + j
    { s with sec := { s.sec with tctr := (List.range 8).foldl (fun t j => tputD 0 (child j) (w j) t) s.sec.tctr
                                 tmac := (List.range 8).foldl (fun t j => tputD 0 (child j) (w (8 + j)) t) s.sec.tmac } }

/-- The line address of a node's copy (R287, R288): in its node unit up to level 3, else in the fixed tree area. -/
def State.nodeLa (s : State) (lvl lpn : Nat) (copyB : Bool) : Option Nat :=
  let at' := fun (ma off : Nat) => 4 * s.maOf (s.chanOf ma) (s.localOf ma + off / 256) + off % 256 / 64
  if lvl ≤ 3 then
    (tget (nodeKey 3 lpn) s.pg.nodes).map (fun n => at' (if copyB then n.b else n.a) (match lvl with
      | 0 => 0x4000 + 64 * (lpn % 512)
      | 1 => 0xC000 + 128 * (lpn / 8 % 64)
      | 2 => 0xE000 + 128 * (lpn / 64 % 8)
      | _ => 0xE400))
  else
    ((tget 18 s.pg.areas).bind (fun a => a.places[if copyB then 1 else 0]?)).map (fun ma => at' ma (128 * (lpn / 8 ^ lvl) + (match lvl with
      | 4 => 0 | 5 => 0x10000000 | 6 => 0x12000000 | 7 => 0x12400000 | _ => 0x12480000)))

/-- Write a copy of a node. -/
def State.writeNode (s : State) (lvl lpn : Nat) (copyB : Bool) : State :=
  match s.nodeLa lvl lpn copyB with
  | some la => s.writeCopy la (if lvl = 0 then 1 else 2)
  | none => s

/-- A keeper evicts a node (R290): a clean one goes silently; of a dirty one the parent's keeper gets the bytes on CFG, raises CTR, computes MAC and keeps the
parent dirty (a root is on chip), and both media copies are written. -/
def State.evictNode (s : State) (lvl lpn : Nat) : State :=
  let ix := treeIx lvl lpn
  match tget ix s.sec.tcache with
  | none => s
  | some false => { s with sec := { s.sec with tcache := tdel ix s.sec.tcache } }
  | some true =>
    let c := (tgetD 0 ix s.sec.tctr + 1) % 2 ^ 64
    let mac := s.nodeMac lvl lpn c (s.nodeBytes lvl lpn)
    let s : State := { s with sec := { s.sec with tctr := tputD 0 ix c s.sec.tctr, tmac := tputD 0 ix mac s.sec.tmac, tcache := tdel ix s.sec.tcache } }
    let s := if lvl < 8 then s.treeDirty (lvl + 1) lpn else s
    ((s.emit (.event 0x0501 (s.home (lpn / 8 ^ (lvl + 1) * 8 ^ (lvl + 1))) ix)).writeNode lvl lpn false).writeNode lvl lpn true

/-- Every node that the metadata caches of some slices hold is written back and leaves them, the leaves first. -/
def State.flushTree (s : State) (mine : Nat → Bool) : State :=
  (List.range 9).foldl (fun (s : State) l =>
    (s.sec.tcache.filter (fun x => decide (x.1 / 2 ^ 33 = l) && mine (s.home (x.1 % 2 ^ 33 * 8 ^ l)))).foldl
      (fun (s : State) x => s.evictNode l (x.1 % 2 ^ 33 * 8 ^ l)) s) s

/-- The tree holds nothing (R288). -/
def State.clearTree (s : State) : State := { s with sec := { s.sec with tctr := [], tmac := [], tcache := [] } }

/-- The nodes within a node unit are gone with it: their parent knows none written, as a fresh unit of zeros needs (R130, R289; DESIGN CHOICE, log 113). -/
def State.dropUnit (s : State) (lpn : Nat) : State :=
  let mine := fun (ix : Nat) => decide (ix / 2 ^ 33 ≤ 3 ∧ ix % 2 ^ 33 / 8 ^ (3 - ix / 2 ^ 33) = lpn / 512)
  ({ s with sec := { s.sec with tctr := s.sec.tctr.filter (fun x => !mine x.1), tmac := s.sec.tmac.filter (fun x => !mine x.1)
                                tcache := s.sec.tcache.filter (fun x => !mine x.1) } } : State).treeDirty 4 lpn

end Sys2Proof.Machine
end

