-- ==== Sys2Proof/Machine/Access.lean ====
section
/-!
DEFINITION. Masters, access tables and debug (19_access_control.md): the range classes, the decision, the denials, the
`acc` and `debug` commands.
-/
namespace Sys2Proof.Machine
open Sys2Proof

/-- What a master does at a target (R521): 0 read, 1 write, 2 fetch. -/
abbrev opR : Nat := 0
abbrev opW : Nat := 1
abbrev opX : Nat := 2

/-- The master IDs of R42. -/
abbrev mDbg : Nat := 0x0F
abbrev mMig : Nat := 0x11
def mJob (j : Nat) : Nat := 0x0A + j
def mCvn (p : Nat) : Nat := 0x08 + p
def mEng (n : Nat) : Nat := 0x13 + n

/-- The first LPN of the device window (R29). -/
abbrev devWindow : Nat := 0x1FFF00000

/-- Number of LPNs (R28). -/
abbrev lpnEnd : Nat := 0x200000000

/-- An LPN lies in an enabled Answerable range (R295). -/
def State.answerable (s : State) (lpn : Nat) : Bool :=
  (List.range 8).any (fun k => s.isSet .SEC_ANS_BASE_EN k &&
    decide (s.get .SEC_ANS_BASE_LPN k ≤ lpn ∧ lpn < s.get .SEC_ANS_LIMIT_LPN k))

/-- The range class of an address at a target (R520). Offsets 0x000–0xFFF of the key store hold key material; the
Saddlebag's shut offsets are those of R494. -/
def State.rangeClass (s : State) (t addr : Nat) : Nat :=
  let free := match (List.range 16).find? (fun e => s.isSet .ACC_RNG_BASE_EN t e &&
      decide (s.get .ACC_RNG_BASE_ADDR t e ≤ addr ∧ addr < s.get .ACC_RNG_LIMIT_ADDR t e)) with
    | some e => s.get .ACC_RNG_BASE_CLASS t e
    | none => 0
  if t < 16 then
    if devWindow ≤ addr then (if Config.shutLpn addr then 14 else 13)
    else if s.answerable addr then free else 15
  else if t = 34 then (if addr < 0x1000 then 14 else free)
  else if t = 35 then (if (0x3000 ≤ addr ∧ addr < 0x7000) ∨ (0x18000 ≤ addr ∧ addr < 0x28000) then 14 else free)
  else free

/-- A DMA-type master or DBG (R42). -/
def dmaLike (m : Nat) : Bool := decide ((0x08 ≤ m ∧ m ≤ 0x0D) ∨ m = 0x0F ∨ m = 0x11)

/-- The decision of R521; `exc`: excepted under R522. -/
def State.decideAccess (s : State) (t m k op : Nat) (exc : Bool) : Bool :=
  if k = 14 then false
  else if k = 15 ∧ dmaLike m ∧ ¬ exc then false
  else if m = mDbg ∧ (s.get .ACC_DBG_LEVEL = 0 ∨ (op = opW ∧ s.get .ACC_DBG_LEVEL = 1) ∨ op = opX) then false
  else bit (s.get .ACC_TBL_RC t m) (3 * k + op)

/-- Record a denial (R524, R533): the counts, and the message with the target as instance. -/
def State.deny (s : State) (t m sub addr : Nat) (k : Mirror) : State :=
  let s := ((s.bump .ACC_STS_DENIALS 0xFFFFFFFF).put .ACC_STS_LAST_TGT t).put .ACC_STS_LAST_MST m
  s.reportTo (if sub = 0 then msg1 bAcc t 0 addr else msg2 bAcc t sub addr) k

/-- Judge an access (R520–R524): the state after it, and whether it may act. -/
def State.access (s : State) (t m addr op : Nat) (exc : Bool) (k : Mirror) : State × Bool :=
  let c := s.rangeClass t addr
  if s.decideAccess t m c op exc then (s, true)
  else (s.deny t m (if c = 14 then 2 else if c = 15 ∧ dmaLike m ∧ ¬ exc then 1 else 0) addr k, false)

/-- The memory port that judges an LPN: the page's home slice. -/
def State.memAccess (s : State) (m lpn op : Nat) (exc : Bool) (k : Mirror) : State × Bool :=
  s.access (s.home lpn) m lpn op exc k

/-- An access of a command that the tables deny ends it with ST_FAULTED; DETAIL is the SEQ of the record (R88, R524). -/
def deniedAns (s : State) (seq : Nat) : Ans := { st := s, status := stFaulted, detail := seq % 2 ^ 32 }

/-- An access of the engine that serves a command to the key store's command interface, which is RC0 (R526, R527). -/
def State.keyPort (s : State) (q : Req) (op : Nat) (body : State → Ans) : Ans :=
  if s.decideAccess 34 (mEng q.engine.val) 0 op false then body s
  else deniedAns (s.deny 34 (mEng q.engine.val) 0 0x1000 .std) (s.get .FLT_SEQ_NEXT)

/-- An access of the engine that serves a command to flash bytes (R519, R524). -/
def State.flashPort (s : State) (q : Req) (op off : Nat) (body : State → Ans) : Ans :=
  match s.access 36 (mEng q.engine.val) off op false .std with
  | (s, true) => body s
  | (t, false) => deniedAns t (s.get .FLT_SEQ_NEXT)

/-! ### Commands (R531, R532) -/

/-- ACC_QUERY (R531). -/
def execAccQuery (q : Req) (s : State) : Res :=
  let t := par q 0x10 1
  let m := par q 0x11 1
  serve { op := 0x1100, priv := 0, mctp := true, output := true, fields := [fld 0x10 2] } q
    (firstBad [(0x10, decide (t ≤ 36)), (0x11, decide (m ≤ 0x42))]) (fun s =>
      okOut s (s.word .ACC_TBL_RC t m) 272
        ((List.range 16).flatMap (fun e => [(16 * e, 8, s.word .ACC_RNG_BASE_ADDR t e), (16 * e + 8, 8, s.word .ACC_RNG_LIMIT_ADDR t e)])
          ++ [(0x100, 8, s.word .ACC_STS_DENIALS), (0x108, 8, s.word .ACC_DBG_LEVEL)])) s

/-- The fields of `acc.set_table` by kind. -/
def accFields (kind : Nat) : List (Nat × Nat × Nat) :=
  if kind = 0 then [fld 0x10 3, fld 0x18 6] else [fld 0x10 3, fbits 0x13 0 5, fld 0x18 8, fld 0x20 8]

/-- The targets a target code names. -/
def accTargets (t : Nat) : List Nat := if t = 0xFE then List.range 16 else [t]

/-- The checks of R532 on `acc.set_table`. -/
def accBad (q : Req) : Option Nat :=
  let t := par q 0x10 1
  let kind := par q 0x11 1
  let port := decide (t < 16 ∨ t = 0xFE)
  let base := par q 0x18 8
  let limit := par q 0x20 8
  firstBad [
    (0x10, decide (t ≤ 36 ∨ t = 0xFE)), (0x11, decide (kind ≤ 1)),
    (0x12, decide (kind ≠ 0 ∨ par q 0x12 1 ≤ 0x42 ∨ par q 0x12 1 = 0xFF)),
    (0x18, decide (kind ≠ 0 ∨ par q 0x18 6 < 2 ^ (if port then 39 else 42))),
    (0x12, decide (kind ≠ 1 ∨ par q 0x12 1 < 16)),
    (0x13, decide (kind ≠ 1 ∨ parBits q 0x13 0 4 ≤ (if port then 12 else 13))),
    (0x18, decide (kind ≠ 1 ∨ ((parBit q 0x13 4 = false ∨ base < limit) ∧ base < 2 ^ 48))),
    (0x20, decide (kind ≠ 1 ∨ limit < 2 ^ 48))]

/-- ACC_SET_TABLE (R525, R531, R532). -/
def execAccSetTable (q : Req) (s : State) : Res :=
  let kind := par q 0x11 1
  serve { op := 0x1101, priv := 2, mctp := true, fields := accFields kind } q (accBad q) (fun s =>
    if s.isSet .ACC_LOCK_LOCK then busy s
    else
      let ts := accTargets (par q 0x10 1)
      let e := par q 0x12 1
      if kind = 0 then
        let ms := if e = 0xFF then List.range 0x43 else [e]
        ok (ts.foldl (fun s t => ms.foldl (fun s m => s.put .ACC_TBL_RC (par q 0x18 6) t m) s) s)
      else
        ok (ts.foldl (fun s t =>
          (((s.put .ACC_RNG_BASE_ADDR (par q 0x18 8) t e).put .ACC_RNG_BASE_CLASS (parBits q 0x13 0 4) t e).put .ACC_RNG_BASE_EN
            (parBits q 0x13 4 1) t e).put .ACC_RNG_LIMIT_ADDR (par q 0x20 8) t e) s)) s

/-- ACC_LOCK. -/
def execAccLock (q : Req) (s : State) : Res :=
  serve { op := 0x1102, priv := 2, mctp := true } q none (fun s => ok (s.put .ACC_LOCK_LOCK 1)) s

/-! ### Debug (R528, R529) -/

/-- Set the debug level and its remaining seconds; EXTEST is available at level 2. -/
def State.setDebug (s : State) (level secs : Nat) : State :=
  let s := { s with acc := { s.acc with dbgUntil := s.now + secs * 1000000000 } }
  ((s.put .ACC_DBG_LEVEL level).put .ACC_DBG_REMAIN secs).put .ACC_DBG_EXTEST (b2n (decide (level = 2)))

/-- The transport of a caller, as secured sessions are listed: a head's DOE mailbox, or 256 + the MCTP requester. -/
def sessionHolder (o : Origin) : Nat :=
  match o with
  | .mailbox h => h.val
  | .ring h _ => h.val
  | .mctp eid _ _ => 256 + eid.val

/-- The token of R529 for a nonce. -/
def State.tokenOk (s : State) (p : List Byte) (nonce : Nat) : Bool :=
  payNat p 0 2 == 0xDB60 && decide (1 ≤ payNat p 2 1 ∧ payNat p 2 1 ≤ 2) && payNat p 3 1 == 0
    && decide (1 ≤ payNat p 4 4 ∧ payNat p 4 4 ≤ 86400) && payNat p 8 8 == s.get .GLB_DEVID_ID && payNat p 0x10 32 == nonce
    && ecdsaOk s.acc.dbgKey (p.take 0x30) ((p.drop 0x30).take 96)

/-- The nonce of phase 0 that phase 1 may use: of the same session, not older than 60 s. -/
def State.liveNonce (s : State) (session : Nat) : Option Nat :=
  match s.acc.nonce with
  | some (v, sess, t) => if sess = session ∧ s.now - t ≤ 60000000000 then some v else none
  | none => none

/-- A refusal of `debug.unlock` after the checks of R86, with ACC 0x5 (R533). Its instance is the ACC block's target
(DESIGN CHOICE, log 7). -/
def refuseUnlock (s : State) (status detail : Nat) : Ans :=
  { st := s.report (msg1 bAcc 33 5), status := status, detail := detail }

/-- DEBUG_UNLOCK (R529, R531, R532). A refusal spends no nonce (R87). -/
def execDebugUnlock (q : Req) (s : State) : Res :=
  let ph := par q 0x10 1
  let sess := par q 0x14 4
  serve { op := 0x1103, priv := 2, mctp := true, output := true, payload := 144, fields := [fld 0x10 1, fld 0x14 4] } q
    (firstBad [(0x10, decide (ph ≤ 1)), (0x08, decide (q.plen = if ph = 1 then 144 else 0))]) (fun s =>
      if ¬ s.sec.sessions.contains (sessionHolder q.origin, sess) then refuseUnlock s stNoPriv 3
      else if ph = 0 then
        let v := s.draw % 2 ^ 256
        okOut { s.drawn with acc := { s.acc with nonce := some (v, sess, s.now) } } 0 32 [(0, 32, v)]
      else
        let n := s.liveNonce sess
        let s' := { s with acc := { s.acc with nonce := none } }
        match n with
        | some v =>
          if s.tokenOk q.payload v then ok (s'.setDebug (payNat q.payload 2 1) (payNat q.payload 4 4)) (payNat q.payload 2 1)
          else refuseUnlock s stBadParam 0x40
        | none => refuseUnlock s stBadParam 0x40) s

/-- DEBUG_LOCK (R528). -/
def execDebugLock (q : Req) (s : State) : Res :=
  serve { op := 0x1104, priv := 2, mctp := true } q none (fun s => ok (s.setDebug 0 0)) s

/-- DEBUG_DURATION_EXPIRE (R528): the unlock duration ends. -/
def execDebugDurationExpire (s : State) : Res := .next (s.setDebug 0 0)

/-- DEBUG_NONCE_EXPIRE (R529): the nonce of phase 0 is stale. -/
def execDebugNonceExpire (s : State) : Res := .next { s with acc := { s.acc with nonce := none } }

end Sys2Proof.Machine
end

