-- ==== Sys2Proof/Machine/Coh.lean ====
section
/-!
DEFINITION. The state the coherence protocol keeps (05_coherence.md): held lines, the snoop filter, the line cache, head
presence in directory records, back-invalidate snoops, and what a head's departure does to them.
-/
namespace Sys2Proof.Machine
open Sys2Proof

/-! ### Agents and messages (R145, R151) -/

/-- Agent ID of home n. -/
def homeId (n : Nat) : Nat := 0x22 + n

/-- The key of an agent and a line. -/
def agKey (a line : Nat) : Nat := a * 2 ^ 39 + line

/-- Classes (R151, R152): 0 REQ, 1 SNP, 2 RSP, 3 DAT. -/
abbrev cREQ : Nat := 0
abbrev cSNP : Nat := 1
abbrev cRSP : Nat := 2
abbrev cDAT : Nat := 3

/-- A coherence message by the fields of its header (R152). MASTER 0x7F: no originator (R44). -/
structure CohMsg where
  cls : Nat
  code : Nat
  line : Nat
  src : Nat
  dst : Nat
  tid : Nat := 0
  rid : Nat := 0
  nc : Bool := false
  full : Bool := false
  host : Bool := false
  page : Bool := false
  starve : Bool := false
  att : Nat := 0
  mode : Nat := 0
  gs : Nat := 0
  rsn : Nat := 0
  poison : Bool := false
  cl : Nat := 0
  master : Nat := 0x7F
  deriving DecidableEq, Repr

/-- The 128-bit header (R152). -/
def CohMsg.header (m : CohMsg) : BitVec 128 :=
  BitVec.ofNat 128 (m.cls + m.code * 2 ^ 2 + m.line * 2 ^ 6 + m.src * 2 ^ 45 + m.dst * 2 ^ 51 + m.tid * 2 ^ 57 + m.rid * 2 ^ 65 + b2n m.nc * 2 ^ 71
    + b2n m.full * 2 ^ 72 + b2n m.host * 2 ^ 73 + b2n m.page * 2 ^ 74 + b2n m.starve * 2 ^ 75 + m.att * 2 ^ 76 + m.mode * 2 ^ 80 + m.gs * 2 ^ 81
    + m.rsn * 2 ^ 83 + b2n m.poison * 2 ^ 84 + m.cl * 2 ^ 85 + m.master * 2 ^ 89)

/-- A message leaves on its network. -/
def State.say (s : State) (m : CohMsg) (d : Option Line := none) : State := s.emit (.coh m.header d)

/-- The agent ID of a line's home. -/
def State.homeAg (s : State) (line : Nat) : Nat := homeId (s.home (line / 64))

/-- The message in which an agent makes a request (R151, R156). -/
def CohReq.msg (q : CohReq) (dst : Nat) : CohMsg :=
  { cls := cREQ, line := q.line, src := q.agent, dst := dst, tid := q.tid, att := q.att, starve := decide (8 ≤ q.att), cl := q.cls, master := q.master
    code := match q.kind with | .readS | .readSnc | .peek => 0 | .upgrade => 2 | _ => 1
    nc := match q.kind with | .readSnc | .peek => true | _ => false
    full := match q.kind with | .readOFull => true | _ => false
    page := match q.kind with | .page => true | _ => false
    host := decide (q.agent < 8) && q.mv.isSome }

/-- The lowest number that a list leaves free. -/
def freeNum (l : List Nat) : Nat := ((List.range (l.length + 1)).find? (fun n => !l.contains n)).getD 0

def State.coh' (s : State) (f : CohSt → CohSt) : State := { s with coh := f s.coh }

def State.heldAt (s : State) (a line : Nat) : Option Held := tget (agKey a line) s.coh.held

/-- Set what an agent holds of a line; none is state I. -/
def State.hold (s : State) (a line : Nat) (h : Option Held) : State :=
  s.coh' (fun c => { c with held := match h with | some x => tput (agKey a line) x c.held | none => tdel (agKey a line) c.held })

/-- A message of a line's home to a requester (R151): a response or data, with the requester's transaction number. -/
def State.toReq (s : State) (q : CohReq) (cls code gs rsn : Nat) (poison : Bool) (d : Option Line) : State :=
  s.say { cls := cls, code := code, line := q.line, src := s.homeAg q.line, dst := q.agent, tid := q.tid, gs := gs, rsn := rsn, poison := poison
          cl := q.cls, master := q.master } d

/-- The home accepts a write-back (R151). -/
def State.ackWb (s : State) (a line : Nat) : State := s.say { cls := cRSP, code := 0, line := line, src := s.homeAg line, dst := a }

/-! ### Snoop filter (R147, R150) -/

def State.sfOf (s : State) (line : Nat) : Option SfEnt := tget line s.coh.sf

/-- Record a line's holders; no holder is home state HI. `f` is kept only while it is a holder. -/
def State.setSf (s : State) (line st : Nat) (holders : List Nat) (f : Option Nat) : State :=
  let f := f.filter (fun a => holders.contains a)
  let e : SfEnt := { st := if st = 2 ∧ f = none then 1 else st, holders := holders, f := f }
  s.coh' (fun c => { c with sf := if holders = [] then tdel line c.sf else tput line e c.sf })

/-- An agent no longer holds a line, as the home sees it. -/
def State.sfDrop (s : State) (line a : Nat) : State :=
  match s.sfOf line with
  | some e => s.setSf line (if e.st = 3 then 1 else e.st) (lremove a e.holders) e.f
  | none => s

/-! ### Line cache (R146, R181, R186) -/

def State.lcOf (s : State) (line : Nat) : Option LcLine := tget line s.coh.lc

/-- Put a line into the line cache as its latest use. -/
def State.lcPut (s : State) (line : Nat) (l : LcLine) : State :=
  s.coh' (fun c => { c with lc := tput line { l with used := c.tick } c.lc, tick := c.tick + 1 })

def State.lcDel (s : State) (line : Nat) : State := s.coh' (fun c => { c with lc := tdel line c.lc })

/-- A request or a writeback that names a provisional line drops it (R186). -/
def State.dropProv (s : State) (line : Nat) : State :=
  match s.lcOf line with
  | some l => if l.prov then s.lcDel line else s
  | none => s

/-- Dirty data reaches the home: the line is dirty in the line cache. -/
def State.lcDirty (s : State) (line : Nat) (d : Line) (poison : Bool) (cause cls : Nat) : State :=
  s.lcPut line { data := d, dirty := true, poison := poison, cause := cause, cls := cls }

/-- A line becomes poison (R170, R172, R193): the home copy is a dirty poisoned line. A page without media has no line to
poison: Zero reads as zeros until its first write, Poisoned is poison already. -/
def State.poisonLine (s : State) (line cause : Nat) : State :=
  if hasImage (s.tier (line / 64)) then
    let cls := match s.lcOf line with | some l => l.cls | none => 0
    s.lcDirty line 0 true cause cls
  else s

/-! ### Head presence (R166–R173) -/


/-- The mask of heads that a record shows for a line. -/
def hpOf (r : DirRec) (line : Nat) : Nat := tgetD 0 (line % 64) r.hp

def State.setDir (s : State) (lpn : Nat) (r : DirRec) : State :=
  s.coh' (fun c => { c with dir := if r.hp = [] then tdel lpn c.dir else tput lpn r c.dir })

def State.epochOf (s : State) (h : Nat) : Nat := s.get .COH_EPOCH_EPOCH h

/-- Take heads out of the mask of one line of a record. -/
def DirRec.clear (r : DirRec) (k mask : Nat) : DirRec :=
  let m := tgetD 0 k r.hp
  let m' := (List.range 8).foldl (fun a h => if bit m h ∧ ¬ bit mask h then a + 2 ^ h else a) 0
  { r with hp := tputD 0 k m' r.hp, excl := if m' = m then r.excl else lremove k r.excl }

/-- The heads whose bits in a record are of an old epoch (R172), as a mask. -/
def State.staleHeads (s : State) (r : DirRec) : Nat :=
  (List.range 8).foldl (fun a h => if tgetD 0 h r.epoch ≠ s.epochOf h then a + 2 ^ h else a) 0

/-- A home reads a record (R172): the bits of departed heads clear, and each line that such a head held exclusively is
poison. -/
def State.dirFix (s : State) (lpn : Nat) : State :=
  match tget lpn s.coh.dir with
  | none => s
  | some r =>
    let old := s.staleHeads r
    if old = 0 then s
    else
      let lost := r.excl.filter (fun k => (List.range 8).any (fun h => bit old h && bit (tgetD 0 k r.hp) h))
      let s := lost.foldl (fun s k => s.poisonLine (64 * lpn + k) 3) s
      s.setDir lpn ((r.hp.map (·.1)).foldl (fun r k => r.clear k old) r)

/-- The heads present in a line, as a mask, and whether one holds it exclusively. -/
def State.presence (s : State) (line : Nat) : Nat × Bool :=
  match tget (line / 64) s.coh.dir with
  | some r => (hpOf r line, r.excl.contains (line % 64))
  | none => (0, false)

def State.present (s : State) (line h : Nat) : Bool := bit (s.presence line).1 h

/-- Set of a page's record at its home (R167). -/
def State.dirSet (s : State) (lpn : Nat) : Nat :=
  let k := s.get .COH_DIR_CFG_SETLOG2 (s.home lpn)
  (lpn ^^^ (lpn / 2 ^ k)) % 2 ^ k

/-- Write the presence of a line: the mask and the exclusive bit (R168), under the heads' present epochs. -/
def State.setPresence (s : State) (line mask : Nat) (excl : Bool) : State :=
  let lpn := line / 64
  let r := tgetD {} lpn s.coh.dir
  let r := { r with
    hp := tputD 0 (line % 64) mask r.hp
    excl := lset (line % 64) (excl && decide (mask ≠ 0)) r.excl
    epoch := (List.range 8).foldl (fun t h => if bit mask h then tputD 0 h (s.epochOf h) t else t) r.epoch }
  s.setDir lpn r

/-- One head leaves a line's presence. -/
def State.clearPresence (s : State) (line h : Nat) : State :=
  match tget (line / 64) s.coh.dir with
  | some r => s.setDir (line / 64) (r.clear (line % 64) (2 ^ h))
  | none => s

/-! ### Back-invalidate snoops (R169, R170) -/

/-- Send a BISnp to a head, or keep it until fewer than BI_MAX are outstanding. -/
def State.biSend (s : State) (h line kind : Nat) : State :=
  if s.coh.bi.any (fun b => b.1 == h && b.2.1 == line) then s
  else if (s.coh.bi.filter (fun b => b.1 == h)).length < s.get .COH_BI_CFG_BI_MAX then
    (s.coh' (fun c => { c with bi := c.bi ++ [(h, line, kind)] })).emit (.biSnp h line kind)
  else s.coh' (fun c => { c with biWait := c.biWait ++ [(h, line, kind)] })

/-- A BISnp of a head has ended: the next one that waits for the head goes out. -/
def State.biNext (s : State) (h : Nat) : State :=
  match s.coh.biWait.find? (fun b => b.1 == h) with
  | some b => (s.coh' (fun c => { c with biWait := c.biWait.erase b })).biSend b.1 b.2.1 b.2.2
  | none => s

/-- The records of a home's set, fewest present heads first: the one to evict when the set is full (R167); of several with as few, the lowest LPN (DESIGN
CHOICE, log 117). -/
def State.dirVictim (s : State) (lpn : Nat) : Option Nat :=
  let mine := s.coh.dir.filter (fun p => p.1 != lpn && s.home p.1 == s.home lpn && s.dirSet p.1 == s.dirSet lpn)
  let size := fun (r : DirRec) => r.hp.foldl (fun a p => a + ((List.range 8).filter (fun h => bit p.2 h)).length) 0
  if mine.length < 8 then none
  else (mine.foldl (fun (b : Option (Nat × Nat)) p => match b with
    | none => some (p.1, size p.2)
    | some (k, n) => if size p.2 < n then some (p.1, size p.2) else some (k, n)) none).map (·.1)

/-- Every (head, line) of a record. -/
def recPairs (lpn : Nat) (r : DirRec) : List (Nat × Nat) :=
  r.hp.flatMap (fun p => ((List.range 8).filter (fun h => bit p.2 h)).map (fun h => (h, 64 * lpn + p.1)))

/-- A new record needs a set that is full: the record with the fewest bits is recalled first (R167). Answers the recalls
the request waits for. -/
def State.dirRoom (s : State) (lpn : Nat) : State × List (Nat × Nat) :=
  if (tget lpn s.coh.dir).isSome then (s, [])
  else
    match s.dirVictim lpn with
    | none => (s, [])
    | some v =>
      let l := recPairs v (tgetD {} v s.coh.dir)
      let s := l.foldl (fun (s : State) (p : Nat × Nat) => s.biSend p.1 p.2 0) s
      (l.foldl (fun (s : State) (p : Nat × Nat) => s.bump .COH_BI_CNT_DIR_RECALLS 0xFFFF p.1) s, l)

/-! ### Dropping a page's copies (R302) and departing (R172, R173) -/

/-- Every internal copy of a page goes, dirty or not, and every head present in its record is recalled. -/
def State.dropCopies (s : State) (lpn : Nat) : State :=
  let s := match tget lpn s.coh.dir with
    | some r => (recPairs lpn r).foldl (fun (s : State) (p : Nat × Nat) => s.biSend p.1 p.2 0) s
    | none => s
  s.coh' (fun c => { c with
    dir := tdel lpn c.dir
    held := c.held.filter (fun p => decide (p.1 % 2 ^ 39 / 64 ≠ lpn))
    sf := c.sf.filter (fun p => decide (p.1 / 64 ≠ lpn))
    lc := c.lc.filter (fun p => decide (p.1 / 64 ≠ lpn))
    spec := c.spec.map (fun (x : SpecRd) => if x.line / 64 = lpn then { x with spoilt := true } else x) })

/-- Media of a page is written, moved or re-keyed: speculative reads of it are spoilt (R185). -/
def State.spoil (s : State) (lpn : Nat) : State :=
  s.coh' (fun c => { c with spec := c.spec.map (fun (x : SpecRd) => if x.line / 64 = lpn then { x with spoilt := true } else x) })

/-- A key slot, or a frit, is loaded, replaced or zeroised (R185). -/
def State.spoilIf (s : State) (p : Place → Bool) : State :=
  s.coh' (fun c => { c with spec := c.spec.map (fun (x : SpecRd) => if p x.pl then { x with spoilt := true } else x) })

/-- The oldest epoch of a head that some record still carries unswept: SWEEP_WAIT holds the head in Detect (R172). -/
def State.sweepWait (s : State) (h : Nat) : State :=
  let e := s.epochOf h
  let o := tgetD 0 h s.coh.swept
  s.put .COH_EPOCH_SWEEP_WAIT (b2n (decide (32768 ≤ (e + 65536 - o) % 65536))) h

/-- A record whose recalls are all answered has been rebuilt (R171). -/
def State.dirBuilt (s : State) : State :=
  if s.coh.rebuild = [] then s
  else s.coh' (fun c => { c with rebuild := c.rebuild.filter (fun p => (c.bi ++ c.biWait).any (fun b => b.2.1 / 64 == p)) })

/-- The presence of a head is gone (R170, R172): its epoch rises, its outstanding snoops count as answered with no copy.
Answers the lines whose snoop was outstanding. -/
def State.losePresence (s : State) (h : Nat) : State × List Nat :=
  let lines := (s.coh.bi.filter (fun b => b.1 == h)).map (fun b => b.2.1)
  let s := (s.put .COH_EPOCH_EPOCH ((s.epochOf h + 1) % 65536) h).sweepWait h
  ((s.coh' (fun c => { c with
    bi := c.bi.filter (fun b => b.1 != h)
    biWait := c.biWait.filter (fun b => b.1 != h) })).dirBuilt, lines)

/-- A head's port agent drops its port-cache partition; its write buffer completes what it holds (R173). -/
def State.dropPort (s : State) (h : Nat) : State :=
  s.coh' (fun c => { c with held := c.held.filter (fun p => decide (p.1 / 2 ^ 39 ≠ h ∨ p.2.st = 4)) })

end Sys2Proof.Machine
end

