-- ==== Sys2Proof/Machine/Xlt.lean ====
section
/-!
DEFINITION. Stage 1 (04_translation.md): the walk over a segment table, rights and marks, the translation caches, their
flushes and faults, and the commands about contexts that touch no media.
-/
namespace Sys2Proof.Machine
open Sys2Proof

/-! ### Windows (R106, R107) -/

/-- Follow the windows from `pos`: how far they cover without a gap, in n looks. -/
def State.coverFrom (s : State) (tc pos : Nat) : Nat → Nat
  | 0 => pos
  | n + 1 =>
    match (List.range 4).find? (fun w => decide (s.get .XLT_WIN_BASE_LPN tc w ≤ pos ∧ pos < s.get .XLT_WIN_LIMIT_LPN tc w)) with
    | some w => s.coverFrom tc (s.get .XLT_WIN_LIMIT_LPN tc w) n
    | none => pos

/-- Every page of [lpn, lpn + n) lies in a window of a context. -/
def State.windowed (s : State) (tc lpn n : Nat) : Bool := decide (lpn + n ≤ s.coverFrom tc lpn 4) || decide (n = 0)

/-- A Tenant names pages outside its context's windows (R144, R263, R310). -/
def State.lpnDeny (s : State) (q : Req) (lpn n : Nat) : Option (Nat × Nat) :=
  if s.priv q.origin = 1 ∧ ¬ s.windowed q.tc.val lpn n then some (stNoPriv, 3) else none

/-! ### The walk (R110–R115) -/

/-- An access that stage 1 translates: the holder of its cached translations, context, tenant address, write, fetch, an
engine in supervisor mode without an active tenant job context, master, the binding's KIND for a head, the level of
a table read that meets an uncorrectable error (4: the read of a mark update), and an exception of R522. -/
structure XlAcc where
  holder : Nat
  tc : Nat
  ta : Nat
  write : Bool := false
  fetch : Bool := false
  guarded : Bool := false
  master : Nat
  kind : Option Bool := none
  tblBad : Option Nat := none
  exc : Bool := false
  /-- The root its walk began from, where a recall has interrupted it (R138). -/
  root : Option Nat := none
  deriving DecidableEq, Repr

/-- What stage 1 answers: the leaf (entry, level, LPN of the page, address of the entry in units of 8 bytes); a fault (kind,
level, found by a mark update, entry last read); or a line whose copies must come home first: its dirty copy for a table read, every copy for a mark
update (`all`). -/
inductive Xl where
  | leaf (val lvl lpn addr : Nat)
  | fault (kind lvl : Nat) (mark : Bool) (val : Nat)
  | wait (line : Nat) (all : Bool)
  deriving DecidableEq, Repr

/-- Address bits a level leaves to the levels below it. -/
def lvlShift (lvl : Nat) : Nat := 12 + 9 * (3 - lvl)

/-- Pages a leaf of a level covers. -/
def lvlPages (lvl : Nat) : Nat := 2 ^ (9 * (3 - lvl))

def entV (e : Nat) : Bool := bit e 0
def entT (e : Nat) : Bool := bit e 1
def entLpn (e : Nat) : Nat := bits e 20 33
def entS (e : Nat) : Bool := bit e 8
def entQ (e : Nat) : Bool := bit e 9
def entObj (e : Nat) : Nat := bits e 10 3
def entCl (e : Nat) : Nat := bits e 13 4

/-- An entry with bits A and D excluded (R117). -/
def noMarks (e : Nat) : Nat := e - bits e 6 2 * 64

/-- The page's key slot is EMPTY (R272), or the page is unverifiable (R300): its data reads as poison. -/
def State.unverif (s : State) (lpn : Nat) : Bool :=
  s.sec.unver.any (fun n => decide (n.2 ≤ lpn ∧ lpn < n.2 + 8 ^ n.1)) && !s.sec.rebased.contains lpn

/-- The home copy of a line of a page with media, where no media read errs: the line-cache line, else what media holds;
none is poison. -/
def State.homeCopy (s : State) (line : Nat) : Option Line :=
  match s.lcOf line with
  | some l => if l.prov then (if s.pg.poison.contains line then none else some (tgetD 0 line s.pg.mem))
      else if l.poison then none else some l.data
  | none =>
    if s.pg.poison.contains line ∨ s.unverif (line / 64) ∨ ¬ s.slotActive (s.page (line / 64)).pl.ks then none
    else some (tgetD 0 line s.pg.mem)

/-- Mark a placement entry at an access (R128); pages in Zero and Poisoned take no mark. -/
def State.markPage (s : State) (lpn : Nat) (write : Bool) (obj : Nat) (sh : Bool) : State :=
  let p := s.page lpn
  if hasImage p.pl.tier then
    s.putPage lpn { p with pl := { p.pl with a := true, d := p.pl.d || write, obj := obj, sh := p.pl.sh || sh } }
  else s

/-- EXTRA of a translation fault. -/
def xlExtra (stage lvl : Nat) (wr fetch : Bool) (tc master : Nat) : Nat :=
  stage + lvl * 4 + b2n wr * 16 + b2n fetch * 32 + tc * 64 + master * 2 ^ 14

/-- Report a stage-2 fault of a page from its home. -/
def State.s2Report (s : State) (lpn kind lvl : Nat) (wr : Bool) (master : Nat) : State :=
  s.report (msg2 bSlc (s.home lpn) 8 (lpn * 4096) (xlExtra 2 lvl wr false 0 master) kind)

/-- A line of a table can be read at its home: no transaction of it is open, no head holds it exclusively, and no agent in E or M (R120, R148). -/
def State.lineHome (s : State) (line : Nat) : Bool :=
  (tget line s.coh.trk).isNone && !(s.presence line).2 && (match s.sfOf line with | some e => e.st != 3 | none => true)

/-- No copy of a line is anywhere but at its home. -/
def State.lineAlone (s : State) (line : Nat) : Bool :=
  (tget line s.coh.trk).isNone && (s.presence line).1 == 0 && (s.sfOf line).isNone

/-- The walker reads a table entry at its home (R112, R113, R120), as a read of its master (R44): its value, or a fault kind, or none where the home must
recall the line first. A read that the access table denies returns poison (R524). A walker's read keeps the page's OBJ. -/
def State.tableRead (s : State) (a : XlAcc) (lpn idx : Nat) (bad : Bool) : State × Except Nat (Option Nat) :=
  let line := 64 * lpn + idx / 8
  let s := s.dirFix lpn
  match s.memAccess a.master lpn opR a.exc .std with
  | (s, false) => (s, .error 0x0A)
  | (s, true) =>
    match s.s2Fault lpn with
    | some (k, l) => (s.s2Report lpn k l false a.master, .error 0x0A)
    | none =>
      if s.tier lpn ≠ 5 then (s, .error 0x09)
      else if ¬ s.lineHome line then (s, .ok none)
      else
        let s := s.markPage lpn false (s.page lpn).pl.obj false
        if bad then (s, .error 0x0A)
        else match s.homeCopy line with
          | some d => (s, .ok (some (bits d.toNat (64 * (idx % 8)) 64)))
          | none => (s, .error 0x0A)

/-- The LPN checks of a pointer, or of a leaf's range (R107, R112): the fault kind. -/
def State.lpnFault (s : State) (tc lpn n : Nat) : Option Nat :=
  if ¬ s.windowed tc lpn n then some 0x07 else if devWindow < lpn + n then some 0x08 else none

/-- The rights of a leaf, the supervisor guard, then S against KIND (R64, R114, R115): the fault kind. -/
def rightsFault (a : XlAcc) (e : Nat) : Option Nat :=
  if ¬ (if a.fetch then bit e 4 else if a.write then bit e 3 else bit e 2) then some 0x0B
  else if a.guarded ∧ bit e 5 then some 0x0C
  else match a.kind with
    | some k => if entS e = k then none else some 0x0D
    | none => none

/-- Walk from the table t of a level, to which the entry `last` points. `fill`: the entries the walk read, innermost first, fill the holder's caches when
it ends in a leaf (R133). -/
def State.walkFrom (s : State) (a : XlAcc) (rights : Bool) (t lvl last : Nat) (read : List TlbEnt) : Nat → State × Xl × List TlbEnt
  | 0 => (s, .fault 0x06 3 false 0, [])
  | fuel + 1 =>
    let idx := a.ta / 2 ^ lvlShift lvl % 512
    match s.tableRead a t idx (decide (a.tblBad = some lvl)) with
    | (s, .error k) => (s, .fault k (if k = 0x09 then lvl - 1 else lvl) false last, [])
    | (s, .ok none) => (s, .wait (64 * t + idx / 8) false, [])
    | (s, .ok (some e)) =>
      let ent : TlbEnt :=
        { holder := a.holder, tc := a.tc, lvl := lvl, tag := a.ta / 2 ^ lvlShift lvl, val := e, addr := 512 * t + idx, at' := s.now }
      if ¬ entV e then (s, .fault 0x05 lvl false e, [])
      else if entT e then
        if lvl = 3 then (s, .fault 0x06 3 false e, [])
        else match s.lpnFault a.tc (entLpn e) 1 with
          | some k => (s, .fault k lvl false e, [])
          | none => s.walkFrom a rights (entLpn e) (lvl + 1) e (ent :: read) fuel
      else if lvl = 0 ∨ entLpn e % lvlPages lvl ≠ 0 ∨ bits e 17 3 ≠ 0 then (s, .fault 0x06 lvl false e, [])
      else match s.lpnFault a.tc (entLpn e) (lvlPages lvl) with
        | some k => (s, .fault k lvl false e, [])
        | none =>
          match (if rights then rightsFault a e else none) with
          | some k => (s, .fault k lvl false e, [])
          | none => (s, .leaf e lvl (entLpn e + a.ta / 4096 % lvlPages lvl) (512 * t + idx), ent :: read)

/-- A fresh walk from the root (R113). -/
def State.walk (s : State) (a : XlAcc) (rights : Bool) : State × Xl × List TlbEnt :=
  match a.root with
  | some r => s.walkFrom a rights r 0 0 [] 4
  | none =>
  if ¬ s.isSet .XLT_CTX_CFG_EN a.tc ∨ ¬ s.isSet .XLT_CTX_CFG_ROOTV a.tc then (s, .fault 0x04 0 false 0, [])
  else s.walkFrom a rights (s.get .XLT_CTX_CFG_ROOT a.tc) 0 0 [] 4

/-! ### Translation caches and marks (R117, R118, R132–R137) -/

/-- The lifetime of a cached entry in ns (R133). -/
abbrev tlbLife : Nat := 1024000

def State.setTlb (s : State) (l : List TlbEnt) : State := { s with xlt := { s.xlt with tlb := l } }

/-- A usable cached entry of a holder at a level: a leaf, or a pointer. -/
def State.tlbFind (s : State) (a : XlAcc) (lvl : Nat) (ptr : Bool) : Option TlbEnt :=
  s.xlt.tlb.find? (fun e => e.holder == a.holder && e.tc == a.tc && e.lvl == lvl && e.tag == a.ta / 2 ^ lvlShift lvl
    && entT e.val == ptr && decide (s.now - e.at' ≤ tlbLife))

/-- Two cached entries for the same thing. -/
def sameEnt (x y : TlbEnt) : Bool := x.holder == y.holder && x.tc == y.tc && x.lvl == y.lvl && x.tag == y.tag

/-- Two entries compete for a place: leaves of one holder and one set of 8 ways, or pointers of one holder (R132). Which set an entry falls in is not
given (DESIGN CHOICE, log 114). -/
def sameSet (x y : TlbEnt) : Bool :=
  x.holder == y.holder && entT x.val == entT y.val &&
    (entT x.val || Config.tlbSet x.tc x.lvl x.tag % (if x.holder < 8 then 512 else 64) == Config.tlbSet y.tc y.lvl y.tag % (if y.holder < 8 then 512 else 64))

/-- Entries, newest first, each while its place is not taken by newer ones. -/
def tlbFit (s : State) : List TlbEnt → List TlbEnt → List TlbEnt
  | _, [] => []
  | seen, e :: l =>
    let way := if s.isOff bXlt e.holder (if entT e.val then 2 else 1) then 7 else 8
    let room := if entT e.val then (if e.holder < 8 then 64 else 8) * way else way
    if seen.length < 7 || decide ((seen.filter (sameSet e)).length < room) then e :: tlbFit s (seen ++ [e]) l else tlbFit s seen l

/-- Fill entries, each in place of an earlier one of the same kind, or of the oldest that has to go (R132, R133). -/
def State.tlbFill (s : State) (l : List TlbEnt) : State :=
  s.setTlb (tlbFit s [] (l ++ s.xlt.tlb.filter (fun x => !l.any (sameEnt x))))

/-- Walk from the deepest cached pointer, or from the root, and fill the caches. -/
def State.walkCached (s : State) (a : XlAcc) : State × Xl :=
  let p := if a.root.isSome then none else match s.tlbFind a 2 true with
    | some e => some e
    | none => match s.tlbFind a 1 true with
      | some e => some e
      | none => s.tlbFind a 0 true
  let (s, r, l) := match p with
    | some e => s.walkFrom a true (entLpn e.val) (e.lvl + 1) e.val [] 4
    | none => s.walk a true
  (s.tlbFill l, r)

/-- Write a 64-bit word of a line. -/
def setWord (d : Line) (k v : Nat) : Line :=
  BitVec.ofNat 512 (d.toNat - bits d.toNat (64 * k) 64 * 2 ^ (64 * k) + v % 2 ^ 64 * 2 ^ (64 * k))

/-- Bits of a mark that an access needs: A, or A and D (R117). -/
def needMarks (a : XlAcc) : Nat := if a.write then 0xC0 else 0x40

/-- The outcome of a mark update: done, changed entry, poison, or a recall to wait for. -/
inductive MarkOut where
  | done | changed | poison | wait
  deriving DecidableEq, Repr

/-- The compare-and-swap of R117 at the home of the table page (R118, R120, R148): a line that has any other copy, or an open transaction, is taken home
first. `bad`: the line's read meets an uncorrectable error. -/
def State.markCas (s : State) (addr val need : Nat) (bad : Bool) : State × MarkOut :=
  let line := addr / 8
  let s := s.dirFix (line / 64)
  if ¬ s.lineAlone line then (s, .wait)
  else if bad then (s, .poison)
  else match s.homeCopy line with
    | none => (s, .poison)
    | some d =>
      let cur := bits d.toNat (64 * (addr % 8)) 64
      if noMarks cur ≠ noMarks val then (s, .changed)
      else
        let s := s.lcDirty line (setWord d (addr % 8) (cur ||| need)) false 0 0
        (s.markPage (line / 64) true (s.page (line / 64)).pl.obj false, .done)

/-- Set the marks an access needs through a leaf (R117, R118): the leaf with its marks, or a fault, a recall to wait for, or
none when the entry has changed. -/
def State.setMarks (s : State) (a : XlAcc) (val lvl lpn addr : Nat) : State × Option Xl :=
  let need := needMarks a
  if val &&& need = need then (s, some (.leaf val lvl lpn addr))
  else
    match s.markCas addr val need (decide (a.tblBad = some 4)) with
    | (s, .done) =>
      let s := s.setTlb (s.xlt.tlb.map (fun e => if e.holder = a.holder ∧ e.addr = addr ∧ e.val = val then { e with val := val ||| need } else e))
      (s, some (.leaf (val ||| need) lvl lpn addr))
    | (s, .poison) => (s, some (.fault 0x0A lvl true val))
    | (s, .wait) => (s, some (.wait (addr / 8) true))
    | (s, .changed) => (s.setTlb (s.xlt.tlb.filter (fun e => !(e.holder == a.holder && e.addr == addr))), none)

/-- Marks after a walk: a second comparison cannot fail in the same step. -/
def State.finishWalk (s : State) (a : XlAcc) (r : Xl) : State × Xl :=
  match r with
  | .leaf val lvl lpn addr =>
    match s.setMarks a val lvl lpn addr with
    | (s, some r) => (s, r)
    | (s, none) => (s, .fault 0x05 lvl true val)
  | r => (s, r)

/-- Translate an access through the holder's caches (R113–R118, R132, R137). -/
def State.xlate (s : State) (a : XlAcc) : State × Xl :=
  let hit := match s.tlbFind a 3 false with
    | some e => some e
    | none => match s.tlbFind a 2 false with
      | some e => some e
      | none => s.tlbFind a 1 false
  match hit with
  | some e =>
    match rightsFault a e.val with
    | some k => (s, .fault k e.lvl false e.val)
    | none =>
      match s.setMarks a e.val e.lvl (entLpn e.val + a.ta / 4096 % lvlPages e.lvl) e.addr with
      | (s, some r) => (s, r)
      | (s, none) => let (s, r) := s.walkCached a; s.finishWalk a r
  | none => let (s, r) := s.walkCached a; s.finishWalk a r

/-- The class label and the objective a request travels with (R109), and the substitutions counted. -/
def State.labels (s : State) (tc e : Nat) : State × Nat × Nat :=
  let c := bit (s.get .XLT_CTX_MASK_CLMASK tc) (entCl e)
  let o := bit (s.get .XLT_CTX_MASK_OBMASK tc) (entObj e)
  let n := b2n (!c) + b2n (!o)
  (if n = 0 then s else s.put .XLT_SUBST_CNT_COUNT (satAdd 0xFFFFFFFF (s.get .XLT_SUBST_CNT_COUNT) n),
    if c then entCl e else s.get .XLT_CTX_MASK_DEFCL tc, if o then entObj e else s.get .XLT_CTX_MASK_DEFOB tc)

/-! ### Faults (R139, R140) -/

/-- Report a stage-1 fault that a holder found. -/
def State.xlFault (s : State) (a : XlAcc) (kind lvl : Nat) (mark : Bool) (k : Mirror) : State :=
  s.reportTo (msg1 bXlt a.holder (if mark then 3 else 0) a.ta (xlExtra 1 lvl a.write a.fetch a.tc a.master) kind) k

/-- A holder prefetches the translation of the page after a miss (R119): a walk that fills only a valid leaf, records nothing and sets no mark. -/
def State.prefetchXl (s : State) (a : XlAcc) : State :=
  if 2 ^ 48 ≤ a.ta + 4096 then s
  else match s.walk { a with ta := a.ta + 4096, tblBad := none } false with
    | (_, .leaf _ _ _ _, l) => s.tlbFill (l.filter (fun e => !entT e.val))
    | _ => s

/-! ### Flushes (R134–R138) -/

/-- Drop every cached entry of a context that covers part of [ta, ta + n pages). -/
def State.flush (s : State) (tc ta n : Nat) : State :=
  s.setTlb (s.xlt.tlb.filter (fun e =>
    !(e.tc == tc && decide (e.tag * 2 ^ lvlShift e.lvl < ta + n * 4096 ∧ ta < (e.tag + 1) * 2 ^ lvlShift e.lvl))))

/-- Drop every cached entry of a context. -/
def State.flushCtx (s : State) (tc : Nat) : State := s.setTlb (s.xlt.tlb.filter (fun e => e.tc != tc))

/-- An engine hangs (R554): its TLB is invalidated and held, and ENG 0x0 is raised. -/
def State.hangEngine (s : State) (n : Nat) : State :=
  let s := s.setTlb (s.xlt.tlb.filter (fun e => e.holder != 8 + n))
  ((s.put .ENG_STS_STATE 1 n).countEngines).report (msg2 bEng n 0)

/-! ### Commands (R143, R144) -/

/-- SEG_QUERY. -/
def execSegQuery (q : Req) (s : State) : Res :=
  let tc := q.tc.val
  serve { op := 0x0300, priv := 1, mctp := true, ctx := 1, output := true } q none (fun s =>
    okOut s (s.word .XLT_CTX_CFG_EN tc) 80
      ([(0, 2, s.get .XLT_CTX_MASK_CLMASK tc), (2, 1, s.get .XLT_CTX_MASK_OBMASK tc),
        (3, 1, s.get .XLT_CTX_MASK_DEFCL tc + 16 * s.get .XLT_CTX_MASK_DEFOB tc), (8, 8, s.get .XLT_CTX_CFG_ROOT tc)]
        ++ (List.range 4).flatMap (fun w =>
          [(0x10 + 16 * w, 8, s.get .XLT_WIN_BASE_LPN tc w), (0x18 + 16 * w, 8, s.get .XLT_WIN_LIMIT_LPN tc w)]))) s

/-- XLT_ENTRY_EXPIRE (R133): a cached entry, by its place in the list, becomes unusable. -/
def execXltEntryExpire (ix : Nat) (s : State) : Res := .next (s.setTlb (s.xlt.tlb.eraseIdx ix))

end Sys2Proof.Machine
end

