-- ==== Sys2Proof/Machine/Bale.lean ====
section
/-!
DEFINITION. Bales and messages of a Caravan port byte by byte, and its sending side: messages cut into bales, credits, the pool and the replay
window (R383–R386, R389, R390, R396–R398, R408–R411).
-/
namespace Sys2Proof.Machine
open Sys2Proof

def State.port (s : State) (p : Nat) : CvnPort := tgetD {} p s.cvn.ports

def State.setPort (s : State) (p : Nat) (v : CvnPort) : State := { s with cvn := { ports := tput p v s.cvn.ports } }

/-- The link of a port is UP. -/
def State.portUp (s : State) (p : Nat) : Bool := s.get .CVN_LINK_STS_STATE p == 5

/-! ### Messages (R408–R410) -/

/-- The virtual channel of an operation, none of an operation R410 does not list. -/
def vcOf? (op : Nat) : Option Nat :=
  match op with
  | 1 | 4 | 5 | 9 => some 0
  | 0x82 | 0x84 | 0x85 => some 1
  | 2 | 0x81 => some 2
  | 3 | 6 | 7 | 8 => some 3
  | _ => none

def vcOf (op : Nat) : Nat := (vcOf? op).getD 3

/-- The answer of an operation that has one of its own (R410). -/
def answerOp (op : Nat) : Option Nat :=
  match op with
  | 1 => some 0x81
  | 2 | 3 => some 0x82
  | 4 => some 0x84
  | 5 => some 0x85
  | _ => none

/-- The bytes of a message: the header of R409, then its data. -/
def CvnMsg.bytes (m : CvnMsg) : List Byte :=
  natBytes 1 m.op ++ natBytes 1 (b2n m.uncorr + 2 * b2n m.poison + 4 * b2n m.tags + 8 * b2n m.rawf + 16 * b2n m.rep) ++ natBytes 2 m.tid ++
    natBytes 2 m.data.length ++ natBytes 2 m.status ++ natBytes 8 (m.lloc % 2 ^ 35 + m.off % 4096 * 2 ^ 35 + m.arg % 2 ^ 17 * 2 ^ 47) ++ m.data

/-- The header of a message and the bytes behind it. -/
def msgOf (b : List Byte) : CvnMsg :=
  let f := leNat ((b.drop 1).take 1)
  let w := leNat ((b.drop 8).take 8)
  { op := leNat (b.take 1), tid := leNat ((b.drop 2).take 2), uncorr := f.testBit 0, poison := f.testBit 1, tags := f.testBit 2, rawf := f.testBit 3
    rep := f.testBit 4, status := leNat ((b.drop 6).take 2), lloc := bits w 0 35, off := bits w 35 12, arg := bits w 47 17, data := b.drop 16 }

/-- DLEN is the length of the data and at most 4,608, the reserved bits are 0, and the operation travels on this channel (R409, R410). -/
def msgOk (vc : Nat) (b : List Byte) : Bool :=
  decide (16 ≤ b.length ∧ leNat ((b.drop 4).take 2) = b.length - 16 ∧ b.length ≤ 4624 ∧ leNat ((b.drop 1).take 1) < 32)
    && vcOf? (leNat (b.take 1)) == some vc

/-- The bales of a message: 216 bytes in all but the last (R408). -/
def balesOf (m : CvnMsg) : List BaleTx :=
  let l := chunks 216 m.bytes
  (List.range l.length).map (fun k => { vc := vcOf m.op, body := l.getD k [], som := k == 0, eom := k + 1 == l.length, msg := m })

/-! ### The bale (R383–R386) -/

/-- The header of a bale (R384). -/
structure BaleHead where
  typ : Nat := 0
  vc : Nat := 0
  som : Bool := false
  eom : Bool := false
  enc : Bool := false
  keyph : Bool := false
  vlen : Nat := 0
  pool : Bool := false
  xoff : Bool := false
  ackv : Bool := false
  rplq : Bool := false
  ack : Nat := 0
  cvc : Nat := 0
  cred : Nat := 0
  xseq : Nat := 0
  lcode : Nat := 0
  larg : Nat := 0
  rest : Nat := 0
  deriving DecidableEq, Repr

/-- The twelve bytes of a header. -/
def baleHeader (h : BaleHead) : List Byte :=
  natBytes 12 (h.typ + 4 * h.vc + 16 * b2n h.som + 32 * b2n h.eom + 64 * b2n h.enc + 128 * b2n h.keyph + 2 ^ 8 * h.vlen + 2 ^ 16 * b2n h.pool
    + 2 ^ 17 * b2n h.xoff + 2 ^ 18 * b2n h.ackv + 2 ^ 19 * b2n h.rplq + 2 ^ 20 * h.ack + 2 ^ 32 * h.cvc + 2 ^ 34 * h.cred + 2 ^ 50 * h.xseq
    + 2 ^ 62 * h.lcode + 2 ^ 70 * h.larg + 2 ^ 78 * h.rest)

/-- The header that a bale begins with. -/
def baleHeadOf (b : List Byte) : BaleHead :=
  let w := leNat (b.take 12)
  { typ := bits w 0 2, vc := bits w 2 2, som := w.testBit 4, eom := w.testBit 5, enc := w.testBit 6, keyph := w.testBit 7, vlen := bits w 8 8
    pool := w.testBit 16, xoff := w.testBit 17, ackv := w.testBit 18, rplq := w.testBit 19, ack := bits w 20 12, cvc := bits w 32 2
    cred := bits w 34 16, xseq := bits w 50 12, lcode := bits w 62 8, larg := bits w 70 8, rest := bits w 78 18 }

/-- The CRC of header and payload behind a 2-byte prefix (R386). -/
def baleCrc (pre : Nat) (b : List Byte) : Nat := crc64 (2 ^ 64 - 1) (natBytes 2 pre ++ b) ^^^ (2 ^ 64 - 1)

/-- The prefix: the sequence number of a DATA bale, 0x8000 of any other. -/
def crcPrefix (typ seq : Nat) : Nat := if typ = 1 then seq % 4096 else 0x8000

/-- A bale (R383): header, payload, CRC, FEC. -/
def sealBale (h : BaleHead) (seq : Nat) (payload : List Byte) : List Byte :=
  let b := baleHeader h ++ padTo 228 payload
  let b := b ++ natBytes 8 (baleCrc (crcPrefix h.typ seq) b)
  b ++ fecBytes b

/-- The IV of a bale: salt, then the count of bales under the key, high byte first as SP 800-38D writes integers (DEDUCED, log 128). -/
def LinkKey.iv (k : LinkKey) (seq : Nat) : List Byte := k.salt ++ beBytes 8 (seq - k.base.getD seq)

/-- The payload of a DATA bale (R385): the padded body, encrypted and tagged under a key, the header as AAD. -/
def dataPayload (key : Option LinkKey) (h : BaleHead) (seq : Nat) (body : List Byte) : List Byte :=
  match key with
  | none => body
  | some k => let c := gcmCrypt k.key (k.iv seq) (padTo 216 body); c ++ gcmTag k.key (k.iv seq) (baleHeader h) c

/-- Keys are installed. -/
def CvnPort.keyed (c : CvnPort) : Bool := c.txKey.isSome

/-! ### Sending (R389, R390, R397, R398, R419) -/

/-- Buffers of a VC whose credit the next bale returns: the limit, or under COMPAT what has come free since the peer was last told. -/
def State.credOf (s : State) (p : Nat) : Nat :=
  let c := s.port p
  let n := tgetD 0 c.cvc c.freed
  if s.isSet .CVN_LINK_STS_COMPAT_ACT p then n - tgetD 0 c.cvc c.told else (64 + n) % 65536

/-- What every bale carries (R384, R390, R391, R397, R398). -/
def State.baleHead (s : State) (p : Nat) : BaleHead :=
  let c := s.port p
  { keyph := s.isSet .CVN_LINK_STS_KEYPH p, xoff := s.view .CVN_LINK_STS_XOFF_TX p 0 != 0, ackv := c.rcvd != 0, rplq := c.dropping
    ack := if c.rcvd = 0 then 0 else (c.rcvd - 1) % 4096, cvc := c.cvc, cred := s.credOf p }

/-- Bytes go out; the next bale carries the credit of the next VC. -/
def State.sendBale (s : State) (p : Nat) (bytes : List Byte) : State :=
  let c := s.port p
  (s.setPort p { c with cvc := (c.cvc + 1) % 4, told := tput c.cvc (tgetD 0 c.cvc c.freed) c.told }).emit (.bale p bytes)

/-- An unsequenced bale goes out: IDLE, REPLAY, LINKCTL. -/
def State.sendPlain (s : State) (p : Nat) (f : BaleHead → BaleHead) (body : List Byte) : State :=
  s.sendBale p (sealBale (f (s.baleHead p)) 0 body)

/-- An IDLE bale (R390). -/
def State.sendIdle (s : State) (p : Nat) : State := s.sendPlain p id []

/-- Whether a DATA bale may go now, and whether from the pool (R392, R397, R398, R419). Credit is used before the pool (DESIGN CHOICE,
log 43). -/
def State.baleFree (s : State) (p : Nat) (b : BaleTx) : Option Bool :=
  let c := s.port p
  let left := (tgetD 64 b.vc c.limit + 65536 - tgetD 0 b.vc c.usedCr) % 65536
  if 512 ≤ c.unacked.length then none
  else if 1 ≤ left ∧ left ≤ 32767 then some false
  else if ¬ s.isSet .CVN_LINK_STS_COMPAT_ACT p ∧ ¬ s.isSet .CVN_LINK_STS_XOFF_RX p then some true
  else none

/-- The wire bytes of a DATA bale sent for the first time. -/
def State.dataBale (s : State) (p : Nat) (b : BaleTx) (pool : Bool) : List Byte :=
  let c := s.port p
  let h := { s.baleHead p with typ := 1, vc := b.vc, som := b.som, eom := b.eom, enc := c.keyed, vlen := b.body.length, pool := pool }
  sealBale h c.sent (dataPayload c.txKey h c.sent b.body)

/-- The bytes of a VOID bale in place of a bale with sequence number `seq` (R394). -/
def State.voidBale (s : State) (p seq : Nat) (b : BaleTx) : List Byte :=
  sealBale { s.baleHead p with typ := 1, vc := b.vc, pool := b.pool } seq []

/-- Send a DATA bale for the first time; it waits for its acknowledgement. -/
def State.txBale (s : State) (p : Nat) (b : BaleTx) (pool : Bool) : State :=
  let raw := s.dataBale p b pool
  let s := s.sendBale p raw
  let c := s.port p
  let c := { c with sent := c.sent + 1, unacked := c.unacked ++ [{ b with pool := pool, raw := raw }]
                    usedCr := if pool then c.usedCr else tput b.vc ((tgetD 0 b.vc c.usedCr + 1) % 65536) c.usedCr }
  (s.setPort p c).count (.port p) 0x01 1 none

/-- Send what may go, in order within each VC; the bales that stay. -/
def State.pumpGo (s : State) (p : Nat) : List BaleTx → List Nat → State × List BaleTx
  | [], _ => (s, [])
  | b :: bs, blocked =>
    if blocked.contains b.vc then let (s', l) := s.pumpGo p bs blocked; (s', b :: l)
    else match s.baleFree p b with
      | some pool => (s.txBale p b pool).pumpGo p bs blocked
      | none => let (s', l) := s.pumpGo p bs (b.vc :: blocked); (s', b :: l)

/-- Bales under a key, up to a count. -/
def keyAge (k : Option LinkKey) (n : Nat) : Nat := match k with | some x => n - x.base.getD n | none => 0

/-- A direction has come half way to the 2^36 bales before which the leader issues KEY_UPDATE (R308; the moment is a DESIGN CHOICE, log 128). -/
def State.keyDue (s : State) (p : Nat) : Bool :=
  let c := s.port p
  s.isSet .CVN_LINK_STS_LEADER p && !c.renewing && decide (2 ^ 35 ≤ keyAge c.txKey c.sent ∨ 2 ^ 35 ≤ keyAge c.rxKey c.rcvd)

/-- KEY_UPDATE of all keys, and GET_VERSION, as SPDM messages (DSP0274; PRESUMED, log 128). -/
def spdmKeyUpdate : List Byte := [0x13, 0xE9, 2, 0]
def spdmGetVersion : List Byte := [0x10, 0x84, 0, 0]

/-- Send what may go while traffic is on (UP, or KEYING). -/
def State.pump (s : State) (p : Nat) : State :=
  let st := s.get .CVN_LINK_STS_STATE p
  if st = 5 ∨ st = 4 then
    let (s, l) := s.pumpGo p (s.port p).sendQ []
    if s.keyDue p then s.setPort p { s.port p with sendQ := l ++ balesOf { op := 7, data := spdmKeyUpdate }, renewing := true }
    else s.setPort p { s.port p with sendQ := l }
  else s

/-- Compose a message and send it. -/
def State.sendMsg (s : State) (p : Nat) (m : CvnMsg) : State :=
  let s := if m.op = 1 then s.count (.port p) 0x05 1 s.mem.who else if m.op = 2 ∨ m.op = 3 then s.count (.port p) 0x06 1 s.mem.who else s
  let s := s.emit (.cvnMsg p m)
  let c := s.port p
  (s.setPort p { c with sendQ := c.sendQ ++ balesOf m }).pump p

/-- Two writes whose bytes at the lender overlap. -/
def writesMeet (a b : CvnMsg) : Bool :=
  let write := fun (m : CvnMsg) => m.op == 2 || m.op == 3
  let lo := fun (m : CvnMsg) => 256 * m.lloc + m.off
  write a && write b && decide (lo a < lo b + b.data.length ∧ lo b < lo a + a.data.length)

/-- Send the requests that are not on their way, but a write that an earlier one writesMeet (R411). -/
def State.sendWaits (s : State) (p : Nat) : List CvnWait → List CvnWait → State
  | _, [] => s
  | before, w :: ws =>
    if w.sent ∨ before.any (fun x => writesMeet x.msg w.msg) then s.sendWaits p (before ++ [w]) ws
    else
      let c := s.port p
      ((s.setPort p { c with waits := c.waits.map (fun x => if x.tid = w.tid then { x with sent := true } else x) }).sendMsg p w.msg).sendWaits p
        (before ++ [w]) ws

/-- Requests go out in their order while the link is UP (R411, R417). -/
def State.sendReady (s : State) (p : Nat) : State := if s.portUp p then s.sendWaits p [] (s.port p).waits else s

/-- A request has its answer. -/
def State.waitDone (s : State) (p tid : Nat) : State :=
  let c := s.port p
  (s.setPort p { c with waits := c.waits.filter (fun w => w.tid != tid) }).sendReady p

/-- Make a request that awaits its answer (R411). -/
def State.cvnAsk (s : State) (p use arg : Nat) (m : CvnMsg) (nums : List Nat) : State × Nat :=
  let c := s.port p
  let tid := c.nextTid
  ((s.setPort p { c with nextTid := (tid + 1) % 65536
                         waits := c.waits ++ [{ tid := tid, use := use, arg := arg, msg := { m with tid := tid }, nums := nums }] }).sendReady p, tid)

/-- Block numbers as the data of a GROW or RETURN. -/
def blockData (nums : List Nat) : List Byte := nums.flatMap (natBytes 4)

/-! ### Receive buffers (R397, R398) -/

/-- Buffers are freed. -/
def State.freeBufs (s : State) (p vc : Nat) (r : BaleRx) : State :=
  let c := s.port p
  s.setPort p { c with freed := tput vc ((tgetD 0 vc c.freed + r.own) % 65536) c.freed }

/-- The next whole message on the channel of an operation, where it is of that operation: it leaves its buffers (R396, R415). -/
def State.nextMsg (s : State) (p op : Nat) : Option (CvnMsg × State) :=
  let c := s.port p
  match c.inbox.find? (fun x => x.1 == vcOf op) with
  | some (vc, r) =>
    let m := msgOf r.bytes
    if m.op = op then
      some (m, (s.setPort p { c with inbox := c.inbox.takeWhile (fun x => x.1 != vc) ++ (c.inbox.dropWhile (fun x => x.1 != vc)).drop 1 }).freeBufs p vc r)
    else none
  | none => none

/-- The map of used loan granules of a loan block. -/
def loanMap (c : CvnPort) (blk : Nat) : Nat := c.uses.foldl (fun a u => if u.1 / 16 = blk then a + 2 ^ (u.1 % 16) else a) 0

/-- A RETURN goes out for the blocks to give back that have become empty (R416). -/
def State.returnEmpty (s : State) (p : Nat) : State :=
  let c := s.port p
  let l := c.giving.filter (fun b => loanMap c b == 0)
  if l = [] then s
  else ((s.setPort p { c with giving := c.giving.filter (fun b => loanMap c b != 0) }).cvnAsk p 4 l.length { op := 5, arg := l.length, data := blockData l } l).1

/-- Blocks a borrower holds, those on their way back among them. -/
def heldBlocks (c : CvnPort) : Nat :=
  c.blocks.length + c.giving.length + ((c.waits.filter (fun w => w.msg.op == 5)).foldl (fun n w => n + w.nums.length) 0)

/-- Start to give back n more blocks, the least used first (R416). -/
def State.giveBack (s : State) (p n : Nat) : State :=
  let c := s.port p
  let le := fun (a b : Nat) => decide ((c.uses.filter (fun u => u.1 / 16 == a)).length ≤ (c.uses.filter (fun u => u.1 / 16 == b)).length)
  let add := fun (l : List Nat) b => l.takeWhile (fun x => le x b) ++ b :: l.dropWhile (fun x => le x b)
  let pick := (c.blocks.foldl add []).take n
  s.setPort p { c with blocks := c.blocks.filter (fun b => !pick.contains b), giving := c.giving ++ pick }

/-- The page's lender location lies in a block to be given back. -/
def State.recalled (s : State) (loc : Nat) : Bool := (s.port (loc / 2 ^ 35 % 2)).giving.contains (loc % 2 ^ 35 / 16)

end Sys2Proof.Machine
end

