-- ==== Sys2Proof/Machine/Image.lean ====
section
/-!
DEFINITION. Images of pages: the first write of a Zero page, laying an image out anew, the sector write-back, loan granules
and Caravan messages, twins and the pages that cannot be verified (07, 08, 09, 13).
-/
namespace Sys2Proof.Machine
open Sys2Proof

/-! ### Loan granules (R412) -/

/-- Free loan granules of a port. -/
def loanFree (c : CvnPort) : Nat := 16 * c.blocks.length - c.uses.length

/-- A run of n loan granules, as R222 does for media (R412). -/
def loanRun (c : CvnPort) (n hint : Nat) : Option Nat :=
  let fit := c.blocks.filter (fun b => decide (n ≤ longestRun (loanMap c b)))
  let best := fit.foldl (fun a b => min a (longestRun (loanMap c b))) 16
  let cand := fit.filter (fun b => decide (longestRun (loanMap c b) = best))
  (cand[hint % max 1 cand.length]?).bind (fun b => (freeAt (loanMap c b) n).map (fun o => 16 * b + o))

/-- The port a borrower uses (R412): UP with BORROW_EN, most free loan granules, with room for n. Answers the port and the
lender location. -/
def State.loanPlace (s : State) (n hint : Nat) : Option (Nat × Nat) :=
  let ok := fun p => s.portUp p && s.isSet .CVN_PORT_CFG_BORROW_EN p
  let pick := fun p => if ok p then (loanRun (s.port p) n hint).map (fun l => (p, l)) else none
  match pick 0, pick 1 with
  | some a, some b => if loanFree (s.port 0) < loanFree (s.port 1) then some b else some a
  | some a, none => some a
  | none, b => b

/-- Take or free loan granules of a port; `v`: LPN × 2, + 1 for a twin. -/
def State.loanTake (s : State) (p loc v : Nat) : Nat → State
  | 0 => s
  | n + 1 => let s := s.loanTake p loc v n; let c := s.port p; s.setPort p { c with uses := tput (loc + n) v c.uses }

def State.loanFreeRun (s : State) (p loc : Nat) : Nat → State
  | 0 => s
  | n + 1 => let s := s.loanFreeRun p loc n; let c := s.port p; s.setPort p { c with uses := tdel (loc + n) c.uses }

/-- Port and location of a lent page's MA or a Caravan twin's TMA. -/
def locPort (ma : Nat) : Nat := ma / 2 ^ 35 % 2
def locOff (ma : Nat) : Nat := ma % 2 ^ 35
def mkLoc (p loc : Nat) : Nat := p * 2 ^ 35 + loc

/-- Granules of a twin on a lender. -/
def cvnTwinLen (p : Page) : Nat := if p.pl.twk = 2 then (if p.tw.tns then 16 else p.tw.tlen) else 0

/-- Open or grow the loan of a port by n blocks (R412, R413): the next block numbers not yet held. BORROW_MAX bounds what the
borrower holds; one GROW is outstanding at a time. -/
def State.askGrow (s : State) (p n : Nat) : State :=
  let c := s.port p
  let mx := s.get .CVN_BORROW_MAX_MAX p
  let n := min 1024 (if mx = 0 then n else min n (mx - heldBlocks c))
  if ¬ s.portUp p ∨ ¬ s.isSet .CVN_PORT_CFG_BORROW_EN p ∨ n = 0 ∨ c.closing ∨ c.waits.any (fun w => w.msg.op == 4) then s
  else
    let s := if c.loanB.isSome then s
      else s.drawn.setPort p { c with loanB := some (s.draw % (2 ^ 64 - 1) + 1) }
    let c := s.port p
    let used := c.blocks ++ c.giving ++ (c.waits.filter (fun w => w.msg.op == 5)).flatMap (fun w => w.nums)
    let nums := ((List.range (used.length + n)).filter (fun k => !used.contains k)).take n
    (s.cvnAsk p 3 n { op := 4, arg := n, data := blockData nums } nums).1

/-- Ask a port with BORROW_EN for room. -/
def State.askRoom (s : State) : State :=
  match [0, 1].find? (fun p => s.portUp p && s.isSet .CVN_PORT_CFG_BORROW_EN p) with
  | some p => s.askGrow p 1
  | none => s

/-! ### Pages on and off media -/

/-- A page turns into tier Zero or Poisoned, its lender locations returned with everything else it held (R223, R256, R302). -/
def State.vacate (s : State) (lpn t : Nat) : State :=
  let p := s.page lpn
  let s := if p.pl.tier = 4 then s.loanFreeRun (locPort p.pl.ma) (locOff p.pl.ma) p.pl.len else s
  let s := s.loanFreeRun (locPort p.tw.tma) (locOff p.tw.tma) (cvnTwinLen p)
  s.emptyPage lpn t

/-- Poison a page whole: it and every copy of it go, and the poison log says why. -/
def State.poisonWhole (s : State) (lpn : Nat) : State := ((s.dropCopies lpn).vacate lpn 7).logPoison lpn 0 7 6

/-- An unbacked write (R256). -/
def State.exhaust (s : State) (lpn : Nat) (head : Option Nat) : State :=
  let p := s.page lpn
  let s := if p.pl.tier = 4 then s.loanFreeRun (locPort p.pl.ma) (locOff p.pl.ma) p.pl.len else s
  let s := s.loanFreeRun (locPort p.tw.tma) (locOff p.tw.tma) (cvnTwinLen p)
  (s.dropCopies lpn).unbacked lpn head

/-! ### Pages that cannot be verified (R300, R301) -/

/-- Pages of media beneath a node. -/
def State.beneath (s : State) (n : Nat × Nat) : List Nat :=
  (s.pg.pages.filter (fun p => decide (n.2 ≤ p.1 ∧ p.1 < n.2 + 8 ^ n.1) && hasImage p.2.pl.tier)).map (·.1)

/-- Rebuild every listed node beneath which each page with media has been rebased, zeroed or released (R301). -/
def State.settleUnver (s : State) : State :=
  let keep := s.sec.unver.filter (fun n => (s.beneath n).any (fun l => !s.sec.rebased.contains l))
  if keep = s.sec.unver then s
  else
    let gone := s.sec.unver
    let under := fun l => keep.any (fun n => decide (n.2 ≤ l ∧ l < n.2 + 8 ^ n.1))
    let s := { s with sec := { s.sec with unver := keep, rebased := s.sec.rebased.filter under } }
    let s := (gone.filter (fun n => !keep.contains n)).foldl (fun (s : State) n => ((s.treeDirty n.1 n.2).writeNode n.1 n.2 false).writeNode n.1 n.2 true) s
    (s.put .SEC_STS_UNVER keep.length).put .SEC_STS_UNVER_FULL 0

/-- Every page beneath a node of the tree becomes unverifiable (R300), or Poisoned where the list is full. -/
def State.addUnver (s : State) (lvl lpn : Nat) (sub : Nat) : State :=
  let n := (lvl, lpn / 8 ^ lvl * 8 ^ lvl)
  let s := s.report (msg2 bSec (s.home n.2) sub (n.2 * 4096) lvl)
  if s.sec.unver.contains n then s
  else if s.sec.unver.length < 64 then
    let s := { s with sec := { s.sec with unver := s.sec.unver ++ [n]
                                          rebased := s.sec.rebased.filter (fun l => !decide (n.2 ≤ l ∧ l < n.2 + 8 ^ lvl)) } }
    s.put .SEC_STS_UNVER s.sec.unver.length
  else ((s.beneath n).foldl (fun (s : State) l => s.poisonWhole l) s).put .SEC_STS_UNVER_FULL 1

/-- A write that finds no key, or an unverifiable page, is discarded (R270, R272, R300). -/
def State.noKey (s : State) (lpn : Nat) (report : Bool) : State :=
  let s := s.bump .SEC_SLICE_CNT_NOKEY 0xFFFF (s.home lpn)
  if report then s.report (msg2 bSec (s.home lpn) 9 (lpn * 4096)) else s

/-! ### The first write of a Zero page (R180, R223, R255–R257, R270, R282) -/

/-- A parison of zeros: sector 0 as PATTERN, every other segment ZERO (R207). -/
def zeroSegs : List Seg := { span := 2, body := (2 : Byte) :: List.replicate 15 0 } :: List.replicate 7 {}

/-- The tier a new page gets (R257). -/
def State.newTier (s : State) (obj : Nat) (sh : Bool) : Nat :=
  let floor := s.get .XLT_OBJ_FLOOR obj
  let ceil := s.get .XLT_OBJ_CEIL obj
  if sh then 1
  else match s.get .XLT_PRESS_STS_LEVEL with
    | 0 => ceil
    | 1 => min (ceil + 1) floor
    | _ => floor

/-- The code of a page's image (R240, R319). -/
def State.codeFor (s : State) (lpn obj : Nat) : Nat :=
  if devWindow ≤ lpn then (if Config.shutLpn lpn then s.get .ECC_CODE_CLASS_JOB else 1) else s.get .XLT_OBJ_CODE obj

/-- LEN and HINT of records. -/
def withLayout (pl : Place) (segs : List Seg) : Place :=
  let (st, n) := layout (segs.map (fun g => 16 * g.span))
  { pl with len := n, hint := hintOf st }

/-- The home slice that alone changes a node's entry (R130): that of the lowest LPN the node covers. -/
def State.keeper (s : State) (key : Nat) : Nat := s.home (key % 2 ^ 24 * 2 ^ (33 - 8 * (key / 2 ^ 24)))

/-- The keeper broadcasts an invalidation of an entry on CFG, and every slice's metadata cache drops what it holds of the node (R130). -/
def State.invalidateNode (s : State) (key : Nat) : State :=
  (s.coh' (fun c => { c with nodes := c.nodes.filter (fun n => decide (n % 2 ^ 28 ≠ key)) })).emit (.event 0x0500 (s.keeper key) key)

/-- The node of a level on the way to an LPN: present, or a zero-filled pair that its keeper publishes (R130); false when there is none to give. -/
def State.addNode (s : State) (lvl lpn : Nat) : State × Bool :=
  let key := nodeKey lvl lpn
  if (tget key s.pg.nodes).isSome then (s, true)
  else match s.nodePair key with
    | none => (s, false)
    | some n =>
      let s := s.invalidateNode key
      ({ s with pg := { s.pg with nodes := tput key n s.pg.nodes, badNodes := lremove key s.pg.badNodes } }, true)

/-- Firmware has the keeper release an L3 node whose 512 entries are all Zero (R130): V clears, with the same invalidation. The entries' VER goes with it. -/
def State.releaseNode (s : State) (key : Nat) : State :=
  let mine := fun (lpn : Nat) => decide (lpn / 512 = key % 2 ^ 24)
  if s.pg.pages.any (fun p => mine p.1 && decide (p.2.pl.tier ≠ 0)) then s
  else
    let s := s.invalidateNode key
    ({ s with pg := { s.pg with nodes := tdel key s.pg.nodes
                                pages := (s.pg.pages.map (fun p => if mine p.1 then (p.1, { want := p.2.want }) else p)).filter (fun p => decide (p.2 ≠ {})) } } : State).dropUnit
      (key % 2 ^ 24 * 512)

/-- The way to the L3 node of a page: each node present, or taken from the free list (R130); false when the list is empty. -/
def State.needNode (s : State) (lpn : Nat) : State × Bool :=
  if (tget (nodeKey 3 lpn) s.pg.nodes).isSome then (s, true)
  else [1, 2, 3].foldl (fun (x : State × Bool) l => if x.2 then x.1.addNode l lpn else x) (s, true)

/-- Allocate the image and the local twin of a page that has none, and write its entry: granules, owner entries, charge.
`pl` has everything but the places. None: no granules. A twin that finds no room is missing, and a repair is queued; a Table page
is not placed without its twin (R126). -/
def State.giveImage (s : State) (lpn : Nat) (pl : Place) (segs : List Seg) (fritVer : Nat) (twin : Nat) (want : Nat) (hint : Nat)
    (avoid : List Nat) : Option State :=
  match s.placePrimary lpn (imageLen pl) hint avoid with
  | none => none
  | some ma =>
    let s := s.ownRun ma lpn 1 pl.code (imageLen pl)
    let s := s.writeLines (4 * ma) (4 * imageLen pl)
    let raw := isRaw pl
    let tn := imageLen pl
    let (s, pl, tw) :=
      match twin with
      | 1 =>
        match s.placeTwin ma tn hint avoid with
        | some t => ((s.ownRun t lpn 2 (if raw then 0 else pl.code) tn).writeLines (4 * t) (4 * tn), { pl with twk := 1 },
            TwinEnt.mk t (if raw then 0 else tn) raw)
        | none => (s, { pl with twk := 0 }, {})
      | 2 =>
        match s.loanPlace tn hint with
        | some (p, l) => (s.loanTake p l (2 * lpn + 1) tn, { pl with twk := 2 }, TwinEnt.mk (mkLoc p l) (if raw then 0 else tn) raw)
        | none => (s.askRoom, { pl with twk := 0 }, {})
      | _ => (s, { pl with twk := 0 }, {})
    let s := s.setPage lpn { pl := { pl with ma := ma }, tw := tw, want := want, segs := segs, fritVer := fritVer, laid := pl.ver }
    if pl.tier = 5 ∧ pl.twk ≠ 1 then none
    else (s.giveTags lpn hint avoid).map (fun s => if twin ≠ 0 ∧ pl.twk = 0 then s.queueRepair lpn else s)

/-- Send bytes of an image to a lender (R410): of a lent page, or of a Caravan twin; of a raw frame with the line tags. -/
def State.sendPart (s : State) (lpn use arg : Nat) (twin : Bool) (off : Nat) (data tags : List Byte) (poison : Bool) : State × Nat :=
  let p := s.page lpn
  let raw := isRaw p.pl
  let loc := if twin then p.tw.tma else p.pl.ma
  s.cvnAsk (locPort loc) use arg { op := if twin then 3 else 2, lloc := locOff loc + off / 256, off := off % 256, tags := raw, rawf := raw
                                   poison := poison, data := data ++ tags } []

/-- Send a line of a raw sector, with its marking. -/
def State.sendRawLine (s : State) (lpn k use : Nat) (x : State × Nat) (i : Nat) : State × Nat :=
  x.1.sendPart lpn use (8 * lpn + k) (use == 2) (512 * k + 64 * i) (((s.rawSector lpn k).drop (64 * i)).take 64) ((s.sectorTags lpn k).getD i [])
    (s.pg.poison.contains (64 * lpn + 8 * k + i))

/-- Send the new bytes of a sector to a lender: of a lent page (use 1), or of a Caravan twin (use 2); the number of the last message. A raw sector with a
marked line goes line by line, since POISON marks all that a message writes. -/
def State.sendSector (s : State) (lpn k use : Nat) : State × Nat :=
  let p := s.page lpn
  let marked := s.pg.poison.any (fun l => l / 8 == 8 * lpn + k)
  if ¬ isRaw p.pl then
    s.sendPart lpn use (8 * lpn + k) (use == 2) (((layout (spansOf p)).1.getD k none).getD 32) (s.recordBytes lpn k) [] marked
  else if marked then (List.range 8).foldl (fun x i => s.sendRawLine lpn k use x i) (s, 0)
  else s.sendPart lpn use (8 * lpn + k) (use == 2) (512 * k) (s.rawSector lpn k) (s.sectorTags lpn k).flatten false

/-- Send the header of an image, which no writer awaits. -/
def State.sendHeader (s : State) (lpn : Nat) (twin : Bool) : State :=
  if isRaw (s.page lpn).pl then s else (s.sendPart lpn 1 (8 * lpn) twin 0 ((s.imageBytes lpn).take 32) [] false).1

/-- Send a whole image: of a lent page (use 1), or of a Caravan twin (use 2, `arg` the sector whose writers wait); in one message unless part of it carries
the marking. -/
def State.sendPage (s : State) (lpn use arg : Nat) : State × Nat :=
  let p := s.page lpn
  if s.pg.poison.any (fun l => l / 64 == lpn) then
    (List.range 8).foldl (fun (x : State × Nat) k =>
      if ¬ isRaw p.pl ∧ (p.segs.getD k {}).span = 0 then x else x.1.sendSector lpn k use) (s.sendHeader lpn (use == 2), 0)
  else s.sendPart lpn use arg (use == 2) 0 (s.imageBytes lpn)
    (if isRaw p.pl then (List.range 8).flatMap (fun k => (s.sectorTags lpn k).flatten) else []) false

/-- The header of an image as its lines have it. -/
def headOfPage (lpn : Nat) (p : Page) : List Byte := headerBytes lpn p.laid p.pl.frit p.fritVer p.segs

/-- What became of a write at its home. -/
inductive WrOut where
  /-- The line is dirty in the line cache. -/
  | done
  /-- Completed to its writer and discarded. -/
  | dropped
  deriving DecidableEq, Repr

/-- The first write of a Zero page: the page gets an image of zeros in the tier of R257, with counters above the slot's
FLOOR (DESIGN CHOICE, log 22: the written line itself enters the image at its write-back). -/
def State.firstWrite (s : State) (lpn obj : Nat) (sh : Bool) (hint : Nat) (head : Option Nat) : State × WrOut :=
  let a := s.acct lpn
  let ks := s.slotFor lpn
  if ¬ s.slotActive ks then (s.noKey lpn true, .dropped)
  else
    let (s, node) := s.needNode lpn
    let t := s.newTier obj sh
    let pl : Place := { tier := t, a := true, d := true, code := s.codeFor lpn obj, ks := ks, ver := (s.page lpn).pl.ver,
                        frit := if t = 3 then s.get .CDC_POL_CULL_FRIT obj else 0, obj := obj, sh := sh }
    let segs := if t = 1 then [] else zeroSegs
    let pl := if t = 1 then pl else withLayout pl segs
    let want := (s.page lpn).want
    let twin := max (s.get .XLT_OBJ_TWIN obj) want
    let n := imageLen pl
    if ¬ node ∨ ¬ s.popOk a ∨ ¬ s.backed a (n + (if twin = 1 then n else 0) + 3) then (s.exhaust lpn head, .dropped)
    else match s.giveImage lpn pl segs 0 twin want hint [] with
      | none => (s.exhaust lpn head, .dropped)
      | some s =>
        let s := (s.putCtrs lpn ks (s.get .SEC_KS_FLOOR_VALUE ks + 1) 8).joinSlot ks
        (if (s.page lpn).pl.twk = 2 then (s.sendPage lpn 2 (8 * lpn)).1 else s, .done)

/-! ### Relocation (R224 step 6b, R228, R247) -/

/-- Move a page's image to a new place, with new contents of its entry; VER rises, the old granules and the old local twin go.
`pl` gives the entry but for place, twin and VER; `twin`: the twin kind afterwards. A Caravan twin takes a new place at its lender, to which the image is
yet to be sent, or goes where there is none, and a repair is queued. None: no granules. -/
def State.relocate (s : State) (lpn : Nat) (pl : Place) (segs : List Seg) (fritVer twin hint : Nat) (avoid : List Nat) : Option State :=
  let p := s.page lpn
  match s.giveImage lpn { pl with ver := (p.pl.ver + 1) % 256 } segs fritVer (if twin = 1 then 1 else 0) p.want hint avoid with
  | none => none
  | some s' =>
    let p' := s'.page lpn
    let s' := (s'.freeRun p.pl.ma (imageLen p.pl)).freeTab p.tag
    let s' := s'.freeRun p.tw.tma (twinLen p)
    let s' := if p.pl.tier = 4 then s'.loanFreeRun (locPort p.pl.ma) (locOff p.pl.ma) p.pl.len else s'
    let s' := if p.pl.twk = 2 then
        let prt := locPort p.tw.tma
        let n := imageLen p'.pl
        match if twin = 2 then loanRun (s'.port prt) n hint else none with
        | some l =>
          ((s'.loanTake prt l (2 * lpn + 1) n).loanFreeRun prt (locOff p.tw.tma) (cvnTwinLen p)).putPage lpn
            { p' with pl := { p'.pl with twk := 2 }, tw := TwinEnt.mk (mkLoc prt l) (if isRaw p'.pl then 0 else n) (isRaw p'.pl) }
        | none =>
          let s' := s'.loanFreeRun prt (locOff p.tw.tma) (cvnTwinLen p)
          if twin = 2 then s'.queueRepair lpn else s'
      else s'
    let s' := if usesFrit p then s'.refFrit p.pl.frit p.fritVer false else s'
    let s' := if usesFrit p' then s'.refFrit pl.frit fritVer true else s'
    some (s'.spoil lpn)

/-! ### The sector write-back (R181, R224–R228, R281, R329) -/

/-- What a write-back brings: the body the encoder chose (R219), the allocator's choice, and the missing lines that could not be read, with their
poison cause. -/
structure WbIn where
  body : List Byte
  hint : Nat
  lost : List (Nat × Nat)
  deriving DecidableEq, Repr

/-- The record of a sector that is written with the marking (R329). -/
def deadSeg : Seg := { span := 34, body := List.replicate 513 0 }

/-- The dirty lines of a sector. -/
def State.dirtyLines (s : State) (lpn k : Nat) : List Nat :=
  ((List.range 8).map (fun i => 64 * lpn + 8 * k + i)).filter (fun l =>
    match s.lcOf l with | some c => c.dirty && !c.prov | none => false)

/-- A line of the merged sector: its data and whether it is poison, with the cause. -/
def State.mergedLine (s : State) (line : Nat) (lost : List (Nat × Nat)) : Line × Option Nat :=
  let media := (tgetD 0 line s.pg.mem, if s.pg.poison.contains line then some 0 else tget line lost)
  match s.lcOf line with
  | some c => if c.prov then media else (c.data, if c.poison then some c.cause else none)
  | none => media

/-- Put lines on media: content and poison marking. -/
def State.storeLines (s : State) : List (Nat × Line × Option Nat) → State
  | [] => s
  | (line, d, po) :: rest =>
    let s := { s with pg := { s.pg with
        mem := tputD 0 line (if po.isSome then 0 else d) s.pg.mem
        poison := if po.isSome then s.pg.poison else lremove line s.pg.poison } }
    let s := match po with | some c => s.markPoison line c | none => s
    s.storeLines rest

/-- The lines of a sector become clean in the line cache. -/
def State.cleanSector (s : State) (lpn k : Nat) : State :=
  s.coh' (fun c => { c with lc := c.lc.map (fun p =>
    if p.1 / 8 = 8 * lpn + k then (p.1, { p.2 with dirty := false }) else p) })

/-- The dirty lines of a sector are dropped. -/
def State.dropSector (s : State) (lpn k : Nat) : State :=
  s.coh' (fun c => { c with lc := c.lc.filter (fun p => decide (p.1 / 8 ≠ 8 * lpn + k)) })

/-- An exhaustion move of a page is due and cannot run (R284). -/
def State.exhaustBlocked (s : State) (lpn : Nat) : Bool :=
  let p := s.page lpn
  let x := s.get .SEC_CTL_EXHAUST_KS
  (List.range 8).any (fun k => decide (0xFFFFFFFFFFFFFFFE ≤ s.ctr lpn k))
    && (!s.slotActive x || x == p.pl.ks || decide (2 ^ 63 ≤ s.get .SEC_KS_FLOOR_VALUE x))

/-- Raise a sector's counter; at the last value but one an exhaustion move is queued (R284). -/
def State.raiseCtr (s : State) (lpn k ks : Nat) : State :=
  let v := s.ctr lpn k + 1
  let s := s.putCtr lpn k ks v
  if v = 0xFFFFFFFFFFFFFFFE then
    (s.enqueue 2 { lpn := lpn, ver := (s.page lpn).pl.ver, cls := 0, target := s.tier lpn }).report
      (if s.exhaustBlocked lpn then msg2 bSec (s.home lpn) 8 (lpn * 4096) else msg1 bSec (s.home lpn) 8 (lpn * 4096))
  else s

/-- Raise the counter of every sector. -/
def State.raiseAll (s : State) (lpn ks : Nat) : State := (List.range 8).foldl (fun (s : State) k => s.raiseCtr lpn k ks) s

/-- The policy mode for a page's tier (R219); a lent page follows the floor tier of its profile (DESIGN CHOICE, log 119). -/
def State.policy (s : State) (pl : Place) : Nat :=
  let t := if pl.tier = 4 then s.get .XLT_OBJ_FLOOR pl.obj else pl.tier
  if t = 3 then s.get .CDC_POL_CULL_MODE pl.obj else s.get .CDC_POL_LEHR_MODE pl.obj

/-- The frit version and contents a page's encoder may use (R214, R216): the page's own version, or the current one. -/
def State.fritFor (s : State) (lpn : Nat) (pl : Place) (own : Option Nat) : Option (Nat × Frit) :=
  let f := pl.frit
  let ver := own.getD (s.fritVerAt f (s.get .CDC_FRIT_STS_CUR f))
  match s.fritSlot f ver with
  | none => none
  | some sl =>
    match tget (2 * f + sl) s.cdc.store with
    | none => none
    | some x => if x.oneTc ∧ ¬ s.inWindow x.scope lpn then none else some (ver, x)

/-- The encoder of a slice reads a version of a frit. -/
def State.fritLoad (s : State) (n f : Nat) (ver : Option Nat) : State :=
  match ver.bind (s.fritSlot f) with
  | some sl => s.fritUse n (2 * f + sl)
  | none => s

/-- A channel in HOLD takes no writes (R353). -/
def State.heldCh (s : State) (c : Nat) : Bool := s.chState c == 4

/-- Channels of the primary, and of the local twin. -/
def State.primChs (s : State) (p : Page) : List Nat :=
  (List.range (imageLen p.pl)).map (fun k => s.chanOf (p.pl.ma + k)) ++ p.tag.toList.map s.chanOf
def State.twinChs (s : State) (p : Page) : List Nat := (List.range (twinLen p)).map (fun k => s.chanOf (p.tw.tma + k))

/-- Drop a twin whose write cannot be made (R192, R353). -/
def State.dropAnyTwin (s : State) (lpn : Nat) : State :=
  let p := s.page lpn
  if p.pl.twk = 2 then
    (s.loanFreeRun (locPort p.tw.tma) (locOff p.tw.tma) (cvnTwinLen p)).setPage lpn { p with pl := { p.pl with twk := 0 }, tw := {} }
  else s.dropTwin lpn

/-- Put the new record of a sector in place (R224 step 6a), or lay the image out anew (6b), or store the page raw (R228).
`lines` is the merged sector, or zeros where the record is written with the marking (`marked`: the cause). False: a lent page found no room at its lender, and nothing is written yet. A lent page that must be stored raw takes the floor
tier of its profile (DESIGN CHOICE, log 119). -/
def State.writeRecord (s : State) (lpn k : Nat) (seg : Seg) (ver : Nat) (lines : List (Nat × Line × Option Nat)) (hint : Nat)
    (avoid : List Nat) (marked : Option Nat) : State × Bool :=
  let p := s.page lpn
  let poison := marked.isSome
  let cause := marked.getD 0
  let old := p.segs.getD k {}
  let segs := p.segs.set k { seg with span := max seg.span (if avoid = [] then old.span else seg.span) }
  let uses := fun (l : List Seg) => usesFrit { p with segs := l }
  if avoid = [] ∧ old.span ≠ 0 ∧ seg.span ≤ old.span then
    let was := usesFrit p
    let s := s.putPage lpn { p with segs := segs, fritVer := if uses segs then ver else 0 }
    let s := if ¬ was ∧ uses segs then s.refFrit p.pl.frit ver true
      else if was ∧ ¬ uses segs then s.refFrit p.pl.frit p.fritVer false else s
    let s := (s.raiseCtr lpn k p.pl.ks).storeLines lines
    let s := if poison then s.poisonMedia (64 * lpn + 8 * k) cause else s
    let off := ((layout (segs.map (fun g => 16 * g.span))).1.getD k none).getD 32
    let header := headOfPage lpn p != headOfPage lpn (s.page lpn)
    let inPlace := fun (s : State) (ma : Nat) =>
      let s := s.writeLines (4 * ma + off / 64) ((off % 64 + 16 * old.span + 63) / 64)
      if header ∧ 64 ≤ off then s.writeLines (4 * ma) 1 else s
    let s := if p.pl.tier = 4 then (if header then s.sendHeader lpn false else s).sendSector lpn k 1 |>.1 else inPlace s p.pl.ma
    let s := if p.pl.twk = 1 then inPlace s p.tw.tma else if p.pl.twk = 2 ∧ header then s.sendHeader lpn true else s
    (s.spoil lpn, true)
  else
    let segs := p.segs.set k seg
    let pl := withLayout p.pl segs
    let s := (s.bump .CDC_SLICE_CNT_GROW 0x7FFF (s.home lpn)).count (.slice (s.home lpn)) 0x0B 1 s.mem.who
    let a := s.acct lpn
    if pl.len < 16 then
      if p.pl.tier = 4 then
        match loanRun (s.port (locPort p.pl.ma)) pl.len hint with
        | some l =>
          let prt := locPort p.pl.ma
          let s := s.loanTake prt l (2 * lpn) pl.len
          let s := s.loanFreeRun prt (locOff p.pl.ma) p.pl.len
          let s := s.putPage lpn { p with pl := { pl with ma := mkLoc prt l, ver := (p.pl.ver + 1) % 256 }, segs := segs,
                                          fritVer := if uses segs then ver else 0, laid := (p.pl.ver + 1) % 256 }
          let s := if ¬ usesFrit p ∧ uses segs then s.refFrit p.pl.frit ver true
            else if usesFrit p ∧ ¬ uses segs then s.refFrit p.pl.frit p.fritVer false else s
          let s := (s.raiseCtr lpn k p.pl.ks).storeLines lines
          let s := if poison then s.poisonMedia (64 * lpn + 8 * k) cause else s
          ((s.sendPage lpn 1 (8 * lpn + k)).1.spoil lpn, true)
        | none => (s.askGrow (locPort p.pl.ma) 1, false)
      else if ¬ s.backed a (pl.len + (if p.pl.twk = 1 then pl.len else 0)) then (s.exhaust lpn none, true)
      else match s.relocate lpn { pl with code := s.codeFor lpn p.pl.obj } segs (if uses segs then ver else 0) p.pl.twk hint avoid with
        | some s =>
          let s := (s.raiseCtr lpn k p.pl.ks).storeLines lines
          (if poison then s.poisonMedia (64 * lpn + 8 * k) cause else s, true)
        | none => (s.exhaust lpn none, true)
    else
      let t := if p.pl.tier = 4 then s.get .XLT_OBJ_FLOOR p.pl.obj else p.pl.tier
      let pl := { p.pl with tier := t, ns := true, len := 0, hint := 0, code := s.codeFor lpn p.pl.obj }
      if ¬ s.backed a (16 + (if p.pl.twk = 1 then 16 else 0)) then (s.exhaust lpn none, true)
      else match s.relocate lpn pl [] 0 p.pl.twk hint avoid with
        | some s =>
          let s := (s.raiseAll lpn p.pl.ks).storeLines lines
          (if poison then s.poisonMedia (64 * lpn + 8 * k) cause else s, true)
        | none => (s.exhaust lpn none, true)

/-- The page holds only zeros, each segment PATTERN of zeros or ZERO (R223). -/
def State.allZero (s : State) (lpn : Nat) : Bool :=
  let p := s.page lpn
  decide (2 ≤ p.pl.tier ∧ p.pl.tier ≤ 4) && !p.pl.ns && !p.pl.pin
    && p.segs.all (fun g => g.span == 0 || g.mode == 2)
    && !s.pg.mem.any (fun e => e.1 / 64 == lpn) && !s.pg.poison.any (fun l => l / 64 == lpn)

/-- Why a write-back of a page waits (R226, R353, R417): a move holds it, a channel is frozen or paused, a lender is away. -/
def State.wbWaits (s : State) (p : Page) : Bool :=
  p.pl.lock || (s.primChs p ++ s.twinChs p).any (fun c => s.chState c == 3 || s.chState c == 5)
    || (p.pl.tier == 4 && !s.portUp (locPort p.pl.ma))

/-- One sector read-modify-write of a page with media, under no lock and with its key (R181, R224). A twin whose channel is in HOLD is dropped (R353), but
that of a Table page, which always has one (R126), moves with its primary. -/
def State.writeSector (s : State) (lpn k : Nat) (w : WbIn) : State :=
  let n := s.home lpn
  let p := s.page lpn
  let s := if p.pl.twk = 1 ∧ p.pl.tier ≠ 5 ∧ (s.twinChs p).any s.heldCh then (s.dropAnyTwin lpn).queueRepair lpn else s
  let p := s.page lpn
  let avoid := (s.primChs p ++ if p.pl.tier = 5 then s.twinChs p else []).filter s.heldCh
  let s := s.count (.slice n) 0x0A 1 s.mem.who
  let lines := (List.range 8).map (fun i => let l := 64 * lpn + 8 * k + i; (l, s.mergedLine l w.lost))
  let (s, stored) :=
    if isRaw p.pl then
      if avoid = [] then
        let s := (s.raiseCtr lpn k p.pl.ks).storeLines lines
        let s := s.writeLines (4 * p.pl.ma + 8 * k) 8
        let s := if p.pl.twk = 1 then s.writeLines (4 * p.tw.tma + 8 * k) 8 else s
        (s.spoil lpn, true)
      else match s.relocate lpn p.pl p.segs 0 p.pl.twk w.hint avoid with
        | some s => ((s.raiseCtr lpn k p.pl.ks).storeLines lines, true)
        | none => (s.exhaust lpn none, true)
    else if lines.any (fun x => x.2.2.isSome) then
      let cause := (lines.findSome? (fun x => x.2.2)).getD 0
      s.writeRecord lpn k deadSeg p.fritVer (lines.map (fun x => (x.1, (0 : Line), none))) w.hint avoid (some cause)
    else
      let sec := lines.flatMap (fun x => lineBytes x.2.1)
      let frit := s.fritFor lpn p.pl (if usesFrit p then some p.fritVer else none)
      let s := if s.policy p.pl = 7 then s.fritLoad n p.pl.frit (frit.map (·.1)) else s
      let (body, bad) := encodeSector (s.policy p.pl) (frit.map (·.2)) (s.isSet .CDC_CTL_VERIFY) sec w.body
      let s := if bad then (s.bump .CDC_SLICE_CNT_VERIFY_FAIL 0xFFFF n).report (msg1 bCdc n 1 (lpn * 4096)) else s
      let seg := segOf body
      let zero := k ≠ 0 ∧ isPattern sec ∧ (sec.take 8).all (· == 0)
      if zero ∧ (p.segs.getD k {}).span = 0 then ((s.raiseCtr lpn k p.pl.ks).storeLines lines, true)
      else s.writeRecord lpn k seg (if seg.mode = 7 then (frit.map (·.1)).getD 0 else p.fritVer) lines w.hint avoid none
  if ¬ stored ∨ ¬ hasImage (s.tier lpn) then s
  else
    let s := s.cleanSector lpn k
    if s.allZero lpn ∧ (List.range 8).all (fun j => s.dirtyLines lpn j = []) then s.vacate lpn 0 else s

/-- A sector of media becomes poison and is written back with the marking (R193, R296, R329): a line of a raw frame alone, else the sector as a record of
SPAN 34. Where its image grows to, an allocation may choose (R222). -/
def State.markSector (s : State) (line cause : Nat) : State :=
  let lpn := line / 64
  if isRaw (s.page lpn).pl ∨ s.pg.poison.contains (line / 8 * 8) ∨ ¬ hasImage (s.tier lpn) then s.poisonMedia line cause
  else
    let k := line / 8 % 8
    let at' := (s.page lpn).tw.tma
    let (s, _) := s.drawn.writeRecord lpn k deadSeg (s.page lpn).fritVer ((List.range 8).map (fun i => (line / 8 * 8 + i, (0 : Line), none))) s.draw []
      (some cause)
    let s := if hasImage (s.tier lpn) then s.poisonMedia line cause else s
    if (s.page lpn).pl.twk ≠ 2 then s
    else if (s.page lpn).tw.tma = at' then (s.sendSector lpn k 2).1 else (s.sendPage lpn 2 (8 * lpn)).1

/-- A write-back of the dirty lines of a sector (R181, R224–R228). It waits while `wbWaits`; what was written to a page that has
lost its key or its leaf since is discarded; a page that R223 has turned into Zero meanwhile gets an image again. -/
def State.writeBack (s : State) (lpn k : Nat) (w : WbIn) : State :=
  let p := s.page lpn
  if s.dirtyLines lpn k = [] ∨ s.wbWaits p then s
  else
    let (s, out) := if p.pl.tier = 0 then s.firstWrite lpn p.pl.obj p.pl.sh w.hint none else (s, .done)
    let p := s.page lpn
    if out = .dropped ∨ ¬ hasImage p.pl.tier then s.dropSector lpn k
    else if ¬ s.slotActive p.pl.ks ∨ s.unverif lpn ∨ s.exhaustBlocked lpn then
      (s.dropSector lpn k).noKey lpn (¬ s.slotActive p.pl.ks)
    else s.writeSector lpn k w

end Sys2Proof.Machine
end

