-- ==== Sys2Proof/Machine/Offline.lean ====
section
/-!
DEFINITION. A channel leaves service (R6, R355): its pages turn to their twins or become Poisoned, and `mem.channel_offline`.
-/
namespace Sys2Proof.Machine
open Sys2Proof

/-- A granule of a channel with ROLE 1 to 6 (R355). -/
def State.holdsPages (s : State) (c : Nat) : Bool := s.chUsed c != 0

/-- The page has a granule of its primary, or of its twin, on a channel. -/
def State.primOn (s : State) (p : Page) (c : Nat) : Bool := (s.primChs p).contains c

def State.twinOn (s : State) (p : Page) (c : Nat) : Bool :=
  (List.range (twinLen p)).any (fun k => s.chanOf (p.tw.tma + k) == c)

/-- The local twin becomes the primary (R355): TWK 0, VER + 1, a twin repair queued. -/
def State.promoteTwin (s : State) (lpn : Nat) : State :=
  let p := s.page lpn
  let s := (s.freeRun p.pl.ma (imageLen p.pl)).freeTab p.tag
  let own := s.pg.own.map (fun e => if e.2.lpn = lpn ∧ e.2.role = 2 then (e.1, { e.2 with role := 1 }) else e)
  let s := { s with pg := { s.pg with own := own } }
  let pl := { p.pl with ma := p.tw.tma, twk := 0, ver := (p.pl.ver + 1) % 256, code := if p.tw.tns then 0 else p.pl.code }
  (s.setPage lpn { p with pl := pl, tw := {}, tag := none }).queueRepair lpn

/-- The Caravan twin becomes the primary (R6, R355): the page is then in tier Caravan at the twin's place. -/
def State.promoteRemote (s : State) (lpn : Nat) : State :=
  let p := s.page lpn
  let s := (s.freeRun p.pl.ma (imageLen p.pl)).freeTab p.tag
  let s := s.loanTake (locPort p.tw.tma) (locOff p.tw.tma) (2 * lpn) p.tw.tlen
  let pl := { p.pl with tier := 4, ma := p.tw.tma, len := p.tw.tlen, ns := false, twk := 0, ver := (p.pl.ver + 1) % 256 }
  (s.setPage lpn { p with pl := pl, tw := {}, tag := none }).queueRepair lpn

/-- A page takes a new image from a twin off the channel: a raw Caravan twin, which no entry of tier Caravan can name (R125), and a page of tier
Table, which keeps a twin and the Strong code (R125, R126). None: no granules (log 110). -/
def State.rebuilt (s : State) (c lpn : Nat) : Option State :=
  let p := s.page lpn
  let table := decide (p.pl.tier = 5)
  (s.relocate lpn { p.pl with code := if table then 1 else p.pl.code } p.segs p.fritVer (if table then 1 else 0) 0 [c]).map
    (fun t => t.queueRepair lpn)

/-- A page with no twin off a lost channel becomes Poisoned (R256), with the record of R68. -/
def State.lostPage (s : State) (lpn : Nat) : State :=
  let p := s.page lpn
  let s := s.loanFreeRun (locPort p.tw.tma) (locOff p.tw.tma) (cvnTwinLen p)
  (s.poisonPage lpn).logAll 2 { handle := 0, kind := 3, typ := 1, a := lpn + 7 * 2 ^ 36 } s.stewards

/-- A page loses the channel (R6, R355): a twin off the channel, local or over Caravan, becomes its primary. -/
def State.loseChannel (s : State) (c lpn : Nat) : State :=
  let p := s.page lpn
  if s.primOn p c then
    if p.pl.twk = 1 ∧ ¬ s.twinOn p c then
      if p.pl.tier = 5 then (s.rebuilt c lpn).getD (s.promoteTwin lpn) else s.promoteTwin lpn
    else if p.pl.twk = 2 ∧ s.twinReadable p then
      if p.tw.tns then (s.rebuilt c lpn).getD (s.lostPage lpn) else s.promoteRemote lpn
    else s.lostPage lpn
  else if s.twinOn p c then
    if p.pl.tier = 5 then (s.rebuilt c lpn).getD (s.queueRepair lpn) else (s.dropTwin lpn).queueRepair lpn
  else s

/-- Fixed metadata areas of a channel move to others (R355, R477 step 2, R579): each copy to the roomiest channel that holds no other copy of it
(DESIGN CHOICE, log 50); the owner table of the channel itself stays where it is. The nodes of a pool that moves have new addresses. -/
def State.moveFixed (s : State) (c : Nat) : State :=
  let s := (s.pg.areas.filter (fun p => p.2.places.any (fun ma => s.chanOf ma == c))).foldl (fun (s : State) p => s.moveArea p.1 c) s
  let pool := fun (k : Nat) (n : Node) => if k / 2 ^ 24 = 3 then n else (s.nodePair k).getD n
  { s with pg := { s.pg with nodes := s.pg.nodes.map (fun p => (p.1, pool p.1 p.2)) } }

/-- The copies of node units on a channel move to others (log 113), each away from its twin copy where that can be. -/
def State.moveUnits (s : State) (c : Nat) : State :=
  let away := fun (s : State) (key : Nat) (n : Node) =>
    if s.chanOf n.a ≠ c ∧ s.chanOf n.b ≠ c then s
    else
      let keep := if s.chanOf n.a = c then n.b else n.a
      let cs := (List.range 16).filter (fun d => d ≠ c && (s.findUnit d).isSome)
      match (s.roomiest (lremove (s.chanOf keep) cs) <|> s.roomiest cs).bind s.findUnit with
      | some m => { s with pg := { s.pg with nodes := tput key (if s.chanOf n.a = c then { n with a := m } else { n with b := m }) s.pg.nodes } }
      | none => s
  (s.pg.nodes.filter (fun p => decide (p.1 / 2 ^ 24 = 3))).foldl (fun (s : State) p => away s p.1 p.2) s

/-- A channel goes OFFLINE; with force every page on it is settled first (R355, R261). -/
def State.takeOffline (s : State) (c : Nat) : State :=
  let s := s.pg.pages.foldl (fun s p => s.loseChannel c p.1) ((s.moveFixed c).moveUnits c)
  let s := (s.setChan c { s.chan c with hold := none, wasHeld := false }).put .MEM_FRZ_STS_HELD 0 c
  let s := (s.put .MEM_FRZ_STS_FROZEN 0 c).setChState c 6
  let s := s.clearOwner c
  s.recap

/-- MEM_CHANNEL_OFFLINE (R261, R355–R357). -/
def execMemChannelOffline (q : Req) (s : State) : Res :=
  let c := par q 0x10 1
  serve { op := 0x0905, priv := 2, fields := [fld 0x10 1, fbits 0x11 0 1] } q (firstBad [(0x10, decide (c < 16))]) (fun s =>
    if ¬ parBit q 0x11 0 ∧ s.holdsPages c then refuse s stBusy 0
    else pendDone (s.takeOffline c) (.offline c) stOk 0 0) s

end Sys2Proof.Machine
end

