-- ==== Sys2Proof/Machine/Heat.lean ====
section
/-!
DEFINITION. Heat and the passes that turn it into queue entries (R232–R246), and the room a move holds (R247–R251).
-/
namespace Sys2Proof.Machine
open Sys2Proof

/-! ### What a pass finds (R234, R240–R245) -/

/-- The pressure level is red or exhausted. -/
def State.red (s : State) : Bool := decide (2 ≤ s.get .XLT_PRESS_STS_LEVEL)

/-- Tiering may move the page by heat (R234). -/
def byHeat (p : Place) : Bool := decide (1 ≤ p.tier ∧ p.tier ≤ 4) && !p.sh && !p.pin

/-- thr of `cold_step` (R238). -/
def State.coldThr (s : State) (p : Place) : Nat := 2 ^ (4 - s.get .XLT_OBJ_AGE p.obj)

/-- The account of a page is beyond its commitment (R254). -/
def State.beyond (s : State) (lpn : Nat) : Bool := !s.within (s.acct lpn) (s.used (s.acct lpn))

/-- R242. -/
def State.promotable (s : State) (p : Place) : Bool :=
  byHeat p && decide (2 ≤ p.tier ∧ s.get .XLT_OBJ_CEIL p.obj < p.tier ∧ s.get .XLT_OBJ_PROMO p.obj ≤ p.heat) && !s.red

/-- R243. -/
def State.demotable (s : State) (lpn : Nat) (p : Place) : Bool :=
  byHeat p && decide (p.tier < s.get .XLT_OBJ_FLOOR p.obj) &&
    (decide (p.heat < s.coldThr p) || (s.red && s.beyond lpn && decide (p.heat < s.get .XLT_OBJ_PROMO p.obj)))

/-- A Caravan port that takes loans: UP with BORROW_EN. -/
def State.canBorrow (s : State) : Bool := [0, 1].any (fun p => s.portUp p && s.isSet .CVN_PORT_CFG_BORROW_EN p)

/-- R244. A page with a Caravan twin, which `tier.twin` may have asked for, is not lent (DEDUCED, log 136). -/
def State.lendable (s : State) (lpn : Nat) (p : Place) : Bool :=
  byHeat p && decide (p.tier < 4 ∧ p.tier = s.get .XLT_OBJ_FLOOR p.obj ∧ p.heat < s.coldThr p) && s.isSet .XLT_OBJ_LEND p.obj
    && !isRaw p && p.twk != 2 && decide (1 ≤ s.get .XLT_PRESS_STS_LEVEL) && s.beyond lpn && s.canBorrow

/-- The page lies outside the bounds of its profile (R245 class 5). A pinned page never does (R265); a shared one only by its
code. -/
def State.outside (s : State) (p : Place) : Bool :=
  let code := decide (1 ≤ p.tier ∧ p.tier ≤ 3 ∧ p.code ≠ s.get .XLT_OBJ_CODE p.obj)
  if p.pin ∨ ¬ (1 ≤ p.tier ∧ p.tier ≤ 4) then false
  else if p.sh then code && p.tier == 1
  else code || (p.tier == 4 && !s.isSet .XLT_OBJ_LEND p.obj)
    || (decide (p.tier ≤ 3) && decide (p.tier < s.get .XLT_OBJ_CEIL p.obj ∨ s.get .XLT_OBJ_FLOOR p.obj < p.tier))

/-- The twin a page must have now: a Table page a local one (R126), another its twin need (R250); a twin beyond the profile waits
while pressure is not green (R259), and a Caravan page takes no Caravan twin (R125). -/
def State.twinDue (s : State) (p : Page) : Nat :=
  let need := if s.get .XLT_PRESS_STS_LEVEL = 0 then s.twinNeed p else s.get .XLT_OBJ_TWIN p.pl.obj
  if p.pl.tier = 5 then 1 else if p.pl.tier = 4 ∧ need = 2 then 0 else need

/-- A twin is required or requested and absent (R245 class 3). -/
def State.twinShort (s : State) (p : Page) : Bool := hasImage p.pl.tier && decide (p.pl.twk < s.twinDue p)

/-- The page is on a version of its frit that is not current (R245 class 9). -/
def State.oldFrit (s : State) (p : Page) : Bool :=
  usesFrit p && decide (p.pl.tier = 3 ∧ p.fritVer ≠ s.fritVerAt p.pl.frit (s.get .CDC_FRIT_STS_CUR p.pl.frit))

/-- The floor tier of a page's profile. -/
def State.floorOf (s : State) (p : Place) : Nat := s.get .XLT_OBJ_FLOOR p.obj

/-- One step hotter; a Caravan page goes to its floor tier (R233). -/
def State.hotter (s : State) (p : Place) : Nat := if p.tier = 4 then s.floorOf p else p.tier - 1

/-- The tier the bounds ask for. -/
def State.bounded (s : State) (p : Place) : Nat :=
  if p.sh then 1
  else if p.tier = 4 then s.floorOf p
  else if p.tier < s.get .XLT_OBJ_CEIL p.obj then s.get .XLT_OBJ_CEIL p.obj
  else if s.floorOf p < p.tier then s.floorOf p else p.tier

/-! ### The passes (R236–R241) -/

/-- `hot_step` of R236. -/
def State.hotStep (s : State) (lpn : Nat) : State :=
  let p := s.page lpn
  if p.pl.a ∧ 1 ≤ p.pl.tier ∧ p.pl.tier ≤ 5 then
    let inc := if p.pl.d then s.get .XLT_TIER_CTL_WINC else s.get .XLT_TIER_CTL_INC
    let pl := { p.pl with heat := min 15 (p.pl.heat + inc), a := false, d := false }
    let s := s.putPage lpn { p with pl := pl }
    let s := if s.promotable pl then s.enqueue 0 { lpn := lpn, ver := pl.ver, cls := 7, target := s.hotter pl } else s
    if pl.sh ∧ 2 ≤ pl.tier ∧ pl.tier ≤ 4 then s.enqueue 2 { lpn := lpn, ver := pl.ver, cls := 2, target := 1 } else s
  else s

/-- The tests of a cold pass that queue demotion and lending. Under red pressure they are of the pressure class. -/
def State.coldTest (s : State) (lpn : Nat) : State :=
  let p := (s.page lpn).pl
  let cls := if s.red then 6 else 8
  if s.demotable lpn p then s.enqueue 1 { lpn := lpn, ver := p.ver, cls := cls, target := p.tier + 1 }
  else if s.lendable lpn p then s.enqueue 1 { lpn := lpn, ver := p.ver, cls := 6, target := 4 }
  else s

/-- The tests that fill the forced queue: bounds, missing twins, old frit versions, shared pages not in Furnace,
and pages a `tier.pin` still waits for. -/
def State.boundsTest (s : State) (lpn : Nat) : State :=
  let p := s.page lpn
  let s := if s.outside p.pl ∨ (p.pl.tier = 4 ∧ s.recalled p.pl.ma) then s.enqueue 2 { lpn := lpn, ver := p.pl.ver, cls := 5, target := s.bounded p.pl } else s
  let s := if s.twinShort p then s.enqueue 2 { lpn := lpn, ver := p.pl.ver, cls := 3, target := p.pl.tier } else s
  let s := if s.oldFrit p then s.enqueue 2 { lpn := lpn, ver := p.pl.ver, cls := 9, target := p.pl.tier } else s
  let s := match s.pg.opPages.find? (fun o => o.lpn == lpn && !o.twin && p.pl.pin && o.want != p.pl.tier) with
    | some o => s.enqueue 2 { lpn := lpn, ver := p.pl.ver, cls := 4, target := o.want }
    | none => s
  if p.pl.sh ∧ 2 ≤ p.pl.tier ∧ p.pl.tier ≤ 4 then s.enqueue 2 { lpn := lpn, ver := p.pl.ver, cls := 2, target := 1 } else s

/-- `cold_step` of R238. -/
def State.coldStep (s : State) (lpn : Nat) : State :=
  let p := (s.page lpn).pl
  if 1 ≤ p.tier ∧ p.tier ≤ 4 then
    let s := (s.coldTest lpn).boundsTest lpn
    let s := { s with pg := { s.pg with histNew := tputD 0 p.heat (tgetD 0 p.heat s.pg.histNew + 1) s.pg.histNew } }
    let q := s.page lpn
    s.putPage lpn { q with pl := { q.pl with heat := q.pl.heat / 2 } }
  else s

/-- The LPNs the placement map lists. -/
def State.lpns (s : State) : List Nat := s.pg.pages.map (·.1)

/-- Granules and pages that the pages of an account hold under the contexts as they are. -/
def State.recount (s : State) (a : Nat) : Nat × Nat :=
  s.pg.pages.foldl (fun (n : Nat × Nat) x =>
    if s.acct x.1 = a then (n.1 + pageCharge x.2, n.2 + b2n (hasImage x.2.pl.tier)) else n) (0, 0)

/-- The accounts that hold pages, or that are counted as holding some. -/
def State.accounts (s : State) : List Nat :=
  let held := s.lpns.foldl (fun (l : List Nat) x => linsert (s.acct x) l) []
  (List.range 257).filter (fun a => held.contains a || s.used a != 0 || s.pop a != 0 || (tget a s.pg.resHold).isSome)

/-- USED_a, POP_a and RES_a counted afresh (R253). Account 257 holds what this device lends. -/
def State.recountAll (s : State) : State :=
  let l := s.accounts
  let s := { s with pg := { s.pg with resHold := [] } }
  let s := l.foldl (fun (s : State) a =>
    let n := s.recount a
    (s.put .XLT_ACCT_VALUE n.1 a 3).put .XLT_ACCT_VALUE n.2 a 2) s
  let used := (List.range 258).foldl (fun n a => n + s.used a) 0
  let res := (List.range 257).foldl (fun n a => n + s.res a) 0
  ((s.put .XLT_CAP_COUNT used 1).put .XLT_CAP_COUNT res 2).repress

/-- The contexts changed: an account whose pages are no longer those it counts keeps the larger of its old and its new reserve
until the next cold pass (R253). `old`: the state before the change. -/
def State.regrant (s : State) (old : State) : State :=
  let moved := s.lpns.filter (fun l => hasImage (s.tier l) && s.acct l != old.acct l)
  let hit := moved.foldl (fun (l : List Nat) x => linsert (s.acct x) (linsert (old.acct x) l)) []
  hit.foldl (fun (s : State) a =>
    let fresh := s.commit a * s.backing a - (s.recount a).1
    let keep := max (s.res a) fresh
    let add := keep - s.res a
    let s := { s with pg := { s.pg with resHold := tput a keep s.pg.resHold } }
    (s.put .XLT_CAP_COUNT (s.get .XLT_CAP_COUNT 2 + add) 2).repress) s

/-! ### The condition of a queued move (R246) and what it does (R245, R247) -/

/-- A channel is being evacuated. -/
def State.evacCh (s : State) (c : Nat) : Bool := s.get .SLT_CH_SVC_SVC c == 1

/-- The page has a granule of its primary, or of its local twin, on a channel that a test picks. -/
def State.primAt (s : State) (p : Page) (f : Nat → Bool) : Bool := (s.primChs p).any f
def State.twinAt (s : State) (p : Page) (f : Nat → Bool) : Bool := (s.twinChs p).any f

/-- The page still meets the condition of its queue; a page that cannot be verified is skipped (R300). -/
def State.meets (s : State) (r : MoveReq) : Bool :=
  let p := s.page r.lpn
  hasImage p.pl.tier && !s.unverif r.lpn &&
    (match r.cls with
    | 0 => (List.range 8).any (fun k => decide (0xFFFFFFFFFFFFFFFE ≤ s.ctr r.lpn k))
    | 1 => s.primAt p s.evacCh || s.twinAt p s.evacCh
    | 2 => p.pl.sh && decide (2 ≤ p.pl.tier ∧ p.pl.tier ≤ 4)
    | 3 => decide (p.pl.twk ≠ 0) || s.twinShort p
    | 4 => p.pl.pin && decide (p.pl.tier ≠ r.target)
    | 5 => s.outside p.pl || (p.pl.tier == 4 && s.recalled p.pl.ma)
    | 6 => if r.target = 4 then s.lendable r.lpn p.pl else s.demotable r.lpn p.pl
    | 7 => s.promotable p.pl
    | 8 => if r.target = 4 then s.lendable r.lpn p.pl else s.demotable r.lpn p.pl
    | _ => s.oldFrit p)

/-- The move may start now: no other move of the page runs (R249), the first throttle action stops all but evacuation and shared
promotion (R248), red pressure stops promotions and recalls from Caravan but for a pin (R259), and an exhaustion move needs its slot (R284). -/
def State.mayMove (s : State) (r : MoveReq) : Bool :=
  let p := s.page r.lpn
  (tget r.lpn s.pg.moves).isNone && s.halt.isNone
    && (s.get .THM_STS_STEP == 0 || r.cls == 1 || r.cls == 2)
    && !(s.red && decide (r.target < p.pl.tier) && (r.cls == 5 || r.cls == 7))
    && !(r.cls == 0 && s.exhaustBlocked r.lpn)

/-! ### Budgets (R248, R305) -/

/-- What a bucket holds when it is full: 64 KiB. -/
def bucketFull : Nat := 65536 * 409600000

/-- The percentage a bucket fills at (R248, R259, R305). -/
def State.budgetShare (s : State) (kind : Nat) : Nat :=
  match kind with
  | 0 => if s.red then s.get .XLT_BUDGET_RED_BUDGET else s.get .XLT_BUDGET_BUDGET
  | 1 => s.get .XLT_BUDGET_EVAC
  | _ => s.get .SEC_CTL_RKEY

/-- What a bucket of a slice holds now: it fills at its share of deliverable bandwidth, without the evacuation term (R432), divided by 16. Buckets start full
(DESIGN CHOICE, log 124). -/
def State.tokens (s : State) (n kind : Nat) : Nat :=
  let (had, at') := tgetD (bucketFull, 0) (3 * n + kind) s.pg.buckets
  min bucketFull (had + s.budgetShare kind * (s.nCounted * least ((channels s.counted).map s.chBw)) * (s.now - at'))

/-- The bytes fit what a bucket holds: a move starts only then (DESIGN CHOICE, log 124). -/
def State.affords (s : State) (n kind bytes : Nat) : Bool := decide (bytes * 409600000 ≤ s.tokens n kind)

/-- Charge a bucket. -/
def State.spend (s : State) (n kind bytes : Nat) : State :=
  { s with pg := { s.pg with buckets := tput (3 * n + kind) (s.tokens n kind - bytes * 409600000, s.now) s.pg.buckets } }

/-- The bytes a move reads and writes (R248). -/
def State.moveBytes (s : State) (m : MoveSt) : Nat :=
  let p := s.page m.req.lpn
  256 * ((if p.pl.tier = 4 then p.pl.len else imageLen p.pl) + m.room + m.troom)

/-- The bucket of a move's class: exhaustion moves run outside every budget (R284). -/
def bucketOf (cls : Nat) : Option Nat := if cls = 0 then none else some (if cls = 1 then 1 else 0)

/-- What a move will do: tier, ciphertext copied, twin only, key slot, code, granules of the image and of the twin, twin kind.
The length of an image that is encoded anew is known at step 5 only, so the move holds 16 granules for it (log 40). -/
def State.plan (s : State) (r : MoveReq) : MoveSt :=
  let p := s.page r.lpn
  let code := if p.pl.tier = 5 then 1 else s.codeFor r.lpn p.pl.obj
  let len := if p.pl.tier = 4 then p.pl.len else imageLen p.pl
  let tl := if p.pl.twk = 1 then twinLen p else cvnTwinLen p
  let m : MoveSt := { req := r, step := 1, tier := r.target, copy := true, twinOnly := false, ks := p.pl.ks, code := code,
                      ma := 0, room := len, tma := 0, troom := 0, tkind := p.pl.twk }
  let fresh := fun (t : Nat) => { m with tier := t, copy := false, room := 16, troom := if p.pl.twk = 0 then 0 else 16 }
  match r.cls with
  | 0 => { m with tier := p.pl.tier, ks := s.get .SEC_CTL_EXHAUST_KS, code := p.pl.code, troom := tl }
  | 1 =>
    if s.primAt p s.evacCh then { m with tier := p.pl.tier, code := p.pl.code }
    else { m with tier := p.pl.tier, twinOnly := true, room := 0, troom := tl, tkind := 1 }
  | 3 =>
    if p.pl.twk ≠ 0 ∧ ¬ s.twinShort p then { m with tier := p.pl.tier, code := p.pl.code }
    else { m with tier := p.pl.tier, twinOnly := true, room := 0, troom := len, tkind := s.twinDue p }
  | _ =>
    if p.pl.tier = r.target then (if isRaw p.pl then m else fresh r.target)
    else if r.target = 4 then m
    else if p.pl.tier = 4 ∧ r.target ≠ 1 then m
    else if isRaw p.pl ∧ r.target = 1 then m
    else fresh r.target

/-- Granules of this device's media that a move holds. -/
def MoveSt.held (m : MoveSt) : Nat := (if m.tier = 4 then 0 else m.room) + (if m.tkind = 2 then 0 else m.troom)

/-- Charge the room of a move to the page's account, or give it back (R249). -/
def State.charge (s : State) (lpn n : Nat) : State := if n = 0 then s else s.addUse (s.acct lpn) n 0 0 0
def State.uncharge (s : State) (lpn n : Nat) : State := if n = 0 then s else s.addUse (s.acct lpn) 0 n 0 0

/-- Take the room of a move's image: local, or at a lender (R244, R249). -/
def State.takeImage (s : State) (m : MoveSt) (hint : Nat) (avoid : List Nat) : Option (State × MoveSt) :=
  if m.twinOnly ∨ m.room = 0 then some (s, m)
  else if m.tier = 4 then
    match s.loanPlace m.room hint with
    | some (p, l) => some (s.loanTake p l (2 * m.req.lpn) m.room, { m with ma := mkLoc p l })
    | none => none
  else
    match s.placePrimary m.req.lpn m.room hint avoid with
    | some ma => some (s.ownRun ma m.req.lpn 1 m.code m.room, { m with ma := ma })
    | none => none

/-- Take the room of a move's twin. -/
def State.takeTwin (s : State) (m : MoveSt) (hint : Nat) : Option (State × MoveSt) :=
  if m.troom = 0 then some (s, m)
  else if m.tkind = 2 then
    match s.loanPlace m.troom hint with
    | some (p, l) => some (s.loanTake p l (2 * m.req.lpn + 1) m.troom, { m with tma := mkLoc p l })
    | none => none
  else
    let prim := if m.twinOnly then (s.page m.req.lpn).pl.ma else m.ma
    match s.placeTwin prim m.troom hint [] with
    | some t => some (s.ownRun t m.req.lpn 2 m.code m.troom, { m with tma := t })
    | none => none

/-- Allocate what a move writes to (R249), or nothing. A copied image keeps off the channels of the twin it keeps. -/
def State.holdRoom (s : State) (m : MoveSt) (hint : Nat) : Option (State × MoveSt) :=
  let p := s.page m.req.lpn
  if ¬ s.backed (s.acct m.req.lpn) m.held then none
  else
    let avoid := if m.troom = 0 then s.twinChs p else []
    (s.takeImage m hint avoid).bind (fun x => (x.1.takeTwin x.2 hint).bind (fun y =>
      if m.code = 1 ∧ m.tier ≠ 4 ∧ ¬ m.twinOnly ∧ (y.1.tagRoom y.2.ma hint []).isNone then none else some (y.1.charge m.req.lpn m.held, y.2)))

/-- Give back everything a move holds. -/
def State.dropRoom (s : State) (m : MoveSt) : State :=
  let s := s.uncharge m.req.lpn m.held
  let s := if m.twinOnly ∨ m.room = 0 then s
    else if m.tier = 4 then s.loanFreeRun (locPort m.ma) (locOff m.ma) m.room else s.freeRun m.ma m.room
  if m.troom = 0 then s
  else if m.tkind = 2 then s.loanFreeRun (locPort m.tma) (locOff m.tma) m.troom else s.freeRun m.tma m.troom

/-- A move that has not locked its page ends at step 1 (R246): nothing changes but the count. -/
def State.staleMove (s : State) (m : MoveSt) : State :=
  let s := { s with pg := { s.pg with moves := tdel m.req.lpn s.pg.moves } }
  (s.dropRoom m).bump .XLT_TIER_SLICE_STALE 0xFFFF (s.home m.req.lpn)

end Sys2Proof.Machine
end

