-- ==== Sys2Proof/Machine/Depart.lean ====
section
/-!
DEFINITION. What ends the work of a head or of a ring: jobs and sessions that end, rings that stop, the departure of a head
(R72–R80, R96, R372, R377), and the security halt (R297–R299).
-/
namespace Sys2Proof.Machine
open Sys2Proof

/-! ### Jobs and sessions that end (R364, R371, R372, R377) -/

def State.job' (s : State) (f : JobSt → JobSt) : State := { s with job := f s.job }

/-- A session becomes broken (R372). -/
def State.breakSession (s : State) (k : Option Nat) : State :=
  match k with
  | none => s
  | some k => match tget k s.job.sessions with
    | some x => s.job' (fun j => { j with sessions := tput k { x with broken := true } j.sessions })
    | none => s

/-- A job leaves the dispatcher and its units; each unit counts an end. -/
def State.removeJob (s : State) (id : Nat) : State :=
  let ran := (s.job.units.filter (fun u => u.2.1 == id)).map (·.1)
  let s := s.job' (fun j => { j with jobs := tdel id j.jobs, queue := j.queue.filter (fun e => e.1 != id)
                                     units := j.units.filter (fun u => u.2.1 != id) })
  ran.foldl (fun (s : State) u => s.bump .JOB_UNIT_CNT_JOBS 0xFFFFFF u) s

/-- A job ends with its reply, or with its FINAL entry after ST_PENDING (R364, R366). Any status but ST_OK breaks its
session. -/
def State.finishJob (s : State) (id status result detail : Nat) : State :=
  match tget id s.job.jobs with
  | none => s
  | some j =>
    let s := s.removeJob id
    let s := if status = stOk then s else s.breakSession j.session
    match j.slot with
    | some k => s.endOp k status detail result
    | none => if j.mute then s else s.reply j.req status result detail 0 []

/-- Source bytes of a job (SRCLEN of R363). -/
def Job.srcLen (j : Job) : Nat := if j.kind = 0 then par j.req 0x20 8 else 0

/-- A job ends early (R364): RESULT is the source offset it reached: 0 when no unit has begun it, else a free value, since the model does not
follow a unit through its source (log 51). -/
def State.cutJob (s : State) (id status detail : Nat) : State :=
  match tget id s.job.jobs with
  | none => s
  | some j =>
    if s.job.units.any (fun u => u.2.1 == id) ∨ 0 < j.copied ∨ j.done ≠ [] then
      s.drawn.finishJob id status (s.draw % (j.srcLen + 1)) detail
    else s.finishJob id status 0 detail

/-- Every job a test picks ends with a status. -/
def State.endJobs (s : State) (p : Job → Bool) (status : Nat) : State :=
  ((s.job.jobs.filter (fun x => p x.2)).map (·.1)).foldl (fun (s : State) id => s.cutJob id status 0) s

/-- A request came by a head. -/
def byHead (h : Nat) (q : Req) : Bool := headOf q.origin == some h

/-- A request came by a ring of a head. -/
def byRing (h r : Nat) (q : Req) : Bool :=
  match q.origin with | .ring a b => a.val == h && b.val == r | _ => false

/-- Sessions a test picks become broken. -/
def State.breakSessions (s : State) (p : Session → Bool) : State :=
  s.job' (fun j => { j with sessions := j.sessions.map (fun x => if p x.2 then (x.1, { x.2 with broken := true }) else x) })

/-! ### Rings (R78, R96) -/

/-- A ring stops with a status (R96); commands already started run to their end, and those whose payload has not come never run. -/
def State.stopRing (s : State) (h r st : Nat) : State :=
  if s.get .HPT_RING_STS_STATE h r = 0 then s
  else
    let s := (s.put .HPT_RING_STS_STATE 2 h r).put .HPT_RING_STS_STOPST st h r
    s.setRing h r { s.ring h r with fetched := [], started := (s.ring h r).started.filter (fun x => !x.wait)
                                    fenced := false, unsignalled := 0, fetching := 0 }

/-- Commands that a test picks wait for PS2 or for a firmware roll no longer (R77, R79). -/
def State.dropWaiters (s : State) (p : Req → Bool) : State :=
  { s with pwr := { s.pwr with waiters := s.pwr.waiters.filter (fun q => !p q), afterRoll := s.pwr.afterRoll.filter (fun q => !p q) } }

/-- Every command of a ring is cancelled and the ring is DISABLED (R96); its jobs end with ST_ABORTED and its sessions break
(R372, R377). -/
def State.abortRing (s : State) (h r : Nat) : State :=
  let s := ((s.put .HPT_RING_STS_STATE 0 h r).put .HPT_RING_STS_STOPST 0 h r).put .HPT_RING_CTL_EN 0 h r
  let s := s.endJobs (fun j => byRing h r j.req) stAborted
  let s := s.breakSessions (fun x => x.ring == (h, r))
  let s := { s with xlt := { s.xlt with waiting := s.xlt.waiting.filter (fun w => !byRing h r w.req) } }
  let s := s.dropWaiters (byRing h r)
  s.setRing h r { pass := (s.ring h r).pass }

/-- Commands of a ring's earlier pass that still run write no completion entry in the new one (R96, R100). -/
def State.muteRing (s : State) (h r : Nat) : State :=
  let s := s.dropWaiters (byRing h r)
  let s := { s with xlt := { s.xlt with waiting := s.xlt.waiting.map (fun (w : Waiting) => if byRing h r w.req then { w with mute := true } else w) } }
  s.job' (fun j => { j with jobs := j.jobs.map (fun (x : Nat × Job) => if byRing h r x.2.req then (x.1, { x.2 with mute := true }) else x) })

/-- The rings of a head that hold anything. -/
def State.ringsOf (s : State) (h : Nat) : List Nat :=
  ((s.host.rings.filter (fun x => x.1 / 64 == h)).map (fun x => x.1 % 64)) ++
    ((List.range 64).filter (fun r => s.get .HPT_RING_STS_STATE h r ≠ 0 && (tget (64 * h + r) s.host.rings).isNone))

/-- A ring register, which FLR, hot reset, CXL Reset and departure reset. -/
def ringReg (r : Reg) : Bool :=
  match r with
  | .HPT_SQ_DB_TAIL | .HPT_CQ_DB_HEAD | .HPT_SQ_BASE_ADDR | .HPT_CQ_BASE_ADDR | .HPT_RING_CFG_SQLOG2 | .HPT_RING_CFG_CQLOG2
  | .HPT_RING_CFG_PRIV | .HPT_RING_CFG_IRQ_EN | .HPT_RING_CFG_COAL_CNT | .HPT_RING_CFG_COAL_US | .HPT_RING_CTL_EN
  | .HPT_RING_STS_STATE | .HPT_RING_STS_SQHEAD | .HPT_RING_STS_CQTAIL | .HPT_RING_STS_PHASE | .HPT_RING_STS_STOPST
  | .HPT_PYX_OPDONE_DONE => true
  | _ => false

/-- The completion timeout T of a head in ns (R72): the lower bound of the sub-range its encoding names in ranges A to D of PCIe (the bounds are
PCIe's but for the default: PRESUMED, log 102). -/
def State.cplT (s : State) (h : Nat) : Nat :=
  match (s.head h).cplValue with
  | 1 => 50000 | 2 => 1000000 | 5 => 16000000 | 6 => 65000000 | 9 => 260000000 | 10 => 1000000000 | 13 => 4000000000 | 14 => 17000000000
  | _ => 16000000

/-- Outstanding bus-master reads of a head are abandoned: their tags are quarantined (R73). -/
def State.abandonReads (s : State) (h : Nat) (p : TagUse → Bool) : State :=
  let hd := s.head h
  let gone := hd.tags.filter (fun t => p t.2)
  s.setHead h { hd with quar := gone.foldl (fun q t => linsert t.1 q) hd.quar
                        quarTo := gone.foldl (fun q t => tput t.1 (s.now + 4 * s.cplT h) q) hd.quarTo
                        tags := hd.tags.filter (fun t => !p t.2), tagAt := hd.tagAt.filter (fun t => !gone.any (fun g => g.1 == t.1)) }

/-- Rings and jobs of a head are aborted, its sessions freed and every ring register reset (R77, R96, R372). -/
def State.abortHead (s : State) (h : Nat) : State :=
  let s := (s.ringsOf h).foldl (fun (s : State) r => s.abortRing h r) s
  let s := s.endJobs (fun j => byHead h j.req) stAborted
  let s := s.job' (fun j => { j with sessions := j.sessions.filter (fun x => x.2.ring.1 != h) })
  let s := s.abandonReads h (fun _ => true)
  s.keepRegs (fun k => !(ringReg k.r && k.i == h))

/-- Function state and MSI-X return to reset; a mailbox command in progress loses its reply (R77, R79). -/
def State.resetFunction (s : State) (h : Nat) (ide : Bool) : State :=
  let hd := s.head h
  let s := { s with xlt := { s.xlt with waiting := s.xlt.waiting.filter (fun w => !(byHead h w.req && !onRing w.req)) } }
  let s := s.dropWaiters (fun q => byHead h q && !onRing q)
  let s := s.setHead h { hd with msix := [], msixPend := [], tag8 := false, cplValue := 0, cplDisable := false, maxPayload := 0, maxRead := 2, aer := 0, bars := []
                                 mbox := none, mboxBusy := false, ideLink := if ide then 0 else hd.ideLink
                                 ideKeyLink := hd.ideKeyLink && !ide, ideKeyMem := hd.ideKeyMem && !ide }
  let s := s.put .HPT_HEAD_STS_BME 0 h
  if ide then s.put .HPT_HEAD_STS_IDE 0 h else s

/-- The HDM decoders of a head are uncommitted, and back-invalidate is off with them. -/
def State.uncommit (s : State) (h : Nat) : State := s.setHead h { s.head h with decoders := [], biDec := false, decodePoison := false }

/-! ### Departure (R75–R77, R173) -/

/-- An event of R75 that strikes head h now is a departure. -/
def State.departs (s : State) (h : Nat) : Bool :=
  s.isSet .HPT_HEAD_STS_LINK_UP h || ((s.head h).training && (s.head h).reachedL0)

/-- Change every request of a head that is on its way. -/
def State.mapOwed (s : State) (h : Nat) (f : CohReq → CohReq) : State :=
  let mine := fun (q : CohReq) => match q.head with | some (k, _) => k == h | none => false
  let off := fun (q : CohReq) => if mine q then f q else q
  s.coh' (fun c => { c with
    trk := c.trk.map (fun t => (t.1, { t.2 with req := off t.2.req }))
    reqs := c.reqs.map (fun t => (t.1, { t.2 with req := off t.2.req }))
    starv := c.starv.map (fun t => (t.1, t.2.map off))
    holdQ := c.holdQ.map (fun t => (t.1, t.2.map off))
    quotaQ := c.quotaQ.map off
    twins := c.twins.map (fun t => { t with acks := t.acks.map off, next := t.next.map off }) })

/-- Responses owed to a head are dropped: what it asked for goes on without one. -/
def State.dropResponses (s : State) (h : Nat) : State :=
  (s.mapOwed h (fun q => { q with head := none, untracked := true })).coh' (fun c => { c with
    parked := c.parked.map (fun a => if a.h = h then { a with gone := true } else a) })

/-- A head's link goes away (R75). Where that is a departure: the head's presence, its port cache, its tollgate counts and its
bus-master reads go, its rings, jobs and decoders too (R77). Where it is not, only configuration space, MSI-X and IDE are
reset. Answers the lines whose back-invalidate snoop counts as answered.  -/
def State.departCore (s : State) (h : Nat) : State × List Nat :=
  if s.departs h then
    let s := (s.put .HPT_HEAD_STS_LINK_UP 0 h).bump .HPT_HEAD_STS_DEP_CNT 0xFFFF h
    let s := s.put .HPT_HEAD_STS_DEPARTING 1 h
    let s := s.setHead h { s.head h with reachedL0 := false, training := false, quiesced := false }
    let s := (s.dropResponses h).dropPort h
    let s := (List.range 16).foldl (fun (s : State) k => s.put .TLG_HQ_COUNT 0 h k) s
    let s := ((s.abortHead h).uncommit h).resetFunction h true
    s.losePresence h
  else
    (s.resetFunction h true, [])

/-! ### The security halt (R297–R299) -/

/-- A Caravan port goes down at once, to FAILED (R407): the replay and receive buffers empty, the link keys zeroised. A port that is OFF
stays so. -/
def State.dropLink (s : State) (p : Nat) : State :=
  let st := s.get .CVN_LINK_STS_STATE p
  let c := s.port p
  let s := s.setPort p { c with rtts := [], sendQ := [], unacked := [], dropping := false, strikes := 0, linkOp := none, linkNext := []
                                txKey := none, rxKey := none, rxNext := none, rxPhase := false, renewing := false
                                parts := [], inbox := [], waits := c.waits.map (fun w => { w with sent := false })
                                peerSync := none, downAt := if c.downAt.isNone ∧ st ≠ 0 then some s.now else c.downAt }
  if st = 0 then s else s.put .CVN_LINK_STS_STATE 7 p

/-- The key store zeroises every slot, KTREE, the link keys and the DRBG state (step 3). -/
def State.zeroiseAll (s : State) : State :=
  let s := (List.range 32).foldl (fun (s : State) k => (s.put .SEC_KS_STS_STATE 0 k).put .SEC_KS_STS_ORIGIN 0 k) s
  let s := (List.range 8).foldl (fun (s : State) h => (s.put .HPT_HEAD_STS_IDE 0 h).setHead h { s.head h with ideLink := 0, ideKeyLink := false, ideKeyMem := false }) s
  { s with sec := { s.sec with keysA := [], keysB := [], treeKey := none, drbg := none, sessions := [], secrets := [] } }

/-- A confirmed Sealed failure halts the device (R297). Every head whose link is up signals CXL viral (event 0x0101). Every slice stops, so nothing that waits at a home goes on; every head
departs without carrying requests out; a second failure changes nothing (R299). -/
def State.haltNow (s : State) (r : HaltRec) : State :=
  if s.halt.isSome then s
  else
    let (s, seq) := s.reportK (msgFatal bSec (s.home r.lpn) 0 (r.lpn * 4096) r.ks) .std false
    let s := { s with halt := some seq, sec := { s.sec with haltRec := some { r with
      src := bSec * 1024 + s.home r.lpn * 16, time := ((s.now : Int) + s.pyx.timeBase).toNat % 2 ^ 64, seq := seq } } }
    let s := (List.range 8).foldl (fun (s : State) h => if s.isSet .HPT_HEAD_STS_LINK_UP h then s.emit (.event 0x0101 h 0) else s) s
    let s := s.zeroiseAll.put .SEC_STS_HALT_REC 1
    let s : State := { s.setDebug 0 0 with acc := { (s.setDebug 0 0).acc with tapMem := none, nonce := none } }
    let s := (List.range 16).foldl (fun (s : State) c => s.clearQueues c) s
    let s := s.coh' (fun c => { c with trk := [], reqs := [], evs := [], wbData := [], wbOut := [], dat := [], starv := [], holdQ := [], quotaQ := []
                                       parked := [], suspects := [], spec := [], twins := [] })
    let s := (List.range 8).foldl (fun (s : State) h => (s.departCore h).1) s
    (s.dropLink 0).dropLink 1

end Sys2Proof.Machine
end

