-- ==== Sys2Proof/Machine/Home.lean ====
section
/-!
DEFINITION. A home serves a request (05_coherence.md, 06_access_paths.md): admission, refusal and starvation, the recalls and
snoops of R155 and R168, the placement of the data, the media read with its checks, and the grant.
-/
namespace Sys2Proof.Machine
open Sys2Proof

/-! ### Requests (R152, R511) -/

/-- The attributes of a request for the performance counters. -/
def reqAttr (q : CohReq) (tier : Nat) : Attr :=
  { master := if q.master < 0x7F then some q.master else none
    priv := if q.master < 8 then 0
      else if (0x0A ≤ q.master ∧ q.master ≤ 0x0D) ∨ (0x13 ≤ q.master ∧ q.master ≤ 0x42) then (if q.sup then 2 else 1) else 3
    lpn := q.line / 64, cls := q.cls, tier := tier }

def CohReq.lpn (q : CohReq) : Nat := q.line / 64

/-- The request asks for ownership. -/
def CohReq.owns (q : CohReq) : Bool :=
  match q.kind with | .readS | .readSnc | .peek => false | _ => true

/-- A request of the home itself (R120, R147, R148). -/
def CohReq.own (q : CohReq) : Bool := match q.kind with | .peek | .seize | .purge => true | _ => false

/-- The request travels as ReadO without FULL, ReadS or ReadS with NC: it needs data. -/
def CohReq.wantsData (q : CohReq) : Bool :=
  match q.kind with | .readOFull | .page => false | _ => true

def State.starvOf (s : State) (n : Nat) : List CohReq := tgetD [] n s.coh.starv
def State.setStarv (s : State) (n : Nat) (l : List CohReq) : State :=
  s.coh' (fun c => { c with starv := tputD [] n l c.starv })
def State.holdOf (s : State) (n : Nat) : List CohReq := tgetD [] n s.coh.holdQ
def State.setHold (s : State) (n : Nat) (l : List CohReq) : State :=
  s.coh' (fun c => { c with holdQ := tputD [] n l c.holdQ })

/-- Trackers in use at a home (R154). -/
def State.trkUsed (s : State) (n : Nat) : Nat := (s.coh.trk.filter (fun t => s.home (t.1 / 64) == n)).length

/-- The class of a request is at its quota at a slice (R426). -/
def State.atQuota (s : State) (n k : Nat) : Bool := decide (s.get .TLG_SQ_QUOTA n k ≤ s.get .TLG_SQ_COUNT n k)

def State.putTrk (s : State) (line : Nat) (t : Trk) : State := s.coh' (fun c => { c with trk := tput line t c.trk })
def State.trkOf (s : State) (line : Nat) : Option Trk := tget line s.coh.trk

/-- The home refuses a request (R158): the Nack, counted. RSN 0 NO_TRACKER, 1 LINE_BUSY. -/
def State.nackReq (s : State) (q : CohReq) (rsn : Nat) (quota : Bool) : State :=
  let n := s.home q.lpn
  let s := s.bump .COH_HOME_CNT_NACKS 0xFFFFFF n
  let s := s.count (.slice n) 0x0C 1 (some (reqAttr q 6))
  let s := if quota then (s.count (.slice n) 0x0E 1 (some (reqAttr q 6))).put .TLG_SQ_WAITING 1 n q.cls else s
  s.toReq q cRSP 1 0 rsn false none

/-- A starving request that cannot be served enters the starvation queue, 16 entries (R159). -/
def State.refuse (s : State) (q : CohReq) (rsn : Nat) (quota : Bool) : State :=
  let n := s.home q.lpn
  if q.att < 8 then s.nackReq q rsn quota
  else if (s.starvOf n).length < 16 then
    (s.setStarv n (s.starvOf n ++ [q])).bump .COH_HOME_CNT_STARVED 0xFFFF n
  else (s.nackReq q rsn quota).report (msg1 bCoh n 4)

/-! ### What a request of a home recalls (R155, R168) -/

/-- The heads a mask names. -/
def headsOf (mask : Nat) : List Nat := (List.range 8).filter (fun h => bit mask h)

/-- The back-invalidate snoops a request needs: (head, kind) with kind 0 BISnpInv, 1 BISnpData. A head access to an HDM-DB line
follows the table of R168; every other request is an internal one. -/
def State.headRecalls (s : State) (q : CohReq) : List (Nat × Nat) :=
  let (mask, excl) := s.presence q.line
  let all := headsOf mask
  if q.kind = .purge then [] else
  match q.mv with
  | some mv =>
    let others := all.filter (· != q.agent)
    if q.write.isSome ∨ mv = 2 then others.map (fun h => (h, 0))
    else if excl then others.map (fun h => (h, 1)) else []
  | none => if q.owns then all.map (fun h => (h, 0)) else if excl then all.map (fun h => (h, 1)) else []

/-- The snoops, the grant state and whether no data travels (R155). A request whose sender is recorded as a holder needs no
snoop of itself. -/
def State.snoopsFor (s : State) (q : CohReq) : List (Nat × Nat) × Nat × Bool :=
  let (mask, _) := s.presence q.line
  match s.sfOf q.line with
  | none =>
    (match q.kind with
      | .readS => ([], if mask ≠ 0 ∨ q.agent < 8 then 1 else 2, false)
      | .readSnc => ([], 0, false)
      | .readOFull => ([], 3, true)
      | .peek | .seize | .purge => ([], 0, true)
      | _ => ([], 3, false))
  | some e =>
    let others := e.holders.filter (· != q.agent)
    let holds := e.holders.contains q.agent
    let fwd := fun (k : Nat) => match e.f with
      | some f => if f = q.agent then [] else [(f, k)]
      | none => if e.st = 3 then others.map (fun a => (a, k)) else []
    match q.kind with
    | .readS => (if e.st = 1 then [] else fwd 1, 1, false)
    | .readSnc => (if e.st = 3 then others.map (fun a => (a, 3)) else [], 0, false)
    | .readOFull => (others.map (fun a => (a, 0)), 3, true)
    | .peek => (if e.st = 3 then others.map (fun a => (a, 3)) else [], 0, true)
    | .seize | .purge => (others.map (fun a => (a, 0)), 0, true)
    | .upgrade =>
      if holds ∧ e.st ≠ 3 then (others.map (fun a => (a, 0)), 3, true)
      else (fwd 2 ++ (others.filter (fun a => !(fwd 2).any (fun p => p.1 == a))).map (fun a => (a, 0)), 3, false)
    | _ => (fwd 2 ++ (others.filter (fun a => !(fwd 2).any (fun p => p.1 == a))).map (fun a => (a, 0)), 3, false)

/-! ### The end of a transaction (R154, R424) -/

/-- A transaction ends: its tracker and its count at the slice go. -/
def State.closeTrk (s : State) (line : Nat) : State :=
  match s.trkOf line with
  | none => s
  | some t =>
    let n := s.home (line / 64)
    let s := s.coh' (fun c => { c with trk := tdel line c.trk })
    if t.req.own then s else s.put .TLG_SQ_COUNT (s.get .TLG_SQ_COUNT n t.req.cls - 1) n t.req.cls

/-- A request is no longer outstanding at its agent. -/
def State.reqDone (s : State) (a line : Nat) : State := s.coh' (fun c => { c with reqs := tdel (agKey a line) c.reqs })

/-- The head has sent its response: its tollgate count falls (R424). -/
def State.headFree (s : State) (h k : Nat) : State := s.put .TLG_HQ_COUNT (s.get .TLG_HQ_COUNT h k - 1) h k

/-! ### Writes at the home (R180, R190–R192, R256, R270, R272, R300) -/

/-- A twin write-through is impossible or late (R192): TWK 0, every waiting writer acknowledged by the caller. -/
def State.twinDrop (s : State) (lpn : Nat) : State :=
  let n := s.home lpn
  ((s.dropAnyTwin lpn).bump .COH_TWIN_CNT_DROPS 0xFFFF n).report (msg2 bSlc n 5 (lpn * 4096))

/-- A writer is acknowledged: the WbM of a port agent, whose write buffer lets the line go and the host's write completes (R150, R156), or the WbM of
another agent. -/
def State.ackWriter (s : State) (q : CohReq) : State :=
  let a := q.agent
  if q.write.isSome then
    let s := ((s.hold a q.line none).coh' (fun c => { c with evs := tdel (agKey a q.line) c.evs })).ackWb a q.line
    match q.head with
    | some (h, tag) => (s.headFree h q.cls).emit (.memCmp h tag)
    | none => s
  else (s.coh' (fun c => { c with evs := tput (agKey a q.line) 3 c.evs })).ackWb a q.line

/-- A write of a line reaches its home: the page is allocated if it is Zero, the line becomes dirty in the line cache, and the
marks are set; where the page cannot take it, the write is complete and discarded. `told`: the read of a partial write has
reported the condition already. -/
def State.applyWrite (s : State) (q : CohReq) (d : Line) (poison : Bool) (cause : Nat) : State × WrOut :=
  let lpn := q.lpn
  let t := s.tier lpn
  let head := match q.head with | some (h, _) => some h | none => none
  let told := decide (q.kind = .readO ∧ q.write.isSome)
  if (s.s2Fault lpn).isSome then
    match s.s2Fault lpn with
    | some (k, l) => (if told then s else s.s2Report lpn k l true q.master, .dropped)
    | none => (s, .dropped)
  else if t = 7 then (s.bump .XLT_PRESS_STS_EXHAUST_DROPS 0xFFFFFFFF, .dropped)
  else
    let (s, out) := if t = 0 then s.firstWrite lpn q.obj q.sh q.hint head else (s, .done)
    if out = .dropped then (s, .dropped)
    else if ¬ s.slotActive (s.page lpn).pl.ks then (s.noKey lpn (!told), .dropped)
    else if s.unverif lpn ∨ s.exhaustBlocked lpn then (s.noKey lpn false, .dropped)
    else ((s.markPage lpn true q.obj q.sh).lcDirty q.line d poison cause q.cls, .done)

/-- Writers of a sector that a Caravan twin must acknowledge wait for it (R190, R191); every other writer is acknowledged at
once. -/
def State.completeWrite (s : State) (q : CohReq) (out : WrOut) : State :=
  let lpn := q.lpn
  let p := s.page lpn
  if out = .done ∧ p.pl.twk = 2 then
    if ¬ s.portUp (locPort p.tw.tma) then (s.twinDrop lpn).ackWriter q
    else
      let k := q.line / 8
      match s.coh.twins.find? (fun t => t.sector == k) with
      | some t =>
        let t' := if t.sent.isSome then { t with next := t.next ++ [q] } else { t with acks := t.acks ++ [q] }
        s.coh' (fun c => { c with twins := c.twins.map (fun x => if x.sector = k then t' else x) })
      | none => s.coh' (fun c => { c with twins := c.twins ++ [{ sector := k, acks := [q], at' := s.now }] })
  else s.ackWriter q

/-- Merge a partial write: byte b of the line is written where bit b of the mask is set. -/
def mergeBytes (old new : Line) (mask : Nat) : Line :=
  BitVec.ofNat 512 ((List.range 64).foldl (fun a b =>
    a + bits (if bit mask b then new.toNat else old.toNat) (8 * b) 8 * 256 ^ b) 0)

/-- Every byte of the line is written. -/
def fullMask : Nat := 2 ^ 64 - 1

/-! ### The grant (R155, R156, R168, R177 steps 8–9) -/

/-- The record of head presence after a head access (R168). A head that has departed, or was reset, since its request gets none (R75, R77). -/
def State.presenceAfter (s : State) (q : CohReq) : State :=
  match (if q.untracked then none else q.mv) with
  | none => s
  | some mv =>
    let (mask, _) := s.presence q.line
    let mine := 2 ^ q.agent
    if q.write.isSome then
      (match mv with
        | 0 => s.clearPresence q.line q.agent
        | 1 => s.setPresence q.line mine false
        | _ => s.setPresence q.line mine true)
    else match mv with
      | 0 => s
      | 1 => s.setPresence q.line (if bit mask q.agent then mask else mask + mine) false
      | _ => s.setPresence q.line mine true

/-- Poison is returned to an access of a head: the poison list, the record with the DPA, the count (R68, R70, R81). -/
def State.headPoison (s : State) (q : CohReq) (h : Nat) : State :=
  let hd := s.head h
  let dpa := q.dpa / 64 * 64
  let s := if hd.poison.contains dpa then s
    else if hd.poison.length < 512 then s.setHead h { hd with poison := hd.poison ++ [dpa] }
    else s.setHead h { hd with poisonOvf := true, poisonOvfTime := s.stamp }
  (s.reportTo (msg1 bHpt h 1 q.dpa) (.poison h q.dpa)).count (.head h) 0x06 1 (some (headAttr h q.lpn q.cls))

/-- Lines of a head's partition of the port cache: 2 MiB in x16 mode, 1 MiB in x8 + x8 mode (R145). -/
def State.portLines (s : State) (h : Nat) : Nat := if s.host.x8.contains (h / 2) then 16384 else 32768

/-- A fill of a full partition evicts a line, from F with an EvF (R149); which is not given, and the model takes the lowest (DESIGN CHOICE, log 114). -/
def State.portEvict (s : State) (h line : Nat) : State :=
  let mine := s.coh.held.filter (fun p => decide (p.1 / 2 ^ 39 = h ∧ p.2.st ≤ 2))
  if mine.length < s.portLines h ∨ mine.any (fun p => p.1 == agKey h line) then s
  else match mine with
    | (k, x) :: _ =>
      let l := k % 2 ^ 39
      let s := s.hold h l none
      if x.st = 2 then (s.coh' (fun c => { c with evs := tput k 0 c.evs })).say { cls := cREQ, code := 4, line := l, src := h, dst := s.homeAg l } else s
    | [] => s

/-- Data returns to a head (R177 step 9): the host gets it; the port cache, if its checker has passed (R323), keeps it in F
where R156 says so and it is not poison. -/
def State.headRead (s : State) (q : CohReq) (h : Nat) (d : Line) (poison : Bool) : State :=
  let s := if poison ∧ q.head.isSome then s.headPoison q h else s
  let s := s.presenceAfter q
  let keep := q.kind = .readS ∧ ¬ poison ∧ bit (s.get .ECC_SELFTEST_PORT_FAIL) (h / 2) = false
  let s := if keep then (s.portEvict h q.line).hold h q.line (some { st := 2, data := d }) else if q.owns then s.hold h q.line none else s
  let holders := match s.sfOf q.line with | some e => e.holders | none => []
  let s := if keep then s.setSf q.line 2 (linsert h holders) (some h) else if q.owns then s.setSf q.line 0 [] none else s
  match q.head with
  | some (_, tag) => ((s.headFree h q.cls).reqDone h q.line).emit (.memData h tag (if poison then 0 else d) poison)
  | none => s.reqDone h q.line

/-- A head write takes ownership, merges, and writes back at once (R156, R180): the line is in M in the port agent's write buffer until the home
acknowledges the WbM (R150), and the port agent keeps nothing. -/
def State.headWrite (s : State) (q : CohReq) (old : Line) (oldPoison : Bool) (w : Line × Nat × Bool) : State :=
  let full := decide (w.2.1 = fullMask)
  let d := if full then w.1 else mergeBytes old w.1 w.2.1
  let po := w.2.2 || (!full && oldPoison)
  let s := ((s.setSf q.line 0 [] none).hold q.agent q.line (some { st := 4, data := d, poison := po })).presenceAfter q
  let s := s.coh' (fun c => { c with evs := tput (agKey q.agent q.line) 2 c.evs })
  let s := (s.say { cls := cREQ, code := 3, line := q.line, src := q.agent, dst := s.homeAg q.line, cl := q.cls, master := q.master }).say
    { cls := cDAT, code := 1, line := q.line, src := q.agent, dst := s.homeAg q.line, poison := po, cl := q.cls, master := q.master } (some (if po then 0 else d))
  let (s, out) := s.applyWrite q d po q.cause
  (s.reqDone q.agent q.line).completeWrite q out

/-- The home grants (R155): to a head the access completes here; to another agent the grant leaves, and the transaction waits
for its Ack. `d`: the home copy where data travels. -/
def State.grant (s : State) (line : Nat) (d : Line) (poison : Bool) : State :=
  match s.trkOf line with
  | none => s
  | some t =>
    let q := t.req
    let s := if hasImage (s.tier q.lpn) then s.markPage q.lpn false q.obj q.sh else s
    if q.agent < 8 then
      let s := match q.write with
        | some w => s.headWrite q d poison w
        | none => s.headRead q q.agent d poison
      s.closeTrk line
    else
      let holders := match s.sfOf line with | some e => e.holders | none => []
      let s := match q.kind with
        | .readSnc => s
        | .readS => if t.gs = 2 ∧ holders = [] then s.setSf line 3 [q.agent] none
                    else s.setSf line 2 (linsert q.agent holders) (some q.agent)
        | _ => s.setSf line 3 [q.agent] none
      let s := s.putTrk line { t with granted := true }
      if t.forwarded then (if t.acked then s.closeTrk line else s)
      else if t.noData then s.toReq q cRSP 0 3 0 false none
      else (s.coh' (fun c => { c with dat := tput (agKey q.agent line) (t.gs, if poison then 0 else d, poison) c.dat })).toReq q cDAT 0 t.gs 0 poison
        (some (if poison then 0 else d))

/-! ### The placement of the data (R177 steps 4–6, R182–R185) -/

/-- Index and tag of the placement predictor (R182). -/
def predIx (lpn : Nat) : Nat := bits lpn 0 14 ^^^ bits lpn 14 14
def predTag (lpn : Nat) : Nat := bits lpn 21 12

/-- The fields a predictor entry copies. -/
def predPl (p : Place) : Place :=
  { tier := p.tier, ma := p.ma, len := p.len, ns := p.ns, hint := p.hint, ks := p.ks, code := p.code, frit := p.frit, ver := p.ver }

/-- Write a predictor entry, where the placement entry is of a media tier and not locked. -/
def State.predWrite (s : State) (lpn : Nat) : State :=
  let pl := (s.page lpn).pl
  if 1 ≤ pl.tier ∧ pl.tier ≤ 3 ∧ ¬ pl.lock then
    s.coh' (fun c => { c with pred := tput (16384 * s.home lpn + predIx lpn) { tag := predTag lpn, pl := predPl pl } c.pred })
  else s

/-- An entry leaves the metadata cache (R182), its marks turned into heat first (R237). -/
def State.mdcLeave (s : State) (lpn : Nat) : State :=
  match tget lpn s.coh.mdc with
  | none => s
  | some quiet =>
    let s := (s.coh' (fun c => { c with mdc := tdel lpn c.mdc })).hotStep lpn
    if quiet then s else s.predWrite lpn

/-- An entry is filled, or used, by a request with quiet attribute Q. -/
def State.mdcUse (s : State) (lpn : Nat) (quiet : Bool) : State := s.coh' (fun c => { c with mdc := tput lpn quiet c.mdc })

/-- The line that a speculative read fetches first, from the fields of a predictor entry (R182, R183): HINT gives the place of a record of a parison. -/
def State.specLa (s : State) (line : Nat) (pl : Place) : Nat :=
  let raw := isRaw pl
  let k := line / 8 % 8
  let g := if raw then line % 64 / 4 else if k = 0 then 0 else pl.hint / 16 ^ (k - 1) % 16
  4 * s.maOf (s.chanOf pl.ma) (s.localOf pl.ma + g) + (if raw then line % 4 else 0)

/-- A speculative read may issue (R183): the entry predicted. -/
def State.specFor (s : State) (q : CohReq) : Option Place :=
  let n := s.home q.lpn
  let kindOk : Bool := match q.kind with | .readS | .readSnc | .readO => true | _ => false
  match tget (16384 * n + predIx q.lpn) s.coh.pred with
  | none => none
  | some e =>
    let c := s.chanOf e.pl.ma
    let tierOn : Bool := match e.pl.tier with
      | 1 => s.isSet .COH_SPEC_CTL_T_FURN n | 2 => s.isSet .COH_SPEC_CTL_T_LEHR n | _ => s.isSet .COH_SPEC_CTL_T_CULL n
    if s.isSet .COH_SPEC_CTL_SPEC_EN n ∧ tierOn ∧ kindOk ∧ ¬ q.quiet ∧ e.tag = predTag q.lpn
        ∧ (s.coh.spec.filter (fun x => s.home (x.line / 64) == n)).length < s.get .COH_SPEC_CTL_MAXOUT n
        ∧ (s.chState c = 2 ∨ s.chState c = 4) ∧ s.slotLeft c then some e.pl
    else none

/-- Provisional lines of a sector go (R186). -/
def State.dropProvSector (s : State) (line : Nat) : State :=
  s.coh' (fun c => { c with lc := c.lc.filter (fun l => !(l.2.prov && l.1 / 8 == line / 8)) })

/-- The byte range of an image that a read of a line takes (R204, R279): the line of a raw frame, else the granules of the segment. -/
def readRange (pl : Place) (raw : Bool) (line : Nat) : Nat × Nat :=
  if raw then (64 * (line % 64), 64)
  else
    let (first, last) := readSpan pl (line / 8 % 8)
    (256 * first, 256 * (last + 1 - first))

/-- The request waits for a page read of a lender or of a Caravan twin; while the link is not UP the read waits out HOLD_MS (R417). -/
def State.askLender (s : State) (line loc : Nat) (raw : Bool) (t : Trk) : State :=
  let p := s.page (line / 64)
  let port := locPort loc
  let (off, len) := readRange p.pl raw line
  let up := s.portUp port
  let s := (s.putTrk line { t with walk := false, lender := some port }).underFor (reqAttr t.req p.pl.tier) 0
  let s := (s.cvnAsk port 0 line { op := 1, lloc := locOff loc + off / 256, off := off % 256, arg := len } []).1.uncharged
  if up then s else s.setPort port { s.port port with held := (s.port port).held ++ [line] }

/-- A demand read of a line starts at its controller (R177 step 6): of the primary, or of the twin of a page whose lender is away. -/
def State.startRead (s : State) (line : Nat) (t : Trk) : State :=
  let p := s.page (line / 64)
  let la := if p.pl.tier = 4 then s.laOf p p.tw.tma line p.tw.tns else s.laOf p p.pl.ma line (isRaw p.pl)
  (((s.underFor (reqAttr t.req p.pl.tier) 0).arrive la false).uncharged).putTrk line { t with walk := false, lender := none, media := true }

/-- The placement entry is known (R177 step 5): zeros, poison, a lender, or a media read. -/
def State.place (s : State) (line : Nat) : State :=
  match s.trkOf line with
  | none => s
  | some t =>
    let q := t.req
    let lpn := q.lpn
    let n := s.home lpn
    let p := s.page lpn
    let fault := s.s2Fault lpn
    let s := s.count (.slice n) 0x03 1 (some (reqAttr q (if fault.isSome then 6 else p.pl.tier)))
    let s := if q.hit then s else s.count (.slice n) 0x04 1 (some (reqAttr q (if fault.isSome then 6 else p.pl.tier)))
    let t := { t with walk := false }
    let s := s.putTrk line t
    match fault with
    | some (k, l) => (s.s2Report lpn k l q.owns q.master).grant line 0 true
    | none =>
      if p.pl.tier = 0 then s.grant line 0 false
      else if p.pl.tier = 7 ∨ s.unverif lpn then s.grant line 0 true
      else if ¬ s.slotActive p.pl.ks then (s.report (msg2 bSec n 9 (lpn * 4096))).grant line 0 true
      else if ¬ isRaw p.pl ∧ (p.segs.getD (line / 8 % 8) {}).span = 0 then s.grant line 0 false
      else if p.pl.tier = 4 then
        (if ¬ s.portUp (locPort p.pl.ma) ∧ p.pl.twk = 1 ∧ s.twinReadable p then s.startRead line t
          else s.askLender line p.pl.ma false t)
      else (s.coh' (fun c => { c with missAt := tput (line / 8) s.now c.missAt })).startRead line t

/-- Nothing is awaited any more: grant without data, or supply the home copy from the line cache, or go on to the placement
entry, with a speculative read beside the walk (R177 steps 4 and 5, R183). -/
def State.supply (s : State) (line : Nat) : State :=
  match s.trkOf line with
  | none => s
  | some t =>
    let q := t.req
    let lpn := q.lpn
    let n := s.home lpn
    if q.own then s.closeTrk line
    else if t.forwarded ∧ q.agent < 8 then
      match tget (agKey q.agent line) s.coh.dat with
      | some x => (s.coh' (fun c => { c with dat := tdel (agKey q.agent line) c.dat })).grant line x.2.1 x.2.2
      | none => s.grant line 0 true
    else if t.forwarded ∨ t.noData then s.grant line 0 false
    else match (s.lcOf line).filter (fun l => !l.prov) with
      | some l =>
        let s := s.coh' (fun c => { c with lc := tput line { l with used := c.tick } c.lc, tick := c.tick + 1 })
        (s.count (.slice n) 0x02 1 (some (reqAttr q 6))).grant line l.data l.poison
      | none =>
        if q.hit ∧ (tget lpn s.coh.mdc).isSome then (s.mdcUse lpn q.quiet).place line
        else
          let s := s.mdcLeave lpn
          let s := s.putTrk line { t with walk := true, req := { q with hit := false } }
          match s.specFor q with
          | some pl =>
            let s := s.arriveAs (s.specLa line pl) false 0 1
            (s.coh' (fun c => { c with spec := c.spec ++ [{ line := line, pl := pl, at' := s.now }] })).count (.slice n) 0x05 1
              (some (reqAttr q pl.tier))
          | none => s

/-- The home's snoops go out (R155, R157). -/
def State.sendSnoops (s : State) (line : Nat) (t : Trk) : State :=
  let q := t.req
  let (sn, gs, noData) := s.snoopsFor q
  let s := s.putTrk line { t with snoops := sn, gs := gs, noData := noData, snooped := true }
  sn.foldl (fun (s : State) (p : Nat × Nat) =>
    s.say { cls := cSNP, code := if p.2 = 0 then 0 else if p.2 = 3 then 2 else 1, line := line, src := s.homeAg line, dst := p.1, tid := t.num
            rid := if p.2 = 1 ∨ p.2 = 2 then q.agent else 0, mode := if p.2 = 2 then 1 else 0, cl := q.cls, master := q.master }) s

/-- An open transaction goes on once its recalls are complete, its entry of the snoop filter is free, and every snoop is answered (R147, R154, R155). -/
def State.advance (s : State) (line : Nat) : State :=
  match s.trkOf line with
  | none => s
  | some t =>
    if t.bis ≠ [] ∨ t.victim.isSome then s
    else
      let s := if t.snooped then s else s.sendSnoops line t
      match s.trkOf line with
      | some t => if t.snoops = [] ∧ ¬ t.granted ∧ ¬ t.walk ∧ ¬ t.media ∧ t.lender = none then s.supply line else s
      | none => s

/-! ### Room in the snoop filter (R147) -/

/-- The ways of a home's snoop filter, one fewer once one is disabled (R176). -/
def State.sfWays (s : State) (line : Nat) : Nat := if s.isOff bCoh (s.home (line / 64)) 1 then 11 else 12

/-- The entries that compete with a line's for the ways of its set. -/
def State.sfPeers (s : State) (line : Nat) : List Nat :=
  if s.coh.sf.length < 11 then []
  else (s.coh.sf.filter (fun e => e.1 != line && s.home (e.1 / 64) == s.home (line / 64) && Config.sfSet e.1 % 1024 == Config.sfSet line % 1024)).map (·.1)

/-- The agent will hold the line, so it needs an entry. -/
def CohReq.installs (q : CohReq) : Bool :=
  match q.kind with | .readS => true | .readO | .readOFull | .upgrade => decide (8 ≤ q.agent) | _ => false

/-- The home opens a transaction of its own on a line (R120, R147, R148); an open one comes first. -/
def State.openOwn (s : State) (line : Nat) (k : ReqKind) : State :=
  if (s.trkOf line).isSome then s
  else
    let q : CohReq := { agent := s.homeAg line, line := line, kind := k }
    let s := s.dropProv line
    let rec1 := s.headRecalls q
    let s := rec1.foldl (fun (s : State) (p : Nat × Nat) => s.biSend p.1 line p.2) s
    (s.putTrk line { req := q, bis := rec1.map (fun p => (p.1, line)), num := freeNum ((s.coh.trk.filter (fun t => s.home (t.1 / 64) == s.home (line / 64))).map (·.2.num)) }).advance line

/-- A request that needs an entry of a full set waits for a victim: one whose line has no open transaction, or else one whose transaction will end. Which
one the home chooses is not given, and is a free value. -/
def State.sfRoom (s : State) (q : CohReq) : State × Option Nat :=
  let peers := s.sfPeers q.line
  if ¬ q.installs ∨ (s.sfOf q.line).isSome ∨ peers.length < s.sfWays q.line then (s, none)
  else
    let idle := peers.filter (fun l => (s.trkOf l).isNone)
    match idle[s.draw % idle.length]? with
    | some v => ((s.drawn.bump .COH_HOME_CNT_SF_RECALL 0xFFFF (s.home q.lpn)).openOwn v .purge, if (s.trkOf v).isNone then some v else none)
    | none => (s, peers.head?)

/-- A request is accepted (R155): its tracker, its count, its recalls and snoops, and what needs no wait at once. -/
def State.openTrk (s : State) (q : CohReq) : State :=
  let n := s.home q.lpn
  let s := s.put .TLG_SQ_COUNT (s.get .TLG_SQ_COUNT n q.cls + 1) n q.cls
  let s := (s.put .TLG_SQ_WAITING 0 n q.cls).count (.slice n) 0x01 1 (some (reqAttr q 6))
  let s := s.coh' (fun c => { c with ptr := tput n ((q.agent + 1) % 0x22) c.ptr })
  let s := (s.dirFix q.lpn).dropProv q.line
  let gains := !q.untracked && (match q.mv with | some mv => decide (mv ≠ 0) | none => false)
  let (s, room) := if gains then s.dirRoom q.lpn else (s, [])
  let rec1 := s.headRecalls q
  let s := rec1.foldl (fun (s : State) (p : Nat × Nat) => (s.biSend p.1 q.line p.2).count (.slice n) 0x0D 1 (some (reqAttr q 6))) s
  let num := freeNum ((s.coh.trk.filter (fun t => s.home (t.1 / 64) == n)).map (·.2.num))
  let reb := if s.coh.rebuild.contains q.lpn then ((s.coh.bi ++ s.coh.biWait).filter (fun b => b.2.1 / 64 == q.lpn)).map (fun b => (b.1, b.2.1)) else []
  let s := s.putTrk q.line { req := q, bis := rec1.map (fun p => (p.1, q.line)) ++ room ++ reb, num := num }
  let (s, v) := s.sfRoom q
  (match s.trkOf q.line with | some t => s.putTrk q.line { t with victim := v } | none => s).advance q.line

/-- A request reaches its home (R158, R159, R174, R426). -/
def State.homeReq (s : State) (q : CohReq) : State :=
  let n := s.home q.lpn
  if (s.page q.lpn).pl.lock then
    (if (s.holdOf n).length < 64 then s.setHold n (s.holdOf n ++ [q]) else s.refuse q 1 false)
  else if (s.trkOf q.line).isSome ∨ (s.starvOf n).any (fun x => x.line == q.line) then s.refuse q 1 false
  else if s.atQuota n q.cls then s.refuse q 0 true
  else if (s.starvOf n ≠ [] ∧ q.att < 8) ∨ 256 ≤ s.trkUsed n then s.refuse q 0 false
  else s.openTrk q

/-- The oldest queued request a free tracker can serve now (R159, R426). -/
def State.nextStarved (s : State) (n : Nat) : Option CohReq :=
  if 256 ≤ s.trkUsed n then none
  else (s.starvOf n).find? (fun q => (s.trkOf q.line).isNone && !s.atQuota n q.cls && !(s.page q.lpn).pl.lock)

/-- Serve the starvation queue of a home as far as it goes. -/
def State.serveStarved (s : State) (n : Nat) : Nat → State
  | 0 => s
  | k + 1 =>
    match s.nextStarved n with
    | some q => ((s.setStarv n ((s.starvOf n).erase q)).openTrk q).serveStarved n k
    | none => s

/-- Requests whose snoop-filter victim is gone go on, or wait for another (R147). -/
def State.serveVictims (s : State) : State :=
  (s.coh.trk.filter (fun t => match t.2.victim with | some v => (s.trkOf v).isNone | none => false)).foldl (fun (s : State) p =>
    let (s, v) := s.sfRoom p.2.req
    match s.trkOf p.1 with
    | some t => (s.putTrk p.1 { t with victim := v }).advance p.1
    | none => s) s

/-- A transaction has ended at a home: queued requests go on. -/
def State.settle (s : State) (n : Nat) : State := s.serveVictims.serveStarved n 16

/-- Held requests resume in order under the page's present entry (R174 step 6, R175). -/
def State.resume (s : State) (lpn : Nat) : State :=
  let n := s.home lpn
  let mine := (s.holdOf n).filter (fun q => q.lpn == lpn)
  let s := s.setHold n ((s.holdOf n).filter (fun q => q.lpn != lpn))
  (mine.foldl (fun (s : State) q => s.homeReq q) s).settle n

/-! ### Media reads and their checks (R178, R193, R205, R293–R297, R316, R317) -/

/-- How a media read ends: data, poison of a cause, a second read of the suspect copy (numbered as COPY of R298), a wait for a lender, or the halt. -/
inductive RdOut where
  | data
  | poison (cause : Nat)
  | again (copy : Nat)
  | lender
  | stop
  deriving DecidableEq, Repr

/-- An alarm of a confirmed Answerable failure (R296). A message that made no record of its own leaves an alarm of SEQ 0 (DESIGN CHOICE, log 121). -/
def State.alarm (s : State) (lpn sub a b c : Nat) : State :=
  let n := s.home lpn
  let (s, seq) := s.reportK (msg2 bSec n sub (lpn * 4096)) (.alarm a b c) false
  let s := { s with sec := { s.sec with alarms := s.sec.alarms ++ [seq] } }
  (s.bump .SEC_STS_ALARM_PEND 255).bump .SEC_SLICE_CNT_ALARMS 0xFFFF n

/-- Every LPN a node covers is Answerable (R295). -/
def State.nodeAnswerable (s : State) (lvl lpn : Nat) : Bool :=
  let lo := lpn / 8 ^ lvl * 8 ^ lvl
  let far := fun (pos : Nat) (_ : Nat) =>
    match (List.range 8).find? (fun k => s.isSet .SEC_ANS_BASE_EN k && decide (s.get .SEC_ANS_BASE_LPN k ≤ pos ∧ pos < s.get .SEC_ANS_LIMIT_LPN k)) with
    | some k => s.get .SEC_ANS_LIMIT_LPN k
    | none => pos
  decide (lo + 8 ^ lvl ≤ (List.range 8).foldl far lo)

/-- The halt record of a read (R298). -/
def State.haltRec (s : State) (cause lvl copy line master ma : Nat) : HaltRec :=
  let lpn := line / 64
  let p := s.page lpn
  { cause := cause, level := lvl, src := 0, master := master, ks := if cause = 0 then p.pl.ks else 0, copy := copy
    lpn := if cause = 0 then lpn else lpn / 8 ^ lvl * 8 ^ lvl, sector := if cause = 0 then line / 8 % 8 else 0
    line := if cause = 0 ∧ isRaw p.pl then line % 8 else 0
    ctr := if cause = 0 then s.ctr lpn (line / 8 % 8) else tgetD 0 (treeIx lvl lpn) s.sec.tctr, ma := ma, time := 0, seq := 0 }

/-- Content of a line of media is marked as poison. -/
def State.markedAt (s : State) (line : Nat) : Bool := s.pg.poison.contains line

/-- A line of an image carries the marking (R329): a line of a raw frame, or one that lies wholly inside the CT of a marked sector. -/
def State.imgMarked (s : State) (lpn : Nat) (raw : Bool) (i : Nat) : Bool :=
  let p := s.page lpn
  if raw then s.markedAt (64 * lpn + i)
  else (List.range 8).any (fun k => s.markedAt (64 * lpn + 8 * k) && (match (layout (spansOf p)).1.getD k none with
    | some a => decide (a + 16 ≤ 64 * i ∧ 64 * i + 64 ≤ a + 16 + (p.segs.getD k {}).clen)
    | none => false))

/-- The lines of an image that a read of a segment takes, and those of them that its frames and its record lie in (R204). -/
def linesRead (p : Page) (k : Nat) : List Nat × List Nat :=
  let st := (layout (spansOf p)).1
  let (first, last) := readSpan p.pl k
  let at' := fun (j : Nat) => (st.getD j none).getD 32
  let chain := (List.range k).filter (fun j => (st.getD j none).isSome && decide (at' j / 256 = first))
  let own := (List.range 64).filter (fun i => decide (64 * i < at' k + 16 + (p.segs.getD k {}).clen ∧ at' k < 64 * i + 64))
  ((List.range (4 * (last + 1 - first))).map (4 * first + ·), chain.map (fun j => at' j / 64) ++ own)

/-- The checker over lines of an image at a base line address, by line of the image. -/
def State.readEach (s : State) (base : Nat) (marked : Nat → Bool) (errs : List (Fin 64 × ReadErr)) : List Nat → State × List (Nat × LineOut)
  | [] => (s, [])
  | i :: is =>
    let e := match errs.find? (fun x => x.1.val == i) with | some x => x.2 | none => {}
    let (s, o) := s.readOne (base + i) e (marked i)
    let (s, r) := s.readEach base marked errs is
    (s, (i, o) :: r)

/-- Read lines of an image at a base line address: what the checker makes of each, and one message per outcome kind (R334). -/
def State.readSet (s : State) (base : Nat) (marked : Nat → Bool) (errs : List (Fin 64 × ReadErr)) (ls : List Nat) : State × List (Nat × LineOut) :=
  let (s, r) := s.readEach base marked errs ls
  (s.eccSay (r.map (·.2)), r)

/-- The outcome of several lines together: what stops the use of the data, heavy, or good. -/
def worst (l : List CodeOut) : CodeOut :=
  if l.any (fun o => o == .uncorrectable || o == .address) then .uncorrectable
  else if l.contains .poison then .poison
  else if l.contains .heavy then .heavy
  else .clean

/-- Read what a line of a page needs from an image at `base` (R178, R204, R279): the outcome, how the image differs from what was written, and how the stored
tag of a raw line does. `tab`: the line of the tag table, for a Strong raw frame, and its read. -/
def State.readImage (s : State) (line base : Nat) (raw : Bool) (errs : List (Fin 64 × ReadErr)) (tab : Option (Nat × ReadErr)) :
    State × CodeOut × List (Nat × Byte) × List (Nat × Byte) :=
  let lpn := line / 64
  let k := line / 8 % 8
  if raw then
    let (s, r) := s.readSet base (s.imgMarked lpn true) errs [line % 64]
    let left := r.flatMap (fun x => x.2.left)
    let out := worst (r.map (·.2.out))
    match tab with
    | none => (s, out, left.filter (fun x => decide (x.1 < 64)), (left.filter (fun x => decide (64 ≤ x.1))).map (fun x => (x.1 - 64, x.2)))
    | some (la, e) =>
      let lab := s.mem.label
      let (s, t) := (s.under lab.1 6 s.mem.who).readLine la e false
      let s := s.under lab.1 lab.2 s.mem.who
      let at' := 8 * (line % 8)
      (s, if out = .poison then out else worst [out, t.out], left, (t.left.filter (fun x => decide (at' ≤ x.1 ∧ x.1 < at' + 8))).map (fun x => (x.1 - at', x.2)))
  else
    let (all, need) := linesRead (s.page lpn) k
    let (s, r) := s.readSet base (s.imgMarked lpn false) errs all
    let out := worst ((r.filter (fun x => need.contains x.1)).map (·.2.out))
    let out := if out ≠ .uncorrectable ∧ s.markedAt (line / 8 * 8) then .poison else if out = .poison then .clean else out
    (s, out, r.flatMap (fun x => x.2.left.map (fun y => (64 * x.1 + y.1, y.2))), [])

/-- The line of the tag table that holds the tags of a sector (R280). -/
def State.tagLine (s : State) (p : Page) (k : Nat) : Option Nat :=
  p.tag.map (fun t => 4 * s.maOf (s.chanOf t) (s.localOf t + k / 4) + k % 4)

/-! ### The tree (R289, R291, R293, R300, R330) -/

/-- A confirmed failure of a tree MAC on a copy (R295–R297): the pages beneath become unverifiable, or the device halts. -/
def State.nodeFailed (s : State) (line lvl master copy ma : Nat) : State × RdOut :=
  let lpn := line / 64
  if s.nodeAnswerable lvl lpn then
    let lo := lpn / 8 ^ lvl * 8 ^ lvl
    ((s.alarm lo 3 (lo + 7 * 2 ^ 36 + 4 * 2 ^ 39) (copy * 32) 0).addUnver lvl lpn 3, .poison 4)
  else (s.haltNow (s.haltRec 1 lvl copy line master ma), .stop)

/-- Read a copy of a node: whether it serves (a heavy line of it does not, R317), and how it differs. -/
def State.readNode (s : State) (lvl lpn : Nat) (copyB : Bool) (f : Fetch) : State × Bool × List (Nat × Byte) :=
  match s.nodeLa lvl lpn copyB with
  | none => (s, false, [])
  | some la =>
    let errs : List (Fin 64 × ReadErr) := (f.nodes.filter (fun x => x.lvl.val == lvl && x.copyB == copyB)).map (fun x => (if x.high then 1 else 0, x.err))
    if s.owes la then (s, false, []) else
    let lab := s.mem.label
    let s := s.count (.slice (s.home lpn)) 0x0F 1 s.mem.who
    let (s, r) := (s.under lab.1 6 s.mem.who).readSet la (fun _ => false) errs (if lvl = 0 then [0] else [0, 1])
    let s := s.under lab.1 lab.2 s.mem.who
    (s, worst (r.map (·.2.out)) == .clean, r.flatMap (fun x => x.2.left.map (fun y => (64 * x.1 + y.1, y.2))))

/-- A node whose bytes passed is in its keeper's cache. -/
def State.cacheNode (s : State) (lvl lpn : Nat) (d : List (Nat × Byte)) : State :=
  let s := if d = [] then s else s.takeNode lvl lpn (flip (s.nodeBytes lvl lpn) d)
  { s with sec := { s.sec with tcache := tput (treeIx lvl lpn) false s.sec.tcache } }

/-- Verify a node read from media (R289, R293): copy A first; copy B where A cannot be read, and then A is written from it. None: it passed. -/
def State.verifyNode (s : State) (line lvl : Nat) (f : Fetch) (master : Nat) (again : Bool) : State × Option RdOut :=
  let lpn := line / 64
  let fail := fun (s : State) (copyB : Bool) =>
    let copy := if copyB then 4 else 3
    if again then let (s, r) := s.nodeFailed line lvl master copy ((s.nodeLa lvl lpn copyB).getD 0 / 4); (s, some r) else (s, some (RdOut.again copy))
  match s.readNode lvl lpn false f with
  | (s, true, d) => if s.nodePasses lvl lpn d then (s.cacheNode lvl lpn d, none) else fail s false
  | (s, false, _) =>
    match s.readNode lvl lpn true f with
    | (s, true, d) => if s.nodePasses lvl lpn d then ((s.cacheNode lvl lpn d).writeNode lvl lpn false, none) else fail s true
    | (s, false, _) => (s.addUnver lvl lpn 4, some (.poison 0))

/-- Verify nodes, the highest first. -/
def State.verifyNodes (s : State) (line : Nat) (f : Fetch) (master : Nat) (again : Bool) : List Nat → State × Option RdOut
  | [] => (s, none)
  | l :: ls =>
    match s.verifyNode line l f master again with
    | (s, none) => s.verifyNodes line f master again ls
    | (s, some r) => (s, some r)

/-- Verify the leaf of a page, as far up as the first node that a cache holds (R289, R291). -/
def State.verifyLeaf (s : State) (line : Nat) (f : Fetch) (master : Nat) (again : Bool) : State × Option RdOut :=
  s.verifyNodes line f master again
    (((List.range 9).takeWhile (fun l => (tget (treeIx l (line / 64)) s.sec.tcache).isNone)).reverse)

/-! ### Data reads -/

/-- A confirmed failure of a data tag on a copy without another to turn to (R295–R297): the sector is poison and is written back so, or the device
halts. -/
def State.tagDead (s : State) (line master copy ma : Nat) : State × RdOut :=
  let lpn := line / 64
  let p := s.page lpn
  let k := line / 8 % 8
  if s.answerable lpn then
    let s := s.alarm lpn 1 (lpn + k * 2 ^ 33 + (if isRaw p.pl then line % 8 else 7) * 2 ^ 36 + 4 * 2 ^ 39) (p.pl.ks + copy * 32) (s.ctr lpn k)
    (s.markSector line 4, .poison 4)
  else (s.haltNow (s.haltRec 0 0xFF copy line master ma), .stop)

/-- What a read of the twin is for: to serve a read of the primary, as the second read of a suspect twin, or to answer a confirmed failure of the
primary, where a twin that does not pass is no help. -/
inductive TwinUse where
  | serve | reread | rescue
  deriving DecidableEq, Repr

/-- A suspect failure passed on its second read (R293). -/
def State.suspectPassed (s : State) (line : Nat) : State :=
  let n := s.home (line / 64)
  (s.bump .SEC_SLICE_CNT_SUSPECT 0xFFFF n).report (msg1 bSec n 2 (line * 64))

/-- Serve a read from the twin (R193, R252, R293): a local twin now, a Caravan twin by its port; without a readable twin the data is poison. A twin that
serves queues the repair of the primary. A read on the device's own account takes a Caravan twin as it was written (DESIGN CHOICE, log 123). -/
def State.fromTwin (s : State) (line : Nat) (f : Fetch) (master cause : Nat) (use : TwinUse) : State × RdOut :=
  let lpn := line / 64
  let p := s.page lpn
  if ¬ s.twinReadable p then (s, .poison cause)
  else if p.pl.twk = 2 then
    match s.trkOf line with
    | some t =>
      if t.media then ((s.askLender line p.tw.tma p.tw.tns { t with media := false }).queueRepair lpn, .lender) else (s.queueRepair lpn, .data)
    | none => (s.queueRepair lpn, .data)
  else
    let raw := isRaw p.pl
    let (s, out, d, dt) := s.readImage line (4 * p.tw.tma) raw f.twin none
    if out = .poison ∨ out = .uncorrectable then (s, .poison cause)
    else
      let v := if raw then s.judgeLine line d dt else (s.judgeSeg lpn (line / 8 % 8) d).1
      match v with
      | .tag =>
        (match use with
          | .rescue => (s, .poison cause)
          | .serve => if out = .heavy then (s, .poison cause) else (s, .again 1)
          | .reread => s.tagDead line master 1 p.tw.tma)
      | .frame | .decode => (s, .poison cause)
      | .changed bs => (((if use = .reread then s.suspectPassed line else s).takeBytes (if raw then line else line / 8 * 8) bs).queueRepair lpn, .data)
      | .sound => ((if use = .reread then s.suspectPassed line else s).queueRepair lpn, .data)

/-- A confirmed failure of a data tag (R295–R297): of an Answerable sector a twin that passes serves, unless it was the twin that failed (`last`). -/
def State.tagFailed (s : State) (line : Nat) (f : Fetch) (master copy ma : Nat) (last : Bool) : State × RdOut :=
  if s.answerable (line / 64) ∧ ¬ last then
    match s.fromTwin line f master 4 .rescue with
    | (s, .poison _) => s.tagDead line master copy ma
    | (s, r) =>
      let lpn := line / 64
      let p := s.page lpn
      let k := line / 8 % 8
      (s.alarm lpn 1 (lpn + k * 2 ^ 33 + (if isRaw p.pl then line % 8 else 7) * 2 ^ 36 + 4 * 2 ^ 39) (p.pl.ks + copy * 32) (s.ctr lpn k), r)
  else s.tagDead line master copy ma

/-- A code error of the decoder, or a frame error, leaves the twin, unless it was read already (`last`), or poison; the severity follows (R205, R231). -/
def State.fallBack (s : State) (line : Nat) (f : Fetch) (master sub : Nat) (last : Bool) : State × RdOut :=
  let n := s.home (line / 64)
  match (if last then (s, RdOut.poison 0) else s.fromTwin line f master 0 .serve) with
  | (s, .poison c) => (s.report (msg2 bCdc n sub (line * 64)), .poison c)
  | (s, r) => (s.report (msg1 bCdc n sub (line * 64)), r)

/-- A segment is LZE and both copies of its frit slot are gone: it reads as poison (R218). -/
def State.fritLost (s : State) (p : Page) (k : Nat) : Bool := (p.segs.getD k {}).mode == 7 && (s.fritOf p.pl.frit p.fritVer).isNone

/-- What a line or segment goes through after the code: the frame, the tree, the tag and the decoder. `again`: this is the second read of R293; `d`, `dt`:
how the image and a raw line's tag differ; `copy`, `ma`: what is read; `heavy`: the outcome of the code. -/
def State.checkCopy (s : State) (line : Nat) (f : Fetch) (d dt : List (Nat × Byte)) (master copy ma : Nat) (again heavy : Bool) : State × RdOut :=
  let lpn := line / 64
  let n := s.home lpn
  let p := s.page lpn
  let raw := isRaw p.pl
  let last := decide (copy = 2 ∧ p.pl.tier ≠ 4)
  match s.verifyLeaf line f master again with
  | (s, some r) => (s, r)
  | (s, none) =>
    let (v, head) := if raw then (s.judgeLine line d dt, false) else s.judgeSeg lpn (line / 8 % 8) d
    let s := if head ∧ v ≠ .frame then (s.bump .CDC_SLICE_CNT_FALLBACK 0xFFFF n).report (msg1 bCdc n 2 (line * 64)) else s
    let passed := fun (s : State) => if again then s.suspectPassed line else s
    let decoded := fun (s : State) =>
      if raw then (s, RdOut.data)
      else
        let s := s.count (.slice n) 0x09 1 s.mem.who
        let s := match (p.segs.getD (line / 8 % 8) {}).mode, s.fritSlot p.pl.frit p.fritVer with
          | 7, some sl => s.fritUse n (2 * p.pl.frit + sl)
          | _, _ => s
        if s.fritLost p (line / 8 % 8) then (s.report (msg2 bCdc 16 6 (line * 64)), .poison 0)
        else if f.dec.val = 0 then (s, .data)
        else
          let s := s.bump .CDC_SLICE_CNT_DEC_ERR 0xFFFF n
          if f.dec.val = 1 then (s.report (msg1 bCdc n 0 (line * 64)), .data) else s.fallBack line f master 0 last
    match v with
    | .frame => s.fallBack line f master 3 last
    | .tag => if heavy then s.fromTwin line f master 0 .serve else if again then s.tagFailed line f master copy ma last else (s, .again copy)
    | .decode => ((passed s).bump .CDC_SLICE_CNT_DEC_ERR 0xFFFF n).fallBack line f master 0 last
    | .changed bs => decoded ((passed s).takeBytes (if raw then line else line / 8 * 8) bs)
    | .sound => decoded (passed s)

/-- A non-speculative read of the media copy of a line goes through the checker, then `checkCopy`. -/
def State.readCopy (s : State) (line : Nat) (f : Fetch) (master : Nat) (again : Bool) : State × RdOut :=
  let p := s.page (line / 64)
  let raw := isRaw p.pl
  let (s, out, d, dt) := s.readImage line (4 * p.pl.ma) raw f.errs (if raw then (s.tagLine p (line / 8 % 8)).map (fun la => (la, f.tab)) else none)
  match out with
  | .poison => (s, .poison 0)
  | .uncorrectable | .address => s.fromTwin line f master 0 .serve
  | out => s.checkCopy line f d dt master 0 (s.laOf p p.pl.ma line raw / 4) again (decide (out = .heavy))

/-- The second read of a suspect copy (R293): of the twin, or of the primary with its tree nodes. -/
def State.reread (s : State) (line : Nat) (f : Fetch) (master copy : Nat) : State × RdOut :=
  if copy = 1 then s.fromTwin line f master 4 .reread else s.readCopy line f master true

/-- A read on the device's own account, with the second read of a suspect at once: `f2` is what that one meets. -/
def State.readNow (s : State) (line : Nat) (f f2 : Fetch) (master : Nat) : State × RdOut :=
  match s.readCopy line f master false with
  | (s, .again c) => s.reread line f2 master c
  | r => r

/-- The lines a read on the device's own account has lost, with their poison cause; none when the device halted. -/
def State.readLost (s : State) (line : Nat) (f f2 : Fetch) (master : Nat) : State × Option (List (Nat × Nat)) :=
  let raw := isRaw (s.page (line / 64)).pl
  match s.readNow line f f2 master with
  | (s, .stop) => (s, none)
  | (s, .poison c) => (s, some (if raw then [(line, c)] else ((List.range 8).map (fun i => (line / 8 * 8 + i, c)))))
  | (s, _) => (s, some [])

/-- Several such reads. -/
def State.readsLost (s : State) (master : Nat) : List (Nat × Fetch × Fetch) → State × Option (List (Nat × Nat))
  | [] => (s, some [])
  | (l, f, f2) :: r =>
    match s.readLost l f f2 master with
    | (s, none) => (s, none)
    | (s, some a) =>
      match s.readsLost master r with
      | (s, none) => (s, none)
      | (s, some b) => (s, some (a ++ b))

/-- What a sector write-back reads first (R224, R289): the missing lines of the sector, and in any case the leaf with its counters; a lent page's own bytes are
taken as they were written (DESIGN CHOICE, log 123). -/
def State.wbReads (s : State) (lpn k : Nat) (f f2 : Fetch) : State × Option (List (Nat × Nat)) :=
  let p := s.page lpn
  let first := 64 * lpn + 8 * k
  if s.dirtyLines lpn k = [] ∨ s.wbWaits p ∨ ¬ hasImage p.pl.tier ∨ ¬ s.slotActive p.pl.ks ∨ s.unverif lpn then (s, some [])
  else
    let missing := ((List.range 8).map (first + ·)).filter (fun l => match s.lcOf l with | some c => c.prov | none => true)
    if missing = [] ∨ p.pl.tier = 4 ∨ (¬ isRaw p.pl ∧ (p.segs.getD k {}).span = 0) then
      match s.verifyLeaf first f 0x7F false with
      | (s, none) => (s, some [])
      | (s, some (.again _)) => (match s.verifyLeaf first f2 0x7F true with | (s, some .stop) => (s, none) | (s, _) => (s, some []))
      | (s, some .stop) => (s, none)
      | (s, some _) => (s, some [])
    else s.readsLost 0x7F (if isRaw p.pl then missing.map (fun l => (l, f, f2)) else [(first, f, f2)])

/-- Install lines clean where the line cache has none (R178); a line that is there keeps its copy. -/
def State.lcFill (s : State) : List Nat → State
  | [] => s
  | l :: ls =>
    let s := match s.lcOf l with
      | some x => if x.prov then s.lcPut l { data := tgetD 0 l s.pg.mem } else s
      | none => s.lcPut l { data := tgetD 0 l s.pg.mem }
    s.lcFill ls

/-- The eight lines of a sector. -/
def sectorLines (line : Nat) : List Nat := (List.range 8).map (fun i => line / 8 * 8 + i)

/-- A media read of a request has ended: data or poison goes on to the grant; a suspect is read once more; a halt leaves
nothing. -/
def State.readEnds (s : State) (line : Nat) (r : RdOut) : State :=
  match s.trkOf line with
  | none => s
  | some t =>
    let lpn := line / 64
    match r with
    | .data =>
      let s := s.lcFill (if isRaw (s.page lpn).pl then [line] else sectorLines line)
      (s.putTrk line { t with media := false, lender := none }).grant line (tgetD 0 line s.pg.mem) false
    | .poison cause =>
      let s := s.dropProvSector line
      let s := if cause = 0 ∧ ¬ s.markedAt line ∧ ¬ s.unverif lpn ∧ t.lender = none then
          let s := s.logPoison lpn (line / 8 % 8) (if isRaw (s.page lpn).pl then line % 8 else 7) 0
          if t.req.head.isNone then s.mediaRecord line 0 else s
        else s
      (s.putTrk line { t with media := false, lender := none }).grant line 0 true
    | .again copy => s.coh' (fun c => { c with suspects := c.suspects ++ [(line, copy)] })
    | .lender => s
    | .stop => s

/-! ### Twin writes (R190–R192) -/

/-- The twin write of a sector is acknowledged (R190, R191): its writers are, and the merged writers behind it come next. -/
def State.twinAcked (s : State) (k : Nat) : State :=
  match s.coh.twins.find? (fun t => t.sector == k) with
  | none => s
  | some t =>
    match t.sent with
    | none => s
    | some tid =>
      let n := s.home (k / 8)
      let p := locPort (s.page (k / 8)).tw.tma
      let s := s.waitDone p tid
      let s := s.put .COH_TWIN_CNT_MAX_US (max (s.get .COH_TWIN_CNT_MAX_US n) (min 0xFFFF ((s.now - t.at') / 1000))) n
      let s := t.acks.foldl (fun (s : State) q => s.ackWriter q) s
      let left := if t.next = [] then s.coh.twins.filter (fun x => x.sector != k)
        else s.coh.twins.map (fun x => if x.sector = k then TwinWr.mk k t.next [] none s.now else x)
      s.coh' (fun c => { c with twins := left })

/-- The twin of a sector's page is gone: every writer that waits on it is acknowledged. -/
def State.twinLost (s : State) (k : Nat) : State :=
  match s.coh.twins.find? (fun t => t.sector == k) with
  | none => s
  | some t =>
    let s := s.coh' (fun c => { c with twins := c.twins.filter (fun x => x.sector != k) })
    (t.acks ++ t.next).foldl (fun (s : State) q => s.ackWriter q) s

end Sys2Proof.Machine
end

