-- ==== Sys2Proof/Machine/Frits.lean ====
section
/-!
DEFINITION. The frit trainer and the frit store (R212–R218, R230), and the patrol scrubber (R326–R329).
-/
namespace Sys2Proof.Machine
open Sys2Proof

/-! ### Training (R217, R230) -/

def State.trainState (s : State) : Nat := s.get .CDC_TRAIN_STS_STATE

def State.setBuilt (s : State) (f : Option Frit) : State := { s with cdc := { s.cdc with built := f } }

/-- START of `CDC_TRAIN_CTL` with the fields written beside it; ignored while STATE is neither IDLE nor READY (R230). -/
def State.trainStart (s : State) (frit scope : Nat) (any : Bool) (samples : Nat) : State :=
  if s.trainState = 0 ∨ s.trainState = 3 then
    let s := ((s.put .CDC_TRAIN_CTL_FRIT frit).put .CDC_TRAIN_CTL_SCOPE scope).put .CDC_TRAIN_CTL_ANY (b2n any)
    let s := if legal .CDC_TRAIN_CTL_SAMPLES samples then s.put .CDC_TRAIN_CTL_SAMPLES samples else s
    ((s.setBuilt none).put .CDC_TRAIN_STS_STATE 1).put .CDC_TRAIN_STS_SAMPLED 0
  else s

/-- FRIT_TRAIN_START. -/
def execFritTrainStart (frit : Fin 64) (scope : Fin 256) (any : Bool) (samples : Nat) (s : State) : Res :=
  .next (s.trainStart frit.val scope.val any samples)

/-- FRIT_SAMPLING_DONE: sampling ends with n sectors held, at most SAMPLES. -/
def execFritSamplingDone (n : Nat) (s : State) : Res :=
  .next (if s.trainState = 1 ∧ 40 ≤ s.healthy then
    (s.put .CDC_TRAIN_STS_SAMPLED (min n (s.get .CDC_TRAIN_CTL_SAMPLES))).put .CDC_TRAIN_STS_STATE 2 else s)

/-- FRIT_BUILD_DONE: the trainer answers with its tables and dictionary; which of the valid ones is not specified. A trainer error,
or a table that R213 does not allow, ends the training (R231). ANY counts only under XSCOPE. With fewer than 40 healthy
engines training stands still (R555). -/
def execFritBuildDone (lit ctl : List Nat) (dict : List Byte) (lz lze : Nat) (failed : Bool) (s : State) : Res :=
  if s.trainState ≠ 2 ∨ s.healthy < 40 then .next s
  else if failed ∨ ¬ validTable lit ∨ ¬ validTable ctl ∨ dict.length ≠ 4096 then
    .next ((s.put .CDC_TRAIN_STS_STATE 0).report (msg1 bCdc 16 7))
  else
    let any := s.isSet .CDC_TRAIN_CTL_ANY && s.isSet .CDC_CTL_XSCOPE
    let f : Frit := { ver := 0, oneTc := !any, scope := if any then 0 else s.get .CDC_TRAIN_CTL_SCOPE, lit := lit, ctl := ctl, dict := dict
                      nsamp := s.get .CDC_TRAIN_STS_SAMPLED }
    .next ((((s.setBuilt (some f)).put .CDC_TRAIN_STS_STATE 3).put .CDC_TRAIN_STS_RATIO_LZ (min lz 2047)).put
      .CDC_TRAIN_STS_RATIO_LZE (min lze 2047))

/-! ### The store (R214, R215, R218) -/

/-- REF and version registers of a slot. -/
def refReg (slot : Nat) : Reg := if slot = 0 then .CDC_FRIT_REF0_REF else .CDC_FRIT_REF1_REF
def verReg (slot : Nat) : Reg := if slot = 0 then .CDC_FRIT_STS_VER0 else .CDC_FRIT_STS_VER1

/-- A slot that is not current and that no page references becomes empty (R214). -/
def State.emptySlot (s : State) (f slot : Nat) : State :=
  if s.get .CDC_FRIT_STS_CUR f ≠ slot ∧ s.get (refReg slot) f = 0 then
    ({ s.put (verReg slot) 0 f with cdc := { s.cdc with store := tdel (2 * f + slot) s.cdc.store } } : State).fritDrop (2 * f + slot)
  else s

/-- The version after another: 0 is skipped (R214). -/
def nextVer (v : Nat) : Nat := if v = 255 then 1 else v + 1

/-- COMMIT of `CDC_TRAIN_CTL` (R214, R217 step 5): ignored unless READY, refused while the other slot is referenced. While the REF rebuild is pending it is
refused as well; REFUSED then reads 1, STATE stays READY after a refusal, and after a commit it is IDLE (DESIGN CHOICE, log 120). -/
def State.fritCommit (s : State) : State :=
  match s.trainState, s.cdc.built with
  | 3, some x =>
    let f := s.get .CDC_TRAIN_CTL_FRIT
    let cur := s.get .CDC_FRIT_STS_CUR f
    let slot := 1 - cur
    if s.get (refReg slot) f ≠ 0 ∨ s.isSet .CDC_FRIT_STS_REBUILD f then s.put .CDC_TRAIN_STS_REFUSED 1
    else
      let ver := nextVer (s.fritVerAt f cur)
      let s := { s with cdc := { s.cdc with store := tput (2 * f + slot) { x with ver := ver } s.cdc.store, built := none } }
      let s := ((s.put (verReg slot) ver f).put .CDC_FRIT_STS_CUR slot f).put .CDC_FRIT_STS_SCOPED (b2n x.oneTc) f
      let s := ((s.put .CDC_FRIT_STS_SCOPE x.scope f).put .CDC_TRAIN_STS_REFUSED 0).put .CDC_TRAIN_STS_STATE 0
      (((s.emptySlot f cur).fritDrop (2 * f + slot)).writeSlot (2 * f + slot) 80).spoilIf (fun p => p.frit == f)
  | _, _ => s

/-- FRIT_COMMIT. -/
def execFritCommit (s : State) : Res := .next (if s.halt.isSome then s else s.fritCommit)

/-- DISCARD of `CDC_TRAIN_CTL`: the result is dropped, or the training ends. -/
def State.fritDiscard (s : State) : State := ((s.setBuilt none).put .CDC_TRAIN_STS_STATE 0).put .CDC_TRAIN_STS_SAMPLED 0

/-- FRIT_DISCARD. -/
def execFritDiscard (s : State) : Res := .next s.fritDiscard

/-- The REF counts as they stand. -/
def State.refsNow (s : State) : Tab Nat :=
  (List.range 128).foldl (fun (t : Tab Nat) k => tputD 0 k (s.get (refReg (k % 2)) (k / 2)) t) []

/-- The REF counts go to the slot headers (R212, R215). -/
def State.saveRefs (s : State) : State :=
  (s.cdc.store.map (·.1)).foldl (fun (s : State) x => s.writeSlot x 1) { s with cdc := { s.cdc with refMedia := s.refsNow } }

/-- FRIT_REF_WRITEBACK (R215). -/
def execFritRefWriteback (s : State) : Res := .next (if s.halt.isSome then s else s.saveRefs)

/-- The REF counts that the parisons give: by 2 × frit + slot (R215). -/
def State.countRefs (s : State) : Tab Nat :=
  s.pg.pages.foldl (fun (t : Tab Nat) x =>
    if usesFrit x.2 ∧ 2 ≤ x.2.pl.tier ∧ x.2.pl.tier ≤ 4 ∧ x.2.pl.ns = false then
      match s.fritSlot x.2.pl.frit x.2.fritVer with
      | some sl => let k := 2 * x.2.pl.frit + sl; tput k (tgetD 0 k t + 1) t
      | none => t
    else t) []

/-- FRIT_REF_REBUILD_DONE (R215): the sweep ends, once the port of every lent page is UP. -/
def execFritRefRebuildDone (s : State) : Res :=
  let wait := s.pg.pages.any (fun x => x.2.pl.tier == 4 && !s.portUp (locPort x.2.pl.ma))
  if ¬ s.isSet .CDC_FRIT_STS_REBUILD 0 ∨ wait then .next s
  else
    let t := s.countRefs
    .next ((List.range 64).foldl (fun (s : State) f =>
      let s := ((s.put .CDC_FRIT_REF0_REF (tgetD 0 (2 * f) t) f).put .CDC_FRIT_REF1_REF (tgetD 0 (2 * f + 1) t) f).put .CDC_FRIT_STS_REBUILD 0 f
      (s.emptySlot f 0).emptySlot f 1) s)

/-! ### The patrol scrubber (R326–R328) -/

/-- The port and the loan granule address of a granule that is lent (R414): the block's granules, or its tag area, which counts as the
block's first granule. -/
def State.lentAt (s : State) (ma : Nat) : Option (Nat × Nat) :=
  let at' := fun p => (s.port p).lent.findSome? (fun (b : LentBlock) =>
    if b.ma ≤ ma ∧ ma < b.ma + 16 then some (p, 16 * b.block + (ma - b.ma))
    else match b.tags with
      | some t => if t ≤ ma ∧ ma < t + 2 then some (p, 16 * b.block) else none
      | none => none)
  match at' 0 with | some x => some x | none => at' 1

/-- The line lies in the image, or in the local twin, that its owner entry names. -/
def inImage (p : Page) (role ma : Nat) : Bool :=
  if role = 1 then decide (p.pl.ma ≤ ma ∧ ma < p.pl.ma + imageLen p.pl) else decide (p.tw.tma ≤ ma ∧ ma < p.tw.tma + twinLen p)

/-- The lines of a page whose content a media line carries: one of a raw frame, a line of each sector of a parison. -/
def carried (p : Page) (lpn start la : Nat) (raw : Bool) : List Nat :=
  if raw then [64 * lpn + (la - 4 * start)] else (sectorsAt p (64 * (la - 4 * start))).map (fun k => 64 * lpn + 8 * k)

/-- A media line holds the poison marking. -/
def State.markedLa (s : State) (la : Nat) : Bool :=
  match tget (la / 4) s.pg.own with
  | none => false
  | some o =>
    let p := s.page o.lpn
    match o.role with
    | 1 => inImage p 1 (la / 4) && s.imgMarked o.lpn (isRaw p.pl) (la - 4 * p.pl.ma)
    | 2 => inImage p 2 (la / 4) && s.imgMarked o.lpn p.tw.tns (la - 4 * p.tw.tma)
    | 6 => match s.lentAt (la / 4) with
      | some (p, loc) => (s.port p).marked.contains (4 * loc + la % 4)
      | none => false
    | _ => false

/-- What the ROLE of its granule asks for an uncorrectable line (R328). -/
def State.scrubLost (s : State) (la : Nat) : State :=
  let ma := la / 4
  let rewrite := fun (s : State) => s.writeLine la
  match tget ma s.pg.own with
  | none => rewrite s
  | some o =>
    let p := s.page o.lpn
    match o.role with
    | 0 => rewrite { s with pg := { s.pg with own := tput ma { o with code := 1 } s.pg.own } }
    | 1 =>
      if ¬ inImage p 1 ma then s
      else if p.pl.twk ≠ 0 then s.queueRepair o.lpn
      else (carried p o.lpn p.pl.ma la (isRaw p.pl)).foldl (fun (s : State) l => (s.markSector l 0).mediaRecord l 0) s
    | 2 => if inImage p 2 ma then s.queueRepair o.lpn else s
    | 6 => match s.lentAt ma with
      | some (p, loc) => if s.portUp p then s.sendMsg p { op := 8, lloc := loc } else s
      | none => s
    | _ => rewrite s

/-- The outcome of a scrub read (R326–R328, R334): `raced`: a write to the line was queued or issued before the rewrite, which is then
dropped; the rewrite of a heavy line of a tagged role, left out, counts as deferred (DEDUCED, log 125). -/
def State.scrubOut (s : State) (la : Nat) (r : LineOut) (raced : Bool) : State :=
  let role := match tget (la / 4) s.pg.own with | some o => o.role | none => 0
  let c := s.chanOf (la / 4)
  let skipped := { msg1 bEcc c 6 la 1 with inj := r.inj }
  match r.out with
  | .clean | .poison => s
  | .corrected => if raced then s.report skipped else s.writeLine la
  | .heavy => if raced ∨ ¬ (role = 0 ∨ role = 7) then s.report skipped else s.writeLine la
  | .address | .uncorrectable => (s.report { msg2 bEcc c 4 la 1 with inj := r.inj }).scrubLost la

/-- One line of a pass is done (R326): progress, and at the last line the end of the pass, late or on time. `pausedNs`: how long scrub
was paused since the pass began, which is added to its period. -/
def State.scrubStep (s : State) (c pausedNs : Nat) : State :=
  let n := 4 * tgetD 0 c s.pg.chCap
  let pos := tgetD 0 c s.ecc.scrubAt + 1
  if pos < n then ({ s with ecc := { s.ecc with scrubAt := tput c pos s.ecc.scrubAt } }).put .ECC_SCRUB_STS_PCT (100 * pos / n) c
  else
    let late := decide (tgetD s.now c s.ecc.scrubFrom + s.get .ECC_SCRUB_CFG_PERIOD_H * 3600000000000 + pausedNs < s.now)
    let s := { s with ecc := { s.ecc with scrubAt := tdel c s.ecc.scrubAt, scrubFrom := tdel c s.ecc.scrubFrom } }
    ((s.put .ECC_SCRUB_STS_PCT 0 c).bump .ECC_SCRUB_STS_PASSES 0xFFFF c).put .ECC_SCRUB_STS_BEHIND (b2n late) c

/-- Scrub of a channel is paused (R326): a freeze, a retraining or frequency change, or self-refresh. -/
def State.scrubPaused (s : State) (c : Nat) : Bool := s.chState c == 3 || s.chState c == 5 || (s.chan c).selfRefresh

/-- SCRUB_READ: the next line in ascending order. -/
def execScrubRead (c : Fin 16) (e : ReadErr) (raced : Bool) (pausedNs : Nat) (s : State) : Res :=
  let n := 4 * tgetD 0 c.val s.pg.chCap
  if s.halt.isSome ∨ ¬ s.inService c.val ∨ s.scrubPaused c.val ∨ ¬ bit (s.get .ECC_SCRUB_CFG_EN) c.val ∨ n = 0 then .next s
  else
    let pos := tgetD 0 c.val s.ecc.scrubAt
    let s := if (tget c.val s.ecc.scrubFrom).isNone then { s with ecc := { s.ecc with scrubFrom := tput c.val s.now s.ecc.scrubFrom } } else s
    let la := 4 * s.maOf c.val (pos / 4) + pos % 4
    let (s, r) := (s.underFor { master := some 0x10, priv := 3, lpn := lpnEnd, cls := 0, tier := 6 } 3).readLine la e (s.markedLa la)
    .next (((s.scrubOut la r raced).scrubStep c.val pausedNs).uncharged)

end Sys2Proof.Machine
end

