-- ==== Sys2Proof/Machine/Waits.lean ====
section
/-!
DEFINITION. The commands that take pages as a migration agent does and wait for a move or a copy of them to go: `seg.free`, `sec.zero_pages`,
`sec.rebase` (R144, R301, R302, R311); those that wait for the homes or the holders of translations: `xlt.query` and the flushes (R120, R134–R138);
and the operations on pages that `tier` starts (R263).
-/
namespace Sys2Proof.Machine
open Sys2Proof

/-! ### Page ranges of a request (R143, R263, R310) -/

/-- First LPN and count of a request: 0x10 and 0x18. -/
def firstLpn (q : Req) : Nat := par q 0x10 8
def pageCount (q : Req) : Nat := par q 0x18 8

/-- The pages a request names. -/
def pagesOf (q : Req) : List Nat := (List.range (pageCount q)).map (fun i => firstLpn q + i)

/-- The parameter fields of a page range. -/
def rangeFields : List (Nat × Nat × Nat) := [fbits 0x10 0 33, fld 0x18 8]

/-- The checks of a page range: a Tenant names a context, the LPNs lie in the host range, the count is 1 to 512. -/
def State.rangeChecks (s : State) (q : Req) : List (Nat × Bool) :=
  [(0x0C, q.ctxv || decide (s.priv q.origin ≠ 1)), (0x10, decide (firstLpn q < devWindow)),
   (0x18, decide (1 ≤ pageCount q ∧ pageCount q ≤ 512 ∧ firstLpn q + pageCount q ≤ devWindow))]

/-! ### Operations of tier.pin and tier.twin (R263) -/

/-- An operation still waits for a page: it has not reached its tier, or its twin. A page that holds no media any more is
waited for no longer. -/
def State.opWaits (s : State) (o : OpPage) : Bool :=
  let p := s.page o.lpn
  hasImage p.pl.tier && (if o.twin then decide (p.pl.twk < o.want) else p.pl.pin && decide (p.pl.tier ≠ o.want))

/-- Operations none of whose pages is waited for any more are done. -/
def State.settleOps (s : State) : State :=
  let keep := s.pg.opPages.filter s.opWaits
  let gone := (s.pg.opPages.map (·.handle)).foldl (fun (l : List Nat) h => if keep.any (fun o => o.handle == h) then l else linsert h l) []
  gone.foldl (fun (s : State) h =>
    match tget (h % 64) s.pyx.slots with
    | some o => if o.seq = h / 64 then s.readyOp (h % 64) stOk 0 0 else s
    | none => s) { s with pg := { s.pg with opPages := keep } }

/-! ### Taking pages -/

/-- A move holds the page. -/
def State.inMove (s : State) (lpn : Nat) : Bool := (tget lpn s.pg.moves).isSome || (s.page lpn).pl.lock

/-- Recall every copy of a page that is not being recalled yet, of heads and of agents (R174 step 3). -/
def State.recallPage (s : State) (lpn : Nat) : State :=
  let s := s.dirFix lpn
  let s := match tget lpn s.coh.dir with
    | some r => (recPairs lpn r).foldl (fun (s : State) (b : Nat × Nat) =>
        if s.coh.biWait.any (fun x => x.1 == b.1 && x.2.1 == b.2) then s else s.biSend b.1 b.2 0) s
    | none => s
  let mine : List Nat := (s.coh.sf.filter (fun (e : Nat × SfEnt) => decide (e.1 / 64 = lpn))).map (fun e => e.1)
  mine.foldl (fun (s : State) l => s.openOwn l .purge) s

/-- Some head or agent still holds a line of the page, or a transaction of one is open. -/
def State.hostHolds (s : State) (lpn : Nat) : Bool :=
  (match tget lpn s.coh.dir with | some r => (recPairs lpn r) != [] | none => false) || s.coh.bi.any (fun b => b.2.1 / 64 == lpn)
    || s.coh.sf.any (fun e => e.1 / 64 == lpn) || s.coh.trk.any (fun t => t.1 / 64 == lpn)

/-- The page cannot be taken yet. -/
def State.notMine (s : State) (lpn : Nat) : Bool := s.inMove lpn || s.hostHolds lpn

/-- Writers that wait for a twin of the page are answered. -/
def State.twinLostAll (s : State) (lpn : Nat) : State := (List.range 8).foldl (fun (s : State) k => s.twinLost (8 * lpn + k)) s

/-- Every internal copy and all content of the page go; it is in tier Zero (R302). -/
def State.zeroPage (s : State) (lpn : Nat) : State := ((s.dropCopies lpn).vacate lpn 0).twinLostAll lpn

/-- The effect of `sec.zero_pages` once the pages are free (R302). -/
def zeroBody (q : Req) (s : State) : Ans :=
  let l := pagesOf q
  if l.any (fun p => s.tier p == 5) then refuse s stBadParam 0x10
  else
    let hit := l.filter (fun p => s.tier p != 0)
    ok (hit.foldl (fun (s : State) p => s.zeroPage p) s).settleUnver.settleOps hit.length

/-- Fresh counters for one unverifiable page (R282, R301); its twin is re-tagged as well. -/
def State.rebasePage (s : State) (lpn : Nat) : State :=
  let p := s.page lpn
  let s := s.putCtrs lpn p.pl.ks (s.get .SEC_KS_HIGH_VALUE p.pl.ks + 1) 8
  let s := { s with sec := { s.sec with rebased := linsert lpn s.sec.rebased } }
  let s := if p.pl.twk = 2 then (s.sendPage lpn 2 (8 * lpn)).1 else s
  s.spoil lpn

/-- The effect of `sec.rebase` (R301). A page whose slot is EMPTY has no key to tag under and is passed over. -/
def rebaseBody (q : Req) (s : State) : Ans :=
  let hit := (pagesOf q).filter (fun p => s.unverif p && hasImage (s.tier p) && s.slotActive (s.page p).pl.ks
    && decide (s.get .SEC_KS_HIGH_VALUE (s.page p).pl.ks < 0xFFFFFFFFFFFFFFFE))
  ok (hit.foldl (fun (s : State) p => s.rebasePage p) s).settleUnver hit.length

/-- The effect of `seg.free` (R143). -/
def freeBody (q : Req) (s : State) : Ans :=
  ok ((pagesOf q).foldl (fun (s : State) p => s.zeroPage p) s).settleUnver

/-- The effect of a command on pages once they are free. -/
def waitBody (kind : Nat) : Req → State → Ans :=
  match kind with | 0 => zeroBody | 1 => rebaseBody | _ => freeBody

/-- A command keeps waiting. -/
def State.keepWaiting (s : State) (w : Waiting) : Ans :=
  { st := { s with xlt := { s.xlt with waiting := s.xlt.waiting ++ [w] } }, later := true }

/-- `xlt.query` (R143): a fresh walk that uses no cache and sets no mark; it waits while the home recalls a line (R120). -/
def State.runQuery (s : State) (w : Waiting) : Ans :=
  let q := w.req
  match s.walk { holder := 8 + q.engine.val, tc := q.tc.val, ta := par q 0x10 8, master := mEng q.engine.val } false with
  | (_, .leaf val lvl lpn _, _) => okOut s val 8 [(0, 8, lpn)] (lvl * 256)
  | (_, .fault k lvl _ val, _) => okOut s val 8 [] (k + lvl * 256)
  | (_, .wait l _, _) => (s.openOwn l .peek).keepWaiting w

/-! ### Flushes (R134–R138) -/

/-- Accesses that holders have issued and no home has accepted, by agent and line: those that wait at a head for its tollgate, and those that a Nack has
sent back. -/
def State.unaccepted (s : State) : List Nat :=
  s.coh.quotaQ.map (fun q => agKey q.agent q.line) ++ (s.coh.reqs.filter (fun r => r.2.backoff)).map (·.1)

/-- Flushes that run (R135). -/
def State.flushesOn (s : State) : Nat := (s.xlt.waiting.filter (·.started)).length

/-- `XLT_FLUSH_STS` follows the flushes: how many run, and the longest that has ended. -/
def State.showFlush (s : State) : State := s.put .XLT_FLUSH_STS_ACTIVE s.flushesOn

/-- The entries a flush drops, by its command: `xlt.flush` the scope it names, `xlt.flush_all` every one, the others a whole context. -/
def State.flushScope (s : State) (w : Waiting) : State :=
  let q := w.req
  match w.kind with
  | 4 => if par q 0x10 1 = 0 then s.flushCtx q.tc.val else s.flush q.tc.val (par q 0x18 8) (par q 0x20 8)
  | 5 => s.setTlb []
  | _ => s.flushCtx q.tc.val

/-- A flush starts when one of the 16 slots is free, and every holder drops its entries; it ends once each access issued under them has reached its home
(R134, R135). -/
def State.runFlush (s : State) (w : Waiting) : Ans :=
  let go := w.started || decide (s.flushesOn < 16)
  let (s, w) := if w.started ∨ ¬ go then (s, w) else (s.flushScope w, { w with started := true, at' := s.now, left := s.unaccepted })
  if ¬ go then s.keepWaiting w
  else
    let left := w.left.filter (fun k => s.unaccepted.contains k)
    if left = [] then
      let s := s.put .XLT_FLUSH_STS_MAX_NS (max (s.get .XLT_FLUSH_STS_MAX_NS) (min 0xFFFF (s.now - w.at')))
      let s := if w.kind = 7 then (s.put .XLT_CTX_CFG_EN 0 w.req.tc.val).regrant s else s
      ok s.showFlush
    else
      let a := s.keepWaiting { w with left := left }
      { a with st := a.st.showFlush }

/-- A command that takes pages runs at once, or waits while one of them is held (R311). -/
def State.runPages (s : State) (w : Waiting) : Ans :=
  let l := pagesOf w.req
  let s' := if w.kind = 1 then s else l.foldl (fun (s : State) p => s.recallPage p) s
  if l.any (fun p => if w.kind = 1 then s'.inMove p else s'.notMine p) then s'.keepWaiting w else waitBody w.kind w.req s'

/-- A waiting command goes as far as it can. -/
def State.runWait (s : State) (w : Waiting) : Ans :=
  if w.kind ≤ 2 then s.runPages w else if w.kind = 3 then s.runQuery w else s.runFlush w

/-- A command that may have to wait. -/
def State.takeOrWait (s : State) (kind : Nat) (q : Req) : Ans := s.runWait { kind := kind, req := q }

/-- An access of DBG to logical memory is carried out at the home, as the walker's reads and mark updates are (R120, R148): a read once no head and no
agent owns the line, a write once there is no copy of it anywhere; till then the home recalls the line. Which agent such an access uses is not given
(DESIGN CHOICE, log 115). -/
def State.tapGo (s : State) : State :=
  match s.acc.tapMem with
  | none => s
  | some (line, sh, w, hint) =>
    let s := s.dirFix (line / 64)
    let done := fun (s : State) => ({ s with acc := { s.acc with tapMem := none } } : State)
    let old := if s.tier (line / 64) = 0 then some 0 else if hasImage (s.tier (line / 64)) then s.homeCopy line else none
    match w with
    | none =>
      if ¬ s.lineHome line then s.openOwn line .peek
      else match old with
        | some d => (done s).emit (.value (bits d.toNat sh 64))
        | none => (({ s with acc := { s.acc with tapErr := true } } : State) |> done).emit (.value 0)
    | some v =>
      if ¬ s.lineAlone line then s.openOwn line .seize
      else
        let d := (old.getD 0).toNat
        let q : CohReq := { agent := s.homeAg line, line := line, kind := .readO, obj := (s.page (line / 64)).pl.obj, master := mDbg, hint := hint }
        done (s.applyWrite q (BitVec.ofNat 512 (d - bits d sh 64 * 2 ^ sh + v * 2 ^ sh)) old.isNone 0).1

/-- Commands that wait go on, oldest first, and so does an access of DBG. -/
def State.wake (s : State) : State :=
  (s.xlt.waiting.foldl (fun (s : State) w =>
    match s.runWait w with
    | a => if a.later ∨ w.mute then a.st else a.finish s w.req) { s with xlt := { s.xlt with waiting := [] } }).showFlush.tapGo

/-- XLT_QUERY (R143). -/
def execXltQuery (q : Req) (s : State) : Res :=
  serve { op := 0x0400, priv := 1, mctp := true, ctx := 1, fields := [fld 0x10 8], output := true } q none (fun s =>
    if 2 ^ 48 ≤ par q 0x10 8 then okOut s 0 8 [] 0x02 else s.takeOrWait 3 q) s

/-- SEG_SET_ROOT (R138): a flush of the whole context. -/
def execSegSetRoot (q : Req) (s : State) : Res :=
  let tc := q.tc.val
  let root := par q 0x10 8
  let clear := parBit q 0x18 0
  serve { op := 0x0303, priv := 1, ctx := 1, fields := [fld 0x10 8, fbits 0x18 0 1] } q
    (firstBad [(0x10, clear || (s.windowed tc root 1 && s.tier root == 5))]) (fun s =>
      let s := if clear then s.put .XLT_CTX_CFG_ROOTV 0 tc
        else (s.put .XLT_CTX_CFG_ROOT root tc).put .XLT_CTX_CFG_ROOTV 1 tc
      s.takeOrWait 6 q) s (if clear then none else s.lpnDeny q root 1)

/-- XLT_FLUSH (R134–R136). -/
def execXltFlush (q : Req) (s : State) : Res :=
  let range := par q 0x10 1
  let ta := par q 0x18 8
  let n := par q 0x20 8
  serve { op := 0x0401, priv := 1, ctx := 1, fields := [fld 0x10 1, fld 0x18 8, fld 0x20 8] } q
    (firstBad [(0x10, decide (range ≤ 1)), (0x18, decide (range ≠ 1 ∨ (ta % 4096 = 0 ∧ ta < 2 ^ 48))),
      (0x20, decide (range ≠ 1 ∨ (1 ≤ n ∧ n ≤ 2 ^ 36)))]) (fun s => s.takeOrWait 4 q) s

/-- XLT_FLUSH_ALL (R135). -/
def execXltFlushAll (q : Req) (s : State) : Res :=
  serve { op := 0x0402, priv := 2 } q none (fun s => s.takeOrWait 5 q) s

/-- FLUSH_ACK_TIMEOUT (step 5 of R134, R142, R554): while a flush runs, an engine has not acknowledged; its TLB is invalidated and it is held, so that
flushes wait for it no longer. -/
def execFlushAckTimeout (n : Fin 48) (s : State) : Res :=
  if s.flushesOn = 0 then .next s
  else
    let mine := fun (k : Nat) => match tget k s.coh.reqs with | some r => r.req.master == mEng n.val | none => false
    let s := { s with xlt := { s.xlt with waiting := s.xlt.waiting.map (fun (w : Waiting) => { w with left := w.left.filter (fun k => !mine k) }) } }
    .next (((s.bump .XLT_FLUSH_STS_HUNG 0xFFFF).report (msg1 bXlt (8 + n.val) 4)).hangEngine n.val).wake

/-- SEC_ZERO_PAGES (R302, R310, R311). -/
def execSecZeroPages (q : Req) (s : State) : Res :=
  serve { op := 0x0707, priv := 1, ctx := 2, fields := rangeFields } q
    (firstBad (s.rangeChecks q ++ [(0x10, (pagesOf q).all (fun p => s.tier p != 5))])) (fun s => s.takeOrWait 0 q) s
    (s.lpnDeny q (firstLpn q) (pageCount q))

/-- SEC_REBASE (R301, R310, R311). -/
def execSecRebase (q : Req) (s : State) : Res :=
  serve { op := 0x0706, priv := 1, ctx := 2, fields := rangeFields } q (firstBad (s.rangeChecks q)) (fun s => s.takeOrWait 1 q) s
    (s.lpnDeny q (firstLpn q) (pageCount q))

/-- SEG_FREE (R138, R143, R144): a page that is the root of a context gives ST_BUSY; one that a move holds makes the command wait, as R311 has it. -/
def execSegFree (q : Req) (s : State) : Res :=
  let l := pagesOf q
  serve { op := 0x0307, priv := 1, ctx := 2, fields := rangeFields } q
    (firstBad (s.rangeChecks q ++ [(0x10, l.all (fun p => s.tier p == 5 || s.tier p == 7))])) (fun s =>
      let root := (List.range 256).any (fun c => s.isSet .XLT_CTX_CFG_EN c && s.isSet .XLT_CTX_CFG_ROOTV c && l.contains (s.get .XLT_CTX_CFG_ROOT c))
      if root then busy s else s.takeOrWait 2 q) s
    (s.lpnDeny q (firstLpn q) (pageCount q))

end Sys2Proof.Machine
end

