-- ==== Sys2Proof/Machine/HeadMem.lean ====
section
/-!
DEFINITION. What a head does with an access of its host (02_host_ports.md, 06_access_paths.md): binding, translation, the port cache, the tollgate;
and what goes on when a line is free again.
-/
namespace Sys2Proof.Machine
open Sys2Proof

/-! ### Binding and translation (R61, R64, R65, R69) -/

/-- The access a host's message makes. -/
def hostAcc (m : HostMem) (dpa : Nat) (w : Option (Line × Nat × Bool)) : HeadAcc :=
  { h := m.h.val, tag := m.tag, dpa := dpa, mv := some m.mv.val, nc := m.nc, write := w
    tblBad := m.tblBad.map (·.val), hit := m.hit, hint := m.hint, pref := m.pref }

/-- The offset within the device's share of an interleaved range: ways 1 to 16, granularity 256 × 2^gran bytes (R28, R51). -/
def unweave (ways gran off : Nat) : Nat := off / (2 ^ (8 + gran) * ways) * 2 ^ (8 + gran) + off % 2 ^ (8 + gran)

/-- The DPA at which the range of decoder d of a head begins: what the decoders below it map, and every skip up to its own. -/
def State.dpaBase (s : State) (h d : Nat) : Nat :=
  ((s.head h).decoders.filter (fun x => decide (x.1 ≤ d))).foldl (fun a x => a + x.2.skip + if x.1 < d then x.2.size / x.2.ways else 0) 0

/-- The HDM decoders of a head turn an HPA into a DPA by the CXL rules (R28): none where no committed decoder holds it. -/
def State.hdm (s : State) (h hpa : Nat) : Option Nat :=
  match (s.head h).decoders.find? (fun x => x.2.committed && decide (x.2.base ≤ hpa ∧ hpa < x.2.base + x.2.size)) with
  | some (d, x) => some (s.dpaBase h d + unweave x.ways x.gran (hpa - x.base))
  | none => none

/-- The enabled binding entry that matches a DPA (R61); BASE, SIZE and TABASE count in 2 MiB. -/
def State.bindOf (s : State) (h dpa : Nat) : Option Nat :=
  (List.range 16).find? (fun i => s.isSet .HPT_BIND_CTL_EN h i &&
    decide (s.get .HPT_BIND_BASE_BASE h i * 2 ^ 21 ≤ dpa ∧ dpa < (s.get .HPT_BIND_BASE_BASE h i + s.get .HPT_BIND_SIZE_SIZE h i) * 2 ^ 21))

/-- Tenant address of a DPA through an entry (R28, R61). -/
def State.bindTa (s : State) (h i dpa : Nat) : Nat :=
  dpa - s.get .HPT_BIND_BASE_BASE h i * 2 ^ 21 + s.get .HPT_BIND_TA_TABASE h i * 2 ^ 21

/-- An accepted extent of a region holds a DPA (R65). -/
def State.inExtent (s : State) (h region dpa : Nat) : Bool :=
  (s.head h).extents.any (fun e => e.region == region && decide (e.base ≤ dpa ∧ dpa < e.base + e.len))

/-- Put a DPA on a head's poison list (R70). -/
def State.listPoison (s : State) (h dpa : Nat) : State :=
  let hd := s.head h
  let d := dpa / 64 * 64
  if hd.poison.contains d then s
  else if hd.poison.length < 512 then s.setHead h { hd with poison := hd.poison ++ [d] }
  else s.setHead h { hd with poisonOvf := true, poisonOvfTime := s.stamp }

/-- An access that faults in translation, or that the access table denies (R69, R524): a read returns poison, a write completes and
is discarded. A head that has departed gets nothing. -/
def State.faultDone (s : State) (a : HeadAcc) : State :=
  if a.gone then s
  else if a.write.isSome then s.emit (.memCmp a.h a.tag)
  else ((s.listPoison a.h a.dpa).count (.head a.h) 0x06 1 (some (headAttr a.h lpnEnd 0))).emit (.memData a.h a.tag 0 true)

/-- What the head's step 1 answers (R177): a line with the leaf and the binding entry's KIND, a fault that is reported, or a recall to
wait for, with the binding that has translated the access (R63). -/
inductive Resolved where
  | line (line val tc : Nat) (kind : Bool)
  | fault
  | wait (line : Nat) (all : Bool) (bound : Nat × Nat × Nat × Bool)
  deriving DecidableEq, Repr

/-- What the binding table answers: the binding (entry, tenant address, context, KIND), or the fault kind with its entry, address and
context (R61, R65). -/
def State.bindAcc (s : State) (h dpa : Nat) : Except (Nat × Nat × Nat × Nat) (Nat × Nat × Nat × Bool) :=
  match s.bindOf h dpa with
  | none => .error (0x01, 16, 0, 0)
  | some i =>
    let ta := s.bindTa h i dpa
    let tc := s.get .HPT_BIND_CTL_TC h i
    if 2 ^ 48 ≤ ta then .error (0x02, i, ta, tc)
    else if s.isSet .HPT_BIND_CTL_DC h i ∧ ¬ s.inExtent h (s.get .HPT_BIND_CTL_DCREG h i) dpa then .error (0x03, i, ta, tc)
    else .ok (i, ta, tc, s.isSet .HPT_BIND_CTL_KIND h i)

/-- Binding, then stage 1 (R61, R64, R65, R113, R139). An access that an entry has translated keeps its binding (R63). -/
def State.resolve (s : State) (a : HeadAcc) (write : Bool) : State × Resolved :=
  match (match a.bound with | some b => Except.ok b | none => s.bindAcc a.h a.dpa) with
  | .error (kind, b, ta, tc) =>
    (((s.reportTo (msg1 bHpt a.h 3 ta (xlExtra 1 0 write false tc a.h) kind) (.xlat a.h a.dpa b)).count (.head a.h) 0x05 1
      (some (headAttr a.h lpnEnd 0))), Resolved.fault)
  | .ok (i, ta, tc, kind) =>
      let x : XlAcc := { holder := a.h, tc := tc, ta := ta, write := write, master := a.h, kind := some kind, tblBad := a.tblBad,
                         root := a.root }
      let miss := (s.tlbFind x 3 false).isNone && (s.tlbFind x 2 false).isNone && (s.tlbFind x 1 false).isNone
      let s := if miss then s.count (.head a.h) 0x04 1 (some (headAttr a.h lpnEnd 0)) else s
      match s.xlate x with
      | (s, .leaf val _ lpn _) => (if miss ∧ a.pref then s.prefetchXl x else s, .line (64 * lpn + ta / 64 % 64) val tc kind)
      | (s, .fault k lvl mark _) =>
        ((s.xlFault x k lvl mark (.xlat a.h a.dpa i)).count (.head a.h) 0x05 1 (some (headAttr a.h lpnEnd 0)), .fault)
      | (s, .wait l all) => (s, .wait l all (i, ta, tc, kind))

/-- The home takes a segment-table line home for a walk or a mark update (R120, R148). -/
def State.recallTable (s : State) (line : Nat) (all : Bool) : State := s.openOwn line (if all then .seize else .peek)

/-! ### Admission at the head (R177 steps 2 and 3, R424, R425) -/

/-- The request that the port agent makes (R156). -/
def portReq (a : HeadAcc) (line cls obj : Nat) (sh quiet db : Bool) : CohReq :=
  { agent := a.h, line := line
    kind := match a.write with
      | some w => if w.2.1 = fullMask then .readOFull else .readO
      | none => if ¬ db then .readS
        else if a.nc ∨ a.mv = some 0 then .readSnc else if a.mv = some 2 then .readO else .readS
    quiet := quiet, cls := cls, obj := obj, sh := sh, head := if a.gone then none else some (a.h, a.tag), dpa := a.dpa, untracked := a.gone
    write := a.write, mv := if db then a.mv else none, master := a.h, hit := a.hit, hint := a.hint }

/-- Requests, write-backs and notices of an agent that are outstanding (R154). -/
def State.outstanding (s : State) (a : Nat) : Nat :=
  (s.coh.reqs.filter (fun r => r.1 / 2 ^ 39 == a)).length + (s.coh.evs.filter (fun r => r.1 / 2 ^ 39 == a)).length

/-- WbM of an agent that are outstanding to a home (R153). -/
def State.wbmOut (s : State) (a n : Nat) : Nat :=
  (s.coh.evs.filter (fun e => e.1 / 2 ^ 39 == a && decide (e.2 ≠ 0) && s.home (e.1 % 2 ^ 39 / 64) == n)).length

/-- The port agent has what a request needs: one of 64 places; for a write one of the 32 of its write buffer, and one of the 8 WbM that a home has space
for (R145, R153, R154). -/
def State.portRoom (s : State) (q : CohReq) : Bool :=
  let writes := (s.coh.reqs.filter (fun r => r.1 / 2 ^ 39 == q.agent && r.2.req.write.isSome)).length
  let wbms := (s.coh.evs.filter (fun r => r.1 / 2 ^ 39 == q.agent && decide (r.2 ≠ 0))).length
  let here := (s.coh.reqs.filter (fun r => r.1 / 2 ^ 39 == q.agent && r.2.req.write.isSome && s.home r.2.req.lpn == s.home q.lpn)).length
  decide (s.outstanding q.agent < 64) && (q.write.isNone || decide (writes + wbms < 32 ∧ here + s.wbmOut q.agent (s.home q.lpn) < 8))

/-- Nothing keeps a request waiting at its head: the class is below its quota, no earlier request or write-back of the head for the line is open, its port
agent has room, and no back-invalidate snoop to the head crosses it (R154, R169, R189, R425). -/
def State.admissible (s : State) (q : CohReq) : Bool :=
  decide (s.get .TLG_HQ_COUNT q.agent q.cls < s.get .TLG_HQ_QUOTA q.agent q.cls)
    && (tget (agKey q.agent q.line) s.coh.reqs).isNone && (tget (agKey q.agent q.line) s.coh.evs).isNone && s.portRoom q
    && !s.coh.bi.any (fun b => b.1 == q.agent && b.2.1 == q.line)

/-- A request takes the lowest transaction number its agent has free (R152; which is DESIGN CHOICE, log 111). -/
def State.numbered (s : State) (q : CohReq) : CohReq :=
  { q with tid := freeNum ((s.coh.reqs.filter (fun r => r.1 / 2 ^ 39 == q.agent)).map (·.2.req.tid)) }

/-- A request passes the tollgate of its head and goes to its home. One whose head has departed is not counted (R75). -/
def State.admitReq (s : State) (q : CohReq) : State :=
  let s := if q.head.isSome then s.put .TLG_HQ_COUNT (s.get .TLG_HQ_COUNT q.agent q.cls + 1) q.agent q.cls else s
  let q := s.numbered q
  let s := (s.coh' (fun c => { c with reqs := tput (agKey q.agent q.line) { req := q } c.reqs })).say (q.msg (s.homeAg q.line))
  (s.homeReq q).settle (s.home q.lpn)

/-- Earlier requests of a head for a line have not been performed (R189). -/
def State.queuedBefore (s : State) (a line : Nat) : Bool :=
  (tget (agKey a line) s.coh.reqs).isSome || s.coh.quotaQ.any (fun x => x.agent == a && x.line == line)

/-- The write buffer or the port cache supplies a read (R177 step 2, R189); for a host that may then cache the line in S, the directory must still show
the head. -/
def State.portHit (s : State) (q : CohReq) : Option Held :=
  match s.heldAt q.agent q.line with
  | some h => if ¬ s.queuedBefore q.agent q.line ∧ ¬ q.owns ∧ (q.mv ≠ some 1 ∨ s.present q.line q.agent) then some h else none
  | none => none

/-- A host's dirty data that arrives before its BIRsp (R169): it is applied at once, and the recall goes on. -/
def State.recallData (s : State) (q : CohReq) (w : Line × Nat × Bool) : State :=
  let (s, out) := s.applyWrite q (if w.2.1 = fullMask then w.1
    else mergeBytes (match s.lcOf q.line with | some l => l.data | none => tgetD 0 q.line s.pg.mem) w.1 w.2.1) w.2.2 1
  let s := if q.head.isSome then s.put .TLG_HQ_COUNT (s.get .TLG_HQ_COUNT q.agent q.cls + 1) q.agent q.cls else s
  s.completeWrite q out

/-- A read or write of a head (R177, R180) from its step 1 on; one behind a parked access to the same 64 bytes stays behind it (R189). -/
def State.headAccess (s : State) (a : HeadAcc) : State :=
  match s.coh.parked.find? (fun x => x.h == a.h && x.dpa / 64 == a.dpa / 64) with
  | some x => s.coh' (fun c => { c with parked := c.parked ++ [{ a with waits := x.waits }] })
  | none =>
  let accepted := fun (s : State) (lpn cls : Nat) => s.count (.head a.h) (if a.write.isSome then 0x02 else 0x01) 1 (some (headAttr a.h lpn cls))
  match s.resolve a a.write.isSome with
  | (s, .fault) => (accepted s lpnEnd 0).faultDone a
  | (s, .wait l all b) =>
    (s.recallTable l all).coh' (fun c => { c with parked := c.parked ++
      [{ a with bound := some b, waits := l, root := some (a.root.getD (s.get .XLT_CTX_CFG_ROOT b.2.2.1)) }] })
  | (s, .line line val tc kind) =>
    let (s, ok) := s.memAccess a.h (line / 64) (if a.write.isSome then opW else opR) false (.toHead a.h)
    let (s, cls, obj) := s.labels tc val
    let s := accepted s (line / 64) cls
    if ¬ ok then s.faultDone a
    else
      let q := portReq a line cls obj (entS val) (entQ val) kind
      match a.write with
      | some w =>
        if s.coh.bi.any (fun b => b.1 == a.h && b.2.1 == line) then s.recallData q w
        else if s.admissible q ∧ ¬ s.coh.quotaQ.any (fun x => x.agent == a.h && x.line == line) then s.admitReq q
        else s.coh' (fun c => { c with quotaQ := c.quotaQ ++ [q] })
      | none =>
        match s.portHit q with
        | some h => (s.count (.head a.h) 0x03 1 (some (headAttr a.h q.lpn cls))).emit (.memData a.h a.tag h.data h.poison)
        | none =>
          if s.admissible q ∧ ¬ s.coh.quotaQ.any (fun x => x.agent == a.h && x.line == line) then s.admitReq q
          else s.coh' (fun c => { c with quotaQ := c.quotaQ ++ [q] })

/-- Accesses whose table line is home again go on (R120). -/
def State.unpark (s : State) : State :=
  let ready := s.coh.parked.filter (fun a => (s.trkOf a.waits).isNone)
  ready.foldl (fun (s : State) a => s.headAccess a) (s.coh' (fun c => { c with parked := c.parked.filter (fun a => (s.trkOf a.waits).isSome) }))

/-- Transactions have ended at a home: what waited for them goes on. -/
def State.settled (s : State) (n : Nat) : State := (s.settle n).unpark.wake

end Sys2Proof.Machine
end

