-- ==== Sys2Proof/Machine/Cohere.lean ====
section
/-!
DEFINITION. The coherence messages between agents and homes (05_coherence.md), one command each, and the events of the access
path at a home (06_access_paths.md): walks, media reads, write-backs, twin writes.
-/
namespace Sys2Proof.Machine
open Sys2Proof

/-! ### Requests of agents (R149, R154, R155) -/

/-- The request a message makes. -/
def askReq (q : Ask) (k : ReqKind) : CohReq :=
  { agent := q.agent.val, line := q.line.val, kind := k, quiet := q.quiet, cls := q.cls.val, obj := q.obj.val, sh := q.sh,
    master := (q.master.map (·.val)).getD 0x7F, hit := q.hit, hint := q.hint }

/-- A job unit is inside an active tenant job context with a window on a page (R522). -/
def State.jobExcepted (s : State) (master lpn : Nat) : Bool :=
  if 0x0A ≤ master ∧ master ≤ 0x0D then
    match tget (master - 0x0A) s.job.units with
    | some (id, _) => match tget id s.job.jobs with
      | some j => s.inWindow j.req.tc.val lpn
      | none => false
    | none => false
  else false

/-- What a denied or failing access of a job unit does to its job (R377, R524): it ends with ST_FAULTED. -/
def State.failJob (s : State) (unit : Nat) : State :=
  match tget unit s.job.units with
  | some (id, _) => s.cutJob id stFaulted ((s.get .FLT_SEQ_NEXT - 1) % 2 ^ 32)
  | none => s

/-- The tenant context whose job an engine serves (R115): a command that a Tenant submitted with CTXV = 1, whose reply is not written yet. -/
def State.tenantJob (s : State) (e tc : Nat) : Bool :=
  let mine := fun (q : Req) => q.engine.val == e && q.ctxv && q.tc.val == tc && s.priv q.origin == 1
  s.xlt.waiting.any (fun w => mine w.req) || s.job.jobs.any (fun j => mine j.2.req)

/-- The commands that an engine serves end with ST_FAULTED (R115, R141). -/
def State.endServed (s : State) (e : Nat) : State :=
  let det := (s.get .FLT_SEQ_NEXT - 1) % 2 ^ 32
  let mine := s.xlt.waiting.filter (fun w => w.req.engine.val == e && !w.mute)
  let s := { s with xlt := { s.xlt with waiting := s.xlt.waiting.filter (fun w => w.req.engine.val != e) } }
  let s := mine.foldl (fun (s : State) (w : Waiting) => s.reply w.req stFaulted 0 det 0 []) s
  ((s.job.jobs.filter (fun j => j.2.req.engine.val == e)).map (·.1)).foldl (fun (s : State) id => s.cutJob id stFaulted det) s

/-- The access that stage 1 translates for a request of an engine or a job unit (R108, R114, R115). A job unit is in user mode under its job's context. -/
def viaAcc (s : State) (q : CohReq) (v : Via) : XlAcc :=
  { holder := 8 + v.engine.val, tc := v.tc.val, ta := v.ta.val, write := q.owns, fetch := v.fetch
    guarded := v.sup && decide (q.agent < 0x0E) && !s.tenantJob v.engine.val v.tc.val, master := q.master, tblBad := v.tblBad.map (·.val)
    exc := s.jobExcepted q.master (s.get .XLT_CTX_CFG_ROOT v.tc.val) }

/-- An agent may name an LPN itself only in the device window, through the device context (R29, R108): every page of a tenant is reached through the
tenant's own context. -/
def ownLpn (q : CohReq) : Bool := decide (devWindow ≤ q.lpn ∧ q.lpn < lpnEnd)

/-- The request with line and attributes of its leaf (R109, R116), or none where the access has faulted or waits for a table line. -/
def State.viaReq (s : State) (q : CohReq) (v : Via) : State × Option CohReq :=
  let a := viaAcc s q v
  let miss := (s.tlbFind a 3 false).isNone && (s.tlbFind a 2 false).isNone && (s.tlbFind a 1 false).isNone
  let s := if miss then s.count (.cluster (v.engine.val / 8)) 0x02 1 (some (reqAttr { q with line := 64 * lpnEnd, cls := 0, sup := v.sup && decide (q.agent < 0x0E) } 6)) else s
  match s.xlate a with
  | (s, .leaf val _ lpn _) =>
    let (s, cls, obj) := s.labels a.tc val
    (s, some { q with line := 64 * lpn + v.ta.val / 64 % 64, cls := cls, obj := obj, sh := entS val, quiet := entQ val
                      sup := v.sup && decide (q.agent < 0x0E) })
  | (s, .fault k lvl mark _) =>
    let s := s.xlFault a k lvl mark .std
    (if 0x0E ≤ q.agent then s.failJob (q.agent - 0x0E) else s.endServed v.engine.val, none)
  | (s, .wait l all) => (s.recallTable l all, none)

/-- Lines an agent's cache can hold (R145): a cluster cache has 16 ways in each of 64 sets, a job buffer 2,048 lines; what is disabled (R176) holds none. -/
def State.agentRoom (s : State) (a line : Nat) : Bool :=
  let mine := (s.coh.held.filter (fun h => h.1 / 2 ^ 39 == a && h.1 % 2 ^ 39 != line)).map (fun h => h.1 % 2 ^ 39)
    ++ (s.coh.reqs.filter (fun r => r.1 / 2 ^ 39 == a && r.2.req.line != line)).map (fun r => r.2.req.line)
  let off := s.isOff bCoh (a + 8) 5
  if a < 0x0E then
    let ways := if off then 15 else 16
    decide (mine.length < ways) || decide ((mine.filter (fun l => Config.clusterSet l % 64 == Config.clusterSet line % 64)).length < ways)
  else decide (mine.length < if off then 2047 else 2048)

/-- A request leaves its agent and reaches the home: at most one for a line and 64 in all are outstanding (R154), and what the agent will keep has room. The
memory port judges it (R521). -/
def State.agentAsk (s : State) (q : CohReq) (via : Option Via) : State :=
  let s := s.wakeMem
  match (match via with
    | some v => s.viaReq q v
    | none => (s, if ownLpn q then some q else none)) with
  | (s, none) => s
  | (s, some q) =>
    if s.halt.isSome ∨ (tget (agKey q.agent q.line) s.coh.reqs).isSome ∨ 64 ≤ s.outstanding q.agent ∨ ¬ s.agentRoom q.agent q.line then s
    else
      let (s, ok) := if q.master = 0x7F then (s, true)
        else s.memAccess q.master q.lpn (if q.owns then opW else opR) (s.jobExcepted q.master q.lpn) .std
      if ¬ ok then (if 0x0E ≤ q.agent then s.failJob (q.agent - 0x0E) else s)
      else
        let q := s.numbered q
        let s := if 8 ≤ q.agent ∧ q.agent < 0x0E then s.count (.cluster (q.agent - 8)) 0x03 1 (some (reqAttr q 6)) else s
        let s := (s.coh' (fun c => { c with reqs := tput (agKey q.agent q.line) { req := q } c.reqs })).say (q.msg (s.homeAg q.line))
        (s.homeReq q).settled (s.home q.lpn)

/-- READS (R155): with NC the requester installs nothing. -/
def execReads (q : Ask) (nc : Bool) (s : State) : Res :=
  .next (s.agentAsk (askReq q (if nc then .readSnc else .readS)) q.via)

/-- LOCK of a page is set, and every copy of it is recalled (R174 steps 1–3). Dirty data comes home with the answers. -/
def State.takePage (s : State) (lpn : Nat) : State :=
  let p := s.page lpn
  (s.putPage lpn { p with pl := { p.pl with lock := true } }).recallPage lpn

/-- A write that hits at its agent (R149): the line is in M, or in E and becomes M without a message. -/
def State.writeHit (s : State) (a line : Nat) (d : Line) : Option State :=
  match s.heldAt a line with
  | some h => if 3 ≤ h.st then some (s.hold a line (some { st := 4, data := d })) else none
  | none => none

/-- READO (R155, R174): an agent's write: it hits, with the line `wrote`, or it asks the home; FULL asks for ownership without data; PAGE comes from the
migration agent of a dispatched move, which has reached step 1. -/
def execReado (q : Ask) (full page : Bool) (wrote : Option Line) (s : State) : Res :=
  if page then
    let lpn := q.line.val / 64
    match tget lpn s.pg.moves with
    | some m =>
      if m.step = 1 ∧ s.halt.isNone ∧ ¬ (m.req.ver = (s.page lpn).pl.ver ∧ s.meets m.req) then .next (s.staleMove m)
      else if m.step = 1 ∧ s.halt.isNone then
        let s := s.say { cls := cREQ, code := 1, line := 64 * lpn, src := 0x12 + s.home lpn, dst := s.homeAg (64 * lpn), page := true, master := mMig }
        .next ({ s with pg := { s.pg with moves := tput lpn { m with step := 2 } s.pg.moves } }.takePage lpn)
      else .next s
    | none => .next s
  else match wrote.bind (fun d => s.writeHit q.agent.val q.line.val d) with
    | some s' => .next s'
    | none => .next (s.agentAsk (askReq q (if full then .readOFull else .readO)) q.via)

/-- UPGRADE (R155): from a holder in S or F; from anyone else it is served as ReadO. -/
def execUpgrade (q : Ask) (s : State) : Res := .next (s.agentAsk (askReq q .upgrade) q.via)

/-! ### Write-backs and evictions (R149, R153, R161–R163) -/

/-- The message that no table of the chapter allows (R176). -/
def State.badMessage (s : State) (line : Nat) : State :=
  s.report (msgFatal bCoh (s.home (line / 64)) 0 (line * 64))

/-- The request-like form of a write-back, for its attributes. -/
def wbReq (m : WbMsg) : CohReq :=
  { agent := m.agent.val, line := m.line.val, kind := .readOFull, cls := m.cls.val, obj := m.obj.val, sh := m.sh
    master := (m.master.map (·.val)).getD 0x7F, hint := m.hint }

/-- The home accepts a WbM whose data is here (R155, R163): the data is the home copy, the sender holds nothing, and it gets its
Ack, for a page with a Caravan twin once the peer has it (R190). A transaction that waited for it goes on. -/
def State.acceptWb (s : State) (m : WbMsg) : State :=
  let a := m.agent.val
  let line := m.line.val
  let s := s.coh' (fun c => { c with wbData := tdel (agKey a line) c.wbData, evs := tput (agKey a line) 3 c.evs })
  let (s, out) := ((s.dropProv line).sfDrop line a).applyWrite (wbReq m) m.data m.poison 5
  let s := s.completeWrite (wbReq m) out
  match s.trkOf line with
  | some t =>
    if t.snoops.any (fun p => p.1 == a && decide (32 ≤ p.2)) then
      (s.putTrk line { t with snoops := t.snoops.filter (fun p => p.1 != a) }).advance line
    else s
  | none => s

/-- WBM (R155, R160, R163): from the owner, or crossing a snoop; it waits for its WbData. -/
def execWbm (a : Fin 18) (line : LineNo) (s : State) : Res :=
  let key := agKey a.val line.val
  if s.halt.isSome then .next s
  else match tget key s.coh.evs with
  | some 1 =>
    match tget key s.coh.wbData with
    | some m => .next ((s.acceptWb m).settled (s.home (line.val / 64)))
    | none => .next (s.coh' (fun c => { c with evs := tput key 2 c.evs }))
  | _ => .next (s.badMessage line.val)

/-- EVF (R155, R162): the F holder gives the line up; a stale one is discarded. -/
def execEvf (a : Fin 18) (line : LineNo) (s : State) : Res :=
  let s' := s.coh' (fun c => { c with evs := if tget (agKey a.val line.val) c.evs = some 0 then tdel (agKey a.val line.val) c.evs else c.evs })
  match s.sfOf line.val with
  | some e => .next (if e.f = some a.val ∧ s.heldAt a.val line.val = none then s'.sfDrop line.val a.val else s')
  | none => .next s'

/-- What an answered snoop leaves (R155, R162–R164). Codes as R151 numbers RSP; `kind`: the snoop. -/
def State.snoopTaken (s : State) (a line kind code : Nat) : State :=
  let key := agKey a line
  let takeData := fun (s : State) =>
    match tget key s.coh.wbData with
    | some m => ((s.coh' (fun c => { c with wbData := tdel key c.wbData })).applyWrite (wbReq m) m.data m.poison 5).1
    | none => s
  let fwd := fun (s : State) => match s.trkOf line with | some t => s.putTrk line { t with forwarded := true } | none => s
  let keepF := fun (s : State) => match s.sfOf line with | some e => s.setSf line 2 e.holders (some a) | none => s
  match code with
  | 2 => s.sfDrop line a
  | 3 =>
    let hk := agKey (s.homeAg line) line
    let s := match tget hk s.coh.dat, s.lcOf line with
      | some x, none => s.lcPut line { data := x.2.1, poison := x.2.2 }
      | _, _ => s
    keepF (s.coh' (fun c => { c with dat := tdel hk c.dat }))
  | 4 => fwd s
  | 5 => (fwd s).sfDrop line a
  | 6 =>
    let s := takeData s
    if kind = 3 then keepF s else s.sfDrop line a
  | 7 => fwd (takeData s)
  | _ => s.sfDrop line a

/-- The snoop of an agent is answered in full: the transaction goes on. -/
def State.snoopDone (s : State) (a line kind code : Nat) : State :=
  let s := s.snoopTaken a line kind code
  match s.trkOf line with
  | some t => (s.putTrk line { t with snoops := t.snoops.filter (fun p => p.1 != a) }).advance line
  | none => s

/-- SNOOP_RESPONSE (R155, R157, R163, R164): the answer the agent gave arrives; one with dirty data waits for it; "writeback pending" waits for the WbM. Any
other response is a message that no table allows (R176). -/
def execSnoopResponse (a : Fin 18) (line : LineNo) (code : Fin 16) (s : State) : Res :=
  let key := agKey a.val line.val
  let n := s.home (line.val / 64)
  match s.trkOf line.val with
  | none => .next (s.badMessage line.val)
  | some t =>
    match t.snoops.find? (fun p => p.1 == a.val && decide (64 ≤ p.2 ∧ p.2 % 16 = code.val)) with
    | none => .next (s.badMessage line.val)
    | some (_, v) =>
      let kind := v / 16 % 4
      let wait := fun (v : Nat) => s.putTrk line.val { t with snoops := t.snoops.map (fun p => if p.1 = a.val then (p.1, v) else p) }
      if (code.val = 6 ∨ code.val = 7) ∧ (tget key s.coh.wbData).isNone then .next (wait (16 + 4 * (code.val - 6) + kind))
      else if code.val = 10 ∧ (tget key s.coh.evs = some 1 ∨ tget key s.coh.evs = some 2) then .next (wait 32)
      else .next ((s.snoopDone a.val line.val kind code.val).settled n)

/-- WBDATA (R153): the data of a WbM or of a snoop reaches its home and is buffered; what waits for it goes on. Data that no agent has sent is a message
that no table allows (R176). -/
def execWbdata (m : WbMsg) (s : State) : Res :=
  let key := agKey m.agent.val m.line.val
  let n := s.home (m.line.val / 64)
  if s.halt.isSome then .next s
  else match tget key s.coh.wbOut with
  | none => .next (s.badMessage m.line.val)
  | some (d, po) =>
    let m := { m with data := d, poison := po }
    let s := s.coh' (fun c => { c with wbOut := tdel key c.wbOut, wbData := tput key m c.wbData })
    if tget key s.coh.evs = some 2 then .next ((s.acceptWb m).settled n)
    else match s.trkOf m.line.val with
      | some t =>
        match t.snoops.find? (fun p => p.1 == m.agent.val && decide (16 ≤ p.2 ∧ p.2 < 32)) with
        | some (_, v) => .next ((s.snoopDone m.agent.val m.line.val (v % 4) (6 + (v - 16) / 4)).settled n)
        | none => .next s
      | none => .next s

/-! ### Agents answer snoops and take grants (R149, R157) -/

/-- A response of an agent to the home of a line. -/
def State.fromAgent (s : State) (code a line : Nat) : State :=
  s.say { cls := cRSP, code := code, line := line, src := a, dst := s.homeAg line, tid := match s.trkOf line with | some t => t.num | none => 0 }

/-- The snoop that an agent has before it (R155). -/
def State.snoopAt (s : State) (a line : Nat) : Option Nat :=
  (s.trkOf line).bind (fun t => (t.snoops.find? (fun p => p.1 == a && decide (p.2 < 4))).map (·.2))

/-- An agent answers its snoop: the response leaves. -/
def State.answerSnoop (s : State) (a line kind code : Nat) : State :=
  let s := match s.trkOf line with
    | some t => s.putTrk line { t with snoops := t.snoops.map (fun (p : Nat × Nat) => if p.1 = a ∧ p.2 < 4 then (p.1, 64 + 16 * kind + code) else p) }
    | none => s
  s.fromAgent code a line

/-- The answer of an agent without a copy. -/
def State.missAnswer (s : State) (a line kind : Nat) : State :=
  s.answerSnoop a line kind (match tget (agKey a line) s.coh.evs with | some 0 => 9 | some _ => 10 | none => 8)

/-- Dirty data travels to the home. -/
def State.sendWb (s : State) (a line : Nat) (d : Line) (poison : Bool) : State :=
  (s.coh' (fun c => { c with wbOut := tput (agKey a line) (if poison then 0 else d, poison) c.wbOut })).say
    { cls := cDAT, code := 1, line := line, src := a, dst := s.homeAg line, poison := poison } (some (if poison then 0 else d))

/-- Data travels from an agent to a requester, or to the home, with a grant state (R151). -/
def State.sendDat (s : State) (a dst line gs : Nat) (h : Held) : State :=
  (s.coh' (fun c => { c with dat := tput (agKey dst line) (gs, if h.poison then 0 else h.data, h.poison) c.dat })).say
    { cls := cDAT, code := 0, line := line, src := a, dst := dst, gs := gs, poison := h.poison } (some (if h.poison then 0 else h.data))

/-- SNPINV (R157). -/
def execSnpinv (a : Fin 18) (line : LineNo) (s : State) : Res :=
  if s.snoopAt a.val line.val ≠ some 0 then .next s
  else match s.heldAt a.val line.val with
  | none => .next (s.missAnswer a.val line.val 0)
  | some h =>
    let s := s.hold a.val line.val none
    if h.st = 4 then .next ((s.sendWb a.val line.val h.data h.poison).answerSnoop a.val line.val 0 6)
    else .next (s.answerSnoop a.val line.val 0 2)

/-- SNPFWD (R157): MODE S or O, data to the requester. A sharer is never asked. -/
def execSnpfwd (a : Fin 18) (line : LineNo) (o : Bool) (rid : Fin 18) (s : State) : Res :=
  let kind := if o then 2 else 1
  let asked : Bool := match s.trkOf line.val with | some t => t.req.agent == rid.val | none => false
  if s.snoopAt a.val line.val ≠ some kind ∨ ¬ asked then .next s
  else match s.heldAt a.val line.val with
  | none => .next (s.missAnswer a.val line.val kind)
  | some h =>
    if h.st = 1 then .next s
    else
      let s := s.sendDat a.val rid.val line.val (if o then 3 else 1) h
      if o then .next ((s.hold a.val line.val none).answerSnoop a.val line.val 2 5)
      else
        let s := s.hold a.val line.val (some { h with st := 1 })
        if h.st = 4 then .next ((s.sendWb a.val line.val h.data h.poison).answerSnoop a.val line.val 1 7)
        else .next (s.answerSnoop a.val line.val 1 4)

/-- SNPDATA (R157): the owner returns data and keeps F. -/
def execSnpdata (a : Fin 18) (line : LineNo) (s : State) : Res :=
  if s.snoopAt a.val line.val ≠ some 3 then .next s
  else match s.heldAt a.val line.val with
  | none => .next (s.missAnswer a.val line.val 3)
  | some h =>
    if h.st < 3 then .next s
    else
      let s := s.hold a.val line.val (some { h with st := 2 })
      if h.st = 4 then .next ((s.sendWb a.val line.val h.data h.poison).answerSnoop a.val line.val 3 6)
      else .next ((s.sendDat a.val (s.homeAg line.val) line.val 0 h).answerSnoop a.val line.val 3 3)

/-- ACK (R151, R154): a requester's Ack ends its transaction at the home, at once or when the home's answers are all there; an Ack of the home accepts a WbM
or grants ownership without data, of which `wrote` is the whole line that a request with FULL then writes. -/
def execAck (toHome : Bool) (a : Fin 18) (line : LineNo) (wrote : Line) (s : State) : Res :=
  let key := agKey a.val line.val
  let mine : Bool := match s.trkOf line.val with | some t => t.req.agent == a.val && (tget key s.coh.reqs).isNone | none => false
  let granted : Bool := match s.trkOf line.val with | some t => t.granted | none => false
  if toHome then
    if mine ∧ granted then .next ((s.closeTrk line.val).settled (s.home (line.val / 64)))
    else match s.trkOf line.val with
      | some t => if mine ∧ ¬ t.acked then .next (s.putTrk line.val { t with acked := true }) else .next (s.badMessage line.val)
      | none => .next (s.badMessage line.val)
  else if tget key s.coh.evs = some 3 then .next (s.coh' (fun c => { c with evs := tdel key c.evs }))
  else
    match tget key s.coh.reqs, s.trkOf line.val with
    | some r, some t =>
      if t.granted ∧ t.noData ∧ t.req.agent = a.val then
        let h : Held := match s.heldAt a.val line.val with
          | some x => if r.req.kind = .readOFull then { st := 4, data := wrote } else { x with st := 4 }
          | none => { st := 4, data := wrote }
        .next (((s.hold a.val line.val (some h)).reqDone a.val line.val).fromAgent 0 a.val line.val)
      else .next s
    | _, _ => .next s

/-- DATA (R151, R154): the data on its way to a requester arrives; it installs the line in its grant state and acknowledges; a read with NC installs
nothing. Data on its way to a port agent arrives with the forwarder's answer (`State.supply`). Poison in the source of a job ends it, and poison that an
engine reads ends the command it serves (R195, R377). -/
def execData (a : Fin 18) (line : LineNo) (s : State) : Res :=
  let key := agKey a.val line.val
  match tget key s.coh.reqs, tget key s.coh.dat with
  | some r, some (gs, data, poison) =>
    if a.val < 8 then .next s
    else
    let s := s.coh' (fun c => { c with dat := tdel key c.dat })
    let s := if r.req.kind = .readSnc then s
      else s.hold a.val line.val (some { st := gs + 1, data := data, poison := poison })
    let s := (s.reqDone a.val line.val).fromAgent 0 a.val line.val
    if poison ∧ 0x0E ≤ a.val ∧ (tget (a.val - 0x0E) s.job.units).isSome ∧ ¬ r.req.owns then
      .next ((s.report (msg2 bJob (a.val - 0x0E) 1 (line.val * 64))).failJob (a.val - 0x0E))
    else if poison ∧ 0x13 ≤ r.req.master ∧ r.req.master < 0x43 ∧ ¬ r.req.owns then .next (s.endServed (r.req.master - 0x13))
    else .next s
  | _, _ => .next s

/-- NACK (R158): the requester waits its backoff. -/
def execNack (a : Fin 18) (line : LineNo) (s : State) : Res :=
  let key := agKey a.val line.val
  match tget key s.coh.reqs with
  | none => .next s
  | some r =>
    let n := min 8 (r.nacks + 1)
    if r.backoff then .next s
    else .next (s.coh' (fun c => { c with reqs := tput key { r with nacks := n, backoff := true, req := { r.req with att := n } } c.reqs }))

/-- NACK_BACKOFF_EXPIRE (R158): the request is sent again with ATT. -/
def execNackBackoffExpire (a : Fin 18) (line : LineNo) (s : State) : Res :=
  let key := agKey a.val line.val
  match tget key s.coh.reqs with
  | none => .next s
  | some r =>
    if r.backoff then
      let s := (s.coh' (fun c => { c with reqs := tput key { r with backoff := false } c.reqs })).say (r.req.msg (s.homeAg line.val))
      .next ((s.homeReq r.req).settled (s.home r.req.lpn))
    else .next s

/-- AGENT_EVICTION (R149): from M a WbM with its data, of which at most 8 are outstanding to a home (R153); from F an EvF, each one of the agent's 64
(R154); from S and E nothing is sent. A port agent's M leaves only with its own WbM (R150). -/
def execAgentEviction (a : Fin 18) (line : LineNo) (s : State) : Res :=
  let key := agKey a.val line.val
  let msg : CohMsg := { cls := cREQ, code := 3, line := line.val, src := a.val, dst := s.homeAg line.val }
  match s.heldAt a.val line.val with
  | none => .next s
  | some h =>
    if h.st = 4 then
      if a.val < 8 ∨ 8 ≤ s.wbmOut a.val (s.home (line.val / 64)) ∨ 64 ≤ s.outstanding a.val then .next s
      else .next ((((s.hold a.val line.val none).coh' (fun c => { c with evs := tput key 1 c.evs })).say msg).sendWb a.val line.val h.data h.poison)
    else if h.st = 2 then
      if 64 ≤ s.outstanding a.val then .next s
      else .next (((s.hold a.val line.val none).coh' (fun c => { c with evs := tput key 0 c.evs })).say { msg with code := 4 })
    else .next (s.hold a.val line.val none)

/-! ### Walks, speculation and media reads (R177–R187) -/

/-- SPEC_DATA_RETURN (R184, R186): the data of a speculative read returns and enters the line cache as provisional lines; any error
indication spoils it. -/
def execSpecDataReturn (line : LineNo) (bad : Bool) (s : State) : Res :=
  let mine := s.coh.spec.filter (fun x => x.line == line.val)
  if mine = [] then .next s
  else
    let s := mine.foldl (fun (s : State) x => s.fetchLine (s.specLa line.val x.pl)) s
    let s := s.coh' (fun c => { c with spec := c.spec.map (fun x =>
      if x.line = line.val then { x with data := !bad, spoilt := x.spoilt || bad } else x) })
    if bad ∨ mine.all (fun x => x.pl.tier == 1 || x.pl.ns) then .next s
    else .next ((sectorLines line.val).foldl (fun (s : State) l =>
      if l = line.val ∨ (s.lcOf l).isSome ∨ (s.trkOf l).isSome then s else s.lcPut l { data := tgetD 0 l s.pg.mem, prov := true }) s)

/-- The confirmation of R185. -/
def State.confirms (s : State) (x : SpecRd) : Bool :=
  let pl := (s.page (x.line / 64)).pl
  !pl.lock && decide (predPl pl = x.pl) && !x.spoilt && decide (s.now - x.at' < 4000) && s.chState (s.chanOf pl.ma) != 3

/-- The walk reads the node of a level on its way to a page's entry (R127, R129): copy A, and copy B where A cannot be read, from which A is rewritten.
A node of level 1 or 2 is read from the slice's metadata cache, which it then fills. -/
def State.nodeRead (s : State) (lpn lvl : Nat) (errA errB : Bool) : State :=
  let key := nodeKey lvl lpn
  let n := s.home lpn
  match tget key s.pg.nodes with
  | none => s
  | some nd =>
    let here := 2 ^ 28 * n + key
    if lvl < 3 ∧ s.coh.nodes.contains here then s
    else
      let gone := fun (ma : Nat) => decide (s.chState (s.chanOf ma) = 0 ∨ s.chState (s.chanOf ma) = 6)
      let s := if lvl < 3 then s.coh' (fun c => { c with nodes := linsert here c.nodes }) else s
      if ¬ errA ∧ ¬ gone nd.a then s
      else if errB ∨ nd.bstale ∨ gone nd.b then { s with pg := { s.pg with badNodes := linsert key s.pg.badNodes } }
      else if gone nd.a then s
      else s.report (msg1 bSlc n 9 (lpn * 4096))

/-- STAGE2_WALK_DONE (R127, R177 step 5, R182, R185): `nodeErr` names the level of the node, less 1, of which copy A is uncorrectable, and whether B is too; the entry
enters the metadata cache, for which the tree nodes `left` may leave theirs (R290), and the predictor where the request has Q = 0; a speculative read is
confirmed, so that its data is that of the demand read, or discarded. -/
def execStage2WalkDone (line : LineNo) (nodeErr : Option (Fin 3 × Bool)) (left : List (Fin 9 × Lpn)) (s : State) : Res :=
  match s.trkOf line.val with
  | none => .next s
  | some t =>
    if ¬ t.walk then .next s
    else
      let q := t.req
      let lpn := q.lpn
      let n := s.home lpn
      let s := left.foldl (fun (s : State) x => s.evictNode x.1.val x.2.val) s
      let s := [1, 2, 3].foldl (fun (s : State) l =>
        match nodeErr with
        | some (k, both) => if k.val + 1 = l then s.nodeRead lpn l true both else s.nodeRead lpn l false false
        | none => s.nodeRead lpn l false false) s
      let s1 := match s.coh.spec.find? (fun x => x.line == line.val) with
        | none => s
        | some x =>
          let a := some (reqAttr q x.pl.tier)
          let yes := s.confirms x
          let s := s.coh' (fun c => { c with spec := c.spec.filter (fun y => y.line != line.val) })
          if yes then s.count (.slice n) 0x06 1 a else (s.dropProvSector line.val).count (.slice n) 0x07 1 a
      let s2 := s1.mdcUse lpn q.quiet
      let s3 := if q.quiet then s2 else s2.predWrite lpn
      .next ((s3.place line.val).settled n)

/-- A demand miss of a sector, and the prefetch of the next one that it may bring (R179). -/
def State.prefetch (s : State) (line : Nat) (on : Bool) (quiet : Bool) : State :=
  let k := line / 8
  let p := s.page (line / 64)
  let near : Bool := match tget (k - 1) s.coh.missAt, tget k s.coh.missAt with
    | some a, some b => decide (a - b ≤ 1000 ∧ b - a ≤ 1000)
    | _, _ => false
  let may := on && near && !isRaw p.pl && k % 8 != 0 && k % 8 != 7 && !quiet
    && s.isSet .COH_SPEC_CTL_PREF_EN (s.home (line / 64)) && (p.segs.getD (k % 8 + 1) {}).span != 0
    && (sectorLines (line + 8)).all (fun l => (s.lcOf l).isNone && (s.trkOf l).isNone && !s.markedAt l)
  if may then (s.count (.slice (s.home (line / 64))) 0x08 1 s.mem.who).lcFill (sectorLines (line + 8)) else s

/-- Clean lines leave the line cache to make room (R181). -/
def State.evictClean (s : State) (l : List LineNo) : State :=
  s.coh' (fun c => { c with lc := c.lc.filter (fun x => x.2.dirty || !l.any (fun y => y.val == x.1)) })

/-- MEDIA_READ_DONE (R177 steps 6–8, R352): the read of a line that a request waits for ends. While its channel is frozen or paused
the read waits, but for one that a twin can serve. -/
def execMediaReadDone (line : LineNo) (f : Fetch) (prefetch : Bool) (victims : List LineNo) (s : State) : Res :=
  match s.trkOf line.val with
  | none => .next s
  | some t =>
    let n := s.home (line.val / 64)
    if ¬ t.media ∨ s.coh.suspects.any (fun x => x.1 == line.val) then .next s
    else
      let p := s.page (line.val / 64)
      if ¬ hasImage p.pl.tier then .next (((s.putTrk line.val { t with media := false }).place line.val).settled n)
      else
        let c := s.chState (s.chanOf p.pl.ma)
        let away := decide (p.pl.tier = 4)
        if ¬ away ∧ (c = 3 ∨ c = 5) ∧ ¬ (c = 3 ∧ s.twinReadable p) then .next s
        else
          let s := (s.evictClean victims).underFor (reqAttr t.req p.pl.tier) 0
          let s := if c = 3 then s.withdraw (s.laOf p p.pl.ma line.val (isRaw p.pl)) else s
          let (s, r) := if away ∨ c = 3 then s.fromTwin line.val f t.req.master 0 .serve else s.readCopy line.val f t.req.master false
          let s := if r = .data then s.prefetch line.val prefetch t.req.quiet else s
          .next (((s.uncharged).readEnds line.val r).settled n)

/-- SUSPECT_REREAD_DONE (R293, R296, R297): the second read of a suspect passes, or confirms the failure. -/
def execSuspectRereadDone (line : LineNo) (f : Fetch) (s : State) : Res :=
  match s.trkOf line.val with
  | none => .next s
  | some t =>
    match s.coh.suspects.find? (fun x => x.1 == line.val) with
    | none => .next s
    | some x =>
      if t.lender.isSome then .next s
      else
        let s := s.coh' (fun c => { c with suspects := c.suspects.filter (fun x => x.1 != line.val) })
        let (s, r) := (s.underFor (reqAttr t.req (s.tier (line.val / 64))) 0).reread line.val f t.req.master x.2
        .next ((s.uncharged.readEnds line.val r).settled (s.home (line.val / 64)))

/-! ### Write-backs and twin writes (R181, R190–R192) -/

/-- The dirty lines of a sector go to media, and to a Caravan twin (R181, R190, R224–R228). While a twin write of the sector is outstanding
they wait (R191). -/
def State.sectorWriteback (s : State) (lpn k : Nat) (w : WbIn) : State :=
  let sec := 8 * lpn + k
  let t := s.coh.twins.find? (fun x => x.sector == sec)
  let sent : Bool := match t with | some x => x.sent.isSome | none => false
  if s.halt.isSome ∨ sent then s
  else
    let was := s.dirtyLines lpn k
    let at' := if (s.page lpn).pl.tier = 0 then none else some (s.page lpn).tw.tma
    let s' := s.writeBack lpn k w
    if was = [] ∨ s'.dirtyLines lpn k ≠ [] then s'
    else if (s'.page lpn).pl.twk ≠ 2 then s'.twinLost sec
    else
      let (s', tid) := if at'.isNone ∨ some (s'.page lpn).tw.tma = at' then s'.sendSector lpn k 2 else s'.sendPage lpn 2 sec
      s'.coh' (fun c => { c with twins := match t with
        | some x => c.twins.map (fun y => if y.sector = sec then { x with sent := some tid, at' := s.now } else y)
        | none => c.twins ++ [{ sector := sec, sent := some tid, at' := s.now }] })

/-- A write-back with the reads it begins with; a read that halts the device ends it. -/
def State.wbStep (s : State) (lpn k : Nat) (body : List Byte) (hint : Nat) (f f2 : Fetch) : State :=
  if s.halt.isSome then s
  else
    let cls := match s.dirtyLines lpn k with
      | l :: _ => (match s.lcOf l with | some x => x.cls | none => 0)
      | [] => 0
    match (s.underFor (s.ownAttr none lpn cls) 4).wbReads lpn k f f2 with
    | (s, none) => s.uncharged
    | (s, some lost) => (s.sectorWriteback lpn k { body := body, hint := hint, lost := lost }).uncharged

/-- SECTOR_WRITEBACK (R181, R190, R224–R228): `f` and `f2` are what the reads of the sector meet, and their second reads. -/
def execSectorWriteback (lpn : Lpn) (k : Fin 8) (body : List Byte) (hint : Nat) (f f2 : Fetch) (s : State) : Res :=
  .next (s.wbStep lpn.val k.val body hint f f2)

/-- TWIN_WRITE_ACK (R190, R191). -/
def execTwinWriteAck (lpn : Lpn) (k : Fin 8) (s : State) : Res := .next (s.twinAcked (8 * lpn.val + k.val))

/-- TWIN_TIMEOUT (R192): a twin write that has been sent is not acknowledged in time. -/
def execTwinTimeout (lpn : Lpn) (k : Fin 8) (s : State) : Res :=
  let sec := 8 * lpn.val + k.val
  match s.coh.twins.find? (fun t => t.sector == sec) with
  | some t => .next (if t.sent.isSome then (s.twinDrop lpn.val).twinLost sec else s)
  | none => .next s

/-- PREDICTOR_FLUSH (`COH_SPEC_CTL`.PFLUSH). -/
def execPredictorFlush (n : Fin 16) (s : State) : Res :=
  .next (s.coh' (fun c => { c with pred := c.pred.filter (fun e => e.1 / 16384 != n.val) }))

/-- DIRECTORY_SWEEP (R172): every record is corrected to the heads' present epochs. -/
def execDirectorySweep (s : State) : Res :=
  let s := (s.coh.dir.map (·.1)).foldl (fun (s : State) l => s.dirFix l) s
  let s := s.coh' (fun c => { c with swept := (List.range 8).foldl (fun t h => tputD 0 h (s.epochOf h) t) c.swept })
  .next ((List.range 8).foldl (fun (s : State) h => s.sweepWait h) s)

end Sys2Proof.Machine
end

