-- ==== Sys2Proof/Machine/Mem.lean ====
section
/-!
DEFINITION. The CXL.mem messages of a host: reads, writes, evictions, quotas, and the back-invalidate messages (02, 05, 06, 14).
-/
namespace Sys2Proof.Machine
open Sys2Proof

/-- The head takes CXL.mem requests: its link is up and CXL.mem is not quiesced; its ingress queue has room (R425). -/
def State.memOpen (s : State) (h : Nat) : Bool :=
  s.isSet .HPT_HEAD_STS_LINK_UP h && !(s.head h).quiesced && s.get .HPT_HEAD_STS_IDE h != 3
    && decide ((s.coh.quotaQ.filter (fun q => q.agent == h)).length < 1024)

/-- A read or write of a host (R28): the HDM decoders name the DPA. An address of no committed decoder is a decode error of CXL: a read returns
all ones, or poison where the host asked for it, and a write is dropped (PRESUMED, log 103). -/
def State.hostAccess (s : State) (m : HostMem) (w : Option (Line × Nat × Bool)) : State :=
  match s.hdm m.h.val m.hpa.val with
  | some dpa => s.headAccess (hostAcc m dpa w)
  | none =>
    match w with
    | some _ => s.emit (.memCmp m.h.val m.tag)
    | none => let p := (s.head m.h.val).decodePoison; s.emit (.memData m.h.val m.tag (if p then 0 else BitVec.allOnes 512) p)

/-- MEMRD (R28, R156, R177). -/
def execMemrd (m : HostMem) (s : State) : Res :=
  if s.memOpen m.h.val then .next (s.wakeMem.hostAccess m none)
  else .next s

/-- MEMWR (R156, R180): byte b is written where bit b of the mask is set. -/
def execMemwr (m : HostMem) (data : Line) (mask : Fin (2 ^ 64)) (poison : Bool) (s : State) : Res :=
  if s.memOpen m.h.val then
    .next (s.wakeMem.hostAccess m (some (data, mask.val, poison)))
  else .next s

/-- MEMCLNEVCT (R168): the head's bit is cleared, and nothing is recalled. -/
def execMemclnevct (m : HostMem) (s : State) : Res :=
  if s.memOpen m.h.val then
    match s.hdm m.h.val m.hpa.val with
    | none => .next (s.emit (.memCmp m.h.val m.tag))
    | some dpa =>
      match s.wakeMem.resolve (hostAcc m dpa none) false with
      | (s, .line line _ _ _) => .next ((s.clearPresence line m.h.val).emit (.memCmp m.h.val m.tag))
      | (s, _) => .next (s.emit (.memCmp m.h.val m.tag))
  else .next s

/-- The first request of a head's ingress queue that may go (R425). -/
def firstFree (ok : CohReq → Bool) : List CohReq → List CohReq → Option CohReq
  | _, [] => none
  | seen, q :: l =>
    if ok q ∧ ¬ seen.any (fun x => x.agent == q.agent && x.line == q.line) then some q else firstFree ok (seen ++ [q]) l

/-- QUOTA_ADMIT (R425): the oldest request of a head that its class's quota and its line now allow is admitted. -/
def execQuotaAdmit (h : Fin 8) (s : State) : Res :=
  match firstFree (fun q => q.agent == h.val && s.admissible q) [] s.coh.quotaQ with
  | some q => .next ((s.coh' (fun c => { c with quotaQ := c.quotaQ.erase q })).admitReq q)
  | none => .next s

/-! ### Back-invalidate (R169, R170) -/

/-- Transactions that waited for a head's answer about a line go on, and so do the accesses parked behind a table recall. -/
def State.recallEnds (s : State) (h line : Nat) : State :=
  let waiting := (s.coh.trk.filter (fun t => t.2.bis.contains (h, line))).map (·.1)
  let s := waiting.foldl (fun (s : State) l =>
    match s.trkOf l with
    | some t => ((s.putTrk l { t with bis := t.bis.filter (fun b => b != (h, line)) }).advance l).settle (s.home (l / 64))
    | none => s) s
  s.unpark.wake

/-- A snoop is no longer outstanding to a head. -/
def State.biDel (s : State) (h line : Nat) : State :=
  (s.coh' (fun c => { c with bi := c.bi.filter (fun b => !(b.1 == h && b.2.1 == line)) })).biNext h |>.dirBuilt

/-- BIRSP (R169, R170): the host has given the line up, or keeps it in S after a BISnpData; a late response is discarded and
counted. An Insecure stream brings none (R67). -/
def execBirsp (h : Fin 8) (line : LineNo) (keepS : Bool) (s : State) : Res :=
  if s.get .HPT_HEAD_STS_IDE h.val = 3 then .next s
  else match s.coh.bi.find? (fun b => b.1 == h.val && b.2.1 == line.val) with
  | some (_, _, kind) =>
    let s := if keepS ∧ kind = 1 then s.setPresence line.val (s.presence line.val).1 false else s.clearPresence line.val h.val
    .next ((s.biDel h.val line.val).recallEnds h.val line.val)
  | none =>
    .next ((s.coh' (fun c => { c with biLate := c.biLate.filter (fun b => b != (h.val, line.val)) })).bump .COH_BI_CNT_LATE_BIRSP 0xFFFF h.val)

/-- BISNP_TIMEOUT (R170). -/
def execBisnpTimeout (h : Fin 8) (line : LineNo) (s : State) : Res :=
  if s.coh.bi.any (fun b => b.1 == h.val && b.2.1 == line.val) then
    let excl := s.present line.val h.val && ((s.presence line.val).2 || s.coh.rebuild.contains (line.val / 64))
    let s := s.clearPresence line.val h.val
    let s := if excl then s.poisonLine line.val 3 else s
    let s := (s.bump .COH_BI_CNT_TIMEOUTS 0xFFFF h.val).report (msg2 bCoh (s.home (line.val / 64)) 3 (line.val * 64))
    let s := s.coh' (fun c => { c with biLate := c.biLate ++ [(h.val, line.val)] })
    .next ((s.biDel h.val line.val).recallEnds h.val line.val)
  else .next s

/-- BICONFLICT (R67, R169). -/
def execBiconflict (h : Fin 8) (line : LineNo) (s : State) : Res :=
  .next (if s.get .HPT_HEAD_STS_IDE h.val = 3 then s else s.emit (.biConflictAck h.val line.val))

/-- The recalls of a head whose presence is gone count as answered (R75, R170). -/
def State.recallsGone (s : State) (h : Nat) (lines : List Nat) : State :=
  lines.foldl (fun (s : State) l => s.recallEnds h l) s

/-- BI_EN_CLEARED (R170, R172): the host clears back-invalidate enable; a head with presence departs for the purpose of presence. -/
def execBiEnCleared (h : Fin 8) (s : State) : Res :=
  let has := s.coh.dir.any (fun r => decide (tgetD 0 h.val r.2.epoch = s.epochOf h.val) && r.2.hp.any (fun p => bit p.2 h.val))
    || s.coh.bi.any (fun b => b.1 == h.val)
  let s := s.setHead h.val { s.head h.val with biDec := false }
  if has then let (s, l) := s.losePresence h.val; .next (s.recallsGone h.val l) else .next s

end Sys2Proof.Machine
end

