-- ==== Sys2Proof/Machine/Rings.lean ====
section
/-!
DEFINITION. Rings and the bus master of a head (02_host_ports.md, 03_pyryx.md): doorbells, fetches and tags, command start, the
states of R96, MSI-X coalescing, operation ends.
-/
namespace Sys2Proof.Machine
open Sys2Proof

/-! ### Tags (R71–R74) -/

/-- Size of a head's tag space: 8-bit tags only, 10-bit, or 14-bit in flit mode. -/
def State.tagSpace (s : State) (h : Nat) : Nat :=
  if (s.head h).tag8 then 256 else if s.get .HPT_HEAD_STS_FLIT h = 0 then 1024 else 16384

/-- The next tag in rotating order that is neither outstanding nor quarantined, while fewer than MAXTAG reads are outstanding. -/
def State.nextTag (s : State) (h : Nat) : Option Nat :=
  let hd := s.head h
  if s.get .HPT_TAG_CTL_MAXTAG h ≤ hd.tags.length ∨ ¬ s.isSet .HPT_HEAD_STS_BME h then none
  else
    ((List.range (hd.tags.length + hd.quar.length + 1)).map (fun k => (hd.nextTag + k) % s.tagSpace h)).find? (fun t =>
      (tget t hd.tags).isNone && !hd.quar.contains t)

/-- Issue a read under a tag: the state with the read outstanding, or none while no tag is free. -/
def State.issueRead (s : State) (h addr len : Nat) (u : TagUse) : Option State :=
  match s.nextTag h with
  | none => none
  | some t =>
    let hd := s.head h
    some ((s.setHead h { hd with tags := tput t u hd.tags, tagAt := tput t s.now hd.tagAt, nextTag := (t + 1) % s.tagSpace h }).emit (.busRead h t addr len))

/-- The read of a tag is no longer outstanding. -/
def State.freeTag (s : State) (h t : Nat) : State :=
  s.setHead h { s.head h with tags := tdel t (s.head h).tags, tagAt := tdel t (s.head h).tagAt }

/-- A tag goes into quarantine for 4 × T (R73). -/
def State.quarTag (s : State) (h t : Nat) : State :=
  let hd := s.head h
  s.setHead h { hd with tags := tdel t hd.tags, tagAt := tdel t hd.tagAt, quar := linsert t hd.quar, quarTo := tput t (s.now + 4 * s.cplT h) hd.quarTo }

/-! ### Fetching and starting commands (R94, R95, R98) -/

/-- Entries the next fetch takes: up to 64 and 4,096 bytes and the max read request size the host has set, not across the end of the ring
(R51, R94 step 3). -/
def State.fetchCount (s : State) (h r : Nat) : Nat :=
  let n := s.sqSize h r
  let hd := s.get .HPT_RING_STS_SQHEAD h r
  let tail := s.get .HPT_SQ_DB_TAIL h r
  min (min 64 (2 * 2 ^ (s.head h).maxRead)) (if tail < hd then n - hd else tail - hd)

/-- Issue an entry fetch of a running ring that has none outstanding. -/
def State.fetch (s : State) (h r : Nat) : State :=
  let n := s.fetchCount h r
  if s.get .HPT_RING_STS_STATE h r ≠ 1 ∨ (s.ring h r).fetching ≠ 0 ∨ n = 0 then s
  else match s.issueRead h (s.get .HPT_SQ_BASE_ADDR h r * 4096 + 64 * s.get .HPT_RING_STS_SQHEAD h r) (64 * n) (.entries r) with
    | some s' => s'.setRing h r { s'.ring h r with fetching := n }
    | none => s

/-- SQ_DOORBELL (R94, R96). -/
def execSqDoorbell (h : Fin 8) (r : Fin 64) (tail : Fin 65536) (s : State) : Res :=
  let s := s.put .HPT_SQ_DB_TAIL tail.val h.val r.val
  if s.get .HPT_RING_STS_STATE h.val r.val ≠ 1 then .next s
  else if s.sqSize h.val r.val ≤ tail.val then .next (s.stopRing h.val r.val stBadParam)
  else .next (s.fetch h.val r.val)

/-- CQ_DOORBELL (R95, R96): the entries before HEAD are released. -/
def execCqDoorbell (h : Fin 8) (r : Fin 64) (head : Fin 65536) (s : State) : Res :=
  let s := s.put .HPT_CQ_DB_HEAD head.val h.val r.val
  let n := s.cqSize h.val r.val
  let rg := s.ring h.val r.val
  let left := (s.get .HPT_RING_STS_CQTAIL h.val r.val + n - head.val) % n
  let st := s.get .HPT_RING_STS_STATE h.val r.val
  if st = 0 ∨ st = 2 then .next s
  else if n ≤ head.val ∨ rg.unreleased < left then (if st = 1 then .next (s.stopRing h.val r.val stBadParam) else .next s)
  else .next (s.setRing h.val r.val { rg with unreleased := left })

/-- The outstanding entry fetch of a ring has completed: its entries are ready to start. -/
def State.fetched (s : State) (h r : Nat) : State :=
  let rg := s.ring h r
  let at' := s.get .HPT_RING_STS_SQHEAD h r
  let n := s.sqSize h r
  if s.get .HPT_RING_STS_STATE h r ≠ 1 then s.setRing h r { rg with fetching := 0 }
  else
    let s := s.setRing h r { rg with fetched := rg.fetched ++ (List.range rg.fetching).map (fun k => (at' + k) % n), fetching := 0 }
    (s.put .HPT_RING_STS_SQHEAD ((at' + rg.fetching) % n) h r).fetch h r

/-- The oldest outstanding read of a head that a test picks: tag and use. -/
def State.ringTag (s : State) (h : Nat) (p : TagUse → Bool) : Option (Nat × TagUse) := (s.head h).tags.find? (fun t => p t.2)

/-- Rings of a head whose fetch waited for a tag go on (R71, R94). -/
def State.refetch (s : State) (h : Nat) : State := (s.ringsOf h).foldl (fun (s : State) r => s.fetch h r) s

/-- The payload of a started command is there: it may run. -/
def State.payloadIn (s : State) (h r ix : Nat) : State :=
  let rg := s.ring h r
  s.setRing h r { rg with started := rg.started.map (fun x => if x.ix = ix ∧ x.wait then { x with wait := false } else x) }

/-- A started command whose payload did not come has no effect and writes no entry (R72). -/
def State.dropStarted (s : State) (h r ix : Nat) : State :=
  let rg := s.ring h r
  s.setRing h r { rg with started := rg.started.filter (fun x => !(x.ix == ix && x.wait)), inFlight := rg.inFlight - 1, fenced := false }

/-- What an outstanding read delivers goes to its use. -/
def State.readDone (s : State) (h : Nat) (u : TagUse) : State :=
  match u with
  | .entries r => s.fetched h r
  | .payload r ix => s.payloadIn h r ix
  | .job _ => s

/-- RING_ENTRY_FETCH (R94, R96): the read of entries, or of a payload, completes, or ends in UR, CA or poison. -/
def execRingEntryFetch (h : Fin 8) (r : Fin 64) (payload err : Bool) (s : State) : Res :=
  match s.ringTag h.val (fun u => match u with | .entries k => !payload && k == r.val | .payload k _ => payload && k == r.val | .job _ => false) with
  | none => .next s
  | some (t, u) =>
    let s := s.freeTag h.val t
    if err then
      let s := match u with | .payload k ix => s.dropStarted h.val k ix | _ => s
      .next ((if s.get .HPT_RING_STS_STATE h.val r.val = 1 then s.stopRing h.val r.val stFaulted else s).refetch h.val)
    else .next ((s.readDone h.val u).refetch h.val)

/-- A ring may start its next command (R82, R95): commands in flight, operations that await their FINAL entry and entries not
released stay below the CQ size; FENCE waits for every earlier command, and every later one waits for it. -/
def State.mayStart (s : State) (h r : Nat) (fence : Bool) : Bool :=
  let rg := s.ring h r
  s.get .HPT_RING_STS_STATE h r == 1 && !rg.fetched.isEmpty && !rg.fenced && (!fence || rg.inFlight == 0)
    && decide (rg.inFlight + rg.finals + rg.unreleased < s.cqSize h r)

/-- RING_COMMAND_START (R82, R95): the oldest fetched entry starts; its payload, if any (address, bytes), is read first. The command itself
follows as its own row, which runs only what has started. -/
def execRingCommandStart (h : Fin 8) (r : Fin 64) (fence : Bool) (payload : Option (Nat × Nat)) (s : State) : Res :=
  if s.mayStart h.val r.val fence then
    let rg := s.ring h.val r.val
    let ix := rg.fetched.headD 0
    let go := fun (s : State) => s.setRing h.val r.val { rg with
      fetched := rg.fetched.drop 1, inFlight := rg.inFlight + 1, fenced := fence
      started := rg.started ++ [{ ix := ix, fence := fence, wait := payload.isSome }] }
    match payload with
    | none => .next (go s)
    | some (addr, len) =>
      match s.issueRead h.val addr len (.payload r.val ix) with
      | some s' => .next (go s')
      | none => .next s
  else .next s

/-! ### Ring states (R94, R96) -/

/-- RING_ENABLE (R94 step 1, R96): EN written 1. Only a DISABLED ring starts. -/
def execRingEnable (h : Fin 8) (r : Fin 64) (s : State) : Res :=
  if s.get .HPT_RING_STS_STATE h.val r.val = 0 then
    let s := ((s.put .HPT_RING_STS_STATE 1 h.val r.val).put .HPT_RING_STS_SQHEAD 0 h.val r.val).put .HPT_RING_STS_CQTAIL 0 h.val r.val
    let s := ((s.put .HPT_RING_STS_PHASE 1 h.val r.val).put .HPT_RING_CTL_EN 1 h.val r.val).put .HPT_SQ_DB_TAIL 0 h.val r.val
    .next ((s.muteRing h.val r.val).setRing h.val r.val { pass := (s.ring h.val r.val).pass + 1 })
  else .next s

/-- RING_DRAIN (R96): EN written 0. A running ring drops the entries that have not started; SQHEAD shows the oldest of them. -/
def execRingDrain (h : Fin 8) (r : Fin 64) (s : State) : Res :=
  let st := s.get .HPT_RING_STS_STATE h.val r.val
  let s := s.put .HPT_RING_CTL_EN 0 h.val r.val
  if st = 1 then
    let rg := s.ring h.val r.val
    let s := s.put .HPT_RING_STS_SQHEAD (rg.fetched.headD (s.get .HPT_RING_STS_SQHEAD h.val r.val)) h.val r.val
    let s := s.setRing h.val r.val { rg with fetched := [], fetching := 0 }
    .next ((s.abandonReads h.val (fun u => decide (u = .entries r.val))).put .HPT_RING_STS_STATE 3 h.val r.val)
  else if st = 2 then .next ((s.put .HPT_RING_STS_STATE 0 h.val r.val).put .HPT_RING_STS_STOPST 0 h.val r.val)
  else .next s

/-- RING_ABORT (R96): ABORT written 1. -/
def execRingAbort (h : Fin 8) (r : Fin 64) (s : State) : Res :=
  .next ((s.abortRing h.val r.val).abandonReads h.val (fun u => match u with | .entries k | .payload k _ => k == r.val | .job _ => false))

/-- RING_DRAIN_DONE (R96): every started command of a draining ring has completed. -/
def execRingDrainDone (h : Fin 8) (r : Fin 64) (s : State) : Res :=
  if s.get .HPT_RING_STS_STATE h.val r.val = 3 ∧ (s.ring h.val r.val).inFlight = 0 then
    .next (s.put .HPT_RING_STS_STATE 0 h.val r.val)
  else .next s

/-- MSIX_COALESCE_TIMEOUT (R95): the oldest unsignalled completion is COAL_US old. -/
def execMsixCoalesceTimeout (h : Fin 8) (r : Fin 64) (s : State) : Res :=
  let rg := s.ring h.val r.val
  if s.isSet .HPT_RING_CFG_IRQ_EN h.val r.val ∧ 0 < rg.unsignalled then
    .next ((s.setRing h.val r.val { rg with unsignalled := 0 }).msix h.val (8 + r.val))
  else .next s

/-- OPDONE_CLEAR: bits of `HPT_PYX_OPDONE` written 1. -/
def execOpdoneClear (h : Fin 8) (mask : Fin (2 ^ 64)) (s : State) : Res :=
  let d := s.get .HPT_PYX_OPDONE_DONE h.val
  .next (s.put .HPT_PYX_OPDONE_DONE (d - (d &&& mask.val)) h.val)

/-! ### Completions and timeouts (R72–R74) -/

/-- BM_COMPLETION (R73, R74): for an outstanding read it is used, and the `last` one ends the read; for a quarantined tag it is discarded and
counted; else it is unexpected (AER). -/
def execBmCompletion (h : Fin 8) (tag : Fin 16384) (last : Bool) (s : State) : Res :=
  let hd := s.head h.val
  match tget tag.val hd.tags with
  | some u => .next (if last then ((s.freeTag h.val tag.val).readDone h.val u).refetch h.val else s)
  | none =>
    if hd.quar.contains tag.val then .next (s.bump .HPT_LATE_CPL_COUNT 0xFFFFFFFF h.val)
    else .next (s.setHead h.val { hd with aer := hd.aer ||| 2 })

/-- COMPLETION_TIMEOUT (R72, R73, R377): no earlier than T after the read was sent. -/
def execCompletionTimeout (h : Fin 8) (tag : Fin 16384) (s : State) : Res :=
  let hd := s.head h.val
  match tget tag.val hd.tags with
  | none => .next s
  | some u =>
    if hd.cplDisable ∨ s.now < tgetD 0 tag.val hd.tagAt + s.cplT h.val then .next s
    else
      let s := s.quarTag h.val tag.val
      let s := (s.setHead h.val { s.head h.val with aer := hd.aer ||| 1 }).bump .HPT_CPL_TMO_COUNT 0xFFFFFFFF h.val
      let s := s.report (msg2 bHpt h.val 5)
      match u with
      | .entries r => .next (if s.get .HPT_RING_STS_STATE h.val r = 1 then s.stopRing h.val r stTimeout else s)
      | .payload r ix =>
        let s := s.dropStarted h.val r ix
        .next (if s.get .HPT_RING_STS_STATE h.val r = 1 then s.stopRing h.val r stTimeout else s)
      | .job j => .next (s.cutJob j stTimeout 0)

/-- TAG_QUARANTINE_EXPIRE (R73): 4 × T after the timeout or the abandonment. -/
def execTagQuarantineExpire (h : Fin 8) (tag : Fin 16384) (s : State) : Res :=
  let hd := s.head h.val
  if s.now < tgetD 0 tag.val hd.quarTo then .next s
  else .next ((s.setHead h.val { hd with quar := lremove tag.val hd.quar, quarTo := tdel tag.val hd.quarTo }).refetch h.val)

end Sys2Proof.Machine
end

