-- ==== Sys2Proof/Machine/Flate.lean ====
section
/-!
DEFINITION. Deflate and its two wrappers (R360, R361, R367, R369): RFC 1951, 1950 and 1952 as the job units read and write them.
-/
namespace Sys2Proof.Machine
open Sys2Proof

/-! ### Bits -/

/-- A number from bits, the least significant first. -/
def numOf : List Bool → Nat
  | [] => 0
  | b :: l => b2n b + 2 * numOf l

/-- The n low bits of a number. -/
def numBits (n v : Nat) : List Bool := (List.range n).map (fun i => v.testBit i)

/-- Whole bytes of a string of bits, at most n; the rest of it. -/
def packBytes : Nat → List Bool → List Byte × List Bool
  | n + 1, a :: b :: c :: d :: e :: f :: g :: h :: l =>
    let (r, t) := packBytes n l
    (BitVec.ofNat 8 (numOf [a, b, c, d, e, f, g, h]) :: r, t)
  | _, l => ([], l)

/-- The bytes of a string of bits, the last one filled up with zeros. -/
def bytesOfBits (l : List Bool) : List Byte :=
  let (r, t) := packBytes l.length l
  if t = [] then r else r ++ [BitVec.ofNat 8 (numOf t)]

/-! ### Decoding -/

/-- A decoder at work: what is left of the source, the output with the newest byte first, the room left for it, and why it has stopped (R361): 0 it
has not, 9 the source has ended, 0x100 the room has. -/
structure Inf where
  rest : List Bool
  out : List Byte
  room : Nat
  err : Nat := 0

/-- Take n bits. -/
def takeBits : Nat → List Bool → Option (Nat × List Bool)
  | 0, l => some (0, l)
  | _ + 1, [] => none
  | n + 1, b :: l => (takeBits n l).map (fun x => (b2n b + 2 * x.1, x.2))

/-- Take n bits of the source. -/
def Inf.take (d : Inf) (n : Nat) : Nat × Inf :=
  match takeBits n d.rest with
  | some (v, r) => (v, { d with rest := r })
  | none => (0, { d with err := 9 })

/-- Stop, unless it has stopped already. -/
def Inf.stop (d : Inf) (r : Nat) : Inf := if d.err = 0 then { d with err := r } else d

/-- Write a byte. -/
def Inf.put (d : Inf) (b : Byte) : Inf :=
  if d.err ≠ 0 then d
  else match d.room with
    | 0 => { d with err := 0x100 }
    | n + 1 => { d with out := b :: d.out, room := n }

/-- Copy n bytes from a distance back. -/
def Inf.copy (d : Inf) (dist : Nat) : Nat → Inf
  | 0 => d
  | n + 1 => (d.put (d.out.getD (dist - 1) 0)).copy dist n

/-- A canonical Huffman code (RFC 1951, 3.2.2): how many codes each length from 1 has, and the symbols in the order of their codes. -/
structure Huff where
  counts : List Nat
  syms : List Nat

/-- The code that lengths of symbols give. -/
def huffOf (lens : List Nat) : Huff :=
  let at' := fun n => (List.range lens.length).filter (fun k => lens.getD k 0 == n)
  let l := (List.range 15).map (fun n => at' (n + 1))
  { counts := l.map (·.length), syms := l.flatten }

/-- What a code leaves unused, in units of its longest code; negative: there are too many. -/
def Huff.spare (h : Huff) : Int := h.counts.foldl (fun (a : Int) (c : Nat) => 2 * a - c) 1

/-- A complete code, or one with a single code of length 1. -/
def Huff.good (h : Huff) : Bool := h.spare == 0 || (decide (0 ≤ h.spare) && (h.counts.drop 1).all (· == 0))

/-- Read a symbol. -/
def Huff.walk (h : Huff) : List Nat → Nat → Nat → Nat → List Bool → Except Nat (Nat × List Bool)
  | [], _, _, _, _ => .error 5
  | _ :: _, _, _, _, [] => .error 9
  | c :: cs, code, first, ix, b :: l =>
    let code := code + b2n b
    if code < first + c then .ok (h.syms.getD (ix + (code - first)) 0, l) else h.walk cs (2 * code) (2 * (first + c)) (ix + c) l

/-- Read a symbol of the source. -/
def Inf.sym (d : Inf) (h : Huff) : Nat × Inf :=
  match h.walk h.counts 0 0 0 d.rest with
  | .ok (v, r) => (v, { d with rest := r })
  | .error r => (0, d.stop r)

/-- Base and extra bits of the length codes from 257 on. -/
def lenTab : List (Nat × Nat) :=
  [(3, 0), (4, 0), (5, 0), (6, 0), (7, 0), (8, 0), (9, 0), (10, 0), (11, 1), (13, 1), (15, 1), (17, 1), (19, 2), (23, 2), (27, 2), (31, 2), (35, 3), (43, 3),
   (51, 3), (59, 3), (67, 4), (83, 4), (99, 4), (115, 4), (131, 5), (163, 5), (195, 5), (227, 5), (258, 0)]

/-- Base and extra bits of the distance codes. -/
def distTab : List (Nat × Nat) := (List.range 30).map (fun k => if k < 4 then (k + 1, 0) else ((2 + k % 2) * 2 ^ (k / 2 - 1) + 1, k / 2 - 1))

/-- A step of the output: a byte, or a copy of so many bytes from so far back. -/
inductive Tok where
  | lit (b : Byte)
  | copy (len dist : Nat)

/-- Read symbols to the end of a block. The distance must lie within the output, the dictionary and 32 KiB (reason 6). -/
def Inf.symbols (lit dist : Huff) : Nat → Inf → List Tok → Inf × List Tok
  | 0, d, t => (d, t)
  | n + 1, d, t =>
    if d.err ≠ 0 then (d, t)
    else
      let start := d
      let (v, d) := d.sym lit
      if d.err ≠ 0 then ({ start with err := d.err }, t)
      else if v < 256 then
        let b := BitVec.ofNat 8 v
        Inf.symbols lit dist n (d.put b) (.lit b :: t)
      else if v = 256 then (d, t)
      else
        match lenTab[v - 257]? with
        | none => ({ start with err := 5 }, t)
        | some (lb, le) =>
          let (x, d) := d.take le
          let (k, d) := d.sym dist
          match distTab[k]? with
          | none => ({ start with err := 5 }, t)
          | some (db, de) =>
            let (y, d) := d.take de
            if d.err ≠ 0 then ({ start with err := d.err }, t)
            else if d.out.length < db + y then ({ start with err := 6 }, t)
            else Inf.symbols lit dist n (d.copy (db + y) (lb + x)) (.copy (lb + x) (db + y) :: t)

/-- The fixed codes (RFC 1951, 3.2.6). -/
def fixedLit : Huff := huffOf (List.replicate 144 8 ++ List.replicate 112 9 ++ List.replicate 24 7 ++ List.replicate 8 8)
def fixedDist : Huff := huffOf (List.replicate 30 5)

/-- Read n code lengths under the code-length code; the newest is first in `acc`. -/
def Inf.lens (h : Huff) (n : Nat) : Nat → Inf → List Nat → Inf × List Nat
  | 0, d, acc => (d, acc)
  | k + 1, d, acc =>
    if d.err ≠ 0 ∨ n ≤ acc.length then (d, acc)
    else
      let (v, d) := d.sym h
      let rep := fun (d : Inf) (bits base x : Nat) =>
        let (e, d) := d.take bits
        let m := base + e
        if n < acc.length + m then (d.stop 5, acc) else Inf.lens h n k d (List.replicate m x ++ acc)
      if v < 16 then Inf.lens h n k d (v :: acc)
      else if v = 16 then (match acc with | [] => (d.stop 5, acc) | x :: _ => rep d 2 3 x)
      else if v = 17 then rep d 3 3 0
      else rep d 7 11 0

/-- The codes of a dynamic block (RFC 1951, 3.2.7). -/
def Inf.dynamic (d : Inf) : Inf × Huff × Huff :=
  let (hl, d) := d.take 5
  let (hd, d) := d.take 5
  let (hc, d) := d.take 4
  let order := [16, 17, 18, 0, 8, 7, 9, 6, 10, 5, 11, 4, 12, 3, 13, 2, 14, 1, 15]
  let (d, cl) := (order.take (hc + 4)).foldl (fun (a : Inf × List (Nat × Nat)) k => let (v, d) := a.1.take 3; (d, (k, v) :: a.2)) (d, [])
  let ch := huffOf ((List.range 19).map (fun k => ((cl.find? (fun x => x.1 == k)).map (·.2)).getD 0))
  let n := hl + 257 + (hd + 1)
  let (d, l) := if ch.spare ≠ 0 then (d.stop 5, []) else Inf.lens ch n n d []
  let l := l.reverse
  let a := l.take (hl + 257)
  let x := huffOf a
  let y := huffOf (l.drop (hl + 257))
  (if ¬ x.good ∨ ¬ y.good ∨ a.getD 256 0 = 0 ∨ 29 < hl ∨ 29 < hd then d.stop 5 else d, x, y)

/-- Bytes of a stored block, as many as the source has. -/
def Inf.stored : Nat → Inf → Inf
  | 0, d => d
  | n + 1, d =>
    let (v, e) := d.take 8
    if e.err ≠ 0 then e else Inf.stored n (e.put (BitVec.ofNat 8 v))

/-- One block, and whether it is the last. -/
def Inf.block (d : Inf) : Inf × Bool :=
  let (fin, d) := d.take 1
  let (typ, d) := d.take 2
  if d.err ≠ 0 then (d, false)
  else match typ with
    | 0 =>
      let d := { d with rest := d.rest.drop (d.rest.length % 8) }
      let (len, d) := d.take 16
      let (nlen, d) := d.take 16
      (if d.err ≠ 0 then d else if len + nlen ≠ 65535 then d.stop 1 else Inf.stored len d, fin = 1)
    | 1 => ((Inf.symbols fixedLit fixedDist d.rest.length d []).1, fin = 1)
    | 2 =>
      let (d, x, y) := d.dynamic
      ((Inf.symbols x y d.rest.length d []).1, fin = 1)
    | _ => (d.stop 1, false)

/-- Blocks to the end of a stream. -/
def Inf.blocks : Nat → Inf → Inf
  | 0, d => d.stop 9
  | n + 1, d =>
    if d.err ≠ 0 then d
    else
      let (e, last) := d.block
      if e.err ≠ 0 ∨ last then e else Inf.blocks n e

/-- A raw stream. -/
def Inf.inflate (d : Inf) : Inf := Inf.blocks d.rest.length d

/-- Go on at the next byte. -/
def Inf.align (d : Inf) : Inf := { d with rest := d.rest.drop (d.rest.length % 8) }

/-- Take n bytes as a number in the order given. -/
def Inf.bytes (d : Inf) (n : Nat) : List Nat × Inf :=
  (List.range n).foldl (fun (a : List Nat × Inf) _ => let (v, d) := a.2.take 8; (a.1 ++ [v], d)) ([], d)

/-- A number of bytes, the most significant first, and the least significant first. -/
def bigEnd (l : List Nat) : Nat := l.foldl (fun a b => 256 * a + b) 0
def littleEnd (l : List Nat) : Nat := l.foldr (fun b a => b + 256 * a) 0

/-- The zlib wrapper (RFC 1950): header, FDICT against the dictionary named, Adler-32. `dict` is none where the request names none. -/
def Inf.zlib (d : Inf) (dict : Option (List Byte)) : Inf :=
  let (h, d) := d.bytes 2
  let cmf := h.getD 0 0
  let flg := h.getD 1 0
  if d.err ≠ 0 then d
  else if cmf % 16 ≠ 8 ∨ 7 < cmf / 16 ∨ (256 * cmf + flg) % 31 ≠ 0 then d.stop 1
  else
    let use := flg.testBit 5
    let (id, d) := if use then d.bytes 4 else ([], d)
    let bad := use && (match dict with | some l => adler32 l != bigEnd id | none => true)
    if d.err ≠ 0 then d
    else if bad then d.stop 4
    else
      let hist := if use then (dict.getD []).reverse.take 32768 else []
      let d := ({ d with out := hist } : Inf).inflate.align
      let d := { d with out := d.out.take (d.out.length - hist.length) }
      if d.err ≠ 0 then d
      else
        let (sum, d) := d.bytes 4
        if d.err ≠ 0 then d else if bigEnd sum ≠ adler32 d.out.reverse then d.stop 8 else d

/-- Bytes up to and with a zero, at most n. -/
def Inf.skipZ : Nat → Inf → Inf
  | 0, d => d.stop 9
  | n + 1, d => if d.err ≠ 0 then d else let (v, e) := d.take 8; if v = 0 then e else Inf.skipZ n e

/-- A gzip member (RFC 1952): header with FHCRC, CRC-32 and ISIZE. Each member's window holds the dictionary and nothing of another member. -/
def Inf.member (d : Inf) (dict : List Byte) : Inf :=
  let start := d.rest
  let (h, d) := d.bytes 10
  if d.err ≠ 0 then d
  else if h.take 3 ≠ [0x1F, 0x8B, 8] then d.stop 1
  else
    let flg := h.getD 3 0
    if flg / 32 ≠ 0 then d.stop 2
    else
      let d := if flg.testBit 2 then (let (n, d) := d.bytes 2; (d.bytes (littleEnd n)).2) else d
      let d := if flg.testBit 3 then Inf.skipZ d.rest.length d else d
      let d := if flg.testBit 4 then Inf.skipZ d.rest.length d else d
      let sum := crc32 (bytesOfBits (start.take (start.length - d.rest.length)))
      let (hc, d) := if flg.testBit 1 then d.bytes 2 else ([], d)
      if d.err ≠ 0 then d
      else if flg.testBit 1 ∧ littleEnd hc ≠ sum % 65536 then d.stop 10
      else
        let before := d.out
        let hist := dict.reverse.take 32768
        let d := ({ d with out := hist } : Inf).inflate.align
        let mine := d.out.take (d.out.length - hist.length)
        let d := { d with out := mine ++ before }
        if d.err ≠ 0 then d
        else
          let (c, d) := d.bytes 4
          let (z, d) := d.bytes 4
          if d.err ≠ 0 then d
          else if littleEnd c ≠ crc32 mine.reverse then d.stop 8
          else if littleEnd z ≠ mine.length % 2 ^ 32 then d.stop 7
          else d

/-- Members one after the other, to the end of the source. -/
def Inf.gzip (dict : List Byte) : Nat → Inf → Inf
  | 0, d => d
  | n + 1, d => let d := d.member dict; if d.err ≠ 0 ∨ d.rest = [] then d else Inf.gzip dict n d

/-- What a decompression makes of its source. -/
structure Decoded where
  out : List Byte
  err : Nat
  used : Nat

/-- Decompress a Deflate source: raw (1), zlib (2) or gzip (3). What follows a raw or zlib stream is not read (DESIGN CHOICE, log 127). -/
def inflateAll (fmt : Nat) (dict : Option (List Byte)) (src : List Byte) (room : Nat) : Decoded :=
  let d : Inf := { rest := bitsOf src, out := [], room := room }
  let d := match fmt with
    | 2 => d.zlib dict
    | 3 => Inf.gzip (dict.getD []) src.length d
    | _ =>
      let hist := (dict.getD []).reverse.take 32768
      let d := ({ d with out := hist } : Inf).inflate
      { d with out := d.out.take (d.out.length - hist.length) }
  { out := d.out.reverse, err := d.err, used := src.length - d.rest.length / 8 }

/-! ### Encoding (R360, R367) -/

/-- The bits of a Huffman code, the most significant first. -/
def codeBits (n v : Nat) : List Bool := (numBits n v).reverse

/-- A literal or length symbol, and a distance symbol, in the fixed code. -/
def fixedSym (v : Nat) : List Bool :=
  if v < 144 then codeBits 8 (0x30 + v) else if v < 256 then codeBits 9 (0x190 + (v - 144)) else if v < 280 then codeBits 7 (v - 256) else codeBits 8 (0xC0 + (v - 280))

/-- The code of a value in a table of bases: the last whose base does not pass it. -/
def codeOf (tab : List (Nat × Nat)) (v : Nat) : Nat := (tab.takeWhile (fun x => decide (x.1 ≤ v))).length - 1

/-- A step of the output in the fixed code. -/
def fixedTok : Tok → List Bool
  | .lit b => fixedSym b.toNat
  | .copy len dist =>
    let a := codeOf lenTab len
    let b := codeOf distTab dist
    let x := lenTab.getD a (0, 0)
    let y := distTab.getD b (0, 0)
    fixedSym (257 + a) ++ numBits x.2 (len - x.1) ++ codeBits 5 b ++ numBits y.2 (dist - y.1)

/-- Stored blocks from a bit position on, of at most 65,535 bytes each; the last may end the stream. -/
def storedBits (last : Bool) : Nat → Nat → List Byte → List Bool
  | 0, _, _ => []
  | n + 1, pos, l =>
    let a := l.take 65535
    let more := l.drop 65535
    let head := [last && more.isEmpty, false, false]
    let pad := List.replicate ((8 - (pos + 3) % 8) % 8) false
    head ++ pad ++ numBits 16 a.length ++ numBits 16 (65535 - a.length) ++ bitsOf a ++ (if more = [] then [] else storedBits last n 0 more)

/-- An offered block (its type, 1 fixed or 2 dynamic, and what follows) is one of the source given: its bits, and its steps. `hist`: what went before, the
newest byte first. -/
def blockOffer (hist src : List Byte) (offer : List Byte) : Option (List Bool × List Tok) :=
  let bits := bitsOf offer
  let d : Inf := { rest := bits, out := hist, room := src.length }
  let (typ, d) := d.take 2
  let (d, x, y) := match typ with
    | 1 => (d, fixedLit, fixedDist)
    | 2 => d.dynamic
    | _ => (d.stop 1, fixedLit, fixedDist)
  let (d, t) := Inf.symbols x y d.rest.length d []
  if d.err = 0 ∧ d.out.take (d.out.length - hist.length) = src.reverse then some (bits.take (bits.length - d.rest.length), t.reverse) else none

/-- A block of a stream at a bit position: the shortest of stored, fixed and dynamic (R360); stored where the coded body would be as long as the source
(R367). The encoder's search is an implementation's: it offers a block, whose steps the fixed code takes over; without one the steps
are the bytes themselves (DESIGN CHOICE, log 127). -/
def deflateBlock (hist src : List Byte) (last : Bool) (pos : Nat) (offer : List Byte) : List Bool × Bool :=
  let dyn := blockOffer (hist.take 32768) src offer
  let toks := match dyn with | some (_, t) => t | none => src.map Tok.lit
  let fixed := [last, true, false] ++ toks.flatMap fixedTok ++ codeBits 7 0
  let coded := match dyn with
    | some (b, _) => if b.length + 1 < fixed.length then last :: b else fixed
    | none => fixed
  if src ≠ [] ∧ src.length ≤ (coded.length + 7) / 8 then (storedBits last (src.length + 1) pos src, true) else (coded, false)

/-- The header of a zlib stream; FLEVEL follows LEVEL in a way the spec does not give (DESIGN CHOICE, log 127). -/
def zlibHead (level : Nat) (dict : Option (List Byte)) : List Byte :=
  let flg := (Config.flevel level % 4) * 64 + (if dict.isSome then 32 else 0)
  let flg := flg + (31 - (0x78 * 256 + flg) % 31) % 31
  [0x78, BitVec.ofNat 8 flg] ++ (match dict with | some l => (natBytes 4 (adler32 l)).reverse | none => [])

/-- The header of a gzip member. -/
def gzipHead (level : Nat) : List Byte := [0x1F, 0x8B, 8, 0, 0, 0, 0, 0, if 7 ≤ level then 2 else if level ≤ 2 then 4 else 0, 0xFF]

end Sys2Proof.Machine
end

