-- ==== Sys2Proof/Machine/Zstd.lean ====
section
/-!
DEFINITION. Zstandard (R359, R361, R367, R374): RFC 8878 as the job units read and write it, and XXH64. Where RFC 8878 calls data corrupt and R361 has no
reason of its own for it, the nearest one is given: 5 for literals and tables, 6 for sequences, 1 for block sizes (DESIGN CHOICE, log 127).
-/
namespace Sys2Proof.Machine
open Sys2Proof

/-! ### XXH64 -/

abbrev xxP1 : BitVec 64 := 0x9E3779B185EBCA87#64
abbrev xxP2 : BitVec 64 := 0xC2B2AE3D27D4EB4F#64
abbrev xxP3 : BitVec 64 := 0x165667B19E3779F9#64
abbrev xxP4 : BitVec 64 := 0x85EBCA77C2B2AE63#64
abbrev xxP5 : BitVec 64 := 0x27D4EB2F165667C5#64

/-- A lane takes 8 bytes. -/
def xxRound (acc v : BitVec 64) : BitVec 64 := (acc + v * xxP2).rotateLeft 31 * xxP1

/-- A lane is merged. -/
def xxMerge (h acc : BitVec 64) : BitVec 64 := (h ^^^ xxRound 0 acc) * xxP1 + xxP4

/-- Bytes as a 64-bit number. -/
def xxWord (l : List Byte) : BitVec 64 := BitVec.ofNat 64 (leNat l)

/-- The four lanes over whole stripes of 32 bytes, and what is left. -/
def xxStripes : Nat → (BitVec 64 × BitVec 64 × BitVec 64 × BitVec 64) → List Byte → (BitVec 64 × BitVec 64 × BitVec 64 × BitVec 64) × List Byte
  | 0, v, l => (v, l)
  | n + 1, v, l =>
    let w := fun i => xxWord ((l.drop (8 * i)).take 8)
    xxStripes n (xxRound v.1 (w 0), xxRound v.2.1 (w 1), xxRound v.2.2.1 (w 2), xxRound v.2.2.2 (w 3)) (l.drop 32)

/-- The last bytes: eights, a four, ones; n bounds the steps. -/
def xxTail : Nat → BitVec 64 → List Byte → BitVec 64
  | 0, h, _ => h
  | n + 1, h, l =>
    if 8 ≤ l.length then xxTail n ((h ^^^ xxRound 0 (xxWord (l.take 8))).rotateLeft 27 * xxP1 + xxP4) (l.drop 8)
    else if 4 ≤ l.length then xxTail n ((h ^^^ xxWord (l.take 4) * xxP1).rotateLeft 23 * xxP2 + xxP3) (l.drop 4)
    else match l with
      | [] => h
      | b :: l => xxTail n ((h ^^^ BitVec.ofNat 64 b.toNat * xxP5).rotateLeft 11 * xxP1) l

/-- XXH64 with seed 0 (R359, R364). -/
def xxh64 (l : List Byte) : Nat :=
  let n := l.length
  let (v, r) := xxStripes (n / 32) (xxP1 + xxP2, xxP2, 0, 0 - xxP1) l
  let h := if 32 ≤ n then
      xxMerge (xxMerge (xxMerge (xxMerge (v.1.rotateLeft 1 + v.2.1.rotateLeft 7 + v.2.2.1.rotateLeft 12 + v.2.2.2.rotateLeft 18) v.1) v.2.1) v.2.2.1) v.2.2.2
    else xxP5
  let h := xxTail r.length (h + BitVec.ofNat 64 n) r
  let h := (h ^^^ (h >>> 33)) * xxP2
  let h := (h ^^^ (h >>> 29)) * xxP3
  (h ^^^ (h >>> 32)).toNat

/-! ### FSE tables (RFC 8878, 4.1) -/

/-- Zero probabilities that follow one, two bits a time. -/
def zeroRuns : Nat → List Bool → Option (Nat × List Bool)
  | 0, _ => none
  | n + 1, l => do
    let (r, l) ← takeBits 2 l
    if r = 3 then (zeroRuns n l).map (fun x => (3 + x.1, x.2)) else some (r, l)

/-- Probabilities, −1 for less than 1, until none of the table is left; the newest first. -/
def fseCounts (maxSym : Nat) : Nat → Nat → List Int → List Bool → Option (List Int × List Bool)
  | 0, _, _, _ => none
  | n + 1, left, acc, l =>
    if left = 0 then some (acc, l)
    else if maxSym < acc.length then none
    else do
      let bits := Nat.log2 (left + 1) + 1
      let (v, l') ← takeBits bits l
      let low := v % 2 ^ (bits - 1)
      let thr := 2 ^ bits - 1 - (left + 1)
      let (v, l) ← if low < thr then (takeBits (bits - 1) l).map (fun x => (low, x.2)) else some (if 2 ^ (bits - 1) ≤ v then v - thr else v, l')
      let p : Int := (v : Int) - 1
      let used := p.natAbs
      if left < used then none
      else if p = 0 then do
        let (z, l) ← zeroRuns 256 l
        fseCounts maxSym n left (List.replicate z 0 ++ p :: acc) l
      else fseCounts maxSym n (left - used) (p :: acc) l

/-- The places of a table in the order in which symbols are spread over it. -/
def spread (size high : Nat) : Nat → Nat → List Nat
  | 0, _ => []
  | n + 1, pos =>
    let rest := spread size high n ((pos + size / 2 + size / 8 + 3) % size)
    if pos < high then pos :: rest else rest

/-- The decoding table of probabilities. -/
def fseTab (log : Nat) (probs : List Int) : FseTab :=
  let size := 2 ^ log
  let ix := List.range probs.length
  let low := ix.filter (fun k => probs.getD k 0 == -1)
  let high := size - low.length
  let many := ix.flatMap (fun k => List.replicate (probs.getD k 0).toNat k)
  let place := (spread size high size 0).zip many
  let symAt := fun i => if high ≤ i then low.getD (size - 1 - i) 0 else ((place.find? (fun x => x.1 == i)).map (·.2)).getD 0
  let (_, cells) := (List.range size).foldl (fun (a : Tab Nat × List (Nat × Nat × Nat)) i =>
    let s := symAt i
    let d := tgetD (probs.getD s 0).natAbs s a.1
    let nb := log - Nat.log2 d
    (tput s (d + 1) a.1, (s, nb, d * 2 ^ nb - size) :: a.2)) ([], [])
  { log := log, cells := cells.reverse }

/-- A table that a stream describes, of at most a log and a symbol, and the bytes after it. -/
def fseRead (maxLog maxSym : Nat) (b : List Byte) : Option (FseTab × List Byte) := do
  let bits := bitsOf b
  let (a, l) ← takeBits 4 bits
  if maxLog < a + 5 then none
  else do
    let (p, l) ← fseCounts maxSym 512 (2 ^ (a + 5)) [] l
    if maxSym + 1 < p.length then none
    else some (fseTab (a + 5) p.reverse, b.drop ((bits.length - l.length + 7) / 8))

/-- The table that has one symbol only. -/
def fseOne (sym : Nat) : FseTab := { log := 0, cells := [(sym, 0, 0)] }

/-- The bits of a stream that is read backwards: from the last byte, after its highest 1. -/
def backBits (b : List Byte) : Option (List Bool) :=
  match b.getLast? with
  | none => none
  | some x => if x = 0 then none else some (((bitsOf b).reverse.dropWhile (fun v => !v)).drop 1)

/-- Take n bits of it, the most significant first. -/
def popBits : Nat → List Bool → Option (Nat × List Bool)
  | 0, l => some (0, l)
  | _ + 1, [] => none
  | n + 1, b :: l => (popBits n l).map (fun x => (b2n b * 2 ^ n + x.1, x.2))

/-- The symbol of a state, and the next state. -/
def FseTab.sym (t : FseTab) (s : Nat) : Nat := (t.cells.getD s (0, 0, 0)).1
def FseTab.next (t : FseTab) (s : Nat) (l : List Bool) : Option (Nat × List Bool) :=
  let c := t.cells.getD s (0, 0, 0)
  (popBits c.2.1 l).map (fun x => (c.2.2 + x.1, x.2))

/-! ### Literals (RFC 8878, 3.1.1.3.1 and 4.2) -/

/-- Huffman weights under two states that take turns. -/
def weightsFse (t : FseTab) : Nat → Nat → Nat → List Bool → List Nat
  | 0, _, _, _ => []
  | n + 1, a, b, l =>
    t.sym a :: (match t.next a l with
      | some (a, l) => weightsFse t n b a l
      | none => [t.sym b])

/-- The Huffman table of weights, the last of which is not written. -/
def huffTab (ws : List Nat) : Option (Nat × List (Nat × Nat)) :=
  let sum := ws.foldl (fun a w => if w = 0 then a else a + 2 ^ (w - 1)) 0
  let mb := Nat.log2 sum + 1
  let left := 2 ^ mb - sum
  if sum = 0 ∨ 11 < mb ∨ 2 ^ Nat.log2 left ≠ left ∨ 255 < ws.length then none
  else
    let ws := ws ++ [Nat.log2 left + 1]
    some (mb, (List.range mb).flatMap (fun w =>
      ((List.range ws.length).filter (fun k => ws.getD k 0 == w + 1)).flatMap (fun k => List.replicate (2 ^ w) (k, mb - w))))

/-- A Huffman tree description, and the bytes after it. -/
def huffRead (b : List Byte) : Option ((Nat × List (Nat × Nat)) × List Byte) :=
  match b with
  | [] => none
  | h :: l =>
    let n := h.toNat
    if n < 128 then do
      if l.length < n then none
      else do
        let (t, r) ← fseRead 6 255 (l.take n)
        let bits ← backBits r
        let (s1, bits) ← popBits t.log bits
        let (s2, bits) ← popBits t.log bits
        let h ← huffTab (weightsFse t 256 s1 s2 bits)
        some (h, l.drop n)
    else do
      let k := n - 127
      if l.length < (k + 1) / 2 then none
      else do
        let h ← huffTab (((l.take ((k + 1) / 2)).flatMap (fun x => [x.toNat / 16, x.toNat % 16])).take k)
        some (h, l.drop ((k + 1) / 2))

/-- Symbols of a Huffman stream to its end. -/
def huffSyms (mb : Nat) (cells : List (Nat × Nat)) : Nat → List Bool → Option (List Byte)
  | 0, l => if l = [] then some [] else none
  | n + 1, l =>
    if l = [] then some []
    else
      let ix := ((l ++ List.replicate mb false).take mb).foldl (fun a b => 2 * a + b2n b) 0
      let (s, nb) := cells.getD ix (0, 0)
      if l.length < nb then none else (huffSyms mb cells n (l.drop nb)).map (BitVec.ofNat 8 s :: ·)

/-- A Huffman stream of a known number of symbols. -/
def huffStream (h : Nat × List (Nat × Nat)) (n : Nat) (b : List Byte) : Option (List Byte) := do
  let bits ← backBits b
  let l ← huffSyms h.1 h.2 n bits
  if l.length = n then some l else none

/-- The literals section of a block: the literals, the Huffman table from now on, and the bytes after it. -/
def zLiterals (t : ZTabs) (b : List Byte) : Option (List Byte × ZTabs × List Byte) :=
  let h := leNat (b.take 5)
  let sf := h / 4 % 4
  match h % 4 with
  | 0 | 1 =>
    let (size, n) := if sf % 2 = 0 then (h / 8 % 32, 1) else if sf = 1 then (h / 16 % 4096, 2) else (h / 16 % 2 ^ 20, 3)
    let r := b.drop n
    if h % 4 = 0 then (if b.length < n + size then none else some (r.take size, t, r.drop size))
    else match r with
      | x :: r => if b.length < n then none else some (List.replicate size x, t, r)
      | [] => none
  | k => do
    let (w, n) := if sf ≤ 1 then (10, 3) else if sf = 2 then (14, 4) else (18, 5)
    let regen := h / 16 % 2 ^ w
    let comp := h / 2 ^ (4 + w) % 2 ^ w
    if b.length < n + comp then none
    else do
      let body := (b.drop n).take comp
      let (hf, r) ← if k = 2 then huffRead body else t.huff.map (fun x => (x, body))
      let l ←
        if sf = 0 then huffStream hf regen r
        else
          let s := fun i => leNat ((r.drop (2 * i)).take 2)
          let q := (regen + 3) / 4
          let r := r.drop 6
          if r.length < s 0 + s 1 + s 2 ∨ regen < 3 * q then none
          else do
            let a ← huffStream hf q (r.take (s 0))
            let b ← huffStream hf q ((r.drop (s 0)).take (s 1))
            let c ← huffStream hf q ((r.drop (s 0 + s 1)).take (s 2))
            let d ← huffStream hf (regen - 3 * q) (r.drop (s 0 + s 1 + s 2))
            some (a ++ b ++ c ++ d)
      some (l, { t with huff := some hf }, b.drop (n + comp))

/-! ### Sequences (RFC 8878, 3.1.1.3.2 and 3.1.1.4) -/

/-- Base and extra bits of the literal-length codes from 16 on, and of the match-length codes from 32 on. -/
def llTab : List (Nat × Nat) :=
  [(16, 1), (18, 1), (20, 1), (22, 1), (24, 2), (28, 2), (32, 3), (40, 3), (48, 4), (64, 6)] ++ (List.range 10).map (fun k => (2 ^ (k + 7), k + 7))
def mlTab : List (Nat × Nat) :=
  [(35, 1), (37, 1), (39, 1), (41, 1), (43, 2), (47, 2), (51, 3), (59, 3), (67, 4), (83, 4), (99, 5)] ++ (List.range 10).map (fun k => (2 ^ (k + 7) + 3, k + 7))

/-- Base and extra bits of a code. -/
def llCode (c : Nat) : Option (Nat × Nat) := if c < 16 then some (c, 0) else llTab[c - 16]?
def mlCode (c : Nat) : Option (Nat × Nat) := if c < 32 then some (c + 3, 0) else mlTab[c - 32]?

/-- The predefined tables. -/
def llDefault : FseTab := fseTab 6 ([4, 3] ++ List.replicate 11 2 ++ [1, 1, 1] ++ List.replicate 9 2 ++ [3, 2, 1, 1, 1, 1, 1] ++ List.replicate 4 (-1))
def mlDefault : FseTab := fseTab 6 ([1, 4, 3] ++ List.replicate 6 2 ++ List.replicate 37 1 ++ List.replicate 7 (-1))
def ofDefault : FseTab := fseTab 5 (List.replicate 6 1 ++ [2, 2, 2] ++ List.replicate 15 1 ++ List.replicate 5 (-1))

/-- A table by its mode: predefined, one symbol, described, or the one before. -/
def zTable (mode : Nat) (dflt : FseTab) (before : Option FseTab) (maxLog maxSym : Nat) (b : List Byte) : Option (FseTab × List Byte) :=
  match mode with
  | 0 => some (dflt, b)
  | 1 => match b with
    | x :: r => if maxSym < x.toNat then none else some (fseOne x.toNat, r)
    | [] => none
  | 2 => fseRead maxLog maxSym b
  | _ => before.map (fun t => (t, b))

/-- The sequences of a block: literal length, match length, offset value. -/
def zSeqs (ll off ml : FseTab) : Nat → Nat → Nat → Nat → List Bool → Option (List (Nat × Nat × Nat))
  | 0, _, _, _, l => if l = [] then some [] else none
  | n + 1, a, o, m, l => do
    let oc := off.sym o
    let (ov, l) ← popBits oc l
    let (mb, me) ← mlCode (ml.sym m)
    let (mv, l) ← popBits me l
    let (lb, le) ← llCode (ll.sym a)
    let (lv, l) ← popBits le l
    let (a, o, m, l) ← if n = 0 then some (a, o, m, l)
      else do
        let (a, l) ← ll.next a l
        let (m, l) ← ml.next m l
        let (o, l) ← off.next o l
        some (a, o, m, l)
    (zSeqs ll off ml n a o m l).map ((lb + lv, mb + mv, 2 ^ oc + ov) :: ·)

/-- The offset a sequence means, and the repeated offsets after it. -/
def zOffset (rep : Nat × Nat × Nat) (lit v : Nat) : Nat × (Nat × Nat × Nat) :=
  if 3 < v then (v - 3, (v - 3, rep.1, rep.2.1))
  else match v + b2n (lit = 0) with
    | 1 => (rep.1, rep)
    | 2 => (rep.2.1, (rep.2.1, rep.1, rep.2.2))
    | 3 => (rep.2.2, (rep.2.2, rep.1, rep.2.1))
    | _ => (rep.1 - 1, (rep.1 - 1, rep.1, rep.2.1))

/-- Write n literals. -/
def Inf.puts (d : Inf) (l : List Byte) : Inf := l.foldl Inf.put d

/-- Carry out the sequences, then the literals that are left. `base`: the output of other frames below this one, which no offset reaches; a dictionary of `dict`
bytes above it is in reach while the frame's output lies within the window. -/
def zRun (window base dict : Nat) (d : Inf) (rep : Nat × Nat × Nat) (lits : List Byte) : List (Nat × Nat × Nat) → Inf × (Nat × Nat × Nat)
  | [] => (d.puts lits, rep)
  | (ll, ml, v) :: r =>
    if d.err ≠ 0 then (d, rep)
    else if lits.length < ll then (d.stop 6, rep)
    else
      let d := d.puts (lits.take ll)
      let (o, rep) := zOffset rep ll v
      let made := d.out.length - base - dict
      let reach := if made ≤ window then made + dict else window
      if o = 0 ∨ (made < o ∧ reach < o) ∨ window < o ∧ o ≤ made then (d.stop 6, rep)
      else zRun window base dict (d.copy o ml) rep (lits.drop ll) r

/-- A compressed block. -/
def zBlock (window base dict : Nat) (t : ZTabs) (d : Inf) (b : List Byte) : Inf × ZTabs :=
  match zLiterals t b with
  | none => (d.stop 5, t)
  | some (lits, t, b) =>
    let (n, b) : Option Nat × List Byte := match b with
      | [] => (none, [])
      | x :: r =>
        let x := x.toNat
        if x < 128 then (some x, r)
        else if x < 255 then (match r with | y :: r => (some ((x - 128) * 256 + y.toNat), r) | [] => (none, []))
        else (match r with | y :: z :: r => (some (y.toNat + z.toNat * 256 + 0x7F00), r) | _ => (none, []))
    match n, b with
    | none, _ => (d.stop 6, t)
    | some 0, b => if b = [] then (d.puts lits, t) else (d.stop 6, t)
    | some _, [] => (d.stop 6, t)
    | some n, m :: b =>
      let m := m.toNat
      if m % 4 ≠ 0 then (d.stop 2, t)
      else
        let tabs := do
          let (ll, b) ← zTable (m / 64) llDefault t.ll 9 35 b
          let (off, b) ← zTable (m / 16 % 4) ofDefault t.off 8 31 b
          let (ml, b) ← zTable (m / 4 % 4) mlDefault t.ml 9 52 b
          some (ll, off, ml, b)
        match tabs with
        | none => (d.stop 5, t)
        | some (ll, off, ml, b) =>
          let seqs := do
            let l ← backBits b
            let (a, l) ← popBits ll.log l
            let (o, l) ← popBits off.log l
            let (m, l) ← popBits ml.log l
            zSeqs ll off ml n a o m l
          match seqs with
          | none => (d.stop 6, t)
          | some l =>
            let (d, rep) := zRun window base dict d t.rep lits l
            (d, { t with ll := some ll, off := some off, ml := some ml, rep := rep })

/-! ### Dictionaries (RFC 8878, 5; R373, R374) -/

/-- What a dictionary gives a frame: its content, and the tables of one in the RFC 8878 format; none where it is not one. -/
def zDict (raw : Bool) (l : List Byte) : Option (List Byte × ZTabs) :=
  if raw then some (l, {})
  else if leNat (l.take 4) ≠ 0xEC30A437 then none
  else do
    let (h, b) ← huffRead (l.drop 8)
    let (off, b) ← fseRead 8 31 b
    let (ml, b) ← fseRead 9 52 b
    let (ll, b) ← fseRead 9 35 b
    if b.length < 12 then none
    else
      let r := fun i => leNat ((b.drop (4 * i)).take 4)
      let c := b.drop 12
      if r 0 = 0 ∨ r 1 = 0 ∨ r 2 = 0 ∨ c.length < r 0 ∨ c.length < r 1 ∨ c.length < r 2 then none
      else some (c, { huff := some h, ll := some ll, off := some off, ml := some ml, rep := (r 0, r 1, r 2) })

/-! ### Frames (RFC 8878, 3.1; R359) -/

/-- A Zstandard decoder at work: the source that is left, and the output. -/
structure Zin where
  src : List Byte
  d : Inf

/-- Stop. -/
def Zin.stop (z : Zin) (r : Nat) : Zin := { z with d := z.d.stop r }

/-- The blocks of a frame, and whether it is complete. `room` of the window bounds Block_Maximum_Size. -/
def Zin.blocks (window base dict : Nat) : Nat → ZTabs → Zin → Zin
  | 0, _, z => z.stop 9
  | n + 1, t, z =>
    let h := leNat (z.src.take 3)
    let size := h / 8
    let body := z.src.drop 3
    if z.src.length < 3 then z.stop 9
    else if h / 2 % 4 = 3 ∨ min window 131072 < size then z.stop 1
    else
      let need := if h / 2 % 4 = 1 then 1 else size
      let short := decide (body.length < need)
      let (d, t) := match h / 2 % 4 with
        | 0 => (z.d.puts (body.take size), t)
        | 1 => (match body with | x :: _ => (z.d.puts (List.replicate size x), t) | [] => (z.d, t))
        | _ => if short then (z.d, t) else zBlock window base dict t z.d (body.take size)
      if d.err ≠ 0 then { z with d := d }
      else if short then { z with d := d.stop 9 }
      else
        let z : Zin := { src := body.drop need, d := d }
        if h % 2 = 1 then z else Zin.blocks window base dict n t z

/-- The header of a frame: checksum present, Window_Size, content size, Dictionary_ID, its length. -/
structure ZHead where
  sum : Bool
  window : Nat
  size : Option Nat
  dict : Nat
  len : Nat

/-- Read a header, after its magic: 9 where the source ends in it, 2 for the reserved bit. -/
def zHead (l : List Byte) : Except Nat ZHead :=
  match l with
  | [] => .error 9
  | f :: r =>
    let f := f.toNat
    let single := f.testBit 5
    let dn := [0, 1, 2, 4].getD (f % 4) 0
    let sn := [b2n single, 2, 4, 8].getD (f / 64) 0
    let wn := if single then 0 else 1
    if f.testBit 3 then .error 2
    else if r.length < wn + dn + sn then .error 9
    else
      let w := leNat (r.take wn)
      let size := leNat ((r.drop (wn + dn)).take sn) + (if f / 64 = 1 then 256 else 0)
      let base := 2 ^ (10 + w / 8)
      .ok { sum := f.testBit 2, window := if single then size else base + base / 8 * (w % 8), size := if sn = 0 then none else some size
            dict := leNat ((r.drop wn).take dn), len := 1 + wn + dn + sn }

/-- One frame after its magic. `find` looks up a Dictionary_ID: none where the context has no such dictionary. -/
def Zin.frame (z : Zin) (wmax : Nat) (find : Nat → Option (List Byte × ZTabs)) : Zin :=
  match zHead z.src with
  | .error r => z.stop r
  | .ok h =>
    if wmax < h.window then z.stop 3
    else match find h.dict with
      | none => z.stop 4
      | some (dict, t) =>
        let before := z.d.out
        let y := Zin.blocks h.window before.length dict.length z.src.length t { src := z.src.drop h.len, d := { z.d with out := dict.reverse ++ before } }
        let mine := y.d.out.take (y.d.out.length - before.length - dict.length)
        let y : Zin := { y with d := { y.d with out := mine ++ before } }
        if y.d.err ≠ 0 then y
        else if (match h.size with | some n => n != mine.length | none => false) then y.stop 7
        else if ¬ h.sum then y
        else if y.src.length < 4 then y.stop 9
        else if leNat (y.src.take 4) ≠ xxh64 mine.reverse % 2 ^ 32 then y.stop 8
        else { y with src := y.src.drop 4 }

/-- Frames to the end of the source; skippable ones are passed over. -/
def Zin.frames (wmax : Nat) (find : Nat → Option (List Byte × ZTabs)) : Nat → Zin → Zin
  | 0, z => z
  | n + 1, z =>
    if z.src = [] ∨ z.d.err ≠ 0 then z
    else if z.src.length < 4 then z.stop 9
    else
      let m := leNat (z.src.take 4)
      let r := z.src.drop 4
      if m / 16 = 0x184D2A5 then
        let k := leNat (r.take 4)
        if r.length < 4 + k then z.stop 9 else Zin.frames wmax find n { z with src := r.drop (4 + k) }
      else if m ≠ 0xFD2FB528 then z.stop 1
      else Zin.frames wmax find n (Zin.frame { z with src := r } wmax find)

/-- Decompress a Zstandard source. -/
def unzstd (wmax : Nat) (find : Nat → Option (List Byte × ZTabs)) (src : List Byte) (room : Nat) : Decoded :=
  let z := Zin.frames wmax find src.length { src := src, d := { rest := [], out := [], room := room } }
  { out := z.d.out.reverse, err := z.d.err, used := src.length - z.src.length }

/-! ### Encoding (R359, R363, R367) -/

/-- The header of an emitted frame: never of a single segment, with a Window_Descriptor of no mantissa; the content size, in the shortest field that holds
it, where it is given (DESIGN CHOICE, log 127). -/
def zstdHead (wlog2 : Nat) (csum : Bool) (dict : Option Nat) (size : Option Nat) : List Byte :=
  let fs := match size with
    | none => 0
    | some n => if n < 256 then 2 else if n < 65792 then 1 else if n < 2 ^ 32 then 2 else 3
  let fhd := fs * 64 + (if csum then 4 else 0) + (if dict.isSome then 3 else 0)
  natBytes 4 0xFD2FB528 ++ [BitVec.ofNat 8 fhd, BitVec.ofNat 8 ((wlog2 - 10) * 8)] ++ (match dict with | some i => natBytes 4 i | none => [])
    ++ (match size with
      | none => []
      | some n => if fs = 1 then natBytes 2 (n - 256) else if fs = 2 then natBytes 4 n else natBytes 8 n)

/-- A block of a frame (R367): RLE where every byte is equal; what the encoder offers where it is a compressed block of this source and shorter than it; else
raw. Answers the bytes, the tables after it, and whether it is raw. `hist`: what an offset may reach, the newest byte first, of which `dict` bytes
are the dictionary's. -/
def zstdBlock (window dict : Nat) (t : ZTabs) (hist src : List Byte) (last : Bool) (offer : List Byte) : List Byte × ZTabs × Bool :=
  let n := src.length
  let put := fun (typ size : Nat) (body : List Byte) => natBytes 3 (b2n last + 2 * typ + 8 * size) ++ body
  match src with
  | [] => (put 0 0 [], t, true)
  | x :: xs =>
    if xs.all (· == x) then (put 1 n [x], t, false)
    else
      let (d, t') := zBlock window 0 dict t { rest := [], out := hist, room := n } offer
      if offer.length < n ∧ d.err = 0 ∧ d.out.take (d.out.length - hist.length) = src.reverse then (put 2 offer.length offer, t', false)
      else (put 0 n src, t, true)

end Sys2Proof.Machine
end

