-- ==== Sys2Proof/Machine/Job.lean ====
section
/-!
DEFINITION. Job compression (12_job_compression.md): the `job` commands, the dispatcher and what a codec unit does at the start
and the end of a job. The formats themselves are in Flate.lean and Zstd.lean. Each memory access of a unit is a row of its own at its job agent.
-/
namespace Sys2Proof.Machine
open Sys2Proof

/-- 64 MiB: the longest source of a chained or an unsplit compression (R365, R369). -/
abbrev jobMax : Nat := 0x4000000

/-- A piece of a split compression (R369). -/
abbrev jobPiece : Nat := 0x2000000

/-- A unit takes work: enabled and not retired. -/
def State.unitOn (s : State) (n : Nat) : Bool := bit (s.get .JOB_CTL_UNIT_EN) n && !s.isSet .JOB_UNIT_STS_RETIRED n

def State.unitsOff (s : State) : Bool := (List.range 4).all (fun n => !s.unitOn n)

/-- Every `job` command while no unit is enabled (R379). -/
def needUnit (s : State) (a : Ans) : Ans := if s.unitsOff then refuse s stMediaNotReady 0xFFFFFFFF else a

/-- The dictionary slot that a context's DICTID names. -/
def State.dictSlot (s : State) (tc id : Nat) : Option Nat :=
  (s.job.dicts.find? (fun d => d.2.tc == tc && d.2.id == id)).map (·.1)

/-! ### Checks (R362, R363, R369, R370, R374) -/

/-- The first reserved or out-of-range field of the format bytes 0x10–0x17: format, effort, window, block target, dictionary. -/
def State.formatChecks (s : State) (q : Req) (wmax : Nat) (session : Bool) : List (Nat × Bool) :=
  let dec := parBit q 0x10 0
  let fmt := parBits q 0x10 1 3
  let lvl := parBits q 0x11 0 4
  let wl := parBits q 0x12 0 5
  let blk := par q 0x13 1
  let id := par q 0x14 4
  let ds := s.dictSlot q.tc.val id
  [(0x10, decide (fmt ≤ 3)), (0x11, dec || decide (1 ≤ lvl ∧ lvl ≤ 9)),
   (0x12, decide (fmt ≠ 0) || (dec && !session) || decide (10 ≤ wl ∧ wl ≤ (if dec then wmax else 23))),
   (0x13, decide (4 ≤ blk ∧ blk ≤ 32) && (decide (fmt ≠ 0) || dec || decide (blk * 4096 ≤ 2 ^ wl))),
   (0x14, decide (id = 0) || (match ds with
      | some d => decide (fmt = 0) || (match tget d s.job.dicts with | some x => x.raw | none => false)
      | none => false))]

/-- The output buffer of R363 at 0x28 and 0x30. -/
def outChecks (q : Req) : List (Nat × Bool) :=
  let len := par q 0x30 8
  [(0x30, decide (1 ≤ len ∧ len ≤ (if parBit q 0x10 7 then 256 else 2 ^ 36)))]

/-- Two ranges share a byte. -/
def overlap (a n b m : Nat) : Bool := decide (a < b + m ∧ b < a + n ∧ 0 < n ∧ 0 < m)

/-- Source and output of R363, against each other and a chain's limit (R362, R365, R369). -/
def sourceChecks (q : Req) (dec : Bool) : List (Nat × Bool) :=
  let len := par q 0x20 8
  let chain := parBit q 0x10 7
  [(0x20, decide (len ≤ 2 ^ 36) && (!dec || decide (1 ≤ len))), (0x10, !chain || decide (len ≤ jobMax)),
   (0x28, chain || parBit q 0x10 5 != parBit q 0x10 6 || !overlap (par q 0x18 8) len (par q 0x28 8) (par q 0x30 8))]

/-- The session a handle names, with its slot. -/
def State.sessionOf (s : State) (h : Nat) : Option (Nat × Session) :=
  match tget (h % 64) s.job.sessions with
  | some x => if x.seq = h / 64 then some (h % 64, x) else none
  | none => none

/-- A session command comes on its session's ring and names its context (R372). -/
def State.onItsRing (s : State) (q : Req) (h : Nat) : Bool :=
  match s.sessionOf h with
  | some (_, x) => byRing x.ring.1 x.ring.2 q && decide (x.tc = q.tc.val)
  | none => true

/-! ### The dispatcher (R366, R369) -/

/-- Pieces of split jobs that are staged: in the queue, on a unit, or done and not copied. -/
def State.staged (s : State) : Nat := s.job.jobs.foldl (fun a x => if 1 < x.2.pieces then a + (x.2.next - x.2.copied) else a) 0

/-- Let pieces that wait enter the queue: at most 8 are staged, and the queue holds 256 entries; k looks. -/
def State.feed (s : State) : Nat → State
  | 0 => s
  | k + 1 =>
    if 256 ≤ s.job.queue.length ∨ 8 ≤ s.staged then s
    else match s.job.jobs.find? (fun x => decide (x.2.next < x.2.pieces)) with
      | none => s
      | some (id, j) =>
        (s.job' (fun t => { t with jobs := tput id { j with next := j.next + 1 } t.jobs, queue := t.queue ++ [(id, j.next)] })).feed k

/-- Put a job or a session command in the queue; its reply comes later. -/
def State.queueJob (s : State) (q : Req) (kind pieces : Nat) (session dict : Option Nat) : Ans :=
  if 256 ≤ s.job.queue.length then busy s
  else
    let id := s.job.nextJob
    let j : Job := { req := q, kind := kind, session := session, dict := dict, pieces := pieces, next := if pieces = 1 then 1 else 0,
                     bufs := if parBit q 0x10 7 then [] else [(par q 0x28 8, par q 0x30 8)] }
    let s := s.job' (fun t => { t with jobs := tput id j t.jobs, nextJob := id + 1, queue := if pieces = 1 then t.queue ++ [(id, 0)] else t.queue })
    { st := s.feed 8, later := true }

/-! ### Commands (R363, R370, R371, R373, R379) -/

/-- JOB_QUERY (R379). -/
def execJobQuery (q : Req) (s : State) : Res :=
  let kind := par q 0x10 1
  let h := par q 0x18 8
  serve { op := 0x0600, priv := 1, mctp := true, ctx := if kind = 0 then 2 else 1, output := decide (kind = 1)
          fields := fld 0x10 1 :: (if kind = 0 then [] else [fld 0x18 8]) } q (firstBad [(0x10, decide (kind ≤ 1))]) (fun s =>
    needUnit s (
      if kind = 0 then
        ok s (s.job.queue.length + (s.job.units.foldl (fun a u => a + 2 ^ u.1) 0) * 2 ^ 9 + s.job.sessions.length * 2 ^ 13
          + s.job.dicts.length * 2 ^ 20)
      else match s.sessionOf h with
        | some (_, x) => if x.tc = q.tc.val then okOut s (b2n x.broken) 24 [(0, 8, x.src), (8, 8, x.out), (16, 8, x.held)] else refuse s stStale 0
        | none => refuse s stStale 0)) s

/-- The parameters of a stand-alone job and of a session's. -/
def submitFields (session : Bool) : List (Nat × Nat × Nat) :=
  (if session then [fbits 0x10 5 3] else [fbits 0x10 0 8, fbits 0x11 0 4, fbits 0x12 0 5, fld 0x13 1, fld 0x14 4])
    ++ [fld 0x18 8, fld 0x20 8, fld 0x28 8, fld 0x30 8, fld 0x38 8]

/-- JOB_SUBMIT (R362, R363, R366, R369). PLPTR must be 0. A split compression has one piece for every 32 MiB. -/
def execJobSubmit (q : Req) (s : State) : Res :=
  let h := par q 0x38 8
  let sess := s.sessionOf h
  let dec := if h = 0 then parBit q 0x10 0 else match sess with | some (_, x) => x.dir == 1 | none => false
  serve { op := 0x0601, priv := 1, mbox := false, ctx := 1, fields := submitFields (decide (h ≠ 0)) } q
    (firstBad ([(0x02, !q.plptr)] ++ (if h = 0 then s.formatChecks q 26 false else []) ++ outChecks q ++ sourceChecks q dec
      ++ [(0x38, decide (h = 0) || s.onItsRing q h)])) (fun s =>
      needUnit s (
        if h = 0 then
          let len := par q 0x20 8
          s.queueJob q 0 (if dec ∨ len ≤ jobMax then 1 else (len + jobPiece - 1) / jobPiece) none (s.dictSlot q.tc.val (par q 0x14 4))
        else match s.sessionOf h with
          | some (k, x) => if x.broken then refuse s stStale 0 else s.queueJob q 0 1 (some k) x.dict
          | none => refuse s stStale 0)) s

/-- JOB_SESSION_OPEN (R370). A session is bound to its ring; 480 MiB of history at most. -/
def execJobSessionOpen (q : Req) (s : State) : Res :=
  let fmt := parBits q 0x10 1 3
  serve { op := 0x0602, priv := 1, mbox := false, ctx := 1
          fields := [fbits 0x10 0 5, fbits 0x11 0 4, fbits 0x12 0 5, fld 0x13 1, fld 0x14 4] } q
    (firstBad (s.formatChecks q 26 true)) (fun s =>
      needUnit s (
        match q.origin, (List.range 64).find? (fun k => (tget k s.job.sessions).isNone) with
        | .ring h r, some k =>
          let x : Session := { seq := s.job.sessSeq + 1, ring := (h.val, r.val), tc := q.tc.val, dir := parBits q 0x10 0 1, fmt := fmt
                               csum := parBit q 0x10 4, level := parBits q 0x11 0 4, wlog2 := parBits q 0x12 0 5, blk := par q 0x13 1
                               dict := s.dictSlot q.tc.val (par q 0x14 4) }
          if 480 * 2 ^ 20 < s.histBytes + x.hist then refuse s stNoSpace 0
          else ok (s.job' (fun t => { t with sessions := tput k x t.sessions, sessSeq := t.sessSeq + 1 })) (k + 64 * x.seq)
        | _, _ => refuse s stNoSpace 0)) s

/-- The parameters of `job.flush` and `job.session_close`. -/
def flushFields : List (Nat × Nat × Nat) := [fbits 0x10 6 2, fld 0x28 8, fld 0x30 8, fld 0x38 8]

/-- JOB_SESSION_CLOSE (R371, R372): a broken session is freed at once. -/
def execJobSessionClose (q : Req) (s : State) : Res :=
  let h := par q 0x38 8
  serve { op := 0x0603, priv := 1, mbox := false, ctx := 1, fields := flushFields } q
    (firstBad (outChecks q ++ [(0x38, s.onItsRing q h)])) (fun s =>
      needUnit s (match s.sessionOf h with
        | some (k, x) =>
          if x.broken then ok (s.job' (fun t => { t with sessions := tdel k t.sessions })) else s.queueJob q 2 1 (some k) x.dict
        | none => refuse s stStale 0)) s

/-- JOB_FLUSH (R371). -/
def execJobFlush (q : Req) (s : State) : Res :=
  let h := par q 0x38 8
  serve { op := 0x0604, priv := 1, mbox := false, ctx := 1, fields := flushFields } q
    (firstBad (outChecks q ++ [(0x38, s.onItsRing q h)])) (fun s =>
      needUnit s (match s.sessionOf h with
        | some (k, x) => if x.broken then refuse s stStale 0 else s.queueJob q 1 1 (some k) x.dict
        | none => refuse s stStale 0)) s

/-- The Dictionary_ID that a Zstandard dictionary holds: bytes 4 to 7, after its magic. -/
def ownDictId (l : List Byte) : Nat := payNat l 4 4

/-- JOB_DICT_LOAD (R373). `d`: what the read of the dictionary's bytes gave. -/
def execJobDictLoad (q : Req) (d : DictRead) (s : State) : Res :=
  let raw := parBit q 0x10 0
  let id := par q 0x14 4
  let len := par q 0x20 8
  let own : Bool := match d with | .bytes l => raw || (ownDictId l == id && (zDict false (l.take len)).isSome) | .poison => true
  serve { op := 0x0605, priv := 1, ctx := 1, fields := [fbits 0x10 0 1, fbits 0x10 5 1, fld 0x14 4, fld 0x18 8, fld 0x20 8] } q
    (firstBad [(0x14, decide (id ≠ 0) && (s.dictSlot q.tc.val id).isNone && own), (0x20, decide (256 ≤ len ∧ len ≤ 2 ^ 21))]) (fun s =>
      needUnit s (
        match (List.range 16).find? (fun k => (tget k s.job.dicts).isNone) with
        | none => refuse s stNoSpace 0
        | some k => match d with
          | .poison => refuse s stFaulted 0
          | .bytes l =>
            let x : Dict := { tc := q.tc.val, raw := raw, id := id, bytes := l.take len }
            ok (s.job' (fun t => { t with dicts := tput k x t.dicts })) k)) s

/-- JOB_DICT_UNLOAD (R373). -/
def execJobDictUnload (q : Req) (s : State) : Res :=
  let slot := s.dictSlot q.tc.val (par q 0x14 4)
  serve { op := 0x0606, priv := 1, ctx := 1, fields := [fld 0x14 4] } q (firstBad [(0x14, slot.isSome)]) (fun s =>
    needUnit s (match slot with
      | some k => if s.dictUsers k ≠ 0 then busy s else ok (s.job' (fun t => { t with dicts := tdel k t.dicts }))
      | none => ok s)) s

/-! ### Units (R361, R364–R366, R368, R369, R371, R377) -/

/-- A unit is busy with a command of a session. -/
def State.sessionBusy (s : State) (k : Nat) : Bool :=
  s.job.units.any (fun u => match tget u.2.1 s.job.jobs with | some j => j.session == some k | none => false)

/-- The first entry in arrival order whose session, if any, is free and has no earlier command in the queue (R366, R372). -/
def State.nextEntry (s : State) : Option (Nat × Nat) :=
  s.job.queue.find? (fun e => match tget e.1 s.job.jobs with
    | some j => match j.session with
      | some k => !s.sessionBusy k
      | none => true
    | none => false)

/-- A session's job frees it at its close. -/
def State.closeSession (s : State) (j : Job) : State :=
  match j.session, j.kind with
  | some k, 2 => s.job' (fun t => { t with sessions := tdel k t.sessions })
  | _, _ => s

/-- A job ends; the close of a session frees it, whatever the end; and pieces that wait may enter the queue. -/
def State.jobEnds (s : State) (id : Nat) (j : Job) (status result detail : Nat) : State :=
  ((s.finishJob id status result detail).closeSession j).feed 8

/-- The entries of a chain list (address, length, reserved word) are legal, and none overlaps the source (R362, R365). -/
def chainOk (j : Job) (chain : List (Nat × Nat × Nat)) : Bool :=
  chain.length == par j.req 0x30 8 && chain.all (fun c => decide (1 ≤ c.2.1 ∧ c.2.1 < 2 ^ 32 ∧ c.2.2 = 0)
    && (j.kind != 0 || parBit j.req 0x10 5 != parBit j.req 0x10 6 || !overlap (par j.req 0x18 8) (par j.req 0x20 8) c.1 c.2.1))

/-- JOB_START (R366): unit n takes the next entry. A session broken in the meantime ends its command with ST_STALE, or frees it at its
close; a source in host space is read under a tag of the head (R71). -/
def execJobStart (n : Fin 4) (chain : List (Nat × Nat × Nat)) (s : State) : Res :=
  if ¬ s.unitOn n.val ∨ (tget n.val s.job.units).isSome then .next s
  else match s.nextEntry with
    | none => .next s
    | some e =>
      match tget e.1 s.job.jobs with
      | none => .next s
      | some j =>
        let broken : Bool := match j.session with
          | some k => (match tget k s.job.sessions with | some x => x.broken | none => true)
          | none => false
        if broken then .next (s.jobEnds e.1 j (if j.kind = 2 then stOk else stStale) 0 0)
        else
          let ch := parBit j.req 0x10 7
          if ch ∧ ¬ chainOk j chain then .next (s.jobEnds e.1 j stBadParam 0 0x28)
          else
            let bufs := if ch then chain.map (fun c => (c.1, c.2.1)) else j.bufs
            let s := s.job' (fun t => { t with queue := t.queue.erase e, units := tput n.val e t.units, jobs := tput e.1 { j with bufs := bufs } t.jobs })
            let s := s.feed 8
            match headOf j.req.origin with
            | some h =>
              if j.kind = 0 ∧ parBit j.req 0x10 5 = false ∧ 0 < par j.req 0x20 8 then
                .next ((s.issueRead h (par j.req 0x18 8 + e.2 * jobPiece) (min 4096 (par j.req 0x20 8)) (.job e.1)).getD s)
              else .next s
            | none => .next s

/-- JOB_PENDING_TIMEOUT (R366, R100): the job on unit n has not ended 8 ms after it started. With no operation slot free the command
replies ST_BUSY and ends. -/
def execJobPendingTimeout (n : Fin 4) (s : State) : Res :=
  match tget n.val s.job.units with
  | none => .next s
  | some (id, _) =>
    match tget id s.job.jobs with
    | none => .next s
    | some j =>
      if j.slot.isSome then .next s
      else match s.freeSlot with
        | none => .next ((s.drawn.finishJob id stBusy 0 (s.draw % 10000 + 1)).closeSession j)
        | some k =>
          let h := s.nextHandle
          let s := s.job' (fun t => { t with jobs := tput id { j with slot := some k } t.jobs })
          .next ((s.openOp k j.req (.job id) none).reply j.req stPending h 0 0 [])

/-! ### What a unit codes (R359–R361, R364, R367, R369, R371, R374) -/

/-- What a job fixes of its stream, of its own or through its session: DIR, FMT, CSUM, LEVEL, WLOG2, BLK, dictionary slot. -/
structure JobPar where
  dir : Nat
  fmt : Nat
  csum : Bool
  level : Nat
  wlog2 : Nat
  blk : Nat
  dict : Option Nat

/-- The parameters of a job. -/
def State.jobPar (s : State) (j : Job) : JobPar :=
  let own : JobPar := { dir := parBits j.req 0x10 0 1, fmt := parBits j.req 0x10 1 3, csum := parBit j.req 0x10 4, level := parBits j.req 0x11 0 4,
                        wlog2 := parBits j.req 0x12 0 5, blk := par j.req 0x13 1, dict := j.dict }
  match j.session.bind (fun k => tget k s.job.sessions) with
  | some x => { dir := x.dir, fmt := x.fmt, csum := x.csum, level := x.level, wlog2 := x.wlog2, blk := x.blk, dict := x.dict }
  | none => own

/-- The content checksum of the uncompressed data (R364). -/
def contentSum (fmt : Nat) (l : List Byte) : Nat :=
  match fmt with
  | 0 => xxh64 l % 2 ^ 32
  | 2 => adler32 l
  | _ => crc32 l

/-- The dictionary of a stream: its slot's entry. -/
def State.dictOf (s : State) (p : JobPar) : Option Dict := p.dict.bind (fun k => tget k s.job.dicts)

/-- What a dictionary gives a stream: content and tables. -/
def Dict.give (d : Dict) : Option (List Byte × ZTabs) := zDict d.raw d.bytes

/-- The dictionary a Zstandard frame names (R374): any of the context's, or the one that the request names and no other. -/
def State.findDict (s : State) (tc : Nat) (p : JobPar) (id : Nat) : Option (List Byte × ZTabs) :=
  match s.dictOf p with
  | some d => if d.id = id then d.give else none
  | none => if id = 0 then some ([], {}) else (s.dictSlot tc id).bind (fun k => (tget k s.job.dicts).bind Dict.give)

/-- Decompress a source into so much room: a window of at most 64 MiB, or what a session accepts. -/
def State.decode (s : State) (tc : Nat) (p : JobPar) (session : Bool) (src : List Byte) (room : Nat) : Decoded :=
  if p.fmt = 0 then unzstd (2 ^ (if session then p.wlog2 else 26)) (s.findDict tc p) src room
  else inflateAll p.fmt ((s.dictOf p).map (·.bytes)) src room

/-- Cut into blocks of n bytes; what is left over is less than a block. -/
def cutBlocks (n : Nat) : Nat → List Byte → List (List Byte) × List Byte
  | 0, l => ([], l)
  | k + 1, l => if l.length < n ∨ n = 0 then ([], l) else let (r, t) := cutBlocks n k (l.drop n); (l.take n :: r, t)

/-- What a coder has emitted: bytes, its state, raw blocks, and after each block the source bytes coded and the output bytes. -/
structure Emit where
  bytes : List Byte := []
  c : Coder
  raw : Nat := 0
  ends : List (Nat × Nat) := []

/-- Add bytes that lie on a byte boundary. -/
def Emit.add (e : Emit) (l : List Byte) : Emit := { e with bytes := e.bytes ++ l }

/-- Add bits of a Deflate stream. -/
def Emit.addBits (e : Emit) (l : List Bool) : Emit :=
  let all := e.c.pend ++ l
  let (b, r) := packBytes all.length all
  { e with bytes := e.bytes ++ b, c := { e.c with pend := r } }

/-- Code a block (R367). `dict`: the dictionary's content, in reach where the stream uses one. -/
def Emit.block (e : Emit) (p : JobPar) (dict : List Byte) (src : List Byte) (last : Bool) (offer : List Byte) : Emit :=
  let hist := e.c.plain ++ dict.reverse
  let (e, raw) :=
    if p.fmt = 0 then
      let (b, t, raw) := zstdBlock (2 ^ p.wlog2) dict.length e.c.tabs hist src last offer
      (({ e with c := { e.c with tabs := t } } : Emit).add b, raw)
    else
      let (b, raw) := deflateBlock hist src last e.c.pend.length offer
      (e.addBits b, raw)
  let plain := src.reverse ++ e.c.plain
  { e with c := { e.c with plain := plain }, raw := e.raw + b2n raw, ends := e.ends ++ [(plain.length, e.bytes.length)] }

/-- Code blocks; the last of them ends the stream where it is to end. -/
def Emit.blocks (e : Emit) (p : JobPar) (dict : List Byte) (fin : Bool) : List (List Byte) → List (List Byte) → Emit
  | [], _ => e
  | b :: bs, offers => (e.block p dict b (fin && bs.isEmpty) (offers.headD [])).blocks p dict fin bs offers.tail

/-- The empty stored block that ends a Deflate piece or a flush (R369, R371). -/
def Emit.syncBlock (e : Emit) (last : Bool) : Emit := e.addBits (storedBits last 1 e.c.pend.length [])

/-- The header of a stream, frame or member: with the source's size where it is known. -/
def streamHead (p : JobPar) (dict : Option Dict) (size : Option Nat) : List Byte :=
  match p.fmt with
  | 0 => zstdHead p.wlog2 p.csum (dict.map (·.id)) size
  | 2 => zlibHead p.level (dict.map (·.bytes))
  | 3 => gzipHead p.level
  | _ => []

/-- What follows its last block: the byte under way, then the checksum or the trailer. -/
def Emit.close (e : Emit) (p : JobPar) : Emit :=
  let e := { e with bytes := e.bytes ++ bytesOfBits e.c.pend, c := { e.c with pend := [] } }
  let plain := e.c.plain.reverse
  match p.fmt with
  | 0 => if p.csum then e.add (natBytes 4 (xxh64 plain)) else e
  | 2 => e.add (natBytes 4 (adler32 plain)).reverse
  | 3 => e.add (natBytes 4 (crc32 plain) ++ natBytes 4 plain.length)
  | _ => e

/-- What a stream begins with: the dictionary's content and tables; Deflate takes the last 32 KiB. -/
def State.primed (s : State) (p : JobPar) : List Byte × ZTabs :=
  match (s.dictOf p).bind Dict.give with
  | some (l, t) => if p.fmt = 0 then (l, t) else (l.drop (l.length - 32768), {})
  | none => ([], {})

/-- Compress a whole source, or a piece of a split one (R367, R369). The pieces of raw Deflate and zlib make one stream: each ends with an empty stored
block, which in the last piece has BFINAL (DEDUCED, log 127), the first has the zlib header, and the trailer follows when all are copied; only the first sees
the dictionary. -/
def State.compress (s : State) (p : JobPar) (pieces piece : Nat) (src : List Byte) (offers : List (List Byte)) : Emit :=
  let joined := decide (1 < pieces ∧ (p.fmt = 1 ∨ p.fmt = 2))
  let (dict, tabs) := s.primed p
  let dict := if joined ∧ piece ≠ 0 then [] else dict
  let e : Emit := { c := { tabs := tabs } }
  let e := if joined ∧ piece ≠ 0 then e else e.add (streamHead p (s.dictOf p) (some src.length))
  let (bs, t) := cutBlocks (p.blk * 4096) src.length src
  let bs := if t ≠ [] ∨ bs = [] then bs ++ [t] else bs
  if joined then (e.blocks p dict false bs offers).syncBlock (decide (piece + 1 = pieces)) else (e.blocks p dict true bs offers).close p

/-- A session's submit, flush or close (kinds 0, 1, 2) at a compression (R371). -/
def State.compressOn (s : State) (p : JobPar) (c : Coder) (kind : Nat) (src : List Byte) (offers : List (List Byte)) : Emit :=
  let (dict, tabs) := s.primed p
  let e : Emit := { c := c }
  let e := if c.begun ∨ kind = 1 then e
    else ({ c := { c with begun := true, tabs := tabs } } : Emit).add (streamHead p (s.dictOf p) none)
  match kind with
  | 0 =>
    let (bs, t) := cutBlocks (p.blk * 4096) (c.part.length + src.length) (c.part ++ src)
    let e := e.blocks p dict false bs offers
    { e with c := { e.c with part := t } }
  | 1 =>
    if c.part = [] then e
    else
      let e := e.blocks p dict false [c.part] offers
      let e := { e with c := { e.c with part := [] } }
      if p.fmt = 0 then e else e.syncBlock false
  | _ => (e.blocks p dict true [c.part] offers).close p

/-- Output bytes laid into buffers from an offset of the stream on (R365). -/
def layInto : List (Nat × Nat) → Nat → List Byte → List (Nat × List Byte)
  | [], _, _ => []
  | (a, n) :: bs, off, l =>
    if n ≤ off then layInto bs (off - n) l
    else
      let here := l.take (n - off)
      if here = [] then [] else (a + off, here) :: layInto bs 0 (l.drop (n - off))

/-- The output space of a job. -/
def Job.room (j : Job) : Nat := (j.bufs.map (·.2)).sum

/-- A unit writes output of its job. -/
def State.writeOut (s : State) (n : Nat) (j : Job) (off : Nat) (l : List Byte) : State :=
  (layInto j.bufs off l).foldl (fun (s : State) x => s.emit (.jobOut n x.1 (parBit j.req 0x10 6) x.2)) s

/-- What a session holds after a command (R371). -/
def State.sessionAfter (s : State) (j : Job) (c : Coder) (out held : Nat) : State :=
  match j.session with
  | none => s
  | some k => match tget k s.job.sessions with
    | none => s
    | some x => s.job' (fun t => { t with sessions := tput k { x with src := x.src + j.srcLen, out := x.out + out, held := held, coder := c } t.sessions })

/-- Copy done pieces to the output in source order while the next one fits (R369), what was copied last first: the job, whether the next piece does not fit,
and what is written where; k looks. -/
def copyPieces (j : Job) : Nat → List (Nat × List Byte) → Job × Bool × List (Nat × List Byte)
  | 0, w => (j, false, w)
  | k + 1, w =>
    match tget j.copied j.done with
    | none => (j, false, w)
    | some (b, l) =>
      if j.room < j.total + b.length then (j, true, w)
      else copyPieces { j with done := tdel j.copied j.done, copied := j.copied + 1, total := j.total + b.length, src := j.src ++ l } k ((j.total, b) :: w)

/-- The unit that ran a piece is free again. -/
def State.pieceEnds (s : State) (n : Nat) : State :=
  (s.job' (fun t => { t with units := tdel n t.units })).bump .JOB_UNIT_CNT_JOBS 0xFFFFFF n

/-- DETAIL of ST_FAULTED: the SEQ of the record just made. -/
def State.lastSeq (s : State) : Nat := (s.get .FLT_SEQ_NEXT - 1) % 2 ^ 32

/-- The unit's accesses to logical memory, in order (R114, R375): each is translated in user mode under the job's context and judged by
the memory port. Answers whether all may act; a recall that the walk needs is asked for. -/
def State.jobAccesses (s : State) (n : Nat) (j : Job) : List (Nat × Bool) → State × Option Bool
  | [] => (s, some true)
  | (ta, w) :: l =>
    let x : XlAcc := { holder := 8 + j.req.engine.val, tc := j.req.tc.val, ta := ta % 2 ^ 48, write := w, master := mJob n }
    if 2 ^ 48 ≤ ta then ((s.xlFault { x with ta := ta } 0x02 0 false .std), some false)
    else match s.xlate x with
      | (s, .fault k lvl mark _) => (s.xlFault x k lvl mark .std, some false)
      | (s, .wait line all) => (s.recallTable line all, none)
      | (s, .leaf _ _ lpn _) =>
        match s.memAccess (mJob n) lpn (if w then opW else opR) (s.windowed x.tc lpn 1) .std with
        | (s, false) => (s, some false)
        | (s, true) => s.jobAccesses n j l

/-- DETAIL of ST_NO_SPACE: the chain entry that was full, 0 without a chain (R368). -/
def fullAt (j : Job) : Nat := if parBit j.req 0x10 7 then j.bufs.length - 1 else 0

/-- A job is over with its output written (R364), and counted. -/
def State.jobDone (s : State) (n id : Nat) (j : Job) (dir : Nat) (out plain : List Byte) (fmt : Nat) : State :=
  let s := s.writeOut n j 0 out
  let s := if dir = 0 ∨ j.kind = 0 then (s.count .global 0x04 j.srcLen none).count .global 0x05 out.length none else s
  s.jobEnds id j stOk out.length (contentSum fmt plain)

/-- Malformed input ends a job (R361). -/
def State.jobBad (s : State) (n id : Nat) (j : Job) (reason at' : Nat) : State :=
  let s := (s.bump .JOB_UNIT_CNT_DATA_ERR 0xFFFF n).report (msg1 bJob n 0 at' reason)
  s.jobEnds id j stFaulted at' s.lastSeq

/-- A compression ends (R364, R368): RESULT of one that found no room is the source whose blocks fitted. The content checksum of a session is that of the stream so far
(DESIGN CHOICE, log 127). -/
def State.jobCompressed (s : State) (n id : Nat) (j : Job) (p : JobPar) (c0 : Coder) (e : Emit) : State :=
  let s := s.put .JOB_UNIT_CNT_RAW_BLK (satAdd 0xFFFF (s.get .JOB_UNIT_CNT_RAW_BLK n) e.raw) n
  let s := s.sessionAfter j e.c e.bytes.length e.c.part.length
  if j.room < e.bytes.length then
    let fits := (e.ends.filter (fun x => decide (x.2 ≤ j.room))).foldl (fun a x => max a x.1) c0.plain.length
    s.jobEnds id j stNoSpace (min j.srcLen (fits - c0.plain.length - c0.part.length)) (fullAt j)
  else s.jobDone n id j 0 e.bytes (e.c.part.reverse ++ e.c.plain).reverse p.fmt

/-- A decompression ends (R361, R364, R368, R371). A session's source so far is decoded as one; that it ends in the middle is an error at its close only. -/
def State.jobDecoded (s : State) (n id : Nat) (j : Job) (p : JobPar) (src : List Byte) : State :=
  let x := j.session.bind (fun k => tget k s.job.sessions)
  let c := match x with | some x => x.coder | none => {}
  let before := c.fed.length
  let had := match x with | some x => x.out | none => 0
  let fed := c.fed ++ src
  let d := s.decode j.req.tc.val p x.isSome fed (had + j.room)
  let at' := min j.srcLen (d.used - before)
  let open' := x.isSome && d.err == 9 && j.kind != 2
  let s := s.sessionAfter j { c with fed := fed } (d.out.length - had) (fed.length - d.used)
  if j.kind = 1 then s.jobDone n id j 1 [] d.out p.fmt
  else if d.err = 0x100 then s.jobEnds id j stNoSpace at' (fullAt j)
  else if d.err = 0 ∨ open' then s.jobDone n id j 1 (d.out.drop had) d.out p.fmt
  else s.jobBad n id j d.err at'

/-- A piece of a split compression is done (R369). -/
def State.pieceDone (s : State) (n id piece : Nat) (j : Job) (p : JobPar) (src : List Byte) (e : Emit) : State :=
  let s := (s.put .JOB_UNIT_CNT_RAW_BLK (satAdd 0xFFFF (s.get .JOB_UNIT_CNT_RAW_BLK n) e.raw) n).pieceEnds n
  let (j, full, w) := copyPieces { j with done := tput piece (e.bytes, src) j.done } 8 []
  let s := w.reverse.foldl (fun (s : State) (x : Nat × List Byte) => s.writeOut n j x.1 x.2) s
  if full then s.jobEnds id j stNoSpace (j.copied * jobPiece) 0
  else
    let s := s.job' (fun t => { t with jobs := tput id j t.jobs })
    if j.copied ≠ j.pieces then s.feed 8
    else
      let tail := if p.fmt = 2 then (natBytes 4 (adler32 j.src)).reverse else []
      if j.room < j.total + tail.length then s.jobEnds id j stNoSpace ((j.pieces - 1) * jobPiece) 0
      else
        let out := j.total + tail.length
        let s := ((s.writeOut n j j.total tail).count .global 0x04 j.srcLen none).count .global 0x05 out none
        s.jobEnds id j stOk out (contentSum p.fmt j.src)

/-- The source bytes of a job, or of a piece of it. -/
def pieceLen (j : Job) (piece : Nat) : Nat := if j.pieces = 1 then j.srcLen else min jobPiece (j.srcLen - piece * jobPiece)

/-- JOB_END (R359–R361, R364, R367–R369, R371, R377). `acc`: the pages the unit reached in logical memory, with what it did. It ends only once the whole source
is read. -/
def execJobEnd (n : Fin 4) (acc : List (Nat × Bool)) (e : JobEnd) (s : State) : Res :=
  match tget n.val s.job.units with
  | none => .next s
  | some (id, piece) =>
    match tget id s.job.jobs with
    | none => .next s
    | some j =>
      let lim := j.srcLen + 1
      match s.jobAccesses n.val j acc with
      | (s, none) => .next s
      | (s, some false) => .next (((s.cutJob id stFaulted s.lastSeq).closeSession j).feed 8)
      | (s, some true) =>
        match e with
        | .coded src offers =>
          let p := s.jobPar j
          let c := match j.session.bind (fun k => tget k s.job.sessions) with | some x => x.coder | none => {}
          if src.length ≠ pieceLen j piece then .next s
          else if p.dir = 1 then .next (s.jobDecoded n.val id j p src)
          else if j.pieces ≠ 1 then .next (s.pieceDone n.val id piece j p src (s.compress p j.pieces piece src offers))
          else .next (s.jobCompressed n.val id j p c (if j.session.isSome then s.compressOn p c j.kind src offers else s.compress p 1 0 src offers))
        | .staging at' =>
          let s := s.report (msg2 bJob n.val 1)
          .next (s.jobEnds id j stFaulted (at' % lim) s.lastSeq)
        | .dirtyLine at' =>
          let s := s.report (msg2 bCoh (22 + n.val) 5)
          .next (s.jobEnds id j stFaulted (at' % lim) s.lastSeq)

/-- JOB_HANG (R377): no progress for 1 ms; the unit is reset. -/
def execJobHang (n : Fin 4) (at' : Nat) (s : State) : Res :=
  match tget n.val s.job.units with
  | none => .next s
  | some (id, _) =>
    match tget id s.job.jobs with
    | none => .next s
    | some j =>
      let s := (s.bump .JOB_UNIT_CNT_HANGS 0x7F n.val).report (msg2 bJob n.val 3)
      .next (s.jobEnds id j stFaulted (at' % (j.srcLen + 1)) s.lastSeq)

end Sys2Proof.Machine
end

