-- ==== Sys2Proof/Machine/Head.lean ====
section
/-!
DEFINITION. Heads (02_host_ports.md): links, departures and resets, bus mastering and MSI-X, IDE failures, HDM decoders and bindings,
and the CXL commands of the mailbox.
-/
namespace Sys2Proof.Machine
open Sys2Proof

/-! ### Links, departures and resets (R48, R75–R80) -/

/-- A head's link goes away; if that is a departure, what waited for the head's recalls goes on (R75, R77). -/
def State.depart (s : State) (h : Nat) : State := let (s, l) := s.departCore h; s.recallsGone h l

/-- The head exists in its port's mode, and its port is out of reset (R23, R48). -/
def State.headExists (s : State) (h : Nat) : Bool :=
  s.host.perstHigh.contains (h / 2) && (h % 2 == 0 || s.host.x8.contains (h / 2))

/-- A head can train so (R49, R50): a width its port's mode has, a rate within the ceiling, and the flit format of that rate. -/
def State.linkFits (s : State) (h rate width flit : Nat) : Bool :=
  decide (rate ≤ s.get .HPT_PORT_CFG_MAXRATE (h / 2))
    && ([1, 2, 4, 8].contains width || (width == 16 && !s.host.x8.contains (h / 2)))
    && (if rate ≤ 4 then flit == 0 else flit == 1 || flit == 2)

/-- LINK_UP (R48–R50, R75): a link in training, or already up at another rate or width, reaches L0. A departing head stays in Detect (R76), as
does one whose sweep is behind (R172), and every head during a security halt (R297). -/
def execLinkUp (h : Fin 8) (rate : Fin 7) (width : Fin 17) (flit : Fin 3) (s : State) : Res :=
  if s.isSet .HPT_HEAD_STS_DEPARTING h.val ∨ s.isSet .COH_EPOCH_SWEEP_WAIT h.val ∨ s.halt.isSome
      ∨ ¬ s.alive ∨ ¬ s.headExists h.val ∨ ¬ s.linkFits h.val rate.val width.val flit.val
      ∨ ¬ ((s.head h.val).training ∨ s.isSet .HPT_HEAD_STS_LINK_UP h.val) then .next s
  else
    let s := ((s.put .HPT_HEAD_STS_LINK_UP 1 h.val).put .HPT_HEAD_STS_RATE rate.val h.val).put .HPT_HEAD_STS_WIDTH width.val h.val
    .next ((s.put .HPT_HEAD_STS_FLIT flit.val h.val).setHead h.val { s.head h.val with reachedL0 := true, training := false, quiesced := false })

/-- LINK_DOWN (R75): other than by a request of the device. -/
def execLinkDown (h : Fin 8) (s : State) : Res := .next (s.depart h.val)

/-- HOT_RESET (R75, R77). -/
def execHotReset (h : Fin 8) (s : State) : Res := .next (s.depart h.val)

/-- LINK_ENTER_L2_L3 (R75, R491). -/
def execLinkEnterL2L3 (h : Fin 8) (s : State) : Res := .next (s.depart h.val)

/-- PERST_ASSERT (R48, R75, R80): both heads of the port. -/
def execPerstAssert (p : Fin 4) (s : State) : Res :=
  let s := { s with host := { s.host with perstHigh := lremove p.val s.host.perstHigh } }
  let s := (s.depart (2 * p.val)).depart (2 * p.val + 1)
  let quiet := fun (s : State) (h : Nat) => s.setHead h { s.head h with training := false }
  .next (quiet (quiet s (2 * p.val)) (2 * p.val + 1))

/-- PERST_DEASSERT (R48): MODE takes effect, and the heads of the port may train. -/
def execPerstDeassert (p : Fin 4) (s : State) : Res :=
  let x8 := s.isSet .HPT_PORT_CFG_MODE p.val
  let s := { s with host := { s.host with perstHigh := linsert p.val s.host.perstHigh, x8 := lset p.val x8 s.host.x8 } }
  let train := fun (s : State) (h : Nat) =>
    if s.isSet .HPT_HEAD_STS_LINK_UP h then s else s.setHead h { s.head h with training := true }
  .next (if x8 then train (train s (2 * p.val)) (2 * p.val + 1) else train s (2 * p.val))

/-- DEPARTURE_DONE (R76): the head may leave Detect. -/
def execDepartureDone (h : Fin 8) (s : State) : Res :=
  if ¬ s.isSet .HPT_HEAD_STS_DEPARTING h.val then .next s
  else
    let s := s.put .HPT_HEAD_STS_DEPARTING 0 h.val
    .next (if s.headExists h.val then s.setHead h.val { s.head h.val with training := true } else s)

/-- FLR (R77, R80): rings and jobs are aborted and function state is reset; IDE streams and decoders are kept. -/
def execFlr (h : Fin 8) (s : State) : Res := .next ((s.abortHead h.val).resetFunction h.val false)

/-- CXL_RESET (R77): what is in flight completes to the host and leaves no presence, and CXL.mem is quiesced; presence is cleared and decoders
uncommitted. CXL.mem stays quiesced until the host commits a decoder or the link comes up again (DESIGN CHOICE, log 31). -/
def execCxlReset (h : Fin 8) (s : State) : Res :=
  let s := (((s.abortHead h.val).uncommit h.val).resetFunction h.val false).mapOwed h.val (fun q => { q with untracked := true })
  let s := (s.setHead h.val { s.head h.val with quiesced := true }).dropPort h.val
  let (s, l) := s.losePresence h.val
  .next (s.recallsGone h.val l)

/-! ### Bus-master enable and MSI-X (R56, R78) -/

/-- BUS_MASTER_ENABLE_CLEARED (R78, R96, R372). -/
def execBusMasterEnableCleared (h : Fin 8) (s : State) : Res :=
  let s := (s.put .HPT_HEAD_STS_BME 0 h.val).abandonReads h.val (fun _ => true)
  let s := (s.ringsOf h.val).foldl (fun (s : State) r => s.stopRing h.val r stBusMasterOff) s
  let s := s.endJobs (fun j => byHead h.val j.req) stBusMasterOff
  .next (s.breakSessions (fun x => x.ring.1 == h.val))

/-- Send the pending messages of a list of vectors that are unmasked. -/
def State.sendPending (s : State) (h : Nat) : List Nat → State
  | [] => s
  | v :: vs =>
    let s := if (tgetD {} v (s.head h).msix).mask = false then
        (s.setHead h { s.head h with msixPend := lremove v (s.head h).msixPend }).emit (.msix h v)
      else s
    s.sendPending h vs

/-- BUS_MASTER_ENABLE_SET (R56). -/
def execBusMasterEnableSet (h : Fin 8) (s : State) : Res :=
  let s := s.put .HPT_HEAD_STS_BME 1 h.val
  .next (s.sendPending h.val (s.head h.val).msixPend)

/-- MSIX_VECTOR_UNMASK (R56): the host has programmed an entry of the MSI-X table and clears its mask. -/
def execMsixVectorUnmask (h : Fin 8) (v : Fin 72) (addr data : Nat) (s : State) : Res :=
  let hd := s.head h.val
  let s := s.setHead h.val { hd with msix := tput v.val { addr := addr, data := data, mask := false } hd.msix }
  if s.isSet .HPT_HEAD_STS_BME h.val ∧ hd.msixPend.contains v.val then .next (s.sendPending h.val [v.val]) else .next s

/-! ### IDE and unclaimed requests (R57, R67) -/

/-- IDE_CHECK_FAILURE (R67): the CXL.cachemem stream (`mem`) or the PCIe link stream goes Insecure. -/
def execIdeCheckFailure (h : Fin 8) (mem : Bool) (s : State) : Res :=
  let hd := s.head h.val
  let s := if mem then (s.put .HPT_HEAD_STS_IDE 3 h.val).setHead h.val { hd with ideKeyMem := false }
    else s.setHead h.val { hd with ideLink := 2, ideKeyLink := false }
  .next ((s.setHead h.val { s.head h.val with aer := hd.aer ||| 4 }).report (msg2 bHpt h.val 2))

/-- BAR_UNCLAIMED (R57): a read completes with UR status, a write is discarded. -/
def execBarUnclaimed (h : Fin 8) (read : Bool) (s : State) : Res := .next (if read then s.emit (.unsupported h.val) else s)

/-! ### Bindings and decoders (R60, R62, R64) -/

/-- Entries i and j of a head overlap; an empty range overlaps none (R61, R62). -/
def State.bindOverlap (s : State) (h i j : Nat) : Bool :=
  let b := fun k => s.get .HPT_BIND_BASE_BASE h k
  let n := fun k => s.get .HPT_BIND_SIZE_SIZE h k
  decide (n i ≠ 0 ∧ n j ≠ 0 ∧ b i < b j + n j ∧ b j < b i + n i)

/-- BIND_ENABLE_WRITE (R62): EN of a binding entry written. -/
def execBindEnableWrite (h : Fin 8) (i : Fin 16) (on : Bool) (s : State) : Res :=
  let bad := (List.range 16).any (fun j => j != i.val && s.isSet .HPT_BIND_CTL_EN h.val j && s.bindOverlap h.val i.val j)
    || decide (2 ^ 27 < s.get .HPT_BIND_TA_TABASE h.val i.val + s.get .HPT_BIND_SIZE_SIZE h.val i.val)
  let refused := on && bad && !s.isSet .HPT_BIND_CTL_EN h.val i.val
  .next ((s.put .HPT_BIND_CTL_EN (b2n (on && !refused)) h.val i.val).put .HPT_BIND_CTL_ERR (b2n refused) h.val i.val)

/-- A DPA range of a head overlaps an enabled HDM-DB entry. -/
def State.overDb (s : State) (h lo len : Nat) : Bool :=
  (List.range 16).any (fun i => s.isSet .HPT_BIND_CTL_EN h i && s.isSet .HPT_BIND_CTL_KIND h i &&
    decide (lo < (s.get .HPT_BIND_BASE_BASE h i + s.get .HPT_BIND_SIZE_SIZE h i) * 2 ^ 21 ∧ s.get .HPT_BIND_BASE_BASE h i * 2 ^ 21 < lo + len))

/-- HDM_DECODER_COMMIT (R28, R51, R60, R64): the decoder as the host has programmed it: host range and skipped DPA in units of 256 MiB, ways,
granularity. Refused while the head is not ready, for interleave ways the head lacks, while a decoder below it is not committed or reaches
above its base (the order CXL asks for: PRESUMED, log 103), and where its DPA range overlaps an enabled HDM-DB entry without
back-invalidate, or on a home without directory records. -/
def execHdmDecoderCommit (h : Fin 8) (d : Fin 8) (base size : Hpa) (skip : Dpa) (ways : Fin 17) (gran : Fin 7) (s : State) : Res :=
  let hd := s.head h.val
  let st := s.get .HPT_DEV_STS_STATUS h.val
  let unit := fun (x : Nat) => x / 2 ^ 28 * 2 ^ 28
  let dec : Decoder := { base := unit base.val, size := unit size.val, skip := unit skip.val, ways := ways.val, gran := gran.val }
  let ordered := (List.range d.val).all (fun k => match tget k hd.decoders with
    | some x => x.committed && decide (x.base + x.size ≤ dec.base)
    | none => false)
  let s1 := s.setHead h.val { hd with decoders := tput d.val dec hd.decoders }
  let db := s.overDb h.val (s1.dpaBase h.val d.val) (dec.size / dec.ways)
  let dir := (List.range 16).all (fun n => s.isSet .COH_DIR_CFG_EN n)
  let bad := decide (st = stPending ∨ st = stCfgInvalid ∨ st = stMediaNotReady) || !([1, 2, 3, 4, 6, 8, 12, 16].contains ways.val) || !ordered
    || (db && (!hd.biDec || !dir))
  .next (s.setHead h.val { hd with
    quiesced := hd.quiesced && bad
    decoders := tput d.val { dec with committed := !bad, errNotCommitted := bad } hd.decoders })

/-! ### CXL commands of the mailbox (R65, R68, R70, R93) -/

/-- CXL return codes (values of the CXL specification: PRESUMED, log 30). -/
abbrev cxlSuccess : Nat := 0
abbrev cxlInvalidInput : Nat := 2
abbrev cxlUnsupported : Nat := 3
abbrev cxlInvalidPhysical : Nat := 0x0F
abbrev cxlInvalidLength : Nat := 0x16

/-- The mailbox answers with a CXL return code. -/
def State.mailbox (s : State) (h code : Nat) (o : Output) : State :=
  ((s.setHead h { s.head h with mbox := some { code := code }, mboxBusy := false }).emit (.mailbox h code o)).msix h 0

/-- The mailbox of a head takes a command: the device answers, and no command is in progress (R60, R98). -/
def State.mboxOpen (s : State) (h : Nat) : Bool := s.alive && !(s.head h).mboxBusy

/-- A CXL command of the mailbox: a mailbox that takes none leaves the state. -/
def onMailbox (h : Nat) (s : State) (r : State → State) : Res := .next (if s.mboxOpen h then r s else s)

/-- MAILBOX_BAD_LENGTH (R93). -/
def execMailboxBadLength (h : Fin 8) (s : State) : Res := onMailbox h.val s (fun s => s.mailbox h.val cxlInvalidLength [])

/-- MAILBOX_UNSUPPORTED (R93). -/
def execMailboxUnsupported (h : Fin 8) (s : State) : Res := onMailbox h.val s (fun s => s.mailbox h.val cxlUnsupported [])

/-- MCTP_SHORT_MESSAGE (R97): dropped without reply. -/
def execMctpShortMessage (s : State) : Res := .next s

/-- GET_POISON_LIST (R70): overflow flag and timestamp, the count, and the DPAs, oldest first. -/
def execGetPoisonList (h : Fin 8) (s : State) : Res :=
  let hd := s.head h.val
  onMailbox h.val s (fun s => s.mailbox h.val cxlSuccess ([(0, 1, b2n hd.poisonOvf), (1, 8, hd.poisonOvfTime), (9, 2, hd.poison.length)]
    ++ (List.range hd.poison.length).map (fun i => (0x20 + 16 * i, 8, hd.poison.getD i 0))))

/-- The line a DPA of a head names, by its binding and a walk that sets no mark. -/
def State.lineOf (s : State) (h dpa : Nat) : Option Nat :=
  match s.bindOf h dpa with
  | none => none
  | some i =>
    let ta := s.bindTa h i dpa
    match s.walk { holder := h, tc := s.get .HPT_BIND_CTL_TC h i, ta := ta, master := h } false with
    | (_, .leaf _ _ lpn _, _) => if ta < 2 ^ 48 then some (64 * lpn + ta / 64 % 64) else none
    | _ => none

/-- A write of a line for a mailbox command of a head: it goes as a MemWr of a full line goes, with no host to answer (R70, R156). -/
def State.deviceWrite (s : State) (h line : Nat) (d : Line) (poison : Bool) (cause hint : Nat) : State :=
  let q : CohReq := { agent := h, line := line, kind := .readOFull, hint := hint, obj := (s.page (line / 64)).pl.obj, untracked := true
                      write := some (d, fullMask, poison), master := h, cause := cause }
  if s.admissible q then s.admitReq q else s.coh' (fun c => { c with quotaQ := c.quotaQ ++ [q] })

/-- INJECT_POISON (R70): on a Steward head; the line becomes poison as by a MemWr that carries poison. -/
def execInjectPoison (h : Fin 8) (dpa : Dpa) (hint : Nat) (s : State) : Res :=
  onMailbox h.val s (fun s =>
    if ¬ s.isSet .HPT_DEV_STS_STEWARD h.val then s.mailbox h.val cxlUnsupported []
    else match s.lineOf h.val dpa.val with
      | none => s.mailbox h.val cxlInvalidPhysical []
      | some l => ((s.deviceWrite h.val l 0 true 7 hint).listPoison h.val dpa.val).mailbox h.val cxlSuccess [])

/-- CLEAR_POISON (R70): on a Steward head; the 64 bytes of the command replace the line, and the DPA leaves the list. -/
def execClearPoison (h : Fin 8) (dpa : Dpa) (data : Line) (hint : Nat) (s : State) : Res :=
  onMailbox h.val s (fun s =>
    if ¬ s.isSet .HPT_DEV_STS_STEWARD h.val then s.mailbox h.val cxlUnsupported []
    else match s.lineOf h.val dpa.val with
      | none => s.mailbox h.val cxlInvalidPhysical []
      | some l =>
        let s := s.deviceWrite h.val l data false 0 hint
        let hd := s.head h.val
        (s.setHead h.val { hd with poison := hd.poison.filter (fun x => decide (x ≠ dpa.val / 64 * 64)) }).mailbox h.val cxlSuccess [])

/-- Bytes of one event record (R455; the common header is that of the CXL specification: PRESUMED, log 30). -/
def cxlRecOut (off : Nat) (r : CxlRec) : Output :=
  [(off + 0x11, 3, b2n r.maint * 4), (off + 0x14, 2, r.handle)]
  ++ (match r.record, r.lost with
    | some f, _ => recOut (off + 0x30) f
    | none, some m => [(off + 0x30, 8, msgWord m 0), (off + 0x38, 8, msgWord m 1)]
    | none, none => [])
  ++ [(off + 0x50, 1, r.typ), (off + 0x58, 8, r.a), (off + 0x60, 8, r.b), (off + 0x68, 8, r.c)]

/-- GET_EVENT_RECORDS (R68): overflow, its count and times, the number of records and the records, oldest first. -/
def execGetEventRecords (h : Fin 8) (log : Fin 5) (s : State) : Res :=
  let l := tgetD {} log.val (s.head h.val).logs
  onMailbox h.val s (fun s => s.mailbox h.val cxlSuccess ([(0, 1, b2n l.overflow), (2, 2, l.ovfCount), (4, 8, l.ovfFirst), (12, 8, l.ovfLast), (20, 2, l.recs.length)]
    ++ (List.range l.recs.length).flatMap (fun i => cxlRecOut (0x20 + 128 * i) (l.recs.getD i { handle := 0, kind := 0 }))))

/-- CLEAR_EVENT_RECORDS (R68): the records with these handles, or all of them; the overflow indication goes with them. -/
def execClearEventRecords (h : Fin 8) (log : Fin 5) (handles : Option (List Nat)) (s : State) : Res :=
  let hd := s.head h.val
  let l := tgetD {} log.val hd.logs
  let left := match handles with | none => [] | some hs => l.recs.filter (fun r => !hs.contains r.handle)
  let l' := { l with recs := left, overflow := false, ovfCount := 0, ovfFirst := 0, ovfLast := 0 }
  onMailbox h.val s (fun s => (s.setHead h.val { hd with logs := tput log.val l' hd.logs }).mailbox h.val cxlSuccess [])

/-- Identify Memory Device: capacity in units of 256 MiB, all of it volatile; the event logs; no label storage; the poison list, of which this head's
injections may fill what it holds; no other feature of R52 (R51, R52, R68, R70). Its layout is CXL's (PRESUMED, log 30). -/
def State.identifyOut (s : State) (h : Nat) : Output :=
  let cap := ((List.range 16).filter (fun i => s.isSet .HPT_BIND_CTL_EN h i)).foldl (fun a i => a + s.get .HPT_BIND_SIZE_SIZE h i) 0 / 128
  [(0x00, 8, s.get .GLB_FW_VER_VERSION), (0x10, 8, cap), (0x18, 8, cap), (0x20, 8, 0), (0x30, 2, 256), (0x32, 2, 256), (0x34, 2, 256),
   (0x36, 2, 256), (0x38, 4, 0), (0x3C, 3, 512), (0x3F, 2, if s.isSet .HPT_DEV_STS_STEWARD h then 512 else 0), (0x43, 2, 256)]

/-- The Dynamic Capacity regions of a head: for each region an enabled entry backs, its base and length (R51, R61, R65). -/
def State.dcRegions (s : State) (h : Nat) : List (Nat × Nat × Nat) :=
  (List.range 8).filterMap (fun g =>
    let es := (List.range 16).filter (fun i => s.isSet .HPT_BIND_CTL_EN h i && s.isSet .HPT_BIND_CTL_DC h i && s.get .HPT_BIND_CTL_DCREG h i == g)
    match es with
    | [] => none
    | e :: _ =>
      let lo := es.foldl (fun a i => min a (s.get .HPT_BIND_BASE_BASE h i)) (s.get .HPT_BIND_BASE_BASE h e)
      let hi := es.foldl (fun a i => max a (s.get .HPT_BIND_BASE_BASE h i + s.get .HPT_BIND_SIZE_SIZE h i)) 0
      some (g, lo * 2 ^ 21, (hi - lo) * 2 ^ 21))

/-- Get Dynamic Capacity Configuration: the number of regions, and of each its base, length and block size in bytes (layout of CXL: PRESUMED, log 30). -/
def State.dcConfigOut (s : State) (h : Nat) : Output :=
  let l := s.dcRegions h
  (0, 1, l.length) :: (1, 1, l.length) :: (List.range l.length).flatMap (fun k =>
    let r := l.getD k (0, 0, 0)
    [(8 + 40 * k, 8, r.2.1), (16 + 40 * k, 8, r.2.2 / 2 ^ 28), (24 + 40 * k, 8, r.2.2), (32 + 40 * k, 8, dcBlock h r.1)])

/-- Get Dynamic Capacity Extent List: the accepted extents of the head (layout of CXL: PRESUMED, log 30). -/
def State.dcExtentsOut (s : State) (h : Nat) : Output :=
  let l := (s.head h).extents
  (0, 4, l.length) :: (4, 4, l.length) :: (List.range l.length).flatMap (fun k =>
    let e := l.getD k { region := 0, base := 0, len := 0 }
    [(16 + 40 * k, 8, e.base), (24 + 40 * k, 8, e.len), (32 + 40 * k, 8, e.tag)])

/-- The mailbox opcodes below 0xC000 that a head implements (R93), by CXL's numbers (PRESUMED, log 30). -/
def cxlOpcodes : List Nat :=
  [0x0100, 0x0101, 0x0102, 0x0103, 0x0300, 0x0301, 0x0400, 0x0401, 0x4000, 0x4100, 0x4200, 0x4201, 0x4202, 0x4300, 0x4301, 0x4302,
   0x4800, 0x4801, 0x4802, 0x4803]

/-- CXL_MANDATORY_COMMAND (R52, R93): the commands CXL 3.1 makes mandatory for this device; opcodes and layouts are of the CXL specification
(PRESUMED, log 30), and a field no rule gives is 0 or a free value. An opcode from 0xC000 up that the opcode table lacks gives ST_BAD_OPCODE under
return code Success; its TAG is a free value here, since the row carries no header. Every other opcode is Unsupported. -/
def execCxlMandatoryCommand (h : Fin 8) (opcode arg : Nat) (s : State) : Res :=
  onMailbox h.val s (fun s =>
    let hd := s.head h.val
    let h := h.val
    if 0xC000 ≤ opcode then
      (if opcodes.contains (opcode - 0xC000) then s
      else (s.drawn.emit (.reply (.mailbox (Fin.ofNat 8 h)) false stBadOpcode (s.draw % 2 ^ 32) 0 0 0 [])).mailbox h cxlSuccess [])
    else match opcode with
      | 0x0102 => s.mailbox h cxlSuccess [(0, 5, hd.irqPolicy)]
      | 0x0103 => (s.setHead h { hd with irqPolicy := arg % 32 }).mailbox h cxlSuccess []
      | 0x0300 => s.mailbox h cxlSuccess [(0, 8, (hd.cxlTime + (s.now - hd.cxlTimeAt)) % 2 ^ 64)]
      | 0x0301 => (s.setHead h { hd with cxlTime := arg, cxlTimeAt := s.now }).mailbox h cxlSuccess []
      | 0x0400 => (s.mailbox h cxlSuccess [(0, 2, 1), (8, 16, s.draw), (24, 4, 4 * cxlOpcodes.length)]).drawn
      | 0x0401 => (s.mailbox h cxlSuccess ((List.range cxlOpcodes.length).flatMap (fun k =>
          [(4 * k, 2, cxlOpcodes.getD k 0), (4 * k + 2, 2, s.draw)]))).drawn
      | 0x4000 => s.mailbox h cxlSuccess (s.identifyOut h)
      | 0x4100 =>
        let cap := ((List.range 16).filter (fun i => s.isSet .HPT_BIND_CTL_EN h i)).foldl (fun a i => a + s.get .HPT_BIND_SIZE_SIZE h i) 0 / 128
        s.mailbox h cxlSuccess [(0, 8, cap), (8, 8, 0), (16, 8, 0), (24, 8, 0)]
      | 0x4200 => (s.mailbox h cxlSuccess [(0, 1, s.draw), (1, 1, if s.status h = stOk then 0 else 1), (3, 2, s.draw), (6, 4, 0)]).drawn
      | 0x4201 => s.mailbox h cxlSuccess [(0, 16, hd.alerts)]
      | 0x4202 => (s.setHead h { hd with alerts := arg }).mailbox h cxlSuccess []
      | 0x4800 => s.mailbox h cxlSuccess (s.dcConfigOut h)
      | 0x4801 => s.mailbox h cxlSuccess (s.dcExtentsOut h)
      | _ => s.mailbox h cxlUnsupported [])

end Sys2Proof.Machine
end

