-- ==== Sys2Proof/Machine/Seg.lean ====
section
/-!
DEFINITION. The remaining segment commands (04_translation.md): contexts that go, Dynamic Capacity, Table pages.
-/
namespace Sys2Proof.Machine
open Sys2Proof

/-- An enabled binding entry names a context. -/
def State.bound (s : State) (tc : Nat) : Bool :=
  (List.range 8).any (fun h => (List.range 16).any (fun i => s.isSet .HPT_BIND_CTL_EN h i && s.get .HPT_BIND_CTL_TC h i == tc))

/-- A job or a session of a context is open. -/
def State.ctxBusy (s : State) (tc : Nat) : Bool :=
  s.job.sessions.any (fun x => x.2.tc == tc) || s.job.jobs.any (fun x => x.2.req.tc.val == tc)

/-- SEG_CTX_CREATE. -/
def execSegCtxCreate (q : Req) (s : State) : Res :=
  let tc := q.tc.val
  let base := fun w => payNat q.payload (16 * w) 8
  let lim := fun w => payNat q.payload (16 * w + 8) 8
  serve { op := 0x0301, priv := 2, ctx := 1, payload := 64, fields := [fld 0x10 3, fbits 0x13 0 7] } q
    (firstBad ([(0x08, decide (q.plen = 64)), (0x0C, !s.isSet .XLT_CTX_CFG_EN tc)]
      ++ (List.range 4).flatMap (fun w =>
        [(0x40 + 16 * w, decide (base w ≤ lim w)), (0x48 + 16 * w, decide (lim w ≤ devWindow))]))) (fun s =>
      let s' := ((s.put .XLT_CTX_CFG_EN 1 tc).put .XLT_CTX_CFG_ROOTV 0 tc).put .XLT_CTX_CFG_ROOT 0 tc
      let s' := (s'.put .XLT_CTX_MASK_CLMASK (par q 0x10 2) tc).put .XLT_CTX_MASK_OBMASK (par q 0x12 1) tc
      let s' := (s'.put .XLT_CTX_MASK_DEFCL (parBits q 0x13 0 4) tc).put .XLT_CTX_MASK_DEFOB (parBits q 0x13 4 3) tc
      let s' := (List.range 4).foldl (fun (s : State) w =>
        (s.put .XLT_WIN_BASE_LPN (base w) tc w).put .XLT_WIN_LIMIT_LPN (lim w) tc w) s'
      ok (s'.regrant s)) s

/-- SEG_CTX_DESTROY (R143, R144, R253). -/
def execSegCtxDestroy (q : Req) (s : State) : Res :=
  let tc := q.tc.val
  serve { op := 0x0302, priv := 2, ctx := 1 } q none (fun s =>
    if s.bound tc ∨ s.ctxBusy tc then busy s
    else s.takeOrWait 7 q) s

/-! ### Table pages (R143, R144, R270) -/

/-- One page turns from Zero to Table: committed capacity, a node, an image with its local twin, and fresh counters. -/
def State.tablePage (s : State) (lpn : Nat) : Option State :=
  let a := s.acct lpn
  let ks := s.slotFor lpn
  if s.commit a ≤ s.pop a ∨ ¬ s.within a (s.used a + 35) ∨ ¬ s.backed a 35 then none
  else
    let (s, node) := s.needNode lpn
    if ¬ node then none
    else
      let pl : Place := { tier := 5, code := 1, ks := ks, ver := (s.page lpn).pl.ver, obj := (s.page lpn).pl.obj }
      match s.drawn.giveImage lpn pl [] 0 1 (s.page lpn).want s.draw [] with
      | none => none
      | some s =>
        if (s.page lpn).pl.twk = 1 then some ((s.putCtrs lpn ks (s.get .SEC_KS_FLOOR_VALUE ks + 1) 8).joinSlot ks) else none

/-- Every page of a list, or none. -/
def State.tablePages (s : State) : List Nat → Option State
  | [] => some s
  | l :: ls => (s.tablePage l).bind (fun s => s.tablePages ls)

/-- SEG_ALLOC (R143, R144, R255, R270). -/
def execSegAlloc (q : Req) (s : State) : Res :=
  let l := pagesOf q
  serve { op := 0x0306, priv := 1, ctx := 1, fields := rangeFields } q (firstBad (s.rangeChecks q)) (fun s =>
    match l.findIdx? (fun p => s.tier p != 0) with
    | some i => refuse s stStale i
    | none =>
      if l.any (fun p => !s.slotActive (s.slotFor p)) then refuse s stMediaNotReady 0xFFFFFFFF
      else match s.tablePages l with
        | some s' => ok s'
        | none => refuse s stNoSpace 0) s (s.lpnDeny q (firstLpn q) (pageCount q))

/-! ### Dynamic Capacity (R65, R143) -/

/-- The enabled binding entry that backs a region of a head. -/
def State.regionOf (s : State) (h r : Nat) : Option Nat :=
  (List.range 16).find? (fun i => s.isSet .HPT_BIND_CTL_EN h i && s.isSet .HPT_BIND_CTL_DC h i && s.get .HPT_BIND_CTL_DCREG h i == r)

/-- The extent a request names, by DPA. -/
def State.dcExtent (s : State) (q : Req) : Option Extent :=
  let h := par q 0x10 1
  let r := par q 0x11 1
  let off := par q 0x18 8
  let len := par q 0x20 8
  (s.regionOf h r).bind (fun i =>
    if off + len ≤ s.get .HPT_BIND_SIZE_SIZE h i * 2 ^ 21 then
      some { region := r, base := s.get .HPT_BIND_BASE_BASE h i * 2 ^ 21 + off, len := len }
    else none)

/-- Two ranges of a region overlap. -/
def overlaps (a b : Extent) : Bool := a.region == b.region && decide (a.base < b.base + b.len ∧ b.base < a.base + a.len)

/-- The checks of `seg.dc_add` and `seg.dc_release` (R144), in blocks of the region (R51). -/
def State.dcBad (s : State) (q : Req) (add : Bool) : Option Nat :=
  let h := par q 0x10 1
  let e := s.dcExtent q
  firstBad [(0x10, decide (h < 8)), (0x11, (s.regionOf h (par q 0x11 1)).isSome), (0x18, decide (par q 0x18 8 % dcBlock h (par q 0x11 1) = 0)),
    (0x20, decide (par q 0x20 8 % dcBlock h (par q 0x11 1) = 0 ∧ par q 0x20 8 ≠ 0)),
    (0x18, e.isSome && (!add || !((s.head h).extents.any (fun x => match e with | some e => overlaps e x | none => false))))]

/-- Offer an extent to a host, or ask for one back: a record of its Dynamic Capacity log, and an operation. -/
def dcAsk (s : State) (q : Req) (release : Bool) : Ans :=
  let h := par q 0x10 1
  match s.dcExtent q with
  | none => refuse s stBadParam 0x18
  | some e =>
    let hd := s.head h
    let s' := s.setHead h { hd with dcPending := hd.dcPending ++ [{ ext := e, release := release, forced := false, handle := s.nextHandle }] }
    let s' := s'.logCxl h 4 { handle := 0, kind := 4, typ := b2n release, a := e.base, b := e.len, c := e.region }
    pend s' (if release then .dcRelease h else .dcAdd h)

def dcFields : List (Nat × Nat × Nat) := [fld 0x10 2, fld 0x18 8, fld 0x20 8]

/-- SEG_DC_ADD (R65, R143, R144). -/
def execSegDcAdd (q : Req) (s : State) : Res :=
  serve { op := 0x0304, priv := 2, fields := dcFields } q (s.dcBad q true) (fun s => dcAsk s q false) s

/-- SEG_DC_RELEASE (R65, R143, R144). -/
def execSegDcRelease (q : Req) (s : State) : Res :=
  serve { op := 0x0305, priv := 2, fields := dcFields } q (s.dcBad q false) (fun s => dcAsk s q true) s

/-- An extent without a range. -/
def cutExtent (x e : Extent) : List Extent :=
  if ¬ overlaps x e then [x]
  else
    (if x.base < e.base then [{ x with len := e.base - x.base }] else []) ++
      (if e.base + e.len < x.base + x.len then [{ x with base := e.base + e.len, len := x.base + x.len - (e.base + e.len) }] else [])

/-- Parts of an offered extent, as a host names them by DPA and length: within it and apart from one another. -/
def partsOk (e : Extent) : List (Nat × Nat) → Bool
  | [] => true
  | (b, n) :: l => decide (0 < n ∧ e.base ≤ b ∧ b + n ≤ e.base + e.len) && l.all (fun x => decide (b + n ≤ x.1 ∨ x.1 + x.2 ≤ b)) && partsOk e l

/-- DC_HOST_RESPONSE (R65, R143): the host answers the oldest offer, or the oldest request for release: `parts` are what it accepts or
gives back. The operation ends with the bytes accepted. -/
def execDcHostResponse (h : Fin 8) (release : Bool) (parts : List (Nat × Nat)) (s : State) : Res :=
  let hd := s.head h.val
  onMailbox h.val s (fun s =>
  match hd.dcPending.find? (fun p => p.release == release) with
  | none => s.mailbox h.val cxlInvalidInput []
  | some p =>
    if ¬ partsOk p.ext parts then s.mailbox h.val cxlInvalidInput []
    else
      let new := parts.map (fun x => Extent.mk p.ext.region x.1 x.2 p.ext.tag)
      let ext := if release then new.foldl (fun (l : List Extent) e => l.flatMap (fun x => cutExtent x e)) hd.extents else hd.extents ++ new
      let s := s.setHead h.val { hd with extents := ext, dcPending := hd.dcPending.erase p }
      let s := s.readyOp (p.handle % 64) stOk 0 (if release then 0 else new.foldl (fun n e => n + e.len) 0)
      s.mailbox h.val cxlSuccess [])

end Sys2Proof.Machine
end

