-- ==== Sys2Proof/Machine/Moves.lean ====
section
/-!
DEFINITION. Migration (R174, R175, R245–R252): a queued move is dispatched, takes its page, is granted it, and commits or is given
up; the passes that fill the queues (R236–R241).
-/
namespace Sys2Proof.Machine
open Sys2Proof

/-! ### The new image (R219–R223, R247, R282, R304) -/

/-- Release the old image of a page, and its old twin where the move made another. -/
def State.leaveOld (s : State) (p : Page) (twinToo : Bool) : State :=
  let s := if p.pl.tier = 4 then s.loanFreeRun (locPort p.pl.ma) (locOff p.pl.ma) p.pl.len else s.freeRun p.pl.ma (imageLen p.pl)
  if twinToo then (s.freeRun p.tw.tma (twinLen p)).loanFreeRun (locPort p.tw.tma) (locOff p.tw.tma) (cvnTwinLen p) else s

/-- Give back what a new image did not need of its room. -/
def State.trim (s : State) (m : MoveSt) (len : Nat) : State :=
  let s := if m.tier = 4 then s.loanFreeRun (locPort m.ma) (locOff m.ma + len) (m.room - len) else s.freeRun (m.ma + len) (m.room - len)
  if m.tkind = 2 then s.loanFreeRun (locPort m.tma) (locOff m.tma + len) (m.troom - len) else s.freeRun (m.tma + len) (m.troom - len)

/-- Step 6 of R174: in one update the entry names the new image, in its room. VER rises, LOCK clears, A and D clear (R239); the old
granules go, REF of frits and key slots follow. -/
def State.land (s : State) (lpn : Nat) (m : MoveSt) (pl : Place) (segs : List Seg) (fritVer : Nat) : State :=
  let p := s.page lpn
  let raw := isRaw pl
  let len := if raw then 16 else pl.len
  let s := (s.uncharge lpn m.held).trim m len
  let s := s.leaveOld p (decide (m.troom ≠ 0))
  let pl := { pl with ma := m.ma, ks := m.ks, ver := (p.pl.ver + 1) % 256, lock := false, a := false, d := false
                      twk := if m.troom = 0 then p.pl.twk else m.tkind }
  let tw := if m.troom = 0 then p.tw else TwinEnt.mk m.tma (if raw then 0 else len) raw
  let p' := { p with pl := pl, tw := tw, segs := segs, fritVer := fritVer
                     laid := if m.copy ∧ m.ks = p.pl.ks then p.laid else pl.ver }
  let s := if usesFrit p then s.refFrit p.pl.frit p.fritVer false else s
  let s := if usesFrit p' then s.refFrit pl.frit fritVer true else s
  let s := if m.ks ≠ p.pl.ks then
      ((s.leaveSlot lpn p.pl.ks).putCtrs lpn m.ks (s.get .SEC_KS_FLOOR_VALUE m.ks + 1) 8).joinSlot m.ks
    else s
  let s := s.setPage lpn p'
  let s := ((s.giveTags lpn 0 []).getD (s.putPage lpn { p' with tag := none })).freeTab p.tag
  let s := if m.tier = 4 then s else s.writeLines (4 * m.ma) (4 * len)
  let s := if m.troom = 0 ∨ m.tkind = 2 then s else s.writeLines (4 * m.tma) (4 * len)
  s.spoil lpn

/-- What a move has placed at a lender goes there, once it is known. -/
def State.landSent (s : State) (lpn : Nat) (m : MoveSt) : State :=
  let s := if m.tier = 4 then (s.sendPage lpn 1 (8 * lpn)).1 else s
  if m.troom ≠ 0 ∧ m.tkind = 2 then (s.sendPage lpn 2 (8 * lpn)).1 else s

/-- The lines of a sector that an encoder reads: line cache over media, with the lines the move could not read. -/
def State.moveLines (s : State) (lpn k : Nat) (lost : List (Nat × Nat)) : List (Nat × Line × Option Nat) :=
  (List.range 8).map (fun i =>
    let l := 64 * lpn + 8 * k + i
    let (d, po) := s.mergedLine l []
    (l, d, match po, lost.find? (fun x => x.1 == l) with
      | some c, _ => some c
      | none, some x => if (match s.lcOf l with | some c => c.dirty && !c.prov | none => false) then none else some x.2
      | none, none => none))

/-- The cause of a sector that holds poison. -/
def sectorCause (l : List (Nat × Line × Option Nat)) : Option Nat := l.findSome? (fun x => x.2.2)

/-- What the encoder makes of a sector for a parison (R219, R220, R329): its record, whether verify failed. -/
def State.recordOf (s : State) (pol : Nat) (frit : Option Frit) (k : Nat) (l : List (Nat × Line × Option Nat)) (body : List Byte) : Seg × Bool :=
  if (sectorCause l).isSome then (deadSeg, false)
  else
    let sec := l.flatMap (fun x => lineBytes x.2.1)
    if k ≠ 0 ∧ isPattern sec ∧ (sec.take 8).all (· == 0) then ({}, false)
    else
      let (b, bad) := encodeSector pol frit (s.isSet .CDC_CTL_VERIFY) sec body
      (segOf b, bad)

/-- Poison every line, or sector, that the move found poisoned. -/
def State.carryPoison (s : State) : List (Nat × Nat) → State
  | [] => s
  | (l, c) :: r => (s.poisonMedia l c).carryPoison r

/-- Steps 5 and 6 of a move that copies ciphertext (R247): the content stays, lines that could not be read are poison. -/
def State.landCopy (s : State) (lpn : Nat) (m : MoveSt) : State :=
  let p := s.page lpn
  let pl := { p.pl with tier := m.tier, code := m.code }
  ((s.land lpn m pl p.segs p.fritVer).carryPoison m.lost).landSent lpn m

/-- Steps 5 and 6 of a move that encodes anew (R219, R221, R223, R247, R282). -/
def State.landNew (s : State) (lpn : Nat) (m : MoveSt) : State :=
  let p := s.page lpn
  let n := s.home lpn
  let secs := (List.range 8).map (fun k => s.moveLines lpn k m.lost)
  let frit := if m.tier = 3 ∧ p.pl.tier ≠ 3 then s.get .CDC_POL_CULL_FRIT p.pl.obj else p.pl.frit
  let base := { p.pl with tier := m.tier, code := m.code, frit := frit, ns := false }
  let fr := if m.tier = 3 then s.fritFor lpn base none else none
  let s := if m.tier = 3 ∧ s.policy base = 7 then s.fritLoad n frit (fr.map (·.1)) else s
  let recs := (List.range 8).map (fun k => s.recordOf (s.policy base) (fr.map (·.2)) k (secs.getD k []) (m.bodies.getD k []))
  let bad := (recs.filter (·.2)).length
  let s := if bad = 0 then s
    else (s.put .CDC_SLICE_CNT_VERIFY_FAIL (satAdd 0xFFFF (s.get .CDC_SLICE_CNT_VERIFY_FAIL n) bad) n).report (msg1 bCdc n 1 (lpn * 4096))
  let segs := recs.map (·.1)
  let causes := secs.filterMap (fun l => (sectorCause l).bind (fun c => (l.head?).map (fun x => (x.1, c))))
  let zero := decide (m.tier = 2 ∨ m.tier = 3) && !p.pl.pin && causes == [] && segs.all (fun g => g.span == 0 || (g.mode == 2)) &&
    secs.all (fun l => l.all (fun x => decide (x.2.1 = 0)))
  let put := fun (s : State) (pl : Place) (segs : List Seg) (ver : Nat) =>
    let s := s.land lpn m pl segs ver
    if m.ks = p.pl.ks then s.raiseAll lpn m.ks else s
  let store := fun (s : State) (raw : Bool) =>
    let s := (List.range 8).foldl (fun (s : State) k => s.cleanSector lpn k) s
    let s := if raw then s.storeLines secs.flatten
      else (s.storeLines ((secs.filter (fun l => (sectorCause l).isNone)).flatten)).carryPoison causes
    s.landSent lpn m
  if zero then
    let s := (s.dropRoom m).vacate lpn 0
    (List.range 8).foldl (fun (s : State) k => s.cleanSector lpn k) s
  else if m.tier = 1 then store (put s { base with len := 0, hint := 0 } [] 0) true
  else
    let pl := withLayout base segs
    if 16 ≤ pl.len then store (put s { base with ns := true, len := 0, hint := 0 } [] 0) true
    else store (put s pl segs (if segs.any (fun g => g.mode == 7 && g.span != 0) then (fr.map (·.1)).getD 0 else 0)) false

/-- A move that only makes a twin (R250): VER stays. -/
def State.landTwin (s : State) (lpn : Nat) (m : MoveSt) : State :=
  let p := s.page lpn
  let raw := isRaw p.pl
  let s := s.uncharge lpn m.held
  let s := (s.freeRun p.tw.tma (twinLen p)).loanFreeRun (locPort p.tw.tma) (locOff p.tw.tma) (cvnTwinLen p)
  let s := s.setPage lpn { p with pl := { p.pl with twk := m.tkind, lock := false }, tw := TwinEnt.mk m.tma (if raw then 0 else m.troom) raw }
  if m.tkind = 2 then (s.sendPage lpn 2 (8 * lpn)).1 else s.writeLines (4 * m.tma) (4 * m.troom)

/-! ### The end of a move (R174, R175) -/

/-- The move of a page is no longer in progress: held requests and waiting commands go on. -/
def State.moveEnds (s : State) (lpn : Nat) : State :=
  let s := { s with pg := { s.pg with moves := tdel lpn s.pg.moves } }
  ((((s.resume lpn).settleOps).wake).returnEmpty 0).returnEmpty 1

/-- A move is given up (R175): LOCK clears, VER stays, its room goes back, its entry returns to its queue. -/
def State.abortMove (s : State) (lpn : Nat) (m : MoveSt) : State :=
  let p := s.page lpn
  let s := (s.putPage lpn { p with pl := { p.pl with lock := false } }).dropRoom m
  let s := s.count .global 0x03 1 none
  (s.enqueue (if m.req.cls = 7 then 0 else if m.req.cls = 6 ∨ m.req.cls = 8 then 1 else 2) m.req).moveEnds lpn

/-- A channel that a move reads or writes is frozen or out of service (R249). -/
def State.moveBlocked (s : State) (lpn : Nat) (m : MoveSt) : Bool :=
  let p := s.page lpn
  let chs := s.primChs p ++ (if m.tier = 4 then [] else (List.range m.room).map (fun k => s.chanOf (m.ma + k)))
    ++ (if m.tkind = 2 then [] else (List.range m.troom).map (fun k => s.chanOf (m.tma + k)))
  chs.any (fun c => s.chState c == 3 || !s.inService c)

/-! ### Dispatch (R245, R246, R248, R249) -/

/-- Pages of a home with a granule on a channel that is being evacuated, as evacuation entries. -/
def State.evacReqs (s : State) (n : Nat) : List MoveReq :=
  if ¬ s.evacuating then []
  else (s.pg.pages.filter (fun x => s.home x.1 == n && (s.primAt x.2 s.evacCh || s.twinAt x.2 s.evacCh))).map (fun x =>
    { lpn := x.1, ver := x.2.pl.ver, cls := 1, target := x.2.pl.tier })

/-- The entries of a home in the order firmware dispatches them: by class, oldest first within one. -/
def State.dispatchOrder (s : State) (n : Nat) : List MoveReq :=
  let all := s.evacReqs n ++ s.queue 2 n ++ s.queue 0 n ++ s.queue 1 n
  (List.range 10).flatMap (fun c => all.filter (fun r => r.cls == c))

/-- An entry leaves its queue. -/
def State.unqueue (s : State) (n : Nat) (r : MoveReq) : State :=
  let drop := fun (s : State) (q : Nat) =>
    if (s.queue q n).contains r then s.setQueue q n ((s.queue q n).filter (fun x => x != r)) else s
  drop (drop (drop s 0) 1) 2

/-- The first entry that may start and whose room can be allocated. A lender without room is asked for more (R244). -/
def State.pickMove (s : State) (n hint : Nat) : List MoveReq → State × Option (MoveReq × State × MoveSt)
  | [] => (s, none)
  | r :: l =>
    let poor : Bool := match bucketOf r.cls with | some k => !s.affords n k (s.moveBytes (s.plan r)) | none => false
    if ¬ s.mayMove r ∨ poor then s.pickMove n hint l
    else if ¬ s.meets r ∨ r.ver ≠ (s.page r.lpn).pl.ver then (s, some (r, s, s.plan r))
    else match s.holdRoom (s.plan r) hint with
      | some (s', m) => (s, some (r, s', m))
      | none =>
        let m := s.plan r
        let s := if (m.tier = 4 ∧ m.room ≠ 0) ∨ (m.tkind = 2 ∧ m.troom ≠ 0) then s.askRoom
          else if m.twinOnly then s.report (msg1 bSlc s.capSlice 0xE (r.lpn * 4096)) else s
        s.pickMove n hint l

/-- MOVE_DISPATCH (R245, R246, R248, R249): firmware starts the first move of a home that its class, its budget and its room allow. An
entry whose page no longer meets its condition, or has another VER, goes without effect. With fewer than 40 healthy engines moves
stop (R555). -/
def execMoveDispatch (n : Fin 16) (hint : Nat) (s : State) : Res :=
  if s.halt.isSome ∨ s.healthy < 40 then .next s
  else match s.pickMove n.val hint (s.dispatchOrder n.val) with
    | (s, none) => .next s
    | (s0, some (r, s, m)) =>
      if ¬ s0.meets r ∨ r.ver ≠ (s0.page r.lpn).pl.ver then
        .next ((s0.unqueue n.val r).bump .XLT_TIER_SLICE_STALE 0xFFFF n.val)
      else
        let s := match bucketOf r.cls with | some k => (s.unqueue n.val r).spend n.val k (s.moveBytes m) | none => s.unqueue n.val r
        .next { s with pg := { s.pg with moves := tput r.lpn m s.pg.moves } }

/-! ### Grant, commit, abort -/

/-- Every read of a move or a sweep that meets something (R193, R293–R297): the lines lost, with their cause; none when the device halted. -/
def State.moveReads (s : State) (lpn : Nat) (reads : List (Fin 64 × Fetch × Fetch)) : State × Option (List (Nat × Nat)) :=
  s.readsLost mMig (reads.map (fun (x : Fin 64 × Fetch × Fetch) => (64 * lpn + x.1.val, x.2)))

/-- No transaction of the page is open and no recall of it is outstanding (R174 steps 2 and 3). -/
def State.pageQuiet (s : State) (lpn : Nat) : Bool :=
  !s.hostHolds lpn

/-- MIGRATION_GRANT (R174 step 4, R247, R522, R524): every recall has been answered; the agent gets the page and reads it; until then the copies that a transaction of step 2 has left are recalled. `reads` are the reads that
meet something, `bodies` the streams the encoder chose. -/
def execMigrationGrant (lpn : Lpn) (bodies : List (List Byte)) (reads : List (Fin 64 × Fetch × Fetch)) (s : State) : Res :=
  match tget lpn.val s.pg.moves with
  | none => .next s
  | some m =>
    if m.step ≠ 2 ∨ s.halt.isSome then .next s
    else if ¬ s.pageQuiet lpn.val then .next (s.recallPage lpn.val)
    else if ¬ hasImage (s.tier lpn.val) then .next (s.abortMove lpn.val m)
    else match s.memAccess mMig lpn.val opR true .std with
    | (s, false) => .next (s.abortMove lpn.val m)
    | (s, true) =>
      let n := s.home lpn.val
      let s := s.say { cls := cRSP, code := 0, line := 64 * lpn.val, src := homeId n, dst := 0x12 + n, page := true, gs := 3, master := mMig }
      match (s.underFor (s.ownAttr (some mMig) lpn.val 0) 5).moveReads lpn.val reads with
      | (s, none) => .next s.uncharged
      | (s, some lost) =>
        let s := s.uncharged
        .next { s with pg := { s.pg with moves := tput lpn.val { m with step := 4, bodies := bodies, lost := lost } s.pg.moves } }

/-- MIGRATION_COMMIT (R174 steps 5 and 6, R247, R249, R522, R524): the new image is in place. A frozen or lost channel ends the move instead. -/
def execMigrationCommit (lpn : Lpn) (s : State) : Res :=
  match tget lpn.val s.pg.moves with
  | none => .next s
  | some m =>
    if m.step ≠ 4 ∨ s.halt.isSome then .next s
    else if s.moveBlocked lpn.val m ∨ ¬ hasImage (s.tier lpn.val) then .next (s.abortMove lpn.val m)
    else match s.memAccess mMig lpn.val opW true .std with
    | (s, false) => .next (s.abortMove lpn.val m)
    | (s, true) =>
      let s := s.underFor (s.ownAttr (some mMig) lpn.val 0) 5
      let s := if m.twinOnly then s.landTwin lpn.val m else if m.copy then s.landCopy lpn.val m else s.landNew lpn.val m
      .next (((s.uncharged.count .global 0x02 1 none).mdcLeave lpn.val).moveEnds lpn.val)

/-- MIGRATION_ABORT (R175, R249): a move whose recalls take too long, or whose channel is gone, is given up. -/
def execMigrationAbort (lpn : Lpn) (s : State) : Res :=
  match tget lpn.val s.pg.moves with
  | none => .next s
  | some m =>
    if (m.step = 2 ∧ ¬ s.pageQuiet lpn.val) ∨ (m.step = 4 ∧ s.moveBlocked lpn.val m) then .next (s.abortMove lpn.val m) else .next s

/-! ### Epochs and the cold pass (R236, R238, R259, R263) -/

/-- The register field a value of `tier.set_budget` goes to. -/
def tierField (k : Nat) : Reg :=
  match k with
  | 0 => .XLT_BUDGET_BUDGET | 1 => .XLT_BUDGET_RED_BUDGET | 2 => .XLT_BUDGET_EVAC | 3 => .XLT_BUDGET_AMBER_PCT
  | 4 => .XLT_BUDGET_RED_PCT | 5 => .XLT_TIER_CTL_EPOCH_MS | 6 => .XLT_TIER_CTL_COLD_EPOCHS | 7 => .XLT_TIER_CTL_INC
  | _ => .XLT_TIER_CTL_WINC

/-- Granules that FREE lacks to reach AMBER_PCT + 1 % of USABLE (R416). -/
def State.lack (s : State) : Nat := ((s.get .XLT_BUDGET_AMBER_PCT + 1) * s.get .XLT_CAP_COUNT 0 + 99) / 100 - s.get .XLT_CAP_COUNT 3

/-- The lender asks for n blocks back (R416). The RECLAIM awaits no answer of its own: RETURNs follow as blocks empty. -/
def State.askBack (s : State) (p n : Nat) : State :=
  let n := min n (s.port p).lent.length
  if n = 0 ∨ ¬ s.portUp p then s
  else (s.sendMsg p { op := 9, arg := n }).put .CVN_LEND_STS_ASKED n p

/-- EPOCH_BOUNDARY (R236, R259, R263, R416): the hot pass visits every entry whose A is set; new budgets take effect; under red pressure the
cold tests run every 64 epochs. -/
def execEpochBoundary (s : State) : Res :=
  if s.halt.isSome then .next s
  else
    let s := (s.pg.pages.filter (fun x => x.2.pl.a)).foldl (fun (s : State) x => s.hotStep x.1) s
    let s := s.pg.newTier.foldl (fun (s : State) x => s.put (tierField x.1) x.2) s
    let s : State := { s with pg := { s.pg with newTier := [], epochs := s.pg.epochs + 1 } }
    let s := if s.red then (s.askBack 0 ((s.lack + 15) / 16)).askBack 1 ((s.lack + 15) / 16) else s
    let s := (s.returnEmpty 0).returnEmpty 1
    .next (if s.red ∧ s.pg.epochs % 64 = 0 then s.lpns.foldl (fun (s : State) l => s.coldTest l) s else s)

/-- A cold pass starts and visits every entry. -/
def State.coldPass (s : State) : State :=
  let s := { s with pg := { s.pg with cold := true, coldDue := false, epochs := 0, histNew := [] } }
  s.lpns.foldl (fun (s : State) l => s.coldStep l) s

/-- COLD_PASS_START (R238): a cold period has ended; while the last pass still runs, the next one is late. -/
def execColdPassStart (s : State) : Res :=
  if s.halt.isSome ∨ s.pg.epochs < s.get .XLT_TIER_CTL_COLD_EPOCHS ∨ s.pg.coldDue then .next s
  else if s.pg.cold then
    let s := { s with pg := { s.pg with coldDue := true } }
    .next ((s.bump .XLT_TIER_CTL_COLD_LATE 0xFFFF).report (msg1 bSlc s.capSlice 0xE))
  else .next s.coldPass

/-- COLD_PASS_DONE (R238, R253): the histogram and the counts are the pass's; a late pass starts. Firmware has the nodes released whose
pages are all Zero (R130; when it does is DESIGN CHOICE, log 113). -/
def execColdPassDone (s : State) : Res :=
  if ¬ s.pg.cold then .next s
  else
    let s := { s with pg := { s.pg with cold := false, hist := s.pg.histNew } }.recountAll
    let s := ((s.pg.nodes.map (·.1)).filter (fun k => decide (k / 2 ^ 24 = 3))).foldl (fun (s : State) k => s.releaseNode k) s
    .next (if s.pg.coldDue then s.coldPass else s)

end Sys2Proof.Machine
end

