-- ==== Sys2Proof/Machine/Tier.lean ====
section
/-!
DEFINITION. The `tier` commands (R240, R241, R250, R263–R265).
-/
namespace Sys2Proof.Machine
open Sys2Proof

/-- TIER_QUERY (R263). -/
def execTierQuery (q : Req) (s : State) : Res :=
  let lpn := firstLpn q
  serve { op := 0x0500, priv := 1, mctp := true, ctx := 2, fields := [fbits 0x10 0 33] } q
    (firstBad [(0x0C, q.ctxv || decide (s.priv q.origin ≠ 1)), (0x10, decide (lpn < devWindow))]) (fun s =>
      let p := s.page lpn
      let e := p.pl
      let len := if (e.tier = 2 ∨ e.tier = 3 ∨ e.tier = 4) ∧ ¬ e.ns then e.len else 0
      ok s (e.tier + b2n e.pin * 2 ^ 3 + e.heat * 2 ^ 4 + e.obj * 2 ^ 8 + b2n e.sh * 2 ^ 11 + e.twk * 2 ^ 12 + len * 2 ^ 14
        + b2n e.ns * 2 ^ 18 + e.code * 2 ^ 19 + b2n e.lock * 2 ^ 20 + e.ver * 2 ^ 21 + s.twinNeed p * 2 ^ 29)) s
    (if q.ctxv then s.lpnDeny q lpn 1 else none)

/-- The bounds pass of a profile (R241): every page of it that lies outside its bounds is queued, and a twin beyond need goes (R250). -/
def State.boundsPass (s : State) (ob : Nat) : State :=
  (s.pg.pages.filter (fun x => x.2.pl.obj == ob)).foldl (fun (s : State) x =>
    let s := s.boundsTest x.1
    let p := s.page x.1
    if 1 ≤ p.pl.tier ∧ p.pl.tier ≤ 4 ∧ s.twinNeed p < p.pl.twk then (s.dropAnyTwin x.1).twinLostAll x.1 else s) s

/-- TIER_SET_OBJECTIVE (R240, R241, R263, R264). -/
def execTierSetObjective (q : Req) (s : State) : Res :=
  let ob := par q 0x10 1
  let floor := par q 0x11 1
  let ceil := par q 0x12 1
  let promo := par q 0x13 1
  let age := par q 0x14 1
  let lend := parBits q 0x15 0 1
  let twin := parBits q 0x15 1 2
  serve { op := 0x0501, priv := 2, fields := [fld 0x10 5, fbits 0x15 0 4] } q
    (firstBad [(0x10, decide (ob < 8)), (0x11, decide (1 ≤ floor ∧ floor ≤ 3)), (0x12, decide (1 ≤ ceil ∧ ceil ≤ 3 ∧ ceil ≤ floor)),
      (0x13, decide (1 ≤ promo ∧ promo ≤ 15 ∧ (age = 0 ∨ 4 < age ∨ 2 ^ (4 - age) ≤ promo))), (0x14, decide (1 ≤ age ∧ age ≤ 4)),
      (0x15, decide (twin ≠ 3 ∧ (lend = 0 ∨ (floor ≠ 1 ∧ twin ≠ 2))))]) (fun s =>
      let s := ((s.put .XLT_OBJ_FLOOR floor ob).put .XLT_OBJ_CEIL ceil ob).put .XLT_OBJ_PROMO promo ob
      let s := ((s.put .XLT_OBJ_AGE age ob).put .XLT_OBJ_LEND lend ob).put .XLT_OBJ_TWIN twin ob
      ok ((s.put .XLT_OBJ_CODE (parBits q 0x15 3 1) ob).boundsPass ob)) s

/-- The tier a pin asks of a page: its own, the floor tier for a lent page, or the one named (R265). -/
def State.pinTarget (s : State) (lpn t : Nat) : Nat :=
  if t ≠ 0 then t else if s.tier lpn = 4 then s.floorOf (s.page lpn).pl else s.tier lpn

/-- Pin one page; a move is queued where its tier differs. -/
def State.pinPage (s : State) (lpn t : Nat) : State :=
  let p := s.page lpn
  let want := s.pinTarget lpn t
  let s := s.putPage lpn { p with pl := { p.pl with pin := true } }
  if p.pl.tier = want then s
  else
    let n := s.home lpn
    let s := s.setQueue 2 n ((s.queue 2 n).filter (fun r => !(r.lpn == lpn && r.cls == 4)))
    let s := { s with pg := { s.pg with opPages := s.pg.opPages ++ [OpPage.mk s.nextHandle lpn false want] } }
    s.enqueue 2 { lpn := lpn, ver := p.pl.ver, cls := 4, target := want }

/-- TIER_PIN (R263–R265). -/
def execTierPin (q : Req) (s : State) : Res :=
  let t := par q 0x20 1
  let l := pagesOf q
  let ok' := decide (1 ≤ pageCount q ∧ pageCount q ≤ 512)
  serve { op := 0x0502, priv := 1, ctx := 2, fields := rangeFields ++ [fld 0x20 1] } q
    (firstBad (s.rangeChecks q ++ [(0x20, decide (t ≤ 3)),
      (0x20, !ok' || l.all (fun p => !(s.page p).pl.sh || decide (s.pinTarget p t = 1) || !(hasImage (s.tier p)) || s.tier p == 5))])) (fun s =>
      match l.findIdx? (fun p => !(decide (1 ≤ s.tier p ∧ s.tier p ≤ 4))) with
      | some i => refuse s stStale i
      | none =>
        let s' := l.foldl (fun (s : State) p => s.pinPage p t) s
        if s'.pg.opPages.any (fun o => o.handle == s.nextHandle) then pend s' .tierPin else ok s') s
    (if q.ctxv then s.lpnDeny q (firstLpn q) (pageCount q) else none)

/-- TIER_UNPIN (R263). -/
def execTierUnpin (q : Req) (s : State) : Res :=
  serve { op := 0x0503, priv := 1, ctx := 2, fields := rangeFields } q (firstBad (s.rangeChecks q)) (fun s =>
    ok ((pagesOf q).foldl (fun (s : State) l =>
      let p := s.page l
      s.putPage l { p with pl := { p.pl with pin := false } }) s).settleOps) s
    (if q.ctxv then s.lpnDeny q (firstLpn q) (pageCount q) else none)

/-- Record the twin kind requested for a page, and act on it (R250). -/
def State.askTwin (s : State) (lpn kind : Nat) : State :=
  let p := s.page lpn
  let s := s.putPage lpn { p with want := kind }
  if kind = 0 then (if p.pl.twk ≠ 0 ∧ p.pl.tier ≠ 5 then (s.dropAnyTwin lpn).twinLostAll lpn else s)
  else if hasImage p.pl.tier ∧ p.pl.twk < kind ∧ ¬ (p.pl.tier = 4 ∧ kind = 2) ∧ p.pl.tier ≠ 5 then
    let s := { s with pg := { s.pg with opPages := s.pg.opPages ++ [OpPage.mk s.nextHandle lpn true kind] } }
    s.queueRepair lpn
  else s

/-- TIER_TWIN (R250, R263, R264). -/
def execTierTwin (q : Req) (s : State) : Res :=
  let kind := par q 0x20 1
  let l := pagesOf q
  let ok' := decide (1 ≤ pageCount q ∧ pageCount q ≤ 512)
  serve { op := 0x0504, priv := 1, ctx := 2, fields := rangeFields ++ [fld 0x20 1] } q
    (firstBad (s.rangeChecks q ++ [(0x20, decide (kind ≤ 2)),
      (0x20, !ok' || kind != 0 || l.all (fun p => s.get .XLT_OBJ_TWIN (s.page p).pl.obj == 0))])) (fun s =>
      if kind = 2 ∧ ¬ (s.portUp 0 ∨ s.portUp 1) then refuse s stMediaNotReady 0xFFFFFFFF
      else
        let s' := l.foldl (fun (s : State) p => s.askTwin p kind) s
        if s'.pg.opPages.any (fun o => o.handle == s.nextHandle) then pend s' .tierTwin else ok s'.settleOps) s
    (if q.ctxv then s.lpnDeny q (firstLpn q) (pageCount q) else none)

/-- The values of `tier.set_budget`: field, offset, size, range. -/
def budgetRows : List (Nat × Nat × Nat × Nat × Nat) :=
  [(0, 0x10, 1, 1, 25), (1, 0x11, 1, 1, 40), (2, 0x12, 1, 1, 40), (3, 0x13, 1, 2, 30), (4, 0x14, 1, 1, 20), (5, 0x16, 2, 8, 1024),
   (6, 0x18, 4, 64, 65536), (7, 0x1C, 1, 1, 7), (8, 0x1D, 1, 1, 7)]

/-- The value a field will have from the next epoch on. -/
def State.nextTier (s : State) (q : Req) (k off size : Nat) : Nat :=
  let v := par q off size
  if v ≠ 0 then v else ((s.pg.newTier.find? (fun x => x.1 == k)).map (·.2)).getD (s.get (tierField k))

/-- TIER_SET_BUDGET (R263). A field of 0 keeps its value. -/
def execTierSetBudget (q : Req) (s : State) : Res :=
  serve { op := 0x0505, priv := 2, fields := [fld 0x10 5, fld 0x16 2, fld 0x18 4, fld 0x1C 2] } q
    (firstBad (budgetRows.map (fun r => (r.2.1, decide (par q r.2.1 r.2.2.1 = 0 ∨ (r.2.2.2.1 ≤ par q r.2.1 r.2.2.1 ∧ par q r.2.1 r.2.2.1 ≤ r.2.2.2.2))))
      ++ [(0x14, decide (s.nextTier q 4 0x14 1 < s.nextTier q 3 0x13 1))])) (fun s =>
      let new := (budgetRows.filter (fun r => par q r.2.1 r.2.2.1 != 0)).map (fun r => (r.1, par q r.2.1 r.2.2.1))
      let old := s.pg.newTier.filter (fun x => !new.any (fun y => y.1 == x.1))
      ok { s with pg := { s.pg with newTier := old ++ new } }) s

/-- TIER_CAPACITY (R254, R262, R263). -/
def execTierCapacity (q : Req) (s : State) : Res :=
  let a := par q 0x10 2
  serve { op := 0x0506, priv := 0, output := true, fields := [fld 0x10 2] } q (firstBad [(0x10, decide (a ≤ 257 ∨ a = 0xFFFF))]) (fun s =>
    let ready := (List.range 16).foldl (fun n c => n + b2n (s.evacReady c) * 2 ^ c) 0
    let dev : Output := (List.range 6).map (fun k => (8 * k, 8, s.get .XLT_CAP_COUNT k))
      ++ [(0x30, 1, s.get .XLT_PRESS_STS_LEVEL + 4 * s.get .XLT_PRESS_STS_SHORTFALL), (0x32, 2, ready)]
    let acct : Output := if a = 0xFFFF then []
      else [(0x40, 8, s.commit a), (0x48, 8, s.thin a), (0x50, 8, s.pop a), (0x58, 8, s.used a), (0x60, 8, s.res a), (0x68, 1, s.get .XLT_ACCT_TWL a)]
    okOut s 0 256 (dev ++ acct ++ (List.range 16).map (fun h => (0x80 + 8 * h, 8, tgetD 0 h s.pg.hist)))) s

/-- Pages in the union of a context's windows (R264). -/
def State.windowPages (s : State) (tc : Nat) : Nat :=
  let ws := (List.range 4).map (fun w => (s.get .XLT_WIN_BASE_LPN tc w, s.get .XLT_WIN_LIMIT_LPN tc w))
  let pts := ws.foldl (fun (l : List Nat) w => linsert w.1 (linsert w.2 l)) []
  (pts.zip (pts.drop 1)).foldl (fun n x => if ws.any (fun w => decide (w.1 ≤ x.1 ∧ x.1 < w.2)) then n + (x.2 - x.1) else n) 0

/-- TIER_THIN_CONSENT (R263, R264). -/
def execTierThinConsent (q : Req) (s : State) : Res :=
  let a := q.tc.val
  let commit := par q 0x10 8
  let thin := par q 0x18 8
  let twl := parBits q 0x20 0 1
  serve { op := 0x0507, priv := 2, ctx := 1, fields := [fld 0x10 8, fld 0x18 8, fbits 0x20 0 1] } q
    (firstBad [(0x10, decide (commit ≤ s.windowPages a)), (0x18, decide (commit + thin ≤ s.windowPages a))]) (fun s =>
      let s' := ((s.put .XLT_ACCT_VALUE commit a 0).put .XLT_ACCT_VALUE thin a 1).put .XLT_ACCT_TWL twl a
      let rise := s'.res a - s.res a
      if s.get .XLT_CAP_COUNT 3 < rise then refuse s stNoSpace (min 0xFFFFFFFF (rise - s.get .XLT_CAP_COUNT 3))
      else ok (s'.put .XLT_CAP_COUNT (s.get .XLT_CAP_COUNT 2 + s'.res a - s.res a) 2).repress) s

end Sys2Proof.Machine
end

