-- ==== Sys2Proof/Machine/Keys.lean ====
section
/-!
DEFINITION. Key slots, re-key sweeps and the `sec` and `key` commands (R267–R274, R295–R311).
-/
namespace Sys2Proof.Machine
open Sys2Proof

/-! ### Slots (R267–R273) -/

/-- A slot becomes EMPTY, its material gone; speculative data read under it goes (R185). -/
def State.zeroise (s : State) (ks : Nat) : State :=
  let s : State := { s with sec := { s.sec with keysA := tdel ks s.sec.keysA, keysB := tdel ks s.sec.keysB } }
  (s.put .SEC_KS_STS_STATE 0 ks).spoilIf (fun p => p.ks == ks)

/-- K1, K2 and KT from 96 bytes. -/
def keyMatOf (bs : List Byte) : KeyMat := { k1 := bs.take 32, k2 := (bs.drop 32).take 32, kt := (bs.drop 64).take 32 }

/-- The DRBG makes n bytes and goes on to another state (R273); both are free values. -/
def State.drbgBytes (s : State) (n : Nat) : State × List Byte :=
  let bs := natBytes n s.draw
  let s := s.drawn
  ({ s.drawn with sec := { s.sec with drbg := some s.draw } }, bs)

/-- A slot takes a new key in both copies (R269): GEN rises, FLOOR and HIGH are 0 (R283). -/
def State.loadKey (s : State) (ks origin : Nat) (m : KeyMat) : State :=
  let s : State := { s with sec := { s.sec with keysA := tput ks m s.sec.keysA, keysB := tput ks m s.sec.keysB } }
  let s := ((s.put .SEC_KS_STS_STATE 1 ks).put .SEC_KS_STS_ORIGIN origin ks).put .SEC_KS_STS_GEN ((s.get .SEC_KS_STS_GEN ks + 1) % 65536) ks
  (((s.put .SEC_KS_FLOOR_VALUE 0 ks).put .SEC_KS_HIGH_VALUE 0 ks).put .SEC_KS_STS_WORN 0 ks).spoilIf (fun p => p.ks == ks)

/-- KTREE and KS0 are generated afresh (R268, R292). -/
def State.freshKeys (s : State) : State :=
  let (s, t) := s.drbgBytes 32
  let (s, k) := s.drbgBytes 96
  ({ s with sec := { s.sec with treeKey := some t } } : State).loadKey 0 0 (keyMatOf k)

/-- A sweep that runs or is paused. -/
def State.sweeping (s : State) (k : Nat) : Bool := s.get .SEC_SWEEP_CTL_STATE k != 0

/-- A running sweep names a slot. -/
def State.swept (s : State) (ks : Nat) : Bool :=
  (List.range 4).any (fun k => s.sweeping k && (s.get .SEC_SWEEP_CTL_OLD k == ks || s.get .SEC_SWEEP_CTL_NEW k == ks))

/-- SWEEP of every slot. -/
def State.markSweeps (s : State) : State := (List.range 32).foldl (fun (t : State) ks => t.put .SEC_KS_STS_SWEEP (b2n (s.swept ks)) ks) s

/-- Bind a context to a slot where the request asks for it. -/
def State.bindKs (s : State) (q : Req) (bind : Bool) (ks : Nat) : State :=
  if bind ∧ q.ctxv then s.put .SEC_CTX_KS_KS ks q.tc.val else s

def keyFields : List (Nat × Nat × Nat) := [fld 0x10 1, fbits 0x11 0 1]

/-- A slot number that a command may load or clear (R268, R311). -/
def slotOk (ks : Nat) : Bool := decide (1 ≤ ks ∧ ks ≤ 31)

/-- The SEQ of the record of the entropy failure. -/
def State.entropySeq (s : State) : Nat :=
  ((newest (fun r => decide (srcId r.msg = bSec * 1024 + 17 * 16 + 7)) s.flt.recs).map (fun p => p.2.seq)).getD 0

/-- KEY_GENERATE (R268, R273, R306, R310, R311). -/
def execKeyGenerate (q : Req) (s : State) : Res :=
  let ks := par q 0x10 1
  serve { op := 0x0701, priv := 2, ctx := 2, fields := keyFields } q (firstBad [(0x10, slotOk ks)]) (fun s => s.keyPort q opW (fun s =>
    if 0 < s.get .SEC_KS_STS_REF ks ∨ s.swept ks then busy s
    else if s.isSet .SEC_STS_ENTROPY_FAIL then refuse s stFaulted (s.entropySeq % 2 ^ 32)
    else
      let (s, bs) := s.drbgBytes 96
      let s := (s.loadKey ks 0 (keyMatOf bs)).bindKs q (parBit q 0x11 0) ks
      ok s (s.get .SEC_KS_STS_GEN ks))) s

/-- The Export Master Secret of a secured session (R274). -/
def State.secretOf (s : State) (h session : Nat) : List Byte :=
  match s.sec.secrets.find? (fun x => x.1 == h && x.2.1 == session) with | some x => x.2.2 | none => []

/-- The bytes that an import unwraps to under the key of a head's session (R274). -/
def State.importKeys (s : State) (h session : Nat) (p : List Byte) : Option (List Byte) := keyUnwrap (wrapKey (s.secretOf h session)) p

/-- The unwrapped keys of an import: 96 bytes with K1 ≠ K2 (R274). -/
def State.importOk (s : State) (h session : Nat) (p : List Byte) : Bool :=
  match s.importKeys h session p with
  | some k => k.length == 96 && k.take 32 != (k.drop 32).take 32
  | none => false

/-- KEY_IMPORT (R274, R310, R311). -/
def execKeyImport (q : Req) (s : State) : Res :=
  let ks := par q 0x10 1
  let sid := par q 0x14 4
  let mine := match headOf q.origin with | some h => s.sec.sessions.contains (h, sid) | none => false
  serve { op := 0x0702, priv := 2, ctx := 2, payload := 104, fields := keyFields ++ [fld 0x14 4] } q
    (firstBad [(0x08, decide (q.plen = 104)), (0x10, slotOk ks), (0x14, mine), (0x40, s.importOk ((headOf q.origin).getD 0) sid q.payload)]) (fun s => s.keyPort q opW (fun s =>
      if 0 < s.get .SEC_KS_STS_REF ks ∨ s.swept ks then busy s
      else
        let s := (s.loadKey ks 1 (keyMatOf ((s.importKeys ((headOf q.origin).getD 0) sid q.payload).getD []))).bindKs q (parBit q 0x11 0) ks
        ok s (s.get .SEC_KS_STS_GEN ks))) s

/-- The sweep of a zeroised slot (R310): every page that still names it becomes Poisoned. -/
def State.zeroSweep (s : State) (ks : Nat) : State :=
  let mine := (s.pg.pages.filter (fun x => hasImage x.2.pl.tier && x.2.pl.ks == ks)).map (·.1)
  (mine.foldl (fun (s : State) l =>
    let s := (s.poisonWhole l).twinLostAll l
    match tget l s.pg.moves with
    | some m => s.abortMove l m
    | none => s) s).settleUnver.settleOps

/-- KEY_ZEROISE (R272, R306, R310, R311): with FORCE the slot is EMPTY at once, and the sweep of its pages is done by its OPERATION_END
(log 42). -/
def execKeyZeroise (q : Req) (s : State) : Res :=
  let ks := par q 0x10 1
  let force := parBit q 0x11 0
  serve { op := 0x0704, priv := 2, fields := keyFields } q (firstBad [(0x10, slotOk ks)]) (fun s => s.keyPort q opW (fun s =>
    if (0 < s.get .SEC_KS_STS_REF ks ∧ ¬ force) ∨ s.swept ks ∨ s.get .SEC_CTL_EXHAUST_KS = ks then busy s
    else if s.get .SEC_KS_STS_REF ks = 0 then ok (s.zeroise ks)
    else pend (s.zeroise ks) (.zeroise ks 0))) s

/-! ### Re-key sweeps (R303–R307) -/

/-- KEY_ROTATE (R303, R310, R311). -/
def execKeyRotate (q : Req) (s : State) : Res :=
  let old := par q 0x10 1
  let new := par q 0x11 1
  let bind := parBits q 0x12 0 1
  let first := par q 0x18 8
  let count := par q 0x20 8
  serve { op := 0x0703, priv := 2, ctx := 2, fields := [fld 0x10 2, fbits 0x12 0 2, fbits 0x18 0 33, fld 0x20 8] } q
    (firstBad [(0x0C, bind == 0 || q.ctxv), (0x10, slotOk old && s.slotActive old), (0x11, slotOk new && s.slotActive new && new != old),
      (0x18, decide (first < devWindow)), (0x20, decide (1 ≤ count ∧ count ≤ 2 ^ 33 ∧ first + count ≤ devWindow))]) (fun s => s.keyPort q opW (fun s =>
      let hit := (List.range 4).any (fun k => s.sweeping k && decide (first < s.get .SEC_SWEEP_LIMIT_LPN k ∧ s.get .SEC_SWEEP_FIRST_LPN k < first + count))
      match (List.range 4).find? (fun k => !s.sweeping k) with
      | none => busy s
      | some k =>
        if hit then busy s
        else
          let s := ((s.put .SEC_SWEEP_CTL_OLD old k).put .SEC_SWEEP_CTL_NEW new k).put .SEC_SWEEP_CTL_STATE 1 k
          let s := ((s.put .SEC_SWEEP_CTL_BIND bind k).put .SEC_SWEEP_CTL_ZOLD (parBits q 0x12 1 1) k).put .SEC_SWEEP_CTL_TC q.tc.val k
          let s := ((s.put .SEC_SWEEP_CTL_NOSPACE 0 k).put .SEC_SWEEP_FIRST_LPN first k).put .SEC_SWEEP_LIMIT_LPN (first + count) k
          let s := s.put .SEC_SWEEP_WAY_LPN first k
          let s := { s with sec := { s.sec with rekeyed := tdel k s.sec.rekeyed, resumed := tdel k s.sec.resumed } }
          pend s.markSweeps (.rotate k))) s

/-- A sweep is no longer running. -/
def State.stopSweep (s : State) (k : Nat) : State := ((s.put .SEC_SWEEP_CTL_STATE 0 k).put .SEC_SWEEP_CTL_NOSPACE 0 k).markSweeps

/-- The operation of a sweep ends with a status; the end of a sweep that a warm reset resumed is notified as well (R455, R548). -/
def State.sweepEnds (s : State) (k status detail result : Nat) : State :=
  let s := match tget k s.sec.resumed with
    | some h => ({ s with sec := { s.sec with resumed := tdel k s.sec.resumed } } : State).notify 3 h (status + result % 2 ^ 48 * 2 ^ 16) none
    | none => s
  s.endKind (fun o => o == .rotate k) status detail result

/-- A sweep has reached its limit (R307). -/
def State.finishSweep (s : State) (k : Nat) : State :=
  let old := s.get .SEC_SWEEP_CTL_OLD k
  let s := s.stopSweep k
  let s := if s.isSet .SEC_SWEEP_CTL_BIND k then s.put .SEC_CTX_KS_KS (s.get .SEC_SWEEP_CTL_NEW k) (s.get .SEC_SWEEP_CTL_TC k) else s
  let free := s.get .SEC_KS_STS_REF old == 0 && s.get .SEC_CTL_EXHAUST_KS != old && !s.swept old
    && !(List.range 256).any (fun c => s.get .SEC_CTX_KS_KS c == old)
  let zold := s.isSet .SEC_SWEEP_CTL_ZOLD k
  let s := if zold ∧ free then s.zeroise old else s
  let n := tgetD 0 k s.sec.rekeyed
  s.sweepEnds k stOk (b2n (zold && !free)) n

/-- W advances to a page, and the sweep ends at its limit. -/
def State.wayTo (s : State) (k w : Nat) : State :=
  let first := s.get .SEC_SWEEP_FIRST_LPN k
  let limit := s.get .SEC_SWEEP_LIMIT_LPN k
  let w := min w limit
  let s := (s.put .SEC_SWEEP_WAY_LPN w k).progress (fun o => o == .rotate k) ((w - first) * 100 / max 1 (limit - first))
  if w = limit then s.finishSweep k else s

/-- The re-key move of a page (R304): its place, its key, its room. -/
def State.rekeyPlan (s : State) (lpn new : Nat) : MoveSt :=
  let p := s.page lpn
  let tl := if p.pl.twk = 1 then twinLen p else cvnTwinLen p
  { req := { lpn := lpn, ver := p.pl.ver, cls := 10, target := p.pl.tier }, step := 4, tier := p.pl.tier, copy := true, twinOnly := false
    ks := new, code := p.pl.code, ma := 0, room := if p.pl.tier = 4 then p.pl.len else imageLen p.pl, tma := 0, troom := tl, tkind := p.pl.twk }

/-- SWEEP_ADVANCE (R304–R307): the sweep re-keys the page at its waymark and W advances. It waits for a move, an open transaction or a
host copy of the page and for its budget (R305), and pauses under the first throttle action, for a frozen channel, or without room. With fewer than 40 healthy engines
it stops (R555). -/
def execSweepAdvance (k : Fin 4) (hint : Nat) (reads : List (Fin 64 × Fetch × Fetch)) (s : State) : Res :=
  if s.halt.isSome ∨ s.healthy < 40 ∨ ¬ s.sweeping k.val ∨ s.isSet .SEC_SWEEP_CTL_NOSPACE k.val then .next s
  else
    let w := s.get .SEC_SWEEP_WAY_LPN k.val
    let p := s.page w
    if s.get .THM_STS_STEP ≠ 0 then .next (s.put .SEC_SWEEP_CTL_STATE 2 k.val)
    else if (tget (nodeKey 3 w) s.pg.nodes).isNone then .next ((s.put .SEC_SWEEP_CTL_STATE 1 k.val).wayTo k.val ((w / 512 + 1) * 512))
    else if ¬ hasImage p.pl.tier ∨ p.pl.ks ≠ s.get .SEC_SWEEP_CTL_OLD k.val ∨ s.unverif w then
      .next ((s.put .SEC_SWEEP_CTL_STATE 1 k.val).wayTo k.val (w + 1))
    else if (s.primChs p ++ s.twinChs p).any (fun c => s.chState c == 3) then .next (s.put .SEC_SWEEP_CTL_STATE 2 k.val)
    else
      let s := (s.put .SEC_SWEEP_CTL_STATE 1 k.val).recallPage w
      if s.notMine w ∨ ¬ s.pageQuiet w then .next s
      else
        let new := s.get .SEC_SWEEP_CTL_NEW k.val
        let bytes := s.moveBytes (s.rekeyPlan w new)
        if ¬ s.affords (s.home w) 2 bytes then .next s
        else match s.holdRoom (s.rekeyPlan w new) hint with
        | none => .next ((s.put .SEC_SWEEP_CTL_STATE 2 k.val).put .SEC_SWEEP_CTL_NOSPACE 1 k.val)
        | some (s, m) =>
          match (((s.spend (s.home w) 2 bytes).takePage w).underFor (s.ownAttr (some mMig) w 0) 5).moveReads w reads with
          | (s, none) => .next s.uncharged
          | (s, some lost) =>
            let s := ((s.landCopy w { m with lost := lost }).uncharged).mdcLeave w
            let s := { s with sec := { s.sec with rekeyed := tput k.val (tgetD 0 k.val s.sec.rekeyed + 1) s.sec.rekeyed } }
            .next ((s.moveEnds w).wayTo k.val (w + 1))

/-- SWEEP_RETRY (R305): at an epoch a sweep paused for want of room tries again. -/
def execSweepRetry (k : Fin 4) (s : State) : Res :=
  if s.get .SEC_SWEEP_CTL_STATE k.val = 2 ∧ s.isSet .SEC_SWEEP_CTL_NOSPACE k.val then
    .next ((s.put .SEC_SWEEP_CTL_STATE 1 k.val).put .SEC_SWEEP_CTL_NOSPACE 0 k.val)
  else .next s

/-- ENTROPY_FAILURE (R273, R312). -/
def execEntropyFailure (s : State) : Res := .next ((s.put .SEC_STS_ENTROPY_FAIL 1).report (msg2 bSec 17 7))

/-! ### Ranges, alarms, the query (R295–R299, R310) -/

/-- SEC_SET_RANGE (R295, R310, R311). -/
def execSecSetRange (q : Req) (s : State) : Res :=
  let r := par q 0x10 1
  let en := parBits q 0x11 0 1
  let base := par q 0x18 8
  let lim := par q 0x20 8
  serve { op := 0x0705, priv := 2, fields := [fld 0x10 1, fbits 0x11 0 1, fbits 0x18 0 33, fbits 0x20 0 33] } q
    (firstBad [(0x10, decide (r < 8)), (0x20, decide (en = 0 ∨ (base < lim ∧ lim ≤ devWindow)))]) (fun s =>
      ok (((s.put .SEC_ANS_BASE_LPN base r).put .SEC_ANS_BASE_EN en r).put .SEC_ANS_LIMIT_LPN lim r)) s

/-- SEC_ALARM_ACK (R296, R299, R310, R311). -/
def execSecAlarmAck (q : Req) (s : State) : Res :=
  let seq := par q 0x10 8
  serve { op := 0x0708, priv := 2, fields := [fld 0x10 8] } q none (fun s =>
    if s.sec.alarms.contains seq then
      let l := s.sec.alarms.erase seq
      ok ({ s with sec := { s.sec with alarms := l } }.put .SEC_STS_ALARM_PEND (min 255 l.length))
    else if s.isSet .SEC_STS_HALT_REC ∧ (s.sec.haltRec.map (·.seq)) = some seq then ok (s.put .SEC_STS_HALT_REC 0)
    else refuse s stStale 0) s

/-- The eight words of the halt record, its CRC last (R298). -/
def haltWords (r : HaltRec) : List Nat :=
  let w := [0x4A17 + r.cause * 2 ^ 16 + r.level * 2 ^ 24 + r.src * 2 ^ 32 + r.master % 128 * 2 ^ 48 + r.ks * 2 ^ 56 + r.copy * 2 ^ 61,
    r.lpn + r.sector * 2 ^ 33 + r.line * 2 ^ 36, r.ctr, r.ma, r.time, r.seq, 0]
  w ++ [crc32c ((w ++ [0]).flatMap (natBytes 8) |>.take 60) * 2 ^ 32]

/-- SEC_QUERY (R298, R299, R310). Its handle of a resumed sweep stands in DETAIL (R548). -/
def execSecQuery (q : Req) (s : State) : Res :=
  serve { op := 0x0700, priv := 0, mctp := true, output := true } q none (fun s =>
    let run := (List.range 4).foldl (fun n k => n + b2n (s.sweeping k) * 2 ^ (16 + k)) 0
    let res := s.get .SEC_STS_UNVER + s.get .SEC_STS_HALT_REC * 2 ^ 7 + s.get .SEC_STS_ALARM_PEND * 2 ^ 8 + run
    let halt := match s.sec.haltRec with | some r => haltWords r | none => []
    okOut s res 576 ((List.range 32).map (fun n => (8 * n, 8, s.word .SEC_KS_STS_STATE n))
      ++ (List.range 4).flatMap (fun k => [(0x100 + 32 * k, 8, s.word .SEC_SWEEP_CTL_OLD k), (0x108 + 32 * k, 8, s.get .SEC_SWEEP_FIRST_LPN k),
          (0x110 + 32 * k, 8, s.get .SEC_SWEEP_LIMIT_LPN k), (0x118 + 32 * k, 8, s.get .SEC_SWEEP_WAY_LPN k)])
      ++ (List.range 8).flatMap (fun r => [(0x180 + 16 * r, 8, s.word .SEC_ANS_BASE_LPN r), (0x188 + 16 * r, 8, s.word .SEC_ANS_LIMIT_LPN r)])
      ++ (List.range halt.length).map (fun i => (0x200 + 8 * i, 8, halt.getD i 0)))
      (match s.sec.resumed with | (_, h) :: _ => h % 2 ^ 32 | [] => 0)) s

end Sys2Proof.Machine
end

