-- ==== Sys2Proof/Machine/Link.lean ====
section
/-!
DEFINITION. The link layer of a Caravan port (R388–R407): received bales, replay, link management, training, and the link going
down.
-/
namespace Sys2Proof.Machine
open Sys2Proof

/-! ### The link goes down (R192, R407, R417) -/

/-- Reads that wait at a port that is down (R417): of a lent page with a local twin from the twin, of another lent page while HOLD_MS runs;
a read of a Caravan twin finds none. -/
def State.holdReads (s : State) (p : Nat) : List CvnWait → State
  | [] => s
  | w :: ws =>
    let line := w.arg
    let drop := fun (s : State) => let c := s.port p; s.setPort p { c with waits := c.waits.filter (fun x => x.tid != w.tid) }
    let s := match s.trkOf line with
      | none => drop s
      | some t =>
        let pg := s.page (line / 64)
        if pg.pl.tier = 4 ∧ pg.pl.twk = 1 ∧ s.twinReadable pg then (drop s).startRead line t
        else if pg.pl.tier = 4 then s.setPort p { s.port p with held := (s.port p).held ++ [line] }
        else (((drop s).putTrk line { t with lender := none }).readEnds line (.poison 0)).settle (s.home (line / 64))
    s.holdReads p ws

/-- Every Caravan twin of the port is dropped (R192): its pages and the writers that wait on it. -/
def State.dropTwins (s : State) (p : Nat) : State :=
  (s.pg.pages.filter (fun x => x.2.pl.twk == 2 && locPort x.2.tw.tma == p)).foldl (fun (s : State) x =>
    (List.range 8).foldl (fun (s : State) k => s.twinLost (8 * x.1 + k)) (s.twinDrop x.1)) s

/-- The link of a port goes down (R407): buffers empty, keys zeroised, Caravan twins dropped, FAILED. -/
def State.goDown (s : State) (p : Nat) : State :=
  let st := s.get .CVN_LINK_STS_STATE p
  if st = 0 ∨ st = 7 then s
  else
    let reads := (s.port p).waits.filter (fun w => w.use == 0)
    let s := (s.dropLink p).report (msg2 bCvn p 4)
    let s := s.dropTwins p
    let s := s.setPort p { s.port p with waits := (s.port p).waits.filter (fun w => w.use != 2) }
    s.holdReads p reads

/-- Training fails, or the peer is not accepted (R400–R402). -/
def State.trainFail (s : State) (p : Nat) : State :=
  let st := s.get .CVN_LINK_STS_STATE p
  if 1 ≤ st ∧ st ≤ 4 then (s.dropLink p).report (msg2 bCvn p 7) else s

/-- One of the events of R395: at the REPLAY_MAX-th without ACK advancing the link goes down. -/
def State.strike (s : State) (p : Nat) : State :=
  let c := s.port p
  let s := s.setPort p { c with strikes := c.strikes + 1 }
  if s.get .CVN_PORT_CFG_REPLAY_MAX p ≤ c.strikes + 1 then s.goDown p else s

/-- A protocol error (R395). -/
def State.protoErr (s : State) (p : Nat) : State := (s.report (msg2 bCvn p 8)).strike p

/-! ### Link management (R403–R406) -/

/-- A LINKCTL bale goes out, with the body that IDENT has. -/
def State.linkCtl (s : State) (p code arg : Nat) (body : List Byte := []) : State :=
  s.sendPlain p (fun h => { h with typ := 3, lcode := code, larg := arg, vlen := body.length }) body

/-- The body of IDENT: the identifier, then the capabilities, whose layout the spec does not give (DESIGN CHOICE, log 128). -/
def identBody : List Byte := natBytes 8 Config.deviceId ++ natBytes 8 Config.linkCaps

/-- This end asks for a retrain, a width change or a spare switch; a request made while one runs waits (R406). -/
def State.linkAsk (s : State) (p code arg : Nat) : State :=
  let c := s.port p
  if c.linkOp.isNone ∧ s.portUp p then (s.setPort p { c with linkOp := some (code, arg, true) }).linkCtl p code arg
  else s.setPort p { c with linkNext := c.linkNext ++ [(code, arg, true)] }

/-- This end acknowledges the peer's request: traffic pauses. -/
def State.linkAgree (s : State) (p code arg : Nat) : State :=
  ((s.setPort p { s.port p with linkOp := some (code, arg, false) }).linkCtl p 0x18 code).put .CVN_LINK_STS_STATE 6 p

/-- The action of `cvn.link_up` that asked for an operation (R420). -/
def actionOf (code arg : Nat) : Option Nat :=
  if code = 0x10 then some 1 else if code = 0x11 then some (if arg = 8 then 2 else 3) else none

/-- FEC corrections and drops of the running millisecond; beyond the limits of R406 this end asks for a retrain. -/
def State.health (s : State) (p syms drops : Nat) : State :=
  let c := s.port p
  let w := if c.win.1 + 1000000 < s.now then (s.now, syms, drops) else (c.win.1, c.win.2.1 + syms, c.win.2.2 + drops)
  let worn := decide (4096 < w.2.1 ∨ 64 < w.2.2)
  let s := s.setPort p { c with win := if worn then (s.now, 0, 0) else w }
  let asked : Bool := match c.linkOp with | some (code, _, _) => code == 0x10 | none => false
  if worn ∧ ¬ asked ∧ s.portUp p then s.linkAsk p 0x10 0 else s

/-! ### Replay (R389–R395) -/

/-- An entry of the replay buffer whose parity fails becomes VOID (R394); `base`: the sequence number of the first entry. -/
def State.voidEntry (s : State) (p base : Nat) (bad : Option Nat) (un : List BaleTx) : List BaleTx :=
  match bad with
  | some k => if k < un.length then un.modify k (fun b => { b with void := true, raw := s.voidBale p (base + k) b }) else un
  | none => un

/-- A replay starts (R392): REPLAY with the oldest unacknowledged sequence, or the next where none is unacknowledged (log 129), then every unacknowledged bale
again, bit by bit. The entry whose parity fails goes as VOID, and its message is sent anew (R394). -/
def State.replayStart (s : State) (p : Nat) (bad : Option Nat) : State :=
  let c := s.port p
  let base := c.sent - c.unacked.length
  let lost := bad.bind (fun k => c.unacked[k]?)
  let un := s.voidEntry p base bad c.unacked
  let s := s.setPort p { c with unacked := un, replayAt := some s.now }
  let s := s.sendPlain p (fun h => { h with typ := 2, xseq := base % 4096 }) []
  let s := un.foldl (fun (s : State) b => s.emit (.bale p b.raw)) s
  let s := (s.bump .CVN_CNT_REPLAYS 0xFFFF p).count (.port p) 0x03 un.length none
  let s := match lost with
    | some b => (s.report (msg1 bCvn p 6)).sendMsg p { b.msg with rep := true }
    | none => s
  s.strike p

/-- Within the holdoff of the last replay (R392). -/
def State.heldOff (s : State) (p : Nat) : Bool :=
  match (s.port p).replayAt with
  | some t => decide (s.now < t + s.get .CVN_LINK_STS_RTT_NS p + 16)
  | none => false

/-- ACK: every bale up to it leaves the replay buffer; an ACK outside the window changes nothing (R390). -/
def State.ackUpTo (s : State) (p ack : Nat) : State :=
  let c := s.port p
  let base := (c.sent - c.unacked.length) % 4096
  let n := (ack + 1 + 4096 - base) % 4096
  if 1 ≤ n ∧ n ≤ c.unacked.length then s.setPort p { c with unacked := c.unacked.drop n, strikes := 0 } else s

/-- The credit of a bale (R397, R419): a limit never falls, so that an older one, as a replayed bale has it, changes nothing (DEDUCED, log 129). -/
def State.takeCred (s : State) (p : Nat) (h : BaleHead) : State :=
  let c := s.port p
  let old := tgetD 64 h.cvc c.limit
  let ahead := (h.cred + 65536 - old) % 65536
  let lim : Nat := if s.isSet .CVN_LINK_STS_COMPAT_ACT p then (old + h.cred) % 65536 else if ahead ≤ 32767 then h.cred else old
  s.setPort p { c with limit := tput h.cvc lim c.limit }

/-- The header of a bale that passed its checks (R390, R392, R397, R398, R419). -/
def State.rxHead (s : State) (p : Nat) (h : BaleHead) (bad : Option Nat) : State :=
  let s : State := if h.ackv then s.ackUpTo p h.ack else s
  let s := s.takeCred p h
  let s := if s.isSet .CVN_LINK_STS_COMPAT_ACT p then s else s.put .CVN_LINK_STS_XOFF_RX (b2n h.xoff) p
  let s := if h.rplq ∧ ¬ s.heldOff p then s.replayStart p bad else s
  s.pump p

/-! ### A bale arrives (R382, R387, R388) -/

/-- Traffic runs on a port: KEYING, UP or RETRAIN. -/
def State.lively (s : State) (p : Nat) : Bool := let st := s.get .CVN_LINK_STS_STATE p; st == 4 || st == 5 || st == 6

/-- A bale is dropped by the FEC or the CRC, or is not readable (R388, R391); a drop while DROPPING is no sign of the link's health (log 129). -/
def State.dropBale (s : State) (p : Nat) : State :=
  if ¬ s.lively p then s
  else
    let was := (s.port p).dropping
    let s := (s.bump .CVN_CNT_CHK_DROP 0xFFFF p).report (msg1 bCvn p 0)
    let s := s.setPort p { s.port p with dropping := true }
    if was then s else s.health p 0 1

/-- The physical lane that carries a byte of a bale (R382). -/
def State.laneOf (s : State) (p b : Nat) : Nat :=
  let good := (List.range 9).filter (fun k => !(s.port p).badLanes.contains k)
  good.getD (b % (if s.get .CVN_LINK_STS_WIDTH p = 0 then 8 else 4)) 8

/-- FEC symbols corrected in a bale, each attributed to its lane (R387). -/
def State.fecCount (s : State) (p : Nat) : List Nat → State
  | [] => s
  | b :: l =>
    let k := s.laneOf p b
    let s := s.put .CVN_LANE_CNT_CORR (satAdd 0xFFFFFFFF (s.get .CVN_LANE_CNT_CORR p k) 1) p k
    (s.count (.port p) 0x04 1 none).fecCount p l

/-- Symbols of a bale replaced by what the FEC makes of them. -/
def fixBytes (raw : List Byte) (fix : List (Nat × Byte)) : List Byte := fix.foldl (fun b x => b.modify x.1 (· ^^^ x.2)) raw

/-- FEC and CRC on the bytes of a bale that arrives: its header and payload where it passes, with the state that counts what was corrected. Bytes that are
not 256 stand for a bale that is not readable at all. -/
def State.rxBytes (s : State) (p : Nat) (raw : List Byte) : State × Option (BaleHead × List Byte) :=
  match if raw.length = 256 then fecFix raw else none with
  | none => (s.dropBale p, none)
  | some fix =>
    let s := s.fecCount p (fix.map (·.1))
    let s := if s.lively p then s.health p fix.length 0 else s
    let b := fixBytes raw fix
    let h := baleHeadOf b
    if leNat ((b.drop 0xF0).take 8) = baleCrc (crcPrefix h.typ (s.port p).rxAt) (b.take 0xF0) then (s, some (h, (b.drop 12).take 228))
    else (s.dropBale p, none)

/-! ### DATA bales (R385, R391, R393, R394, R397, R398, R402, R408) -/

/-- The key a received bale is checked under, by its phase: the receiver's key, or that of its next phase (R402). -/
def CvnPort.keyFor (c : CvnPort) (h : BaleHead) : Option LinkKey := if h.keyph = c.rxPhase then c.rxKey else c.rxNext

/-- The body of an encrypted bale whose tag is good (R385). -/
def CvnPort.openBody (c : CvnPort) (h : BaleHead) (payload : List Byte) : Option (List Byte) :=
  match c.keyFor h with
  | none => none
  | some k =>
    let ct := payload.take 216
    if gcmTag k.key (k.iv c.rxAt) (baleHeader h) ct = payload.drop 216 then some (gcmCrypt k.key (k.iv c.rxAt) ct) else none

/-- A bale has passed under a key: the first one gives the key its base, and the first of a new phase ends the old one, whose key is erased (R402). -/
def CvnPort.keyPassed (c : CvnPort) (h : BaleHead) : CvnPort :=
  let based := fun (k : LinkKey) => { k with base := some (k.base.getD c.rxAt) }
  if h.keyph = c.rxPhase then { c with rxKey := c.rxKey.map based } else { c with rxKey := c.rxNext.map based, rxNext := none, rxPhase := h.keyph }

/-- A VOID bale (R394). -/
def isVoid (h : BaleHead) (payload : List Byte) : Bool :=
  !h.enc && h.vlen == 0 && !h.som && !h.eom && payload.all (· == 0)

/-- A plaintext bale of the session before keys are installed (R402): of VC3, and its message is SPDM. -/
def CvnPort.spdmBale (c : CvnPort) (h : BaleHead) (payload : List Byte) : Bool :=
  !c.keyed && !h.enc && h.vc == 3 && (!h.som || payload.headD 0 == 7)

/-- The body of a DATA bale that passes (R388, R394, R402); none is a GCM failure. -/
def CvnPort.bodyOf (c : CvnPort) (h : BaleHead) (payload : List Byte) : Option (List Byte) :=
  if isVoid h payload then some []
  else if h.enc then (c.openBody h payload).map (·.take h.vlen)
  else if c.rxAt < c.rcvd ∨ c.spdmBale h payload then some (payload.take h.vlen)
  else none

/-- A message is given up: its buffers are freed. -/
def State.dropPart (s : State) (p vc : Nat) : State :=
  let c := s.port p
  match tget vc c.parts with
  | some r => (s.setPort p { c with parts := tdel vc c.parts }).freeBufs p vc r
  | none => s

/-- A whole message has come: it waits to be consumed. One that R409 or R410 does not allow is a protocol error, answered with STATUS 1 where it has an
answer. -/
def State.takeMsg (s : State) (p vc : Nat) (r : BaleRx) : State :=
  let c := s.port p
  if msgOk vc r.bytes then s.setPort p { c with inbox := c.inbox ++ [(vc, r)] }
  else
    let s := (s.freeBufs p vc r).protoErr p
    let m := msgOf r.bytes
    match if 16 ≤ r.bytes.length then answerOp m.op else none with
    | some op => s.sendMsg p { op := op, tid := m.tid, status := 1 }
    | none => s

/-- The body of an accepted bale joins the message of its channel (R408): SOM begins one, EOM ends it, and all bales but the last carry 216 bytes. -/
def State.takeBody (s : State) (p : Nat) (h : BaleHead) (body : List Byte) : State :=
  let c := s.port p
  let one : BaleRx := { bytes := body, own := b2n (!h.pool), pool := b2n h.pool }
  let old := tget h.vc c.parts
  if h.som = old.isSome ∨ 216 < h.vlen ∨ (¬ h.eom ∧ h.vlen ≠ 216) then ((s.dropPart p h.vc).freeBufs p h.vc one).protoErr p
  else
    let r : BaleRx := match old with | some r => { bytes := r.bytes ++ body, own := r.own + one.own, pool := r.pool + one.pool } | none => one
    if h.eom then (s.setPort p { c with parts := tdel h.vc c.parts }).takeMsg p h.vc r else s.setPort p { c with parts := tput h.vc r c.parts }

/-- Pool buffers in use. -/
def CvnPort.poolUsed (c : CvnPort) : Nat := c.parts.foldl (fun n x => n + x.2.pool) (c.inbox.foldl (fun n x => n + x.2.pool) 0)

/-- A GCM failure (R391, R395). -/
def State.authFail (s : State) (p : Nat) : State :=
  let s := (s.bump .CVN_CNT_AUTH_DROP 0xFFFF p).report (msg1 bCvn p 1)
  (s.setPort p { s.port p with dropping := true }).strike p

/-- A direction has reached 2^38 bales under one key (R407). -/
def State.keyWorn (s : State) (p : Nat) : Bool :=
  let c := s.port p
  decide (2 ^ 38 ≤ keyAge c.txKey c.sent ∨ 2 ^ 38 ≤ keyAge c.rxKey c.rcvd)

/-- A DATA bale in order: its buffers, its body, its header. A duplicate is discarded, its credit under COMPAT with it (log 129). -/
def State.acceptData (s : State) (p : Nat) (h : BaleHead) (void : Bool) (body : List Byte) (bad : Option Nat) : State :=
  let c := s.port p
  let fresh := decide (c.rxAt = c.rcvd)
  let c := if h.enc then c.keyPassed h else c
  let s := (s.setPort p { c with rxAt := c.rxAt + 1, rcvd := if fresh then c.rcvd + 1 else c.rcvd }).count (.port p) 0x02 1 none
  let s := if ¬ fresh then s
    else if void then (s.dropPart p h.vc).freeBufs p h.vc { own := b2n (!h.pool) }
    else s.takeBody p h body
  let s := if ¬ s.lively p then s else if fresh ∨ ¬ s.isSet .CVN_LINK_STS_COMPAT_ACT p then s.rxHead p h bad else s
  if s.keyWorn p then s.goDown p else s

/-- A DATA bale that passed FEC and CRC (R388, R391, R398, R402). -/
def State.rxData (s : State) (p : Nat) (h : BaleHead) (payload : List Byte) (bad : Option Nat) : State :=
  let c := s.port p
  if c.dropping then s
  else match c.bodyOf h payload with
    | none => s.authFail p
    | some body =>
      if h.pool ∧ c.rxAt = c.rcvd ∧ 1024 ≤ c.poolUsed then (s.setPort p { c with dropping := true }).health p 0 1
      else s.acceptData p h (isVoid h payload) body bad

/-- A bale arrives as the command says: `act` is what one of its TYPE does when it passes FEC and CRC. A bale of another TYPE is no matter of the
command's. -/
def State.rxBale (s : State) (p : Nat) (typ : Nat) (raw : List Byte) (act : State → BaleHead → List Byte → State) : State :=
  let st := s.get .CVN_LINK_STS_STATE p
  if s.halt.isSome ∨ st ≤ 1 ∨ st = 7 ∨ (typ ≠ 3 ∧ ¬ s.lively p) then s
  else match s.rxBytes p raw with
    | (s, none) => s
    | (s, some (h, payload)) => if h.typ = typ then act s h payload else s

/-- BALE_DATA_RX (R387, R388, R390, R391, R393, R394, R397, R402, R408): 256 bytes arrive at the next position. -/
def execBaleDataRx (p : Fin 2) (raw : List Byte) (bad : Option Nat) (s : State) : Res :=
  .next (s.rxBale p.val 1 raw (fun s h payload => s.rxData p.val h payload bad))

/-- The bales after a REPLAY are numbered from XSEQ, and DROPPING ends (R391, R393). -/
def State.rxReplay (s : State) (p : Nat) (h : BaleHead) (bad : Option Nat) : State :=
  let c := s.port p
  let back := (c.rcvd + 4096 - h.xseq) % 4096
  if 511 < back ∨ c.rcvd < back then s.protoErr p
  else (s.setPort p { c with dropping := false, rxAt := c.rcvd - back }).rxHead p h bad

/-- BALE_REPLAY_RX (R391, R393). -/
def execBaleReplayRx (p : Fin 2) (raw : List Byte) (bad : Option Nat) (s : State) : Res :=
  .next (s.rxBale p.val 2 raw (fun s h _ => s.rxReplay p.val h bad))

/-- BALE_IDLE_RX (R390). -/
def execBaleIdleRx (p : Fin 2) (raw : List Byte) (bad : Option Nat) (s : State) : Res :=
  .next (s.rxBale p.val 0 raw (fun s h _ => s.rxHead p.val h bad))

/-- REPLAY_TIMER_EXPIRE (R392): the timer runs while a bale is unacknowledged. -/
def execReplayTimerExpire (p : Fin 2) (bad : Option Nat) (s : State) : Res :=
  .next (if s.halt.isNone ∧ (s.portUp p.val ∨ s.get .CVN_LINK_STS_STATE p.val = 4) ∧ (s.port p.val).unacked ≠ [] then s.replayStart p.val bad else s)

/-- Reads outstanding at a head: at its tollgate, parked, or under way. -/
def State.headReads (s : State) (h : Nat) : List Attr :=
  ((s.coh.quotaQ.filter (fun q => q.agent == h && q.write.isNone)).map (fun q => reqAttr q 6))
    ++ ((s.coh.parked.filter (fun a => a.h == h && a.write.isNone)).map (fun _ => headAttr h lpnEnd 0))
    ++ ((s.coh.reqs.filter (fun r => r.1 / 2 ^ 39 == h && r.2.req.write.isNone)).map (fun r => reqAttr r.2.req 6))

/-- Events that count FAB cycles, over a tick of 2,000 cycles (18_performance_counters.md, Events; DESIGN CHOICE, log 132). -/
def State.countCycles (s : State) : State :=
  let per := fun (s : State) (u : PmuUnit) (code n : Nat) => if n = 0 then s else s.count u code (2000 * n) none
  let s := (List.range 16).foldl (fun (s : State) n =>
    let s := per s (.slice n) 0x10 (s.coh.trk.filter (fun t => s.home (t.1 / 64) == n)).length
    per s (.slice n) 0x26 (b2n (decide (3 ≤ s.chState n ∧ s.chState n ≤ 5)))) s
  let s := (List.range 8).foldl (fun (s : State) h =>
    let s := (s.headReads h).foldl (fun (s : State) a => s.count (.head h) 0x07 2000 (some a)) s
    per s (.head h) 0x08 (b2n (s.coh.quotaQ.any (fun q => q.agent == h)))) s
  let s := (List.range 48).foldl (fun (s : State) e => per s (.cluster (e / 8)) 0x04 (b2n (s.xlt.waiting.any (fun w => w.req.engine.val == e)))) s
  let s := [0, 1].foldl (fun (s : State) p =>
    let s := per s (.port p) 0x07 (b2n ((s.port p).sendQ.any (fun b => (s.baleFree p b).isNone)))
    per s (.port p) 0x08 (s.get .CVN_LINK_STS_XOFF_RX p)) s
  per s .global 0x01 1

/-- A tick of the device: time passes (`State.tick`), what counts cycles counts them, and on each port that carries traffic an IDLE bale stands for
those that fill the time between others (R390; DESIGN CHOICE, log 129). -/
def State.tickLinks (s : State) : State :=
  let s := s.countCycles
  [0, 1].foldl (fun (s : State) p => if s.get .CVN_LINK_STS_STATE p = 4 ∨ s.portUp p then s.sendIdle p else s) s.tick

/-! ### The end of a link operation (R404, R406) -/

/-- The next waiting operation starts. -/
def State.linkGo (s : State) (p : Nat) : State :=
  let c := s.port p
  match c.linkNext with
  | [] => s
  | (code, arg, mine) :: l =>
    let s := s.setPort p { c with linkNext := l }
    if mine then s.linkAsk p code arg else s.linkAgree p code arg

/-- The operation in progress is complete: traffic resumes with a replay, and what waited comes next. -/
def State.linkDone (s : State) (p : Nat) (bad : Option Nat) : State :=
  let c := s.port p
  match c.linkOp with
  | none => s
  | some (code, arg, mine) =>
    let s := (s.setPort p { c with linkOp := none }).put .CVN_LINK_STS_STATE 5 p
    let s := if code = 0x11 then (s.put .CVN_LINK_STS_WIDTH (if arg = 8 then 0 else 1) p).put .CVN_LINK_STS_SPARE_USED 0 p
      else if code = 0x12 then s.put .CVN_LINK_STS_SPARE_USED 1 p else s
    let s := match mine, actionOf code arg with
      | true, some a => s.endKind (fun k => k == OpKind.linkUp p a) stOk 0 0
      | _, _ => s
    ((s.replayStart p bad).pump p).linkGo p

/-- RETRAIN_DONE (R404, R406): the end that asked says DONE. -/
def execRetrainDone (p : Fin 2) (badEntry : Option Nat) (s : State) : Res :=
  match (s.port p.val).linkOp with
  | some (code, _, mine) =>
    if s.get .CVN_LINK_STS_STATE p.val = 6 ∧ s.halt.isNone then
      .next ((if mine then s.linkCtl p.val 0x1A code else s).linkDone p.val badEntry)
    else .next s
  | none => .next s

/-! ### Lanes (R404, R405) -/

/-- A lane is excluded from now on. -/
def State.excludeLane (s : State) (p lane : Nat) : State :=
  let c := s.port p
  let s := (s.setPort p { c with badLanes := linsert lane c.badLanes }).put .CVN_LANE_CNT_FAILED 1 p lane
  if s.get .CVN_LINK_STS_FAILED_LANE p = 15 then s.put .CVN_LINK_STS_FAILED_LANE lane p else s

/-- A second lane is lost while the spare is in use (R405, R419): the leader narrows the link; COMPAT has no narrower one. -/
def State.narrow (s : State) (p lane : Nat) : State :=
  if s.isSet .CVN_LINK_STS_COMPAT_ACT p then s.goDown p
  else if s.isSet .CVN_LINK_STS_LEADER p then s.linkAsk p 0x11 4
  else s.linkAsk p 0x12 lane

/-- LANE_FAIL (R404, R405). The spare that carries nothing is excluded without a switch. -/
def execLaneFail (p : Fin 2) (lane : Fin 9) (s : State) : Res :=
  let c := s.port p.val
  let st := s.get .CVN_LINK_STS_STATE p.val
  if s.halt.isSome ∨ ¬ (st = 5 ∨ st = 6) ∨ c.badLanes.contains lane.val then .next s
  else
    let second := decide (c.badLanes ≠ [])
    let s := (s.excludeLane p.val lane.val).report (msg2 bCvn p.val (if second then 3 else 2) lane.val)
    if second ∧ s.get .CVN_LINK_STS_WIDTH p.val = 0 then .next (s.narrow p.val lane.val)
    else if lane.val = 8 ∧ ¬ second then .next s
    else .next (s.linkAsk p.val 0x12 lane.val)

/-- SYMBOL_LOCK_TIMEOUT (R405, R407). -/
def execSymbolLockTimeout (p : Fin 2) (s : State) : Res :=
  let st := s.get .CVN_LINK_STS_STATE p.val
  .next (if st = 5 ∨ st = 6 then s.goDown p.val else s)

/-- COMPAT_CREDIT_TIMEOUT (R419): a bale has waited 100 µs for credit. -/
def execCompatCreditTimeout (p : Fin 2) (s : State) : Res :=
  .next (if s.isSet .CVN_LINK_STS_COMPAT_ACT p.val ∧ s.portUp p.val ∧ (s.port p.val).sendQ ≠ [] then s.goDown p.val else s)

/-! ### Training (R399–R402) -/

/-- CVN_DETECT_POLL (R399, R419): a receiver is found, or a FAILED port with AUTO_UP goes back to DETECT. COMPAT takes effect here. -/
def execCvnDetectPoll (p : Fin 2) (found : Bool) (s : State) : Res :=
  let st := s.get .CVN_LINK_STS_STATE p.val
  if s.halt.isSome then .next s
  else if st = 7 ∧ s.isSet .CVN_PORT_CFG_AUTO_UP p.val then .next (s.put .CVN_LINK_STS_STATE 1 p.val)
  else if st = 1 then
    let s := s.put .CVN_LINK_STS_COMPAT_ACT (s.get .CVN_PORT_CFG_COMPAT p.val) p.val
    if ¬ found then .next s
    else
      let s := (s.setPort p.val { s.port p.val with rtts := [], badLanes := [] }).put .CVN_LINK_STS_FAILED_LANE 15 p.val
      let s := (List.range 9).foldl (fun (s : State) k => s.put .CVN_LANE_CNT_FAILED 0 p.val k) s
      .next ((s.put .CVN_LINK_STS_SPARE_USED 0 p.val).put .CVN_LINK_STS_STATE 2 p.val)
  else .next s

/-- S, credits and the pool start, and the leader, as requester, begins the session (R389, R397, R400 step 4, R402); a loss is counted from here on. -/
def State.linkStart (s : State) (p : Nat) : State :=
  let c := s.port p
  let s := s.setPort p { c with sendQ := [], unacked := [], sent := 0, rcvd := 0, rxAt := 0, dropping := false, strikes := 0
                                replayAt := none, limit := [], usedCr := [], freed := [], told := [], cvc := 0, parts := [], inbox := []
                                txKey := none, rxKey := none, rxNext := none, rxPhase := false, renewing := false, peerSync := none }
  let s := (((s.put .CVN_LINK_STS_XOFF_RX 0 p).put .CVN_BORROW_STS_LOST 0 p).put .CVN_LINK_STS_KEYPH 0 p).put .CVN_LINK_STS_STATE 4 p
  if s.isSet .CVN_LINK_STS_LEADER p then s.sendMsg p { op := 7, data := spdmGetVersion } else s

/-- Numbers by rising value. -/
def sortNat (l : List Nat) : List Nat :=
  l.foldr (fun x r => r.takeWhile (fun y => decide (y < x)) ++ x :: r.dropWhile (fun y => decide (y < x))) []

/-- The peer's identifier is known (R400 step 2, R401): the lower one leads; two equal ones fail the link. -/
def State.identify (s : State) (p ident : Nat) : State :=
  let st := s.get .CVN_LINK_STS_STATE p
  if ¬ (st = 2 ∨ st = 3) then s
  else
    let s := s.put .CVN_PEER_ID_ID ident p
    if ident = Config.deviceId then s.trainFail p
    else (s.put .CVN_LINK_STS_LEADER (b2n (decide (Config.deviceId < ident))) p).put .CVN_LINK_STS_STATE 3 p

/-- An echo has come back after `ns` (R400 step 3): at the 16th the median is RTT; of the two middle ones the model takes the lower
(log 45). -/
def State.echoBack (s : State) (p ns : Nat) : State :=
  if s.get .CVN_LINK_STS_STATE p ≠ 3 then s
  else
    let c := s.port p
    let l := c.rtts ++ [ns]
    let s := s.setPort p { c with rtts := l }
    if l.length < 16 then s
    else
      let m := (sortNat l).getD 7 0
      if 1500 < m then s.trainFail p else (s.put .CVN_LINK_STS_RTT_NS m p).linkStart p

/-- The peer asks for a retrain, a width change or a spare switch (R404–R406). -/
def State.linkAsked (s : State) (p code arg : Nat) : State :=
  let c := s.port p
  let wide := decide (code = 0x10 ∨ code = 0x11)
  match c.linkOp with
  | none =>
    if ¬ s.portUp p then s
    else if code = 0x12 ∧ s.isSet .CVN_LINK_STS_SPARE_USED p ∧ s.get .CVN_LINK_STS_WIDTH p = 0 ∧ ¬ c.badLanes.contains arg then
      (if s.isSet .CVN_LINK_STS_LEADER p ∨ s.isSet .CVN_LINK_STS_COMPAT_ACT p then (s.excludeLane p arg).narrow p arg
        else (s.excludeLane p arg).linkAgree p code arg)
    else (if code = 0x12 then s.excludeLane p arg else s).linkAgree p code arg
  | some (mc, ma, mine) =>
    if mine ∧ s.portUp p ∧ wide ∧ (mc = 0x10 ∨ mc = 0x11) then
      if s.isSet .CVN_LINK_STS_LEADER p then s
      else
        let s := match actionOf mc ma with
          | some a => s.endKind (fun k => k == OpKind.linkUp p a) stAborted 1 0
          | none => s
        (s.linkCtl p 0x19 mc).linkAgree p code arg
    else s.setPort p { c with linkNext := c.linkNext ++ [(code, arg, false)] }

/-- What a LINKCTL operation does (R400, R401, R403, R406, R407): TS, IDENT, ECHO, ECHO_RSP, the requests, ACK, WITHDRAW, DONE, DOWN. `ns`: how long
the answered echo took. -/
def State.rxLinkctl (s : State) (p : Nat) (h : BaleHead) (payload : List Byte) (bad : Option Nat) (ns : Nat) : State :=
  let s := if s.lively p then s.rxHead p h bad else s
  let c := s.port p
  match h.lcode with
  | 0x02 => s.identify p (leNat (payload.take 8))
  | 0x03 => s.linkCtl p 0x04 h.larg
  | 0x04 => s.echoBack p ns
  | 0x10 | 0x11 | 0x12 => s.linkAsked p h.lcode h.larg
  | 0x18 =>
    (match c.linkOp with
      | some (mc, _, true) => if mc = h.larg ∧ s.portUp p then s.put .CVN_LINK_STS_STATE 6 p else s
      | _ => s)
  | 0x19 =>
    (match c.linkOp with
      | some (mc, _, false) =>
        if mc = h.larg then (((s.setPort p { c with linkOp := none }).put .CVN_LINK_STS_STATE 5 p).pump p).linkGo p else s
      | _ => s.setPort p { c with linkNext := c.linkNext.filter (fun x => !(x.1 == h.larg && !x.2.2)) })
  | 0x1A =>
    (match c.linkOp with
      | some (mc, _, false) => if mc = h.larg then s.linkDone p bad else s
      | _ => s)
  | 0x20 => s.goDown p
  | _ => s

/-- BALE_LINKCTL_RX (R403). -/
def execBaleLinkctlRx (p : Fin 2) (raw : List Byte) (bad : Option Nat) (ns : Nat) (s : State) : Res :=
  .next (s.rxBale p.val 3 raw (fun s h payload => s.rxLinkctl p.val h payload bad ns))

/-- LINKCTL_REPEAT (R403): what has no answer is sent again. -/
def execLinkctlRepeat (p : Fin 2) (s : State) : Res :=
  let c := s.port p.val
  match s.get .CVN_LINK_STS_STATE p.val, c.linkOp with
  | 2, _ => .next ((s.linkCtl p.val 0x01 1).linkCtl p.val 0x02 0 identBody)
  | 3, _ => .next (s.linkCtl p.val 0x03 (c.rtts.length % 256))
  | 5, some (code, arg, true) => .next (s.linkCtl p.val code arg)
  | _, _ => .next s

/-- The trained width (R400 step 1): 0 x8, 1 x4, none where the lanes do not suffice. -/
def State.widthFor (s : State) (p : Nat) (bad : List Nat) : Option Nat :=
  if bad.length ≤ 1 then some 0 else if bad.length ≤ 5 ∧ ¬ s.isSet .CVN_LINK_STS_COMPAT_ACT p then some 1 else none

/-- Bale bytes per ns of a direction (R382). -/
def baleRate (rate width : Nat) : Nat := (if rate = 1 then 128 else 64) / (if width = 1 then 2 else 1)

/-- CVN_TRAIN_DONE (R382, R398, R400): the keys and SYNC are done and the link is UP, at the rate (`fast`: both ends offer 128 GT/s) and on the
lanes that passed; or training has failed. -/
def execCvnTrainDone (p : Fin 2) (ok fast : Bool) (bad : List (Fin 9)) (s : State) : Res :=
  let st := s.get .CVN_LINK_STS_STATE p.val
  let lanes := bad.foldl (fun (l : List Nat) k => linsert k.val l) []
  let c := s.port p.val
  if s.halt.isSome ∨ ¬ (2 ≤ st ∧ st ≤ 4) then .next s
  else if ¬ ok then .next (s.trainFail p.val)
  else if st ≠ 4 ∨ ¬ c.keyed ∨ c.peerSync.isNone then .next s
  else match s.widthFor p.val lanes with
    | none => .next (s.trainFail p.val)
    | some w =>
      let rate := b2n (fast && s.isSet .CVN_PORT_CFG_MAXRATE p.val && !s.isSet .CVN_LINK_STS_COMPAT_ACT p.val)
      let s := lanes.foldl (fun (s : State) k => s.excludeLane p.val k) s
      let s := (s.put .CVN_LINK_STS_RATE rate p.val).put .CVN_LINK_STS_WIDTH w p.val
      let s := s.put .CVN_LINK_STS_SPARE_USED (b2n (w == 0 && lanes.any (fun k => k != 8))) p.val
      let s := s.put .CVN_LINK_STS_HEADROOM ((s.get .CVN_LINK_STS_RTT_NS p.val * baleRate rate w + 255) / 256) p.val
      let s := s.put .CVN_LINK_STS_STATE 5 p.val
      let s := s.setPort p.val { s.port p.val with downAt := none, held := [] }
      let s := s.sendReady p.val
      let s := (s.endKind (fun k => k == OpKind.linkUp p.val 0 || k == OpKind.linkUp p.val 1) stOk 0 0).endKind
        (fun k => k == OpKind.linkUp p.val (2 + w)) stOk 0 0
      .next (s.returnEmpty p.val)

end Sys2Proof.Machine
end

