-- ==== Sys2Proof/Machine/Loans.lean ====
section
/-!
DEFINITION. Loans of a Caravan port: the lender's and the borrower's messages, the loss of a loan, and the `cvn` commands
(R410–R421).
-/
namespace Sys2Proof.Machine
open Sys2Proof

/-! ### The lender's side (R410, R413–R415, R418) -/

/-- The block of a loan granule address. -/
def lentBlock (c : CvnPort) (lloc : Nat) : Option LentBlock := c.lent.find? (fun b => b.block == lloc / 16)

/-- Granules for what this device lends: on the roomiest channel. -/
def State.placeLent (s : State) (n hint : Nat) : Option Nat :=
  (s.roomiest ((List.range 16).filter s.canPlace)).bind (fun c => s.findRun c n hint)

/-- Take n granules for a loan: ROLE 6, the Strong code, account 257 (R414). -/
def State.lendRun (s : State) (ma n : Nat) : State :=
  (((s.ownRun ma 0 6 1 n).writeLines (4 * ma) (4 * n)).addUse 257 n 0 0 0)

/-- Give n granules of a loan back. -/
def State.unlendRun (s : State) (ma n : Nat) : State := (s.freeRun ma n).addUse 257 0 n 0 0

/-- A block is the lender's no more: its granules, its tag area, its content. -/
def State.freeBlock (s : State) (p : Nat) (b : LentBlock) : State :=
  let s := s.unlendRun b.ma 16
  let s := match b.tags with | some t => s.unlendRun t 2 | none => s
  let c := s.port p
  let out := fun (l : Nat) => decide (l / 64 ≠ b.block)
  s.setPort p { c with lent := c.lent.filter (fun x => x.block != b.block), store := c.store.filter (fun x => out x.1)
                       marked := c.marked.filter out, tags := c.tags.filter (fun x => out x.1) }

/-- Every block of the loan is freed, and the loan with them (R418, R420). -/
def State.freeLoan (s : State) (p : Nat) : State :=
  let s := (s.port p).lent.foldl (fun (s : State) b => s.freeBlock p b) s
  ((s.setPort p { s.port p with loanL := none }).put .CVN_LEND_STS_ASKED 0 p).put .CVN_LEND_STS_FOREIGN 0 p

/-- Blocks the lender may grant beside those it has lent (R413, R419). -/
def State.lendRoom (s : State) (p : Nat) : Nat :=
  let own : Bool := match (s.port p).loanL with | some (_, d) => d == s.get .CVN_PEER_ID_ID p | none => true
  if s.get .XLT_PRESS_STS_LEVEL = 0 ∧ s.isSet .CVN_PORT_CFG_LEND_EN p ∧ own ∧ ¬ s.isSet .CVN_LEND_STS_FOREIGN p
      ∧ ¬ s.isSet .CVN_LINK_STS_COMPAT_ACT p then
    let u := s.used 257
    (s.get .CVN_PORT_CFG_LEND_PCT p * (s.get .XLT_CAP_COUNT 3 + u) / 100 - u) / 16
  else 0

/-- Grant blocks in the order of the GROW, as far as the limit and the media go: the state and the number granted. -/
def State.grantBlocks (s : State) (p hint : Nat) : List Nat → Nat → State × Nat
  | [], n => (s, n)
  | b :: bs, n =>
    if (lentBlock (s.port p) (16 * b)).isSome then s.grantBlocks p hint bs (n + 1)
    else if s.lendRoom p = 0 then (s, n)
    else match s.placeLent 16 hint with
      | none => (s, n)
      | some ma =>
        let s := s.lendRun ma 16
        let c := s.port p
        (s.setPort p { c with lent := c.lent ++ [{ block := b, ma := ma }] }).grantBlocks p hint bs (n + 1)

/-- Keep the answer of a GROW or RETURN for a repeat of it (R411). -/
def State.keep (s : State) (p tid status n : Nat) : State :=
  let c := s.port p
  s.setPort p { c with kept := ((tid, status, n) :: c.kept).take 256 }

/-- The kept answer under a number. -/
def State.keptAt (s : State) (p tid : Nat) : Option (Nat × Nat) :=
  ((s.port p).kept.find? (fun k => k.1 == tid)).map (·.2)

/-- Take the next message of an operation from the port of an UP link, the device awake for it, and act on it; the accesses of a lender travel with the
port's class label (R414). -/
def State.onMsg (s : State) (p op : Nat) (act : State → CvnMsg → State) : Res :=
  if s.halt.isSome ∨ ¬ s.portUp p then .next s
  else match s.nextMsg p op with
    | some (m, s) => .next (act (s.wakeMem.underFor { master := some (mCvn p), priv := 3, lpn := lpnEnd, cls := s.get .CVN_PORT_CFG_LCLASS p, tier := 6 } 0) m).uncharged
    | none => .next s

/-- The block numbers of a GROW or RETURN, none where count and data disagree (R410). -/
def blocksOf (m : CvnMsg) : Option (List Nat) :=
  if 1 ≤ m.arg ∧ m.arg ≤ 1024 ∧ m.data.length = 4 * m.arg then some (words 4 m.arg m.data) else none

/-- A GROW at the lender (R410, R411, R413, R419). -/
def State.growFor (s : State) (p hint id : Nat) (m : CvnMsg) : State :=
  let ans := fun (s : State) (st n : Nat) => s.sendMsg p { op := 0x84, tid := m.tid, status := st, arg := n }
  match s.keptAt p m.tid with
  | some (st, n) => ans s st n
  | none =>
    match blocksOf m with
    | none => (ans s 1 0).protoErr p
    | some nums =>
      let (s, n) := s.grantBlocks p hint nums 0
      let c := s.port p
      let s := if c.loanL.isNone ∧ n ≠ 0 then s.setPort p { c with loanL := some (id, s.get .CVN_PEER_ID_ID p) } else s
      let st := if n = 0 then 2 else 0
      ans (s.keep p m.tid st n) st n

/-- GROW. `id`: the loan ID the borrower drew; how it reaches the lender is not stated (log 46). -/
def execGrow (p : Fin 2) (id : Fin (2 ^ 64)) (hint : Nat) (s : State) : Res := s.onMsg p.val 4 (fun s m => s.growFor p.val hint id.val m)

/-- A RETURN at the lender (R410, R411, R414, R416). -/
def State.returnFor (s : State) (p : Nat) (m : CvnMsg) : State :=
  let ans := fun (s : State) (st : Nat) => s.sendMsg p { op := 0x85, tid := m.tid, status := st }
  match s.keptAt p m.tid with
  | some (st, _) => ans s st
  | none =>
    match (blocksOf m).bind (fun nums => if nums.any (fun b => (lentBlock (s.port p) (16 * b)).isNone) then none else some nums) with
    | none => (ans (s.keep p m.tid 1 0) 1).protoErr p
    | some nums =>
      let s := nums.foldl (fun (s : State) b => match lentBlock (s.port p) (16 * b) with | some x => s.freeBlock p x | none => s) s
      let s := s.put .CVN_LEND_STS_ASKED (s.get .CVN_LEND_STS_ASKED p - nums.length) p
      let s := if (s.port p).lent = [] then s.setPort p { s.port p with loanL := none } else s
      ans (s.keep p m.tid 0 0) 0

/-- RETURN. -/
def execReturn (p : Fin 2) (s : State) : Res := s.onMsg p.val 5 (fun s m => s.returnFor p.val m)

/-- The bytes of a message lie within a granted block (R410): the block and the offset in it. -/
def loanRange (c : CvnPort) (lloc off n : Nat) : Option (LentBlock × Nat) :=
  let pos := lloc % 16 * 256 + off
  match lentBlock c lloc with
  | some b => if 1 ≤ n ∧ pos + n ≤ 4096 then some (b, pos) else none
  | none => none

/-- A line of a block with new bytes: `data` begins at byte `pos` of the block. -/
def mergeLoan (old : Line) (i pos : Nat) (data : List Byte) : Line :=
  bytesLine ((List.range 64).map (fun k =>
    let a := 64 * i + k
    if a < pos then BitVec.ofNat 8 (old.toNat / 256 ^ k) else (data[a - pos]?).getD (BitVec.ofNat 8 (old.toNat / 256 ^ k))))

/-- The lines of a block that n bytes from `pos` touch. -/
def linesAt (pos n : Nat) : List Nat := (List.range 64).filter (fun i => decide (64 * i < pos + n ∧ pos < 64 * i + 64))

/-- The bytes of a WRITE or TWRITE, and the tags of its lines where it carries tags (R410): whole lines on a line boundary. None: a violation. -/
def payloadOf (m : CvnMsg) (pos : Nat) : Option (List Byte × List Nat) :=
  if ¬ m.tags then some (m.data, [])
  else
    let n := m.data.length / 72
    if m.data.length = 72 * n ∧ pos % 64 = 0 then some (m.data.take (64 * n), words 8 n (m.data.drop (64 * n))) else none

/-- One line of a lender's write: its bytes, its marking, its tag. -/
def State.loanLine (s : State) (p : Nat) (b : LentBlock) (pos : Nat) (data : List Byte) (tags : List Nat) (poison : Bool) (i : Nat) : State :=
  let c := s.port p
  let l := 64 * b.block + i
  let whole := decide (pos ≤ 64 * i ∧ 64 * i + 64 ≤ pos + data.length)
  let c := { c with
    store := tputD 0 l (mergeLoan (tgetD 0 l c.store) i pos data) c.store
    marked := if whole then lset l poison c.marked else c.marked
    tags := if tags = [] then c.tags else tputD 0 l (tags.getD (i - pos / 64) 0) c.tags }
  (s.setPort p c).writeLine (4 * b.ma + i)

/-- A block that holds a raw frame gets its tag area (R414); false where there is no room. -/
def State.tagArea (s : State) (p : Nat) (b : LentBlock) (rawf : Bool) (hint : Nat) : State × Bool :=
  if ¬ rawf ∨ b.tags.isSome then (s, true)
  else match s.placeLent 2 hint with
    | none => (s, false)
    | some ma =>
      let s := s.lendRun ma 2
      let c := s.port p
      (s.setPort p { c with lent := c.lent.map (fun x => if x.block = b.block then { x with rawf := true, tags := some ma } else x) }, true)

/-- The lines of a block's tag area that hold the tags of some of its lines are written. -/
def State.tagLines (s : State) (p blk : Nat) (ls : List Nat) : State :=
  match (lentBlock (s.port p) (16 * blk)).bind (·.tags) with
  | some ma => ((List.range 8).filter (fun j => ls.any (fun i => i / 8 == j))).foldl (fun (s : State) j => s.writeLine (4 * ma + j)) s
  | none => s

/-- A WRITE or TWRITE at the lender (R410, R411, R414, R415); `parity`: it is lost to a buffer parity error. The WACK follows the acceptance by the
channel; that acceptance takes no modelled time (log 1). -/
def State.loanWrite (s : State) (p hint : Nat) (parity : Bool) (m : CvnMsg) : State :=
  let ans := fun (s : State) (st : Nat) => s.sendMsg p { op := 0x82, tid := m.tid, status := st }
  let pos := m.lloc % 16 * 256 + m.off
  if parity then ans (s.report (msg1 bCvn p 6)) 3
  else match (payloadOf m pos).bind (fun x => (loanRange (s.port p) m.lloc m.off x.1.length).map (fun y => (y.1, x))) with
    | none => (ans s 1).protoErr p
    | some (b, data, tags) =>
      let (s, room) := s.tagArea p b m.rawf hint
      if ¬ room then ans s 2
      else
        let s := (linesAt pos data.length).foldl (fun (s : State) i => s.loanLine p b pos data tags m.poison i) s
        ans (if tags = [] then s else s.tagLines p b.block (linesAt pos data.length)) 0

/-- CARAVAN_WRITE. -/
def execCaravanWrite (p : Fin 2) (parity : Bool) (hint : Nat) (s : State) : Res := s.onMsg p.val 2 (fun s m => s.loanWrite p.val hint parity m)

/-- TWRITE: twin writes of a port are applied in the order they arrive. -/
def execTwrite (p : Fin 2) (parity : Bool) (hint : Nat) (s : State) : Res := s.onMsg p.val 3 (fun s m => s.loanWrite p.val hint parity m)

/-- The checker over lines of a block. -/
def State.loanReads (s : State) (p : Nat) (b : LentBlock) (errs : List (Nat × ReadErr)) : List Nat → State × List LineOut
  | [] => (s, [])
  | i :: is =>
    let marked := (s.port p).marked.contains (64 * b.block + i)
    let e := match errs.find? (fun x => x.1 == i) with | some x => x.2 | none => {}
    let (s, r) := s.readOne (4 * b.ma + i) e marked
    let (s, rs) := s.loanReads p b errs is
    (s, r :: rs)

/-- A READ at the lender (R410, R414, R415): the bytes, and the line tags of whole lines of a raw frame. `errs`: what the checker finds, by line of the
block; the bytes of an uncorrectable line are free values. -/
def State.loanRead (s : State) (p : Nat) (errs : List (Nat × ReadErr)) (m : CvnMsg) : State :=
  let ans : CvnMsg := { op := 0x81, tid := m.tid }
  match loanRange (s.port p) m.lloc m.off m.arg with
  | none => (s.sendMsg p { ans with status := 1 }).protoErr p
  | some (b, pos) =>
    let ls := linesAt pos m.arg
    let (s, rs) := s.loanReads p b errs ls
    let s := s.eccSay rs
    let lost := fun (r : LineOut) => r.out == .uncorrectable || r.out == .address
    let bad := rs.any lost
    let c := s.port p
    let bytes := (ls.zip rs).flatMap (fun x =>
      if lost x.2 then lineBytes (BitVec.ofNat 512 s.draw) else fixBytes (lineBytes (tgetD 0 (64 * b.block + x.1) c.store)) x.2.left)
    let s := if bad then s.drawn else s
    let tagged := b.rawf && pos % 64 == 0 && m.arg % 64 == 0
    let tags := if tagged then ls.flatMap (fun i => natBytes 8 (tgetD 0 (64 * b.block + i) c.tags)) else []
    s.sendMsg p { ans with uncorr := bad, poison := rs.any (fun r => r.out == .poison), tags := tagged, status := if bad then 4 else 0
                           data := (bytes.drop (pos % 64)).take m.arg ++ tags }

/-- CARAVAN_READ. -/
def execCaravanRead (p : Fin 2) (errs : List (Nat × ReadErr)) (s : State) : Res := s.onMsg p.val 1 (fun s m => s.loanRead p.val errs m)

/-! ### A loan is lost (R417) -/

/-- A lent page with a local twin takes the twin as its primary: it stands in the floor tier of its profile, at least Lehr (log 47). -/
def State.keepTwin (s : State) (lpn : Nat) : State :=
  let p := s.page lpn
  let s := s.loanFreeRun (locPort p.pl.ma) (locOff p.pl.ma) p.pl.len
  let t := max 2 (s.floorOf p.pl)
  let own := s.pg.own.map (fun e => if e.2.lpn = lpn ∧ e.2.role = 2 then (e.1, { e.2 with role := 1 }) else e)
  let s := { s with pg := { s.pg with own := own } }
  let pl := { p.pl with tier := t, ma := p.tw.tma, len := if p.tw.tns then 0 else p.tw.tlen, ns := p.tw.tns, twk := 0, lock := false
                        ver := (p.pl.ver + 1) % 256 }
  ((s.setPage lpn { p with pl := pl, tw := {} }).spoil lpn).queueRepair lpn

/-- The loan of a port is lost (R417): its pages fall back on their twins or are Poisoned, and the reads that waited end. -/
def State.loseLoan (s : State) (p : Nat) : State :=
  let lent := (s.pg.pages.filter (fun x => x.2.pl.tier == 4 && locPort x.2.pl.ma == p)).map (·.1)
  let reads := ((s.port p).waits.filter (fun w => w.use == 0)).map (·.arg)
  let s := lent.foldl (fun (s : State) l => match tget l s.pg.moves with | some m => s.abortMove l m | none => s) s
  let s := lent.foldl (fun (s : State) l => if (s.page l).pl.twk = 1 then s.keepTwin l else s.poisonWhole l) s
  let s := s.dropTwins p
  let c := s.port p
  let s := s.setPort p { c with loanB := none, blocks := [], giving := [], closing := false, uses := [], waits := [], held := [], downAt := none }
  let s := (s.put .CVN_BORROW_STS_LOST 1 p).report (msg2 bCvn p 5)
  let s := reads.foldl (fun (s : State) line =>
    match s.trkOf line with
    | some t =>
      if t.lender ≠ some p then s
      else if (s.page (line / 64)).pl.tier = 7 then (s.readEnds line (.poison 6)).settle (s.home (line / 64))
      else s.startRead line t
    | none => s) s
  s.endKind (fun k => k == OpKind.reclaim p) stOk 0 0

/-- LOAN_LOST (R417): the port of a loan has not been UP for LOST_S. -/
def execLoanLost (p : Fin 2) (s : State) : Res :=
  .next (if s.halt.isNone ∧ (s.port p.val).loanB.isSome ∧ ¬ s.portUp p.val then s.loseLoan p.val else s)

/-- LOAN_HOLD_TIMEOUT (R417): a read that waits for a lender returns poison; the page stays as it is. -/
def execLoanHoldTimeout (p : Fin 2) (line : LineNo) (s : State) : Res :=
  let c := s.port p.val
  if s.halt.isSome ∨ s.portUp p.val ∨ ¬ c.held.contains line.val then .next s
  else
    let s := s.setPort p.val { c with held := c.held.filter (fun l => l != line.val)
                                      waits := c.waits.filter (fun w => !(w.use == 0 && w.arg == line.val)) }
    match s.trkOf line.val with
    | none => .next s
    | some t =>
      let s := if t.req.head.isNone then s.mediaRecord line.val 0 else s
      .next ((s.readEnds line.val (.poison 0)).settle (s.home (line.val / 64)))

/-- What the peer presents at SYNC, as borrower and as lender, 0 for none, is compared with the loans held (R418). -/
def State.compareLoans (s : State) (p asB asL : Nat) : State :=
  let s := s.setPort p { s.port p with peerSync := some (asB, asL) }
  let s := match (s.port p).loanB with
    | some id => if id = asL then s else s.loseLoan p
    | none => s
  match (s.port p).loanL with
  | some (id, dev) =>
    if id = asB then s
    else if dev = s.get .CVN_PEER_ID_ID p then s.freeLoan p
    else s.put .CVN_LEND_STS_FOREIGN 1 p
  | none => s

/-- Traffic of VC3 in KEYING or UP. -/
def State.sessionMsg (s : State) (p op : Nat) : Option (CvnMsg × State) :=
  let st := s.get .CVN_LINK_STS_STATE p
  if s.halt.isNone ∧ (st = 4 ∨ st = 5) then s.nextMsg p op else none

/-- SYNC (R400 step 5, R410, R418). -/
def execSync (p : Fin 2) (s : State) : Res :=
  if ¬ (s.port p.val).keyed then .next s
  else match s.sessionMsg p.val 6 with
    | some (m, s) =>
      .next (if m.data.length = 16 then s.compareLoans p.val (leNat (m.data.take 8)) (leNat (m.data.drop 8)) else s.protoErr p.val)
    | none => .next s

/-- A fresh key of a direction (R308): key and salt are the session's secrets, free values. -/
def State.linkKey (s : State) (base : Option Nat) : LinkKey := { key := natBytes 32 s.draw, salt := natBytes 4 s.drawn.draw, base := base }

/-- SYNC goes out: the loan IDs as borrower and as lender (R418). -/
def State.sendSync (s : State) (p : Nat) : State :=
  let c := s.port p
  let l := match c.loanL with | some (id, _) => id | none => 0
  s.sendMsg p { op := 6, data := natBytes 8 (c.loanB.getD 0) ++ natBytes 8 l }

/-- The session yields keys for both directions (R308, R402): the first ones at once, upon which SYNC follows; later ones from the next DATA bale on, with a
new key phase, while the receiver holds its old key until a bale of the peer's new phase has passed. -/
def State.installKeys (s : State) (p : Nat) : State :=
  let c := s.port p
  let tx := s.linkKey (some c.sent)
  let s := s.drawn.drawn
  let rx := s.linkKey none
  let s := s.drawn.drawn
  if c.keyed then
    (s.setPort p { c with txKey := some tx, rxNext := some rx, renewing := false }).put .CVN_LINK_STS_KEYPH (1 - s.get .CVN_LINK_STS_KEYPH p) p
  else (s.setPort p { c with txKey := some tx, rxKey := some rx }).sendSync p

/-- CARAVAN_SPDM (R308, R400 step 4, R402): what the SPDM session makes of the next message: 0 it answers with the bytes `reply`, if any; 1 keys are installed
or updated, after such an answer; 2 the authentication fails. -/
def execCaravanSpdm (p : Fin 2) (outcome : Fin 3) (reply : List Byte) (s : State) : Res :=
  match s.sessionMsg p.val 7 with
  | none => .next s
  | some (_, s) =>
    let s := if reply = [] ∨ outcome.val = 2 then s else s.sendMsg p.val { op := 7, data := reply.take 4608 }
    .next (match outcome.val with
      | 0 => s
      | 1 => s.installKeys p.val
      | _ => if s.get .CVN_LINK_STS_STATE p.val = 4 then s.trainFail p.val else s)

/-! ### The borrower's side (R410–R412, R414–R416) -/

/-- The request a TID names, with an operation that a test accepts. -/
def State.waitOf (s : State) (p tid : Nat) (ok : Nat → Bool) : Option CvnWait :=
  (s.port p).waits.find? (fun w => w.tid == tid && w.sent && ok w.msg.op)

/-- Send a request again with REPEAT (R411). -/
def State.resend (s : State) (p : Nat) (w : CvnWait) : State :=
  let c := s.port p
  let s := s.setPort p { c with waits := c.waits.map (fun x => if x.tid = w.tid then { x with tries := x.tries + 1 } else x) }
  (s.bump .CVN_CNT_RESENDS 0x7FFF p).sendMsg p { w.msg with rep := true }

/-- MESSAGE_RESEND_TIMEOUT (R411): after the third resend the link goes down. -/
def execMessageResendTimeout (p : Fin 2) (tid : Fin 65536) (s : State) : Res :=
  match s.waitOf p.val tid.val (fun _ => true) with
  | some w =>
    if s.halt.isSome ∨ ¬ s.portUp p.val then .next s
    else .next (if w.tries < 3 then s.resend p.val w else s.goDown p.val)
  | none => .next s

/-- A granule at the lender is uncorrectable (R328, R414): the page's local twin repairs it, a Caravan twin is made anew, and sectors without
a twin are poison. -/
def State.lenderBad (s : State) (p lloc : Nat) : State :=
  match tget lloc (s.port p).uses with
  | none => s
  | some v =>
    let lpn := v / 2
    let pg := s.page lpn
    if v % 2 = 1 ∨ pg.pl.twk = 1 then s.queueRepair lpn
    else if pg.pl.tier ≠ 4 then s
    else
      let g := lloc - locOff pg.pl.ma
      let secs := (List.range 8).filter (fun k => (List.range 4).any (fun i => (sectorsAt pg (256 * g + 64 * i)).contains k))
      secs.foldl (fun (s : State) k => (s.poisonMedia (64 * lpn + 8 * k) 0).mediaRecord (64 * lpn + 8 * k) 0) s

/-- NOTE (R414). -/
def execNote (p : Fin 2) (s : State) : Res := s.onMsg p.val 8 (fun s m => s.lenderBad p.val m.lloc)

/-- Recall the pages in the blocks to be given back (R416): lent pages go through the forced queue, Caravan twins are dropped. -/
def State.recallPages (s : State) (p : Nat) : State :=
  let c := s.port p
  let hit := c.uses.foldl (fun (l : List Nat) u => if c.giving.contains (u.1 / 16) then linsert u.2 l else l) []
  hit.foldl (fun (s : State) v =>
    let lpn := v / 2
    let pl := (s.page lpn).pl
    if v % 2 = 1 then
      (if pl.twk = 2 then (List.range 8).foldl (fun (s : State) k => s.twinLost (8 * lpn + k)) ((s.dropAnyTwin lpn).queueRepair lpn) else s)
    else s.enqueue 2 { lpn := lpn, ver := pl.ver, cls := 5, target := s.floorOf pl }) s

/-- RECLAIM (R416): blocks already on their way back count. -/
def execReclaim (p : Fin 2) (s : State) : Res :=
  s.onMsg p.val 9 (fun s m =>
    let c := s.port p.val
    let s := s.giveBack p.val (m.arg - (heldBlocks c - c.blocks.length))
    (s.recallPages p.val).returnEmpty p.val)

/-- An answer comes back: the request it names, with an operation that a test accepts, and what the message says of it (R410, R411). RESEND sends the request
again. -/
def State.onAnswer (s : State) (p op : Nat) (ok : Nat → Bool) (act : State → CvnMsg → CvnWait → State) : Res :=
  s.onMsg p op (fun s m => match s.waitOf p m.tid ok with
    | none => s
    | some w => if m.status = 3 then s.resend p w else act s m w)

/-- The bytes a lender was given of what a READ of a line asks back, where they begin in the image, and the tag of a raw line (R204, R410, R415). -/
def State.lentRead (s : State) (line : Nat) (raw : Bool) : List Byte × Nat × List Byte :=
  let lpn := line / 64
  let (off, len) := readRange (s.page lpn).pl raw line
  if raw then (((s.rawSector lpn (line / 8 % 8)).drop (off % 512)).take 64, 0, (s.sectorTags lpn (line / 8 % 8)).getD (line % 8) [])
  else (((s.imageBytes lpn).drop off).take len, off, [])

/-- The bytes, and the tag bytes, that a lender's answer has otherwise. -/
def lentDiff (own : List Byte × Nat × List Byte) (data tag : List Byte) : List (Nat × Byte) × List (Nat × Byte) :=
  let diff := fun (a b : List Byte) (at' : Nat) =>
    (((List.range a.length).zip (xorBytes a b)).filter (fun x => x.2 != 0)).map (fun x => (x.1 + at', x.2))
  (diff own.1 data own.2.1, diff own.2.2 tag 0)

/-- The answer to a page read (R415): it ends, checked as a media read is (R293); UNCORR and POISON are uncorrectable media data and poison (R193), as is an
answer that does not have the bytes asked for. -/
def State.lentAnswer (s : State) (p : Nat) (f : Fetch) (m : CvnMsg) (w : CvnWait) : State :=
  let s := s.waitDone p m.tid
  let line := w.arg
  match s.trkOf line with
  | none => s
  | some t =>
    let n := s.home (line / 64)
    let pg := s.page (line / 64)
    let again := s.coh.suspects.any (fun x => x.1 == line)
    let twin := decide (pg.pl.tier ≠ 4)
    let raw := twin && pg.tw.tns
    let own := s.lentRead line raw
    let data := m.data.take own.1.length
    let (d, dt) := lentDiff own data (m.data.drop own.1.length)
    let s := s.coh' (fun c => { c with suspects := c.suspects.filter (fun x => x.1 != line) })
    if m.poison ∨ m.status ≠ 0 ∨ data.length ≠ own.1.length ∨ (raw ∧ m.data.length ≠ own.1.length + 8) then
      let (s, r) := if m.poison ∨ twin then (s, RdOut.poison 0) else s.fromTwin line f t.req.master 0 .serve
      ((s.putTrk line { t with lender := none }).readEnds line r).settle n
    else
      match s.checkCopy line f d dt t.req.master 2 (locOff (if twin then pg.tw.tma else pg.pl.ma)) again false with
      | (s, .again c) => (s.readEnds line (.again c)).askLender line (if twin then pg.tw.tma else pg.pl.ma) raw t
      | (s, r) => (s.readEnds line r).settle n

/-- RDATA. `f`: what the reads of the integrity tree meet, and the decoder. -/
def execRdata (p : Fin 2) (f : Fetch) (s : State) : Res := s.onAnswer p.val 0x81 (· == 1) (fun s m w => s.lentAnswer p.val f m w)

/-- A write is accepted, or was not (R415): a Caravan twin that the lender did not take is dropped (DESIGN CHOICE, log 118). -/
def State.wackFor (s : State) (p : Nat) (m : CvnMsg) (w : CvnWait) : State :=
  if w.use = 2 then
    let mine := s.coh.twins.any (fun t => t.sector == w.arg && t.sent == some w.tid)
    let s := if m.status = 0 then (if mine then s.twinAcked w.arg else s)
      else (List.range 8).foldl (fun (s : State) k => s.twinLost (w.arg / 8 * 8 + k)) (s.twinDrop (w.arg / 8))
    s.waitDone p m.tid
  else
    let s := s.waitDone p m.tid
    if m.status = 0 then s else s.lenderBad p w.msg.lloc

/-- WACK (R411, R415). -/
def execWack (p : Fin 2) (s : State) : Res := s.onAnswer p.val 0x82 (fun op => op == 2 || op == 3) (fun s m w => s.wackFor p.val m w)

/-- GRANT (R410, R412): the first ARG block numbers of the GROW. -/
def execGrant (p : Fin 2) (s : State) : Res :=
  s.onAnswer p.val 0x84 (· == 4) (fun s m w =>
    let s := s.waitDone p.val m.tid
    let c := s.port p.val
    let c := { c with blocks := c.blocks ++ w.nums.take m.arg }
    s.setPort p.val { c with loanB := if heldBlocks c = 0 then none else c.loanB })

/-- The loan is closed once every block is back (R420). -/
def State.closeLoan (s : State) (p : Nat) : State :=
  let c := s.port p
  if heldBlocks c ≠ 0 then s
  else
    let s := s.setPort p { c with loanB := none, closing := false }
    if c.closing then s.endKind (fun k => k == OpKind.reclaim p) stOk 0 0 else s

/-- RACK (R410). -/
def execRack (p : Fin 2) (s : State) : Res := s.onAnswer p.val 0x85 (· == 5) (fun s m _ => (s.waitDone p.val m.tid).closeLoan p.val)

/-! ### Commands (R420, R421) -/

/-- The port a request names. -/
def cvnPortOf (q : Req) : Nat := par q 0x10 1

/-- CVN_QUERY. -/
def execCvnQuery (q : Req) (s : State) : Res :=
  let p := cvnPortOf q
  serve { op := 0x0B00, priv := 0, mctp := true, output := true, fields := [fld 0x10 1] } q (firstBad [(0x10, decide (p ≤ 1))]) (fun s =>
    let c := s.port p
    okOut s (s.word .CVN_LINK_STS_STATE p) 64
      [(0, 8, s.word .CVN_PEER_ID_ID p), (8, 8, s.word .CVN_CNT_CHK_DROP p), (0x10, 8, s.word .CVN_LEND_STS_GRANTED p),
       (0x18, 8, s.word .CVN_BORROW_STS_HELD p), (0x20, 8, c.loanB.getD 0),
       (0x28, 8, match c.loanL with | some (id, _) => id | none => 0)]) s

/-- CVN_LINK_UP. -/
def execCvnLinkUp (q : Req) (s : State) : Res :=
  let p := cvnPortOf q
  let a := par q 0x11 1
  serve { op := 0x0B01, priv := 2, fields := [fld 0x10 2] } q
    (firstBad [(0x10, decide (p ≤ 1)),
      (0x11, decide (a ≤ 3) && !(decide (2 ≤ a) && s.isSet .CVN_PORT_CFG_COMPAT p) && !(a == 2 && decide (2 ≤ (s.port p).badLanes.length)))]) (fun s =>
      let st := s.get .CVN_LINK_STS_STATE p
      if a = 0 then
        let s := s.put .CVN_PORT_CFG_AUTO_UP 1 p
        if st = 5 then pendDone s (.linkUp p 0) stOk 0 0
        else pend (if st = 0 ∨ st = 7 then s.put .CVN_LINK_STS_STATE 1 p else s) (.linkUp p 0)
      else if st ≠ 5 then refuse s stStale st
      else pend (if a = 1 then s.linkAsk p 0x10 0 else s.linkAsk p 0x11 (if a = 2 then 8 else 4)) (.linkUp p a)) s

/-- CVN_LINK_DOWN. -/
def execCvnLinkDown (q : Req) (s : State) : Res :=
  let p := cvnPortOf q
  serve { op := 0x0B02, priv := 2, fields := [fld 0x10 1, fbits 0x11 0 1] } q (firstBad [(0x10, decide (p ≤ 1))]) (fun s =>
    if ¬ parBit q 0x11 0 ∧ s.pg.pages.any (fun x => x.2.pl.tier == 4 && locPort x.2.pl.ma == p && x.2.pl.twk != 1) then busy s
    else
      let st := s.get .CVN_LINK_STS_STATE p
      let s := s.put .CVN_PORT_CFG_AUTO_UP 0 p
      let s := if 2 ≤ st ∧ st ≤ 6 then (s.linkCtl p 0x20 0).goDown p else s
      ok (s.put .CVN_LINK_STS_STATE 0 p)) s

/-- CVN_LEND_CFG: a LEND_PCT below the present loan asks for the excess. -/
def execCvnLendCfg (q : Req) (s : State) : Res :=
  let p := cvnPortOf q
  serve { op := 0x0B03, priv := 2, fields := [fld 0x10 1, fbits 0x11 0 2, fld 0x12 1, fbits 0x14 0 31] } q
    (firstBad [(0x10, decide (p ≤ 1)), (0x12, decide (par q 0x12 1 ≤ 50))]) (fun s =>
      let s := (s.put .CVN_PORT_CFG_LEND_EN (b2n (parBit q 0x11 0)) p).put .CVN_PORT_CFG_BORROW_EN (b2n (parBit q 0x11 1)) p
      let s := (s.put .CVN_PORT_CFG_LEND_PCT (par q 0x12 1) p).put .CVN_BORROW_MAX_MAX (par q 0x14 4) p
      let u := s.used 257
      let excess := u - par q 0x12 1 * (s.get .XLT_CAP_COUNT 3 + u) / 100
      ok (s.askBack p ((excess + 15) / 16))) s

/-- CVN_RECLAIM. -/
def execCvnReclaim (q : Req) (s : State) : Res :=
  let p := cvnPortOf q
  let mode := par q 0x11 1
  serve { op := 0x0B04, priv := 2, fields := [fld 0x10 2] ++ (if mode = 1 then [fld 0x18 4] else []) } q
    (firstBad [(0x10, decide (p ≤ 1)), (0x11, decide (mode ≤ 2))]) (fun s =>
      let c := s.port p
      match mode with
      | 0 =>
        if c.loanB.isNone then refuse s stStale 0
        else
          let s := (s.setPort p { c with closing := true }).giveBack p c.blocks.length
          let mine := (s.pg.pages.filter (fun x => x.2.pl.twk == 2 && locPort x.2.tw.tma == p)).map (·.1)
          let s := mine.foldl (fun (s : State) l => (List.range 8).foldl (fun (s : State) k => s.twinLost (8 * l + k)) (s.dropAnyTwin l)) s
          pend ((s.recallPages p).returnEmpty p) (.reclaim p)
      | 1 => if c.loanL.isNone then refuse s stStale 0 else ok (s.askBack p (par q 0x18 4))
      | _ =>
        match c.loanL with
        | some (_, dev) => if s.portUp p ∧ dev = s.get .CVN_PEER_ID_ID p then busy s else ok (s.freeLoan p)
        | none => ok s) s

/-- CVN_COMPAT. -/
def execCvnCompat (q : Req) (s : State) : Res :=
  let p := cvnPortOf q
  serve { op := 0x0B05, priv := 2, fields := [fld 0x10 1, fbits 0x11 0 1] } q (firstBad [(0x10, decide (p ≤ 1))]) (fun s =>
    let st := s.get .CVN_LINK_STS_STATE p
    if st = 0 ∨ st = 7 then ok (s.put .CVN_PORT_CFG_COMPAT (b2n (parBit q 0x11 0)) p) else busy s) s

end Sys2Proof.Machine
end

