-- ==== Sys2Proof/Machine/RegMap.lean ====
section
/-!
DEFINITION. Registers by their offset (R19, R20, R539): the register an offset names, its settable fields, the configuration block's values, and
which registers each kind of reset keeps.
-/
namespace Sys2Proof.Machine
open Sys2Proof

/-- The index an offset has under a stride, and what is left. -/
def digit (stride d : Nat) : Nat × Nat := if stride = 0 then (0, d) else (d / stride, d % stride)

/-- The indices of a register of a row at an offset of its space. -/
def RegRow.indices (row : RegRow) (off : Nat) : Option (Nat × Nat) :=
  if off < row.base then none
  else
    let d := off - row.base
    let (i, j, rest) :=
      if row.s2 ≤ row.s1 then
        let (i, r) := digit row.s1 d
        let (j, r) := digit row.s2 r
        (i, j, r)
      else
        let (j, r) := digit row.s2 d
        let (i, r) := digit row.s1 r
        (i, j, r)
    if rest = 0 ∧ i < row.n1 ∧ j < row.n2 then some (i, j) else none

/-- The register of a table at an offset of BAR4 (`bar2` false) or of BAR2 of a head. -/
def findReg (bar2 : Bool) (off : Nat) : List RegRow → Option (RegRow × Nat × Nat)
  | [] => none
  | row :: t =>
    if row.bar2 = bar2 then
      match row.indices off with
      | some (i, j) => some (row, i, j)
      | none => findReg bar2 off t
    else findReg bar2 off t

/-- The register at an offset of BAR4. -/
def regAt4 (off : Nat) : Option (RegRow × Nat × Nat) := findReg false off regTable

/-- The register at an offset of BAR2 of head h: the head is the first index. -/
def regAt2 (h off : Nat) : Option (RegRow × Nat × Nat) := (findReg true off regTable).map (fun x => (x.1, h, x.2.2))

/-- The LOCK registers (R539). -/
def lockRegs : List Reg :=
  [.HPT_LOCK_LOCK, .COH_LOCK_LOCK, .CDC_LOCK_LOCK, .SEC_LOCK_LOCK, .ECC_LOCK_LOCK, .MEM_LOCK_LOCK, .JOB_LOCK_LOCK, .CVN_LOCK_LOCK,
   .FLT_LOCK_LOCK, .SLT_LOCK_LOCK, .PWR_LOCK_LOCK, .THM_LOCK_LOCK, .PMU_LOCK_LOCK, .ACC_LOCK_LOCK]

/-- Copies of a field, each with its second index and its lowest bit; a field with no copies keeps the index of its register. -/
def FieldRow.places (f : FieldRow) (j : Nat) : List (Nat × Nat) :=
  if f.rep = 1 then [(j, f.lo)] else (List.range f.rep).map (fun k => (k, f.lo + k * f.step))

/-- A REG entry sets this field (R539): one whose Reset reads cfg, or that software may write. -/
def FieldRow.settable (f : FieldRow) : Bool := f.cfg || decide (f.acc = .rw ∨ f.acc = .rwl ∨ f.acc = .rws)

/-- The encodings of a word that the table of its register ties together: WARN_C and THROT_C (R501), HOT_C and CRIT_C. -/
def wordLegal (row : RegRow) (v : Nat) : Bool :=
  if row.fields.any (fun f => decide (f.reg = .THM_LIMITS_WARN_C)) then
    let w := bits v 0 8
    let t := bits v 8 8
    decide (85 ≤ w ∧ w ≤ 135 ∧ w + 5 ≤ t ∧ t ≤ 145)
  else match row.fields.find? (fun f => decide (f.reg = .MEM_REF_CTL_HOT_C)), row.fields.find? (fun f => decide (f.reg = .MEM_REF_CTL_CRIT_C)) with
    | some h, some c => decide (bits v h.lo h.width + 5 ≤ bits v c.lo c.width)
    | _, _ => true

/-- A REG entry obeys R539. -/
def regEntryOk (off v : Nat) : Bool :=
  match regAt4 off with
  | none => false
  | some (row, _, j) =>
    if row.fields.any (fun f => f.cfg) then
      let fs := row.fields.filter FieldRow.settable
      let cover := fs.foldl (fun a f => (f.places j).foldl (fun a p => a + bits v p.2 f.width * 2 ^ p.2) a) 0
      decide (cover = v) && wordLegal row v && fs.all (fun f => (f.places j).all (fun p => legal f.reg (bits v p.2 f.width)))
    else row.fields.any (fun f => lockRegs.contains f.reg) && decide (v ≤ 1)

/-- Set the fields of one REG entry, but for those a test keeps. -/
def State.setEntry (s : State) (keep : RegKey → Bool) (lock : Bool) (e : Nat × Nat) : State :=
  match regAt4 e.1 with
  | none => s
  | some (row, i, j) =>
    row.fields.foldl (fun (s : State) f =>
      if (if lock then lockRegs.contains f.reg else f.settable) then
        (f.places j).foldl (fun (s : State) p =>
          if keep ⟨f.reg, i, p.1⟩ then s else s.put f.reg (bits e.2 p.2 f.width) i p.1) s
      else s) s

/-- The REG entries in force are applied in their order, LOCK bits after all others (R539). -/
def State.applyCfg (s : State) (keep : RegKey → Bool) : State :=
  let s := s.boot.regs.foldl (fun (s : State) e => s.setEntry keep false e) s
  s.boot.regs.foldl (fun (s : State) e => s.setEntry keep true e) s

/-- Every register but those a test keeps returns to its configuration-block value or its reset value. -/
def State.resetRegs (s : State) (keep : RegKey → Bool) : State := (s.keepRegs keep).applyCfg keep

/-! ### What resets keep -/

/-- The registers of the register images (R497), LOCK bits last. -/
def imageRegs : List Reg :=
  [.HPT_PORT_CFG_MODE, .HPT_PORT_CFG_MAXRATE, .HPT_PORT_CFG_SRIS, .HPT_BIND_BASE_BASE, .HPT_BIND_SIZE_SIZE, .HPT_BIND_TA_TABASE,
   .HPT_BIND_CTL_EN, .HPT_BIND_CTL_KIND, .HPT_BIND_CTL_TC, .HPT_BIND_CTL_ERR, .HPT_BIND_CTL_DC, .HPT_BIND_CTL_DCREG,
   .HPT_TAG_CTL_MAXTAG, .XLT_CTX_CFG_EN, .XLT_CTX_CFG_ROOTV, .XLT_CTX_CFG_ROOT, .XLT_CTX_MASK_CLMASK, .XLT_CTX_MASK_OBMASK,
   .XLT_CTX_MASK_DEFCL, .XLT_CTX_MASK_DEFOB, .XLT_WIN_BASE_LPN, .XLT_WIN_LIMIT_LPN, .XLT_S2_ROOT_A_MA, .XLT_S2_ROOT_B_MA,
   .XLT_TIER_CTL_EPOCH_MS, .XLT_TIER_CTL_COLD_EPOCHS, .XLT_TIER_CTL_INC, .XLT_TIER_CTL_WINC, .XLT_TIER_CTL_COLD_LATE,
   .XLT_BUDGET_BUDGET, .XLT_BUDGET_RED_BUDGET, .XLT_BUDGET_EVAC, .XLT_BUDGET_AMBER_PCT, .XLT_BUDGET_RED_PCT, .XLT_OBJ_FLOOR,
   .XLT_OBJ_CEIL, .XLT_OBJ_PROMO, .XLT_OBJ_AGE, .XLT_OBJ_LEND, .XLT_OBJ_TWIN, .XLT_OBJ_CODE, .XLT_ACCT_VALUE, .XLT_ACCT_TWL,
   .COH_DIR_CFG_BASE, .COH_DIR_CFG_SETLOG2, .COH_DIR_CFG_EN, .COH_SPEC_CTL_SPEC_EN, .COH_SPEC_CTL_T_FURN, .COH_SPEC_CTL_T_LEHR,
   .COH_SPEC_CTL_T_CULL, .COH_SPEC_CTL_MAXOUT, .COH_SPEC_CTL_PREF_EN, .COH_SPEC_CTL_PFLUSH, .COH_BI_CFG_BI_TMO,
   .COH_BI_CFG_BI_MAX, .COH_TWIN_CFG_TWIN_TMO, .CDC_CTL_VERIFY, .CDC_CTL_XSCOPE, .CDC_POL_LEHR_MODE, .CDC_POL_CULL_MODE,
   .CDC_POL_CULL_FRIT, .CDC_FSTORE_A_MA, .CDC_FSTORE_B_MA, .SEC_CTX_KS_KS, .SEC_ANS_BASE_LPN, .SEC_ANS_BASE_EN,
   .SEC_ANS_LIMIT_LPN, .SEC_ANS_LIMIT_EN, .SEC_CTL_RKEY, .SEC_CTL_EXHAUST_KS, .SEC_TREE_A_MA, .SEC_TREE_B_MA,
   .ECC_SCRUB_CFG_PERIOD_H, .ECC_SCRUB_CFG_EN, .ECC_MARK_CFG_MARK_THR, .ECC_MARK_CFG_MARK_WIN, .ECC_CODE_CLASS_JOB,
   .ECC_CODE_CLASS_SAMPLE, .ECC_OWNER_BASE_MA, .TLG_CFG_CAP, .TLG_GUAR_BW, .TLG_GUAR_EFF, .TLG_HQ_QUOTA, .TLG_HQ_COUNT,
   .TLG_HQ_WAITING, .TLG_SQ_QUOTA, .TLG_SQ_COUNT, .TLG_SQ_WAITING, .FLT_CTL_GRACE_US, .FLT_CTL_PINSEV, .FLT_CTL_ALERTSEV,
   .FLT_CTL_NOTE_MIRROR, .FLT_SEV_SEV_C, .FLT_SEV_V_C, .FLT_SEV_SEV_U, .FLT_SEV_V_U, .FLT_SEV_SEV_F, .FLT_SEV_V_F,
   .FLT_SEV_CHKFAIL, .JOB_CTL_UNIT_EN, .CVN_PORT_CFG_AUTO_UP, .CVN_PORT_CFG_MAXRATE, .CVN_PORT_CFG_COMPAT, .CVN_PORT_CFG_LOCK_TMO,
   .CVN_PORT_CFG_HOLD_MS, .CVN_PORT_CFG_LOST_S, .CVN_PORT_CFG_REPLAY_MAX, .CVN_PORT_CFG_LEND_EN, .CVN_PORT_CFG_BORROW_EN,
   .CVN_PORT_CFG_LEND_PCT, .CVN_PORT_CFG_LCLASS, .CVN_BORROW_MAX_MAX, .PMU_CTL_EVENT, .PMU_CTL_EN, .PMU_CTL_FILT, .PMU_CTL_FSET,
   .PMU_FS_MASK0_MASK, .PMU_FS_MASK1_MASK, .PMU_FS_BASE_LPN, .PMU_FS_LIMIT_LPN, .PMU_FS_SEL_CLSET, .PMU_FS_SEL_TIERSET,
   .PMU_FS_SEL_PRIVSET, .PMU_FS_SEL_RANGE_EN, .PMU_GCTL_FREEZE, .PWR_CTL_AUTO_PS1, .PWR_CTL_AUTO_PS2, .PWR_CTL_IDLE_US,
   .PWR_CTL_DROWSE_MS, .PWR_CTL_WAIT_S, .THM_LIMITS_WARN_C, .THM_LIMITS_THROT_C, .THM_LIMITS_STEP_MS, .HPT_LOCK_LOCK,
   .COH_LOCK_LOCK, .CDC_LOCK_LOCK, .SEC_LOCK_LOCK, .ECC_LOCK_LOCK, .MEM_LOCK_LOCK, .JOB_LOCK_LOCK, .CVN_LOCK_LOCK, .FLT_LOCK_LOCK,
   .SLT_LOCK_LOCK, .PWR_LOCK_LOCK, .THM_LOCK_LOCK, .PMU_LOCK_LOCK, .ACC_LOCK_LOCK]

/-- The registers a warm reset restores from the register images (R548). -/
def warmRegs : List Reg :=
  [.XLT_CTX_CFG_EN, .XLT_CTX_CFG_ROOTV, .XLT_CTX_CFG_ROOT, .XLT_CTX_MASK_CLMASK, .XLT_CTX_MASK_OBMASK, .XLT_CTX_MASK_DEFCL,
   .XLT_CTX_MASK_DEFOB, .XLT_WIN_BASE_LPN, .XLT_WIN_LIMIT_LPN, .XLT_S2_ROOT_A_MA, .XLT_S2_ROOT_B_MA, .XLT_ACCT_VALUE,
   .XLT_ACCT_TWL, .SEC_CTX_KS_KS, .SEC_ANS_BASE_LPN, .SEC_ANS_BASE_EN, .SEC_ANS_LIMIT_LPN, .SEC_ANS_LIMIT_EN, .SEC_TREE_A_MA,
   .SEC_TREE_B_MA, .CDC_FSTORE_A_MA, .CDC_FSTORE_B_MA, .ECC_OWNER_BASE_MA]

/-- The registers of the channel areas (R494). -/
def areaRegs : List Reg :=
  [.MEM_MAP0_SEL, .MEM_MAP1_SEL, .MEM_MAP2_SEL, .MEM_MAP3_SEL, .MEM_MAPX_XSEL, .MEM_FP_RATE, .MEM_FP_VALID, .MEM_FP_TRAINED,
   .MEM_TIM0_CL, .MEM_TIM0_CWL, .MEM_TIM0_RCD, .MEM_TIM0_RP, .MEM_TIM0_RAS, .MEM_TIM0_WR, .MEM_TIM1_RRD_S, .MEM_TIM1_RRD_L,
   .MEM_TIM1_CCD_L, .MEM_TIM1_CCD_L_WR, .MEM_TIM1_WTR_S, .MEM_TIM1_WTR_L, .MEM_TIM1_RTP, .MEM_TIM1_FAW, .MEM_TIM2_RFC1,
   .MEM_TIM2_RFCSB, .MEM_TIM2_REFI, .MEM_TIM_SEL_ACT, .MEM_REF_CTL_SB, .MEM_REF_CTL_HOT_C, .MEM_REF_CTL_CRIT_C,
   .MEM_REF_CTL_MAXPOST, .MEM_REF_CTL_FORCE_2X, .MEM_TRN_CTL_RETRAIN_S, .MEM_TRN_CTL_DRIFT_PS, .MEM_FRZ_CTL_FRZ_WIN,
   .MEM_FRZ_CTL_STORM_THR, .MEM_FRZ_CTL_HOLD_END]

/-- The registers of the Slot Guard die, which no warm reset touches: state, measurements and counts (R479). -/
def guardRegs : List Reg :=
  [.SLT_SG_STS_STATE, .SLT_SG_STS_PRSNT, .SLT_SG_STS_GATE, .SLT_SG_STS_PG, .SLT_SG_STS_TMR, .SLT_SG_STS_FET_SHORT,
   .SLT_SG_STS_ATTEMPTS, .SLT_SG_STS_LAST_FAULT, .SLT_SG_STS_LED, .SLT_SG_STS_THERM_HOLD, .SLT_SG_MEAS_VIN, .SLT_SG_MEAS_VOUT,
   .SLT_SG_MEAS_I, .SLT_SG_MEAS_TFET, .SLT_SG_CNT_FAULTS, .SLT_SG_CNT_RETRIES, .SLT_SG_CNT_PRESENCE, .SLT_SG_CNT_PRESSES,
   .SLT_SG_CNT_CLR, .SLT_STS_TAMB, .SLT_STS_TAMB_FAIL, .SLT_STS_FETSHORT, .SLT_STS_LINK_OK, .SLT_STS_SELFTEST_OK]

/-- The registers of the Slot Guard die that the configuration block sets. -/
def guardSetup : List Reg :=
  [.SLT_SG_LIM_ILIM, .SLT_SG_LIM_FT, .SLT_SG_LIM_RAMP, .SLT_SG_LIM_RETRY_T, .SLT_SG_LIM_RETRY_MAX, .SLT_SG_LIM_TLIM,
   .SLT_SG_MODEL_R1, .SLT_SG_MODEL_TAU1, .SLT_SG_MODEL_R2, .SLT_SG_MODEL_TAU2, .SLT_SG_MODEL_RSH, .SLT_CFG_TAMB_DEF,
   .SLT_CFG_TAMB_FITTED, .SLT_CFG_AUTO_ON, .SLT_CFG_BTN_EN]

/-- The registers of the secrets and of the power and thermal region (R494): key slots, sweeps, the unverifiable list, the halt record. -/
def secretRegs : List Reg :=
  [.SEC_KS_STS_STATE, .SEC_KS_STS_ORIGIN, .SEC_KS_STS_GEN, .SEC_KS_STS_REF, .SEC_KS_STS_SWEEP, .SEC_KS_STS_WORN,
   .SEC_KS_FLOOR_VALUE, .SEC_KS_HIGH_VALUE, .SEC_SWEEP_CTL_OLD, .SEC_SWEEP_CTL_NEW, .SEC_SWEEP_CTL_STATE, .SEC_SWEEP_CTL_BIND,
   .SEC_SWEEP_CTL_ZOLD, .SEC_SWEEP_CTL_TC, .SEC_SWEEP_CTL_NOSPACE, .SEC_SWEEP_FIRST_LPN, .SEC_SWEEP_LIMIT_LPN, .SEC_SWEEP_WAY_LPN,
   .SEC_STS_UNVER, .SEC_STS_UNVER_FULL, .SEC_STS_HALT_REC, .SEC_STS_ALARM_PEND]

/-- What no reset but that of its own takes away: the departures since cold reset, the reset status, OTP, the save generation, the fault sequence and the registers of PD_AON. -/
def fixedRegs : List Reg :=
  [.HPT_HEAD_STS_DEP_CNT, .GLB_RST_STS_LAST, .GLB_RST_STS_MEDIA_KEPT, .GLB_RST_STS_WARM_CNT, .GLB_OTP_SVN_MIN, .GLB_OTP_OWNED, .FLT_SEQ_NEXT,
   .PWR_SADDLE_STS_GEN, .PWR_SADDLE_STS_BAD, .PWR_WAKE_CFG_EN, .PWR_AON_TIMER_CMP, .PWR_LAST_WAKE_SRC, .PWR_LAST_WAKE_FROM,
   .PWR_LAST_WAKE_PORT, .PWR_LAST_WAKE_SLOT, .PWR_LAST_WAKE_AT, .PWR_RAIL_MON_MV, .PWR_RAIL_MON_TRIP, .PWR_RAIL_MON_CHAN]

end Sys2Proof.Machine
end

