-- ==== Sys2Proof/Machine/Start.lean ====
section
/-!
DEFINITION. The end of a boot: the fixed metadata areas (R579), the readiness of the media and what waits for it (R541 steps 7 and 8).
-/
namespace Sys2Proof.Machine
open Sys2Proof

/-- An area of the device, so many granules in each of two copies, goes to the two roomiest channels, or to the one there is (DESIGN CHOICE, log 50). -/
def State.addPair (s : State) (code n : Nat) : State :=
  let l := (List.range 16).filter s.canPlace
  match s.roomiest l with
  | none => s
  | some a => ((s.putCopy code n a).putCopy code n ((s.roomiest (lremove a l)).getD a)).showArea code

/-- The owner table and the snapshot ring of channel c, on another channel (R320, R354, R579): 3.125 % of its granules, and 40. -/
def State.placeOwner (s : State) (c : Nat) : State :=
  match s.roomiest ((List.range 16).filter (fun d => d ≠ c && s.canPlace d)) with
  | none => s
  | some d => (s.putCopy c (tgetD 0 c s.pg.chCap / 32 + 40) d).showArea c

/-- The areas of the device (R579): L0 copies, the pool of L1 and L2 nodes, the fixed tree area, the frit store, and the directory tables of homes
with directory records. Sizes in granules of a copy. -/
def State.placeDevice (s : State) : State :=
  let s := (((s.addPair 16 16).addPair 17 (65792 * 16)).addPair 18 (292 * 4096 + 2304)).addPair 19 2560
  (List.range 16).foldl (fun (s : State) n =>
    let size := 4 * 2 ^ s.get .COH_DIR_CFG_SETLOG2 n
    if ¬ s.isSet .COH_DIR_CFG_EN n then s
    else if s.cfgNames .COH_DIR_CFG_BASE n 0 then
      { s with pg := { s.pg with areas := tput (32 + n) { size := size, places := [s.get .COH_DIR_CFG_BASE n] } s.pg.areas } }
    else match s.roomiest ((List.range 16).filter s.canPlace) with
      | none => s
      | some d => (s.putCopy (32 + n) size d).showArea (32 + n)) s

/-- Fixed areas that have no place yet get one among the channels in service (R579). -/
def State.placeFixed (s : State) : State :=
  let s := (List.range 16).foldl (fun (s : State) c => if s.canPlace c ∧ (tget c s.pg.areas).isNone then s.placeOwner c else s) s
  (if (tget 16 s.pg.areas).isSome then s else s.placeDevice).recap

/-- STATUS of every head (R60). -/
def State.setStatus (s : State) (v : Nat) : State := (List.range 8).foldl (fun (s : State) h => s.put .HPT_DEV_STS_STATUS v h) s

/-- Heads whose port is out of reset begin link training (R542). -/
def State.trainHeads (s : State) : State :=
  (List.range 8).foldl (fun (s : State) h =>
    if s.host.perstHigh.contains (h / 2) ∧ (h % 2 = 0 ∨ s.host.x8.contains (h / 2)) ∧ ¬ s.isSet .HPT_HEAD_STS_LINK_UP h then
      s.setHead h { s.head h with training := true } else s) s

/-- Caravan ports with AUTO_UP begin DETECT. -/
def State.autoUp (s : State) : State :=
  [0, 1].foldl (fun (s : State) p =>
    if s.isSet .CVN_PORT_CFG_AUTO_UP p ∧ s.get .CVN_LINK_STS_STATE p = 0 then s.put .CVN_LINK_STS_STATE 1 p else s) s

/-- Step 8 of R541, once step 6 is complete and no channel's bring-up is left: media is ready. -/
def State.bootDone (s : State) : State :=
  if s.boot.phase ≠ 3 ∨ s.get .GLB_BOOT_STS_STEP ≠ 6 ∨ s.isSet .GLB_BOOT_STS_REFUSED ∨ s.get .HPT_DEV_STS_STATUS 0 ≠ stPending
      ∨ (List.range 16).any (fun c => s.get .SLT_CH_SVC_SVC c == 4) then s
  else
    let s := (s.placeFixed.put .GLB_BOOT_STS_STEP 8).put .GLB_BOOT_STS_BOOT_MS (min 0xFFFFFFFF ((s.now - s.boot.from') / 1000000))
    (s.setStatus stOk).autoUp

end Sys2Proof.Machine
end

