-- ==== Sys2Proof/Machine/Slot.lean ====
section
/-!
DEFINITION. The Slot Guard and DIMM service (16_slot_guard.md): the guards, the button, service of channels, the `slot` commands.
-/
namespace Sys2Proof.Machine
open Sys2Proof

def State.sg (s : State) (n : Nat) : Nat := s.get .SLT_SG_STS_STATE n

def State.setSg (s : State) (n st : Nat) : State := s.put .SLT_SG_STS_STATE st n

def State.svc (s : State) (c : Nat) : Nat := s.get .SLT_CH_SVC_SVC c

/-- A Note of a channel's service, under its position-0 slot (R476, R482). -/
def State.svcNote (s : State) (c : Nat) : State := s.report (msg1 bSlt (2 * c) 7)

/-! ### Guards (R463–R471) -/

/-- The averaged power P = I × VDS in a slot's transistor, in pW (R460): mA × nV, with VDS the voltage behind the shunt less VOUT. -/
def State.fetPower (s : State) (n : Nat) (m : SgMeas) : Int :=
  m.i.val * (1000000 * ((m.vin.val : Int) - m.vout.val) - m.i.val * s.get .SLT_SG_MODEL_RSH n)

/-- A pole of the model after a number of updates of 2 µs towards `goal`, `tau` being 2 µs into its time constant (R469). A fraction of 10⁻¹⁴ K
is dropped (DESIGN CHOICE, log 131). -/
def pole (goal tau : Int) : Nat → Int → Int
  | 0, d => d
  | k + 1, d => pole goal tau k (d + (goal - d) / tau)

/-- TFET of the model, in 10⁻¹⁴ °C (R469). -/
def State.tfet (s : State) (n : Nat) : Int := 6250000000000 * s.tamb + tgetD 0 n s.slt.d1 + tgetD 0 n s.slt.d2

/-- The measured values of a guard, and the updates of its transistor model that ran on them (R460, R469). -/
def State.measure (s : State) (n : Nat) (m : SgMeas) : State :=
  let s := ((s.put .SLT_SG_MEAS_VIN m.vin.val n).put .SLT_SG_MEAS_VOUT m.vout.val n).put .SLT_SG_MEAS_I m.i.val n
  let p := s.fetPower n m
  let d1 := pole (p * s.get .SLT_SG_MODEL_R1 n) (50 * s.get .SLT_SG_MODEL_TAU1 n) m.steps (tgetD 0 n s.slt.d1)
  let d2 := pole (10 * p * s.get .SLT_SG_MODEL_R2 n) (500 * s.get .SLT_SG_MODEL_TAU2 n) m.steps (tgetD 0 n s.slt.d2)
  let s : State := { s with slt := { s.slt with d1 := tput n d1 s.slt.d1, d2 := tput n d2 s.slt.d2 } }
  s.put .SLT_SG_MEAS_TFET (BitVec.ofInt 16 (s.tfet n / 6250000000000)).toNat n

/-- TFET has come down to TLIM − 20 °C (R465, R469). -/
def State.fetCool (s : State) (n : Nat) : Bool :=
  decide (s.tfet n ≤ 100000000000000 * ((s.get .SLT_SG_LIM_TLIM n : Int) - 20))

/-- No slot of the channel has PG: its controller asserts CHn_DRST_N (R463). -/
def State.drst (s : State) (c : Nat) : State :=
  s.setChan c { s.chan c with drstHigh := (slotsOfCh c).any (fun n => s.isSet .SLT_SG_STS_PG n) }

/-- Write PG, with the reset pin of the channel. -/
def State.setPg (s : State) (n v : Nat) : State := (s.put .SLT_SG_STS_PG v n).drst (n / 2)

/-- The gate is switched off. -/
def State.gateOff (s : State) (n : Nat) : State :=
  let s := ((s.put .SLT_SG_STS_GATE 0 n).put .SLT_SG_STS_TMR 0 n).setPg n 0
  { s with slt := { s.slt with rampDone := lremove n s.slt.rampDone } }

/-- A slot ramps (R464). -/
def State.ramp (s : State) (n : Nat) : State :=
  let s := (((s.put .SLT_SG_STS_GATE 1 n).put .SLT_SG_STS_TMR 0 n).setPg n 0).setSg n 3
  { s with slt := { s.slt with rampDone := lremove n s.slt.rampDone } }

/-- A powered slot of a channel in service has been switched off (R468): the controller freezes, and the thaw leads to a hold without
expiry. -/
def State.lostSlot (s : State) (n : Nat) (m : Option Msg) : State :=
  let c := n / 2
  if s.inService c then
    let s := s.freeze c 5 m []
    s.setChan c { s.chan c with hold := some .always }
  else match m with
    | some m => s.report m
    | none => s

/-- The slot is latched off (R465). -/
def State.latch (s : State) (n : Nat) : State := if s.sg n = 6 then s else (s.setSg n 6).report (msg2 bSlt n 6)

/-- A guard switches off with a fault: FET_SHORT, SENSE and PRES latch, every other one waits for a retry (R465). -/
def State.sgFault (s : State) (n fault sub : Nat) : State :=
  if ¬ s.isSet .SLT_SG_STS_GATE n then s
  else
    let s := ((s.gateOff n).put .SLT_SG_STS_LAST_FAULT fault n).bump .SLT_SG_CNT_FAULTS 0xFFFF n
    let s := s.lostSlot n (some (msg2 bSlt n sub))
    if fault = 5 then s.setSg n 6
    else if fault = 6 then s.latch n
    else (s.bump .SLT_SG_STS_ATTEMPTS 7 n).setSg n 5

/-- One evaluation of R463 on the measured values: trip, fault timer, power-good. ILIM is in 1/16 A. -/
def State.sgEval (s : State) (n : Nat) (m : SgMeas) : State :=
  let s := s.measure n m
  let gate := s.isSet .SLT_SG_STS_GATE n
  let lim := 1000 * s.get .SLT_SG_LIM_ILIM n
  if gate ∧ 2 * lim ≤ 16 * m.i.val then s.sgFault n 2 0
  else
    let tmr := s.isSet .SLT_SG_STS_TMR n
    let s := if gate ∧ lim < 16 * m.i.val ∧ ¬ tmr then s.put .SLT_SG_STS_TMR 1 n
      else if tmr ∧ 256 * m.i.val ≤ 15 * lim then s.put .SLT_SG_STS_TMR 0 n else s
    let tmr := s.isSet .SLT_SG_STS_TMR n
    if ¬ tmr ∧ s.slt.rampDone.contains n ∧ 92 * m.vin.val ≤ 100 * m.vout.val then
      (if s.sg n = 3 then s.setSg n 4 else s).setPg n 1
    else if tmr ∨ ¬ gate ∨ 100 * m.vout.val < 88 * m.vin.val then s.setPg n 0
    else s

/-- SG_FAST_TRIP (R463): I reaches 2 × ILIM. -/
def execSgFastTrip (n : Fin 32) (m : SgMeas) (s : State) : Res := .next (s.sgEval n.val m)

/-- SG_OVERCURRENT (R463): I exceeds ILIM; the fault timer starts and PG is 0. -/
def execSgOvercurrent (n : Fin 32) (m : SgMeas) (s : State) : Res := .next (s.sgEval n.val m)

/-- SG_OVERCURRENT_END (R463): I falls to 15/16 of ILIM; the timer stops and PG may rise. -/
def execSgOvercurrentEnd (n : Fin 32) (m : SgMeas) (s : State) : Res := .next (s.sgEval n.val m)

/-- SG_POWER_GOOD (R463): VOUT reaches 92 % of VIN after the ramp. -/
def execSgPowerGood (n : Fin 32) (m : SgMeas) (s : State) : Res := .next (s.sgEval n.val m)

/-- SG_FAULT_TIMER_EXPIRE (R463): the timer reaches FT. -/
def execSgFaultTimerExpire (n : Fin 32) (m : SgMeas) (s : State) : Res :=
  let s := s.measure n.val m
  .next (if s.isSet .SLT_SG_STS_TMR n.val then s.sgFault n.val 1 0 else s)

/-- SG_RAMP_DONE (R464): the ramp target has reached VIN and the gate is at full drive. -/
def execSgRampDone (n : Fin 32) (m : SgMeas) (s : State) : Res :=
  let s := s.measure n.val m
  .next (if s.sg n.val = 3 then { s with slt := { s.slt with rampDone := linsert n.val s.slt.rampDone } } else s)

/-- SG_RAMP_TIMEOUT (R464): PG has not been reached in time. -/
def execSgRampTimeout (n : Fin 32) (m : SgMeas) (s : State) : Res :=
  let s := s.measure n.val m
  .next (if s.sg n.val = 3 ∧ ¬ s.isSet .SLT_SG_STS_PG n.val then s.sgFault n.val 4 2 else s)

/-- SG_RETRY_EXPIRE (R465): RETRY_T elapses. The slot latches where ATTEMPTS has reached RETRY_MAX, and else ramps once the transistor is cool
and, after UVIN, VIN has been 10.8 V for 10 ms. -/
def execSgRetryExpire (n : Fin 32) (m : SgMeas) (s : State) : Res :=
  let s := s.measure n.val m
  if s.sg n.val ≠ 5 then .next s
  else if s.get .SLT_SG_LIM_RETRY_MAX n.val ≤ s.get .SLT_SG_STS_ATTEMPTS n.val then .next (s.latch n.val)
  else if s.fetCool n.val ∧ (s.get .SLT_SG_STS_LAST_FAULT n.val ≠ 8 ∨ 10800 ≤ m.vin.val) then
    .next ((s.bump .SLT_SG_CNT_RETRIES 0xFFFF n.val).ramp n.val)
  else .next s

/-- SG_ATTEMPTS_RESET (R465): PG has held for 10 s. -/
def execSgAttemptsReset (n : Fin 32) (s : State) : Res :=
  .next (if s.isSet .SLT_SG_STS_PG n.val then s.put .SLT_SG_STS_ATTEMPTS 0 n.val else s)

/-- A change of presence is accepted (R465, R466). -/
def State.seatChange (s : State) (n v : Nat) : State :=
  ((s.put .SLT_SG_STS_PRSNT v n).put .SLT_SG_STS_ATTEMPTS 0 n).bump .SLT_SG_CNT_PRESENCE 0xFFFF n

/-- The BOARD record declares a slot absent (R561). -/
def State.slotAbsent (s : State) (n : Nat) : Bool :=
  match tget (n / 2) s.mem.board with | some b => decide (b ≤ n % 2) | none => false

/-- SG_PRESENCE_ARRIVAL (R466, R561): the pin has been low for 16 ms. -/
def execSgPresenceArrival (n : Fin 32) (s : State) : Res :=
  if s.isSet .SLT_SG_STS_PRSNT n.val ∨ s.slotAbsent n.val then .next s
  else
    let s := s.seatChange n.val 1
    .next (if s.sg n.val = 0 then s.setSg n.val 2 else s)

/-- The DIMM of a slot is gone. -/
def State.unseat (s : State) (n : Nat) : State :=
  let s : State := { s with mem := { s.mem with dimms := tdel n s.mem.dimms }, slt := { s.slt with failed := lremove (n / 2) s.slt.failed } }
  s.setSg n 0

/-- SG_PRESENCE_LOSS (R466): the pin has been high for 1 µs with the gate on, or for 16 ms (`long`). A powered slot switches off with PRES at
once, and is EMPTY after 16 ms; every other slot becomes EMPTY. A FET_SHORT latch stays. -/
def execSgPresenceLoss (n : Fin 32) (long : Bool) (s : State) : Res :=
  let n := n.val
  let was := s.isSet .SLT_SG_STS_PRSNT n
  let on := s.isSet .SLT_SG_STS_GATE n
  if (was ∧ (on ∨ long)) ∨ (¬ was ∧ long ∧ s.sg n = 6 ∧ s.get .SLT_SG_STS_LAST_FAULT n = 5) then
    let s := if was then s.seatChange n 0 else s
    let s := s.sgFault n 5 3
    .next (if long then s.unseat n else s)
  else .next s

/-- SG_SENSE_FAULT (R467): a sense check fails on a slot whose gate is on. -/
def execSgSenseFault (n : Fin 32) (m : SgMeas) (s : State) : Res := .next ((s.measure n.val m).sgFault n.val 6 4)

/-- SG_UVIN (R467): VIN has stayed below 10.2 V for 100 µs. -/
def execSgUvin (n : Fin 32) (m : SgMeas) (s : State) : Res :=
  let s := s.measure n.val m
  .next (if m.vin.val < 10200 then s.sgFault n.val 8 4 else s)

/-- SG_THERM (R469): TFET ≥ TLIM. -/
def execSgTherm (n : Fin 32) (m : SgMeas) (s : State) : Res :=
  let s := s.measure n.val m
  .next (if 100000000000000 * (s.get .SLT_SG_LIM_TLIM n.val : Int) ≤ s.tfet n.val ∧ s.isSet .SLT_SG_STS_GATE n.val then
    (s.put .SLT_SG_STS_THERM_HOLD 1 n.val).sgFault n.val 3 1 else s)

/-- SG_THERM_HOLD_RELEASE (R469): TFET ≤ TLIM − 20 °C. -/
def execSgThermHoldRelease (n : Fin 32) (m : SgMeas) (s : State) : Res :=
  let s := s.measure n.val m
  .next (if s.fetCool n.val then s.put .SLT_SG_STS_THERM_HOLD 0 n.val else s)

/-- SG_FETSHORT_N is low while any guard holds the latch (R471). -/
def State.fetPin (s : State) : State :=
  s.put .SLT_STS_FETSHORT (b2n ((List.range 32).any (fun n => s.isSet .SLT_SG_STS_FET_SHORT n)))

/-- SG_FET_SHORT (R471): VOUT has stayed above 1.0 V for 10 ms while the slot is commanded off. -/
def execSgFetShort (n : Fin 32) (m : SgMeas) (s : State) : Res :=
  let s := s.measure n.val m
  if s.isSet .SLT_SG_STS_GATE n.val ∨ m.vout.val ≤ 1000 ∨ s.isSet .SLT_SG_STS_FET_SHORT n.val then .next s
  else
    let s := ((s.put .SLT_SG_STS_FET_SHORT 1 n.val).put .SLT_SG_STS_LAST_FAULT 7 n.val).fetPin
    .next ((s.report (msg2 bSlt n.val 5)).latch n.val)

/-- SG_TAMB_FAIL (R470): SG_TAMB has read `mv` mV for 1 ms. With a sensor fitted, a reading outside 0.100 V to 2.000 V puts TAMB_DEF in its
place; a good one, (V − 0.500 V) ÷ 0.010 V/°C in 1/16 °C, ends the failure. -/
def execSgTambFail (mv : Fin 65536) (s : State) : Res :=
  if ¬ s.isSet .SLT_CFG_TAMB_FITTED then .next s
  else if 100 ≤ mv.val ∧ mv.val ≤ 2000 then
    .next ((s.put .SLT_STS_TAMB_FAIL 0).put .SLT_STS_TAMB (BitVec.ofInt 16 (8 * ((mv.val : Int) - 500) / 5)).toNat)
  else if s.isSet .SLT_STS_TAMB_FAIL then .next s
  else .next ((s.put .SLT_STS_TAMB_FAIL 1).report (msg1 bSlt 32 2))

/-! ### Service of a channel (R475–R478) -/

/-- Why service of a channel may not start: STATUS and DETAIL (R475, R476, R481). A service under way refuses another start of its own channel
too (DEDUCED, log 49). -/
def State.svcRefusal (s : State) (c : Nat) : Option (Nat × Nat) :=
  if s.evacuating ∨ s.svc c = 2 ∨ s.svc c = 4 then some (stBusy, 0)
  else if ¬ s.evacReady c then some (stNoSpace, min 0xFFFFFFFF (s.evacLack c))
  else if ¬ s.isSet .MEM_CH_STS_EVAC_MARK c ∧ s.slt.marks.any (fun d => s.evacReady d) then some (stBusy, 0)
  else none

/-- Step 1 of R477. The channel's free granules leave USABLE (R262), and the factor follows (R434). -/
def State.startSvc (s : State) (c : Nat) (bycmd bymark press : Bool) : State :=
  let s : State := { s with slt := { s.slt with
    marks := lremove c s.slt.marks
    failed := lremove c s.slt.failed
    evacStart := tput c (s.chUsed c) s.slt.evacStart } }
  let s := (s.put .SLT_CH_SVC_SVC 1 c).put .SLT_CH_SVC_MARK_WAIT 0 c
  let s := ((s.put .SLT_CH_SVC_BYCMD (b2n bycmd) c).put .SLT_CH_SVC_BYMARK (b2n bymark) c).put .SLT_CH_SVC_CANCEL_OPEN (b2n press) c
  ((s.moveUnits c).recap.retoll).svcNote c

/-- The cancellation of a service (R478): the channel keeps service and rejoins allocation. -/
def State.cancelSvc (s : State) (c : Nat) : State :=
  let s := ((s.put .SLT_CH_SVC_SVC 0 c).put .SLT_CH_SVC_CANCEL_OPEN 0 c).put .SLT_CH_SVC_MARK_WAIT 0 c
  let s := (s.put .SLT_CH_SVC_BYCMD 0 c).put .SLT_CH_SVC_BYMARK 0 c
  let s := (s.recap.retoll).svcNote c
  s.endKind (fun k => k == .service c) stAborted 0 0

/-- A slot is switched off on command: to SAFE, or EMPTY where no DIMM is seated. -/
def State.toSafe (s : State) (n : Nat) : State :=
  (s.gateOff n).setSg n (if s.isSet .SLT_SG_STS_PRSNT n then 1 else 0)

/-- EVACUATION_COMPLETE (R477 steps 3 and 4): no granule of ROLE 1 to 6 remains on an EVACUATING channel. It goes OFFLINE, both slots are
switched off. -/
def execEvacuationComplete (c : Fin 16) (s : State) : Res :=
  let c := c.val
  if s.svc c ≠ 1 ∨ s.holdsPages c then .next s
  else
    let s := if s.chState c = 6 then s else s.takeOffline c
    let s := (s.put .SLT_CH_SVC_SVC 2 c).put .SLT_CH_SVC_CANCEL_OPEN 0 c
    .next (((s.toSafe (2 * c)).toSafe (2 * c + 1)).recap.retoll)

/-- SERVICE_DARK (R477 step 5): both outputs are below 1.0 V. -/
def execServiceDark (c : Fin 16) (v0 v1 : Fin 1000) (s : State) : Res :=
  let c := c.val
  if s.svc c ≠ 2 then .next s
  else
    let s := (s.put .SLT_SG_MEAS_VOUT v0.val (2 * c)).put .SLT_SG_MEAS_VOUT v1.val (2 * c + 1)
    .next (((s.put .SLT_CH_SVC_SVC 3 c).svcNote c).endKind (fun k => k == .service c) stOk 0 0)

/-- Step 7 of R477: every seated slot of the channel that is off ramps. -/
def State.bringup (s : State) (c : Nat) : State :=
  let s : State := { s with slt := { s.slt with failed := lremove c s.slt.failed, stopping := lremove c s.slt.stopping } }
  let s := (s.put .SLT_CH_SVC_SVC 4 c).put .SLT_CH_SVC_STEP 0 c
  (slotsOfCh c).foldl (fun (s : State) n =>
    if s.isSet .SLT_SG_STS_PRSNT n ∧ (s.sg n = 1 ∨ s.sg n = 2 ∨ s.sg n = 7) then s.ramp n else s) s

/-- Bring-up ends without the channel in service: `dark` after a cancellation (R577), else FAILED (R478). -/
def State.bringupEnds (s : State) (c : Nat) (dark : Bool) (slots : List Nat) : State :=
  let s := slots.foldl (fun (s : State) n => s.toSafe n) s
  let st := s.chState c
  let s := if s.inService c then s.takeOffline c else if st = 1 ∨ st = 7 then s.setChState c 6 else s
  let s : State := { s with slt := { s.slt with
    stopping := lremove c s.slt.stopping
    failed := lset c (!dark && slots.isEmpty) s.slt.failed } }
  let s := ((s.put .SLT_CH_SVC_SVC (if dark then 3 else 5) c).put .SLT_CH_SVC_STEP 0 c).svcNote c
  s.endKind (fun k => k == .powerOn c) (if dark then stAborted else stFaulted) 0 0

/-- Both slots of a channel that hold a DIMM, gate on or not. -/
def State.seated (s : State) (c : Nat) : List Nat := (slotsOfCh c).filter (fun n => s.isSet .SLT_SG_STS_PRSNT n)

/-- The SPDs have been read (R345, R477 step 8): DIMMs of powered slots are known; one that does not fit is switched off (R336, R337). -/
def State.readSpds (s : State) (c : Nat) (spd : Fin 2 → Option Dimm) : State :=
  let take := fun (s : State) (k : Fin 2) =>
    let n := 2 * c + k.val
    match spd k with
    | some d => if s.sg n = 4 then { s with mem := { s.mem with dimms := tput n d s.mem.dimms } }
      else { s with mem := { s.mem with dimms := tdel n s.mem.dimms } }
    | none => { s with mem := { s.mem with dimms := tdel n s.mem.dimms } }
  let s := (take (take s 0) 1).populate c
  let used := s.dimmsUsed c
  (s.seated c).foldl (fun (s : State) n => if used.contains n ∨ s.sg n ≠ 4 then s else s.toSafe n) s

/-- The present step of a bring-up is complete and the next starts (R477 steps 7–11, R478). -/
def State.bringupStep (s : State) (c : Nat) (spd0 spd1 : Option Dimm) : State :=
  if s.svc c ≠ 4 then s
  else
    let on := (s.seated c).any (fun n => s.sg n == 4)
    let stop := s.slt.stopping.contains c
    match s.get .SLT_CH_SVC_STEP c with
    | 0 =>
      if (s.seated c).any (fun n => s.sg n == 3) then s
      else if stop then s.bringupEnds c true (s.seated c)
      else if on then s.put .SLT_CH_SVC_STEP 1 c
      else if (s.seated c).any (fun n => s.sg n == 5) then s
      else s.bringupEnds c false []
    | 1 =>
      let s := s.readSpds c (fun k => if k = 0 then spd0 else spd1)
      if stop then s.bringupEnds c true (s.seated c)
      else if s.chState c = 7 then s.put .SLT_CH_SVC_STEP 2 c
      else s.bringupEnds c false (s.seated c)
    | 2 =>
      if s.chState c = 7 then s
      else if stop then s.bringupEnds c true (s.seated c)
      else if s.chState c = 1 then s.put .SLT_CH_SVC_STEP 3 c
      else s.bringupEnds c false (s.seated c)
    | _ =>
      if s.chState c = 1 ∧ s.mapCheck c then s
      else if stop then s.bringupEnds c true (s.seated c)
      else if ¬ s.inService c then s.bringupEnds c false (s.seated c)
      else
        let s := ((s.put .SLT_CH_SVC_SVC 0 c).put .SLT_CH_SVC_STEP 0 c).put .MEM_CH_STS_EVAC_MARK 0 c
        let s := (s.put .SLT_CH_SVC_BYCMD 0 c).put .SLT_CH_SVC_BYMARK 0 c
        ((s.placeFixed.retoll).svcNote c).endKind (fun k => k == .powerOn c) stOk 0 0

/-- BRINGUP_STEP_DONE (R477, R478, R541): `spd0`, `spd1`: what the SPDs of the two positions say, at step 8. Training and initialisation end by
TRAINING_DONE and MEDIA_INIT_DONE. The last bring-up of a boot makes the device ready. -/
def execBringupStepDone (c : Fin 16) (spd0 spd1 : Option Dimm) (s : State) : Res := .next (s.bringupStep c.val spd0 spd1).bootDone

/-- MARKED_EVACUATION_START (R476): the device starts the earliest-marked waiting channel whose EVAC_READY bit reads 1. -/
def execMarkedEvacuationStart (s : State) : Res :=
  if s.evacuating then .next s
  else match s.slt.marks.find? (fun c => s.evacReady c) with
    | some c => .next (s.startSvc c false true false)
    | none => .next s

/-- SERVICE_CANCEL_WINDOW_END (R478): 5 s have passed since the press that started the service. -/
def execServiceCancelWindowEnd (c : Fin 16) (s : State) : Res := .next (s.put .SLT_CH_SVC_CANCEL_OPEN 0 c.val)

/-- Bring-up of the channel could start: it is neither in service nor amid a service (DEDUCED, log 49). -/
def State.canBringUp (s : State) (c : Nat) : Bool := !s.inService c && decide (s.svc c = 0 ∨ s.svc c = 3 ∨ s.svc c = 5)

/-- SG_BUTTON_PRESS (R472, R475, R476): an accepted press. -/
def execSgButtonPress (n : Fin 32) (s : State) : Res :=
  let n := n.val
  let c := n / 2
  if ¬ s.isSet .SLT_CFG_BTN_EN then .next s
  else
    let s := s.bump .SLT_SG_CNT_PRESSES 0x7FFF n
    if s.svc c = 1 then .next (if s.isSet .SLT_CH_SVC_CANCEL_OPEN c then s.cancelSvc c else s)
    else if s.sg n = 4 ∧ s.svc c = 0 then
      match s.svcRefusal c with
      | none => .next (s.startSvc c false false true)
      | some _ => .next (({ s with slt := { s.slt with fast := linsert n s.slt.fast } } : State).svcNote c)
    else if (s.sg n = 1 ∨ s.sg n = 2) ∧ (s.svc c = 0 ∨ s.svc c = 3) ∧ s.canBringUp c then .next (s.bringup c)
    else .next s

/-- SERVICE_REFUSED_BLINK_END (R473): 3 s have passed. -/
def execServiceRefusedBlinkEnd (n : Fin 32) (s : State) : Res :=
  .next { s with slt := { s.slt with fast := lremove n.val s.slt.fast } }

/-! ### Commands (R480, R481) -/

/-- SLOT_QUERY (R480). -/
def execSlotQuery (q : Req) (s : State) : Res :=
  let n := par q 0x10 1
  let c := n / 2
  serve { op := 0x0A00, priv := 0, mctp := true, output := true, fields := [fld 0x10 1] } q (firstBad [(0x10, decide (n < 32))]) (fun s =>
    okOut s (s.word .SLT_SG_STS_STATE n) 64
      [(0x00, 8, s.word .SLT_SG_MEAS_VIN n), (0x08, 8, s.word .SLT_SG_LIM_ILIM n), (0x10, 8, s.word .SLT_SG_MODEL_R1 n),
       (0x18, 8, s.word .SLT_SG_CNT_FAULTS n), (0x20, 8, s.word .SLT_CH_SVC_SVC c), (0x28, 1, b2n (s.evacReady c)),
       (0x30, 8, s.chAlloc c), (0x38, 8, s.othersFree c)]) s

/-- SLOT_POWER_ON (R477, R480, R481). -/
def execSlotPowerOn (q : Req) (s : State) : Res :=
  let n := par q 0x10 1
  serve { op := 0x0A01, priv := 2, mctp := true, fields := [fld 0x10 1] } q (firstBad [(0x10, decide (n < 32))]) (fun s =>
    if ¬ (s.sg n = 1 ∨ s.sg n = 2 ∨ s.sg n = 7) then refuse s stStale 0
    else if ¬ s.canBringUp (n / 2) then busy s
    else pend (s.bringup (n / 2)) (.powerOn (n / 2))) s

/-- SLOT_POWER_OFF (R468, R480, R481). -/
def execSlotPowerOff (q : Req) (s : State) : Res :=
  let n := par q 0x10 1
  let force := parBit q 0x11 0
  serve { op := 0x0A02, priv := 2, mctp := true, fields := [fld 0x10 1, fbits 0x11 0 1] } q (firstBad [(0x10, decide (n < 32))]) (fun s =>
    if ¬ force ∧ s.chState (n / 2) ≠ 6 then busy s
    else if s.sg n = 0 ∨ s.sg n = 6 then ok s
    else
      let on := s.isSet .SLT_SG_STS_GATE n
      let s := (s.gateOff n).setSg n 7
      ok (if force ∧ on then (s.bump .SLT_SG_CNT_FAULTS 0xFFFF n).lostSlot n none else s)) s

/-- SLOT_SERVICE_START (R475–R477, R480, R481). -/
def execSlotServiceStart (q : Req) (s : State) : Res :=
  let c := par q 0x10 1
  serve { op := 0x0A03, priv := 2, mctp := true, fields := [fld 0x10 1] } q (firstBad [(0x10, decide (c < 16))]) (fun s =>
    match s.svcRefusal c with
    | some (st, d) => if st = stBusy then busy s else refuse s st d
    | none => pend (s.startSvc c true false false) (.service c)) s

/-- SLOT_SERVICE_CANCEL (R478, R480, R481). -/
def execSlotServiceCancel (q : Req) (s : State) : Res :=
  let c := par q 0x10 1
  serve { op := 0x0A04, priv := 2, mctp := true, fields := [fld 0x10 1] } q (firstBad [(0x10, decide (c < 16))]) (fun s =>
    if s.svc c = 1 then ok (s.cancelSvc c) else refuse s stStale 0) s

/-- The fields of `slot.set_limits`: register, offset, size, least and greatest value that is not 0, what is stored less. -/
def limitRows : List (Reg × Nat × Nat × Nat × Nat × Nat) :=
  [(.SLT_SG_LIM_ILIM, 0x14, 1, 4, 128, 0), (.SLT_SG_LIM_FT, 0x15, 2, 5, 1000, 0), (.SLT_SG_LIM_RAMP, 0x17, 1, 1, 24, 0),
   (.SLT_SG_LIM_RETRY_T, 0x18, 1, 1, 100, 0), (.SLT_SG_LIM_RETRY_MAX, 0x19, 1, 1, 8, 1), (.SLT_SG_LIM_TLIM, 0x1A, 1, 100, 175, 0)]

/-- Write the limits of one slot; those of the comparators apply to what is measured (R480). -/
def State.setLimits (s : State) (q : Req) (n : Nat) : State :=
  let s := limitRows.foldl (fun (s : State) r =>
    let v := par q r.2.1 r.2.2.1
    if v = 0 then s else s.put r.1 (v - r.2.2.2.2.2) n) s
  let m := fun (r : Reg) => Fin.ofNat 65536 (s.get r n)
  if s.isSet .SLT_SG_STS_GATE n then s.sgEval n ⟨m .SLT_SG_MEAS_VIN, m .SLT_SG_MEAS_VOUT, m .SLT_SG_MEAS_I, 0⟩ else s

/-- SLOT_SET_LIMITS (R461, R480, R481). -/
def execSlotSetLimits (q : Req) (s : State) : Res :=
  let mask := par q 0x10 4
  let slots := (List.range 32).filter (fun n => bit mask n)
  let ilim := par q 0x14 1
  serve { op := 0x0A05, priv := 2, mctp := true, fields := fld 0x10 4 :: limitRows.map (fun r => fld r.2.1 r.2.2.1) } q
    (firstBad ([(0x10, decide (mask ≠ 0))]
      ++ limitRows.map (fun r => (r.2.1, let v := par q r.2.1 r.2.2.1; decide (v = 0 ∨ (r.2.2.2.1 ≤ v ∧ v ≤ r.2.2.2.2.1))))
      ++ [(0x14, decide (ilim = 0) || slots.all (fun n => let p := ilim * s.get .SLT_SG_MODEL_RSH n; decide (16000 ≤ p ∧ p ≤ 1024000)))]))
    (fun s => ok (slots.foldl (fun (s : State) n => s.setLimits q n) s)) s

/-- SLOT_CLEAR_FAULT (R465, R471, R480, R481). -/
def execSlotClearFault (q : Req) (s : State) : Res :=
  let n := par q 0x10 1
  serve { op := 0x0A06, priv := 2, mctp := true, fields := [fld 0x10 1] } q (firstBad [(0x10, decide (n < 32))]) (fun s =>
    if s.sg n ≠ 6 then refuse s stStale 0
    else if s.isSet .SLT_SG_STS_FET_SHORT n ∧ 1000 ≤ s.get .SLT_SG_MEAS_VOUT n then busy s
    else
      let s := ((s.put .SLT_SG_STS_ATTEMPTS 0 n).put .SLT_SG_STS_FET_SHORT 0 n).fetPin
      ok (s.setSg n (if s.isSet .SLT_SG_STS_PRSNT n then 2 else 0))) s

end Sys2Proof.Machine
end

