-- ==== Sys2Proof/Machine/Power.lean ====
section
/-!
DEFINITION. Power states, the Saddlebag and the thermal model (17_power_thermal.md), and supply, clock and crystal failures (20, 21).
-/
namespace Sys2Proof.Machine
open Sys2Proof

/-! ### The drain (R486 steps 2–4, R548 steps 2 and 3) -/

/-- Agents' dirty lines, and dirty data on its way to a home or to a new owner, reach the homes. -/
def State.gather (s : State) : State :=
  let s := s.coh.wbData.foldl (fun (s : State) x => s.lcDirty x.2.line.val x.2.data x.2.poison 5 x.2.cls.val) s
  let s := s.coh.wbOut.foldl (fun (s : State) x => s.lcDirty (x.1 % 2 ^ 39) x.2.1 x.2.2 5 0) s
  let s := s.coh.dat.foldl (fun (s : State) (x : Nat × Nat × Line × Bool) =>
    let fwd : Bool := match s.trkOf (x.1 % 2 ^ 39) with
      | some t => t.forwarded || t.snoops.any (fun p => decide (64 ≤ p.2 ∧ p.2 % 16 = 5))
      | none => false
    if decide (x.2.1 = 3) && fwd then s.lcDirty (x.1 % 2 ^ 39) x.2.2.1 x.2.2.2 5 0 else s) s
  let s := s.coh.held.foldl (fun (s : State) x => if x.2.st = 4 then s.lcDirty (x.1 % 2 ^ 39) x.2.data x.2.poison 5 0 else s) s
  s.coh' (fun c => { c with held := [], sf := [], reqs := [], evs := [], wbData := [], wbOut := [], dat := [], trk := [], starv := [], holdQ := [], quotaQ := []
                            parked := [], spec := [], suspects := [], lc := c.lc.filter (fun x => !x.2.prov) })

/-- Sectors with dirty lines in a line cache. -/
def State.dirtySectors (s : State) : List Nat :=
  ((s.coh.lc.filter (fun x => x.2.dirty)).foldl (fun (l : List Nat) x => linsert (x.1 / 8) l) [])

/-- Every dirty line and tree node is written back, frit REF counts go to media, and the line caches empty. A line that cannot be written, its lender or its
channel being gone, becomes poison (DEDUCED, log 55). -/
def State.flushHomes (s : State) (d : Drain) : State :=
  let s := s.dirtySectors.foldl (fun (s : State) k =>
    match d.wbs.find? (fun w => 8 * w.lpn.val + w.k.val == k) with
    | some w => s.wbStep (k / 8) (k % 8) w.body w.hint w.f w.f2
    | none => s.wbStep (k / 8) (k % 8) [] 0 {} {}) s
  let left := (s.coh.lc.filter (fun x => x.2.dirty)).map (fun x => (x.1, (0 : Line), some 5))
  let s := ((s.storeLines left).coh' (fun c => { c with lc := [], missAt := [] })).flushTree (fun _ => true)
  s.saveRefs

/-- Postponed refreshes are issued and the ranks of a channel in service enter self-refresh. -/
def State.selfRefreshAll (s : State) : State :=
  (List.range 16).foldl (fun (s : State) c =>
    if ¬ s.inService c ∨ (s.chan c).selfRefresh then s
    else
      let s := (List.range (s.chan c).postponed).foldl (fun (s : State) _ => s.refresh c) (s.drainQueues c)
      let s := (s.maint c 4).maint c 11
      (s.setChan c { s.chan c with postponed := 0, selfRefresh := true }).emit (.dram c 5 0)) s

def State.drain (s : State) (d : Drain) : State := (s.gather.flushHomes d).selfRefreshAll

/-! ### Idleness (R485) -/

/-- The device is idle, but for operations a test sets aside and the `pwr.set_state` commands that wait. -/
def State.idle (s : State) (aside : OpKind → Bool) : Bool :=
  let c := s.coh
  c.reqs.isEmpty && c.trk.isEmpty && c.quotaQ.isEmpty && c.parked.isEmpty && c.twins.isEmpty && c.evs.isEmpty && s.xlt.waiting.isEmpty
    && s.job.jobs.isEmpty && s.pg.moves.isEmpty && !s.pg.cold
    && !s.pyx.slots.any (fun x => x.2.running && !aside x.2.kind)
    && s.host.rings.all (fun x => x.2.fetched.isEmpty && x.2.fetching == 0 &&
      decide (x.2.inFlight ≤ (s.pwr.waiters.filter (byRing (x.1 / 64) (x.1 % 64))).length))
    && !(List.range 4).any (fun k => s.sweeping k)
    && (List.range 16).all (fun c => s.get .SLT_CH_SVC_SVC c != 1 && (s.chState c == 0 || s.chState c == 2 || s.chState c == 6))

/-! ### Requests for a state (R484, R488, R490, R505, R506) -/

/-- A channel is frozen, held or changing frequency. -/
def State.chanHeld (s : State) : Bool := (List.range 16).any (fun c => decide (3 ≤ s.chState c ∧ s.chState c ≤ 5))

/-- `pwr.set_state` past its checks. -/
def setStateBody (q : Req) (s : State) : Ans :=
  let ps := s.get .PWR_STATE_PS
  let up := fun (s : State) => if ps = 2 then s.endWake else if ps = 1 then s.put .PWR_STATE_PS 0 else s
  match par q 0x10 1 with
  | 0 => ok (up s.cancelEntry)
  | 1 => ok (if ps = 1 then s else (up s.cancelEntry).put .PWR_STATE_PS 1)
  | 2 =>
    if s.chanHeld ∨ s.pwr.linkWait then busy s
    else if ps = 2 ∧ ¬ s.pwr.waking then ok s
    else
      let s : State := { s with pwr := { s.pwr with waiters := s.pwr.waiters ++ [q], again := s.pwr.again || s.pwr.waking } }
      { st := if s.pwr.waking then s else s.put .PWR_STATE_ENTERING 1, later := true }
  | _ =>
    if s.chanHeld ∨ s.pwr.linkWait ∨ (List.range 16).any (fun c => s.get .SLT_CH_SVC_SVC c != 0) ∨ (List.range 4).any (fun k => s.sweeping k)
        ∨ [0, 1].any (fun p => (s.port p).loanB.isSome || (s.port p).loanL.isSome) then busy s
    else
      let s := up s.cancelEntry
      pend (({ s with pwr := { s.pwr with linkWait := true } } : State).put .PWR_STATE_ENTERING 1) .ps3

/-- PWR_SET_STATE (R484, R488, R490, R505, R506, R553). During a firmware roll targets 2 and 3 wait. -/
def execPwrSetState (q : Req) (s : State) : Res :=
  serve { op := 0x0F01, priv := 2, mctp := true, fields := [fld 0x10 1] } q (firstBad [(0x10, decide (par q 0x10 1 ≤ 3))]) (fun s =>
    if 2 ≤ par q 0x10 1 ∧ 2 ≤ s.get .GLB_FW_STS_ROLL then
      { st := { s with pwr := { s.pwr with afterRoll := s.pwr.afterRoll ++ [q] } }, later := true }
    else setStateBody q s) s

/-- PWR_QUERY (R505). -/
def execPwrQuery (q : Req) (s : State) : Res :=
  serve { op := 0x0F00, priv := 0, mctp := true, output := true } q none (fun s =>
    okOut s (s.word .PWR_STATE_PS) 64
      [(0x00, 8, s.word .PWR_CTL_AUTO_PS1), (0x08, 8, s.word .PWR_DOM_STS_D), (0x10, 8, s.word .PWR_WAKE_CFG_EN),
       (0x18, 8, s.word .PWR_LAST_WAKE_SRC), (0x20, 8, s.word .PWR_SADDLE_STS_GEN),
       (0x28, 4, (List.range 31).foldl (fun n i => n + s.get .PWR_DOM_PWR_MW i) 0)]) s

/-- PWR_WAKE_CFG (R492, R505, R506). -/
def execPwrWakeCfg (q : Req) (s : State) : Res :=
  let m := par q 0x10 1
  serve { op := 0x0F02, priv := 2, mctp := true, fields := [fld 0x10 1, fld 0x18 4] } q (firstBad [(0x10, decide (m % 2 = 0 ∧ m < 128))]) (fun s =>
    ok ((s.put .PWR_WAKE_CFG_EN (m / 2)).put .PWR_AON_TIMER_CMP (par q 0x18 4))) s

/-! ### PS1 and PS2 (R484–R488) -/

/-- IDLE_TIMEOUT (R484): idle for IDLE_US the device enters PS1; idle for DROWSE_MS it begins to enter PS2. -/
def execIdleTimeout (s : State) : Res :=
  if ¬ s.alive ∨ ¬ s.idle (fun _ => false) ∨ s.isSet .PWR_STATE_ENTERING then .next s
  else match s.get .PWR_STATE_PS with
    | 0 => .next (if s.isSet .PWR_CTL_AUTO_PS1 then s.put .PWR_STATE_PS 1 else s)
    | 1 => .next (if s.isSet .PWR_CTL_AUTO_PS2 then s.put .PWR_STATE_ENTERING 1 else s)
    | _ => .next s

/-- PS1_EXIT (R484, R485): an event ends idleness. -/
def execPs1Exit (s : State) : Res := .next (if s.get .PWR_STATE_PS = 1 then (s.put .PWR_STATE_PS 0).cancelEntry else s)

/-- PS2_ENTRY_DONE (R483, R486): an entry that nothing has cancelled completes; the predictors and the rest of the slices but the metadata caches
switch off. -/
def execPs2EntryDone (d : Drain) (s : State) : Res :=
  if ¬ s.isSet .PWR_STATE_ENTERING ∨ s.pwr.linkWait ∨ ¬ s.alive ∨ ¬ s.idle (fun _ => false) then .next s
  else
    let s := (s.drain d).coh' (fun c => { c with pred := [] })
    let w := s.pwr.waiters
    let s : State := { s with pwr := { s.pwr with waiters := [], woken := [] } }
    let s := (s.put .PWR_STATE_PS 2).put .PWR_STATE_ENTERING 0
    .next (w.foldl (fun (s : State) q => s.reply q stOk 0 0 0 []) s)

/-- DEMAND_WAKE (R487, R488): an event in PS2 needs the slices (0), only the lowest healthy cluster (1), or PD_JOB (2). -/
def execDemandWake (what : Fin 3) (s : State) : Res :=
  if s.get .PWR_STATE_PS ≠ 2 then .next s
  else match what.val with
    | 0 => .next s.beginWake
    | 1 => .next s.wakeCluster
    | _ => .next { s with pwr := { s.pwr with woken := linsert 30 s.pwr.woken } }

/-- WAKE_DONE (R487, R488). -/
def execWakeDone (s : State) : Res := .next (if s.get .PWR_STATE_PS = 2 ∧ s.pwr.waking then s.endWake else s)

/-! ### PS3 (R490–R497) -/

/-- PS3_LINK_WAIT_TIMEOUT (R490): the device stays in PS0. -/
def execPs3LinkWaitTimeout (s : State) : Res :=
  if ¬ s.pwr.linkWait then .next s
  else
    let s := ({ s with pwr := { s.pwr with linkWait := false } } : State).put .PWR_STATE_ENTERING 0
    .next (s.endKind (fun k => k == .ps3) stTimeout 0 0)

/-- The blocks whose registers the images hold, in their order (R497), as numbers of 1 MiB of BAR4. -/
def imageBlocks : List Nat := [0x0F, 0x06, 0x07, 0x08, 0x0A, 0x0B, 0x05, 0x03, 0x09, 0x0E, 0x04, 0x11, 0x01, 0x02]

/-- The words of a register row that the images hold: offset, first field and indices; of `XLT_ACCT` those of k = 0 and 1. -/
def RegRow.words (row : RegRow) : List (Nat × RegKey) :=
  match row.fields.find? (fun f => imageRegs.contains f.reg) with
  | none => []
  | some f =>
    (List.range row.n1).flatMap (fun i => (List.range (if f.reg = .XLT_ACCT_VALUE then 2 else row.n2)).map (fun j =>
      (row.base + row.s1 * i + row.s2 * j, ⟨f.reg, i, j⟩)))

/-- The register images (R494, R497): 8 bytes a register, in ascending order of offset within each block. -/
def State.regImages (s : State) : List Byte :=
  (imageBlocks.flatMap (fun b =>
    ((regTable.filter (fun row => !row.bar2 && row.base / 0x100000 == b)).flatMap RegRow.words).mergeSort (fun x y => decide (x.1 ≤ y.1)))).flatMap
      (fun x => natBytes 8 (s.word x.2.r x.2.i x.2.j))

/-- The fault record queue as the Saddlebag holds it (R449, R494). -/
def State.queueBytes (s : State) : List Byte :=
  (List.range 256).flatMap (fun e => match tget e s.flt.recs with
    | some r => (List.range 4).flatMap (fun w => natBytes 8 (recWord r w))
    | none => List.replicate 32 0)

/-- The CRC of a region (R496). -/
def State.regionCrc (s : State) (gen r : Nat) : Nat :=
  match r with
  | 1 => crc32c s.queueBytes
  | 4 => let b := s.regImages; crc32c (b ++ List.replicate (0x11000 - b.length) 0)
  | r => Config.regionCrc r gen % 2 ^ 32

/-- The 256 bytes of the header (R496). -/
def State.bagHeader (s : State) (gen : Nat) : List Byte :=
  let h := natBytes 8 0x5ADB ++ natBytes 8 gen ++ natBytes 8 (s.get .FLT_SEQ_NEXT) ++ natBytes 8 s.regImages.length ++ List.replicate 32 0
    ++ (List.range 8).flatMap (fun r => natBytes 4 (s.regionCrc gen r))
  let h := h ++ List.replicate (0xFC - h.length) 0
  h ++ natBytes 4 (crc32c h)

/-- The Saddlebag is saved (R495, R496). -/
def State.saveBag (s : State) : State :=
  let gen := (s.get .PWR_SADDLE_STS_GEN + 1) % 2 ^ 32
  ({ s with pwr := { s.pwr with bag := s.bagHeader gen } } : State).put .PWR_SADDLE_STS_GEN gen

/-- Debug unlock ends (R528). -/
def State.debugOff (s : State) : State :=
  ({ s with acc := { s.acc with nonce := none, dbgUntil := 0 } } : State).put .ACC_DBG_LEVEL 0

/-- PS3_ENTRY (R490, R491, R495): every link is in L2 or L3, or down, and nothing runs: the Caravan ports go down and OFF, the drain runs, the
Saddlebag is saved, every domain but PD_AON switches off. -/
def execPs3Entry (d : Drain) (s : State) : Res :=
  if ¬ s.pwr.linkWait ∨ (List.range 8).any (fun h => s.isSet .HPT_HEAD_STS_LINK_UP h) ∨ ¬ s.idle (fun k => k == .ps3) then .next s
  else
    let s := [0, 1].foldl (fun (s : State) p => ((s.dropLink p).dropTwins p).put .CVN_LINK_STS_STATE 0 p) s
    let s := ((s.drain d).saveBag).debugOff
    let s : State := { s with pwr := { s.pwr with linkWait := false, waking := false, again := false, woken := [] } }
    let s := ((s.put .PWR_STATE_PS 3).put .PWR_STATE_ENTERING 0).setStatus stPending
    match s.findOp (fun k => k == .ps3) with
    | some (slot, _) => .next (s.endOp slot stOk 0 0)
    | none => .next s

/-- WAKE_SOURCE (R492): source `src` fires in PS3; `n`: the port of source 6, the slot of source 5. -/
def execWakeSource (src : Fin 7) (n : Fin 32) (s : State) : Res :=
  if s.get .PWR_STATE_PS ≠ 3 ∨ s.pwr.waking ∨ s.pwr.stopped ∨ src.val = 0 ∨ bit (s.get .PWR_WAKE_CFG_EN) (src.val - 1) = false then .next s
  else
    let s : State := { s with pwr := { s.pwr with waking := true } }
    let s := (s.put .PWR_LAST_WAKE_SRC src.val).put .PWR_LAST_WAKE_FROM 3
    let s := (s.put .PWR_LAST_WAKE_PORT (if src.val = 6 then n.val % 4 else 0)).put .PWR_LAST_WAKE_SLOT (if src.val = 5 then n.val else 0)
    .next (s.put .PWR_LAST_WAKE_AT s.aonCount)

/-- Media cannot be kept (R292, R496, R549): KTREE and KS0 are generated afresh, every other slot is EMPTY, no page has content, every account is
empty, and the channels have to be initialised. -/
def State.loseMedia (s : State) : State :=
  let s := (List.range 32).foldl (fun (s : State) k => ((s.put .SEC_KS_STS_STATE 0 k).put .SEC_KS_STS_ORIGIN 0 k).put .SEC_KS_STS_REF 0 k) s
  let s := ({ s with sec := { s.sec with keysA := [], keysB := [] } } : State).freshKeys.clearTree
  let s := (List.range 4).foldl (fun (s : State) k => s.stopSweep k) s
  let s := (List.range 64).foldl (fun (s : State) f =>
    (((s.put .CDC_FRIT_STS_VER0 0 f).put .CDC_FRIT_STS_VER1 0 f).put .CDC_FRIT_REF0_REF 0 f).put .CDC_FRIT_REF1_REF 0 f) s
  let s : State := { s with
    pg := { State.reset.pg with chCap := s.pg.chCap }
    coh := State.reset.coh
    cdc := State.reset.cdc
    xlt := State.reset.xlt
    ecc := { s.ecc with inj := [], hits := [], scrubAt := [], scrubFrom := [], bad := [] }
    cvn := ⟨[]⟩
    job := State.reset.job
    sec := { s.sec with unver := [], rebased := [], rekeyed := [], resumed := [] } }
  ((s.put .SEC_STS_UNVER 0).put .SEC_STS_UNVER_FULL 0).recountAll

/-- A channel trains afresh over its content (R348, R496, R541): its points as they train; without one it leaves service. -/
def State.retrainKept (s : State) (c : Nat) (ok : List (Fin 4)) : State :=
  let s := (List.range 4).foldl (fun (s : State) p => s.put .MEM_FP_TRAINED (b2n (s.isSet .MEM_FP_VALID c p && ok.any (fun q => q.val == p))) c p) s
  let bad := (List.range 4).any (fun p => s.isSet .MEM_FP_VALID c p && !s.isSet .MEM_FP_TRAINED c p)
  let s := if bad then s.report (msg2 bMem c 3) else s
  match s.trained c with
  | [] => s.takeOffline c
  | p :: _ => (s.put .MEM_CH_STS_FP p c).put .MEM_CH_STS_RATE (s.get .MEM_FP_RATE c p) c

/-- A failed region of the Saddlebag is reported (R496, R507). -/
def State.badRegion (s : State) (r sev : Nat) : State :=
  let s := s.put .PWR_SADDLE_STS_BAD (s.get .PWR_SADDLE_STS_BAD ||| 2 ^ r)
  s.report (match sev with | 1 => msg1 bPwr 0 2 r | 2 => msg2 bPwr 0 2 r | _ => msgFatal bPwr 0 2 r)

/-- What is lost with the power and thermal region (R496). -/
def State.losePower (s : State) : State :=
  let s := (List.range 4).foldl (fun (s : State) k => s.stopSweep k) s
  let s := (((s.unput .PWR_WAKE_CFG_EN).unput .PWR_AON_TIMER_CMP).put .SEC_STS_UNVER 0).put .SEC_STS_UNVER_FULL 0
  let lose := fun (c : CvnPort) => { c with loanB := none, loanL := none }
  { s with
    pwr := { s.pwr with base := 0, noDiode := false }
    pyx := { s.pyx with timeBase := 0 }
    sec := { s.sec with unver := [], rebased := [] }
    cvn := ⟨s.cvn.ports.map (fun x => (x.1, lose x.2))⟩ }

/-- Both copies of the secrets, or of the roots, have failed. -/
def keysLost (r : Restore) : Bool := (r.bad.contains 2 && r.bad.contains 3) || (r.bad.contains 5 && r.bad.contains 6)

/-- The Saddlebag is restored and checked (R496); registers are the caller's. -/
def State.restoreBag (s : State) (r : Restore) : State :=
  let s := s.put .PWR_SADDLE_STS_BAD 0
  let s := if r.bad.contains 0 then s.losePower.badRegion 0 2 else s
  let s := if r.bad.contains 1 then ({ s with flt := { s.flt with recs := [] } } : State).badRegion 1 1 else s
  let pair := fun (s : State) (a b : Nat) =>
    if r.bad.any (fun x => x.val == a) ∧ r.bad.any (fun x => x.val == b) then
      let s := s.put .PWR_SADDLE_STS_BAD (s.get .PWR_SADDLE_STS_BAD ||| 2 ^ a)
      s.badRegion b 3
    else if r.bad.any (fun x => x.val == a) then s.badRegion a 1
    else if r.bad.any (fun x => x.val == b) then s.badRegion b 1 else s
  let s := pair (pair s 2 3) 5 6
  let s := if r.bad.contains 4 then s.badRegion 4 2 else s
  let s := if r.areas = [] then s else s.badRegion 7 1
  if keysLost r then s.loseMedia else s

/-- Registers of the register images but the LOCK bits keep their values over PS3 (R497), with what has its own power or is rebuilt. -/
def ps3Keep (images : Bool) (k : RegKey) : Bool :=
  (images && imageRegs.contains k.r) || areaRegs.contains k.r || guardRegs.contains k.r || guardSetup.contains k.r || secretRegs.contains k.r
    || fixedRegs.contains k.r
    || (match k.r with
      | .MEM_CH_STS_STATE | .MEM_CH_STS_FP | .MEM_CH_STS_RATE | .MEM_CH_STS_TYPE | .MEM_CH_STS_DIMMS | .MEM_CH_STS_RANKS | .MEM_CH_STS_X8
      | .MEM_CH_STS_CIDB | .MEM_CH_STS_EVAC_MARK | .MEM_RFM_CFG_RFM_EN | .MEM_RFM_CFG_PRAC_EN | .MEM_RFM_CFG_RAAIMT | .MEM_RFM_CFG_RAAMMT
      | .MEM_RFM_CFG_RAADEC | .MEM_GLB_GRAIN | .ENG_STS_STATE | .ENG_GLB_HEALTHY | .ENG_GLB_RETIRED | .GLB_BOOT_STS_STEP | .GLB_BOOT_STS_FWCOPY
      | .GLB_BOOT_STS_BOOT_ALT | .GLB_BOOT_STS_ROMREC | .GLB_BOOT_STS_REFUSED | .GLB_BOOT_STS_CAUSE | .GLB_BOOT_STS_BADCOPY
      | .GLB_BOOT_STS_BOOT_MS | .GLB_CFG_STS_GEN | .GLB_FW_VER_VERSION | .HPT_DEV_STS_STEWARD | .SLT_CH_SVC_MARK_WAIT
      | .CDC_FRIT_STS_CUR | .CDC_FRIT_STS_VER0 | .CDC_FRIT_STS_VER1 | .CDC_FRIT_STS_SCOPED | .CDC_FRIT_STS_SCOPE | .CDC_FRIT_REF0_REF
      | .CDC_FRIT_REF1_REF | .XLT_CAP_COUNT | .XLT_ACCT_VALUE | .XLT_PRESS_STS_LEVEL | .XLT_PRESS_STS_SHORTFALL | .TLG_STS_F | .TLG_STS_DERATED
      | .TLG_STS_N_NOM | .TLG_STS_N | .TLG_STS_DELIV_NOM | .TLG_STS_DELIV | .TLG_STS_EVAC | .TLG_GUAR_EFF | .TLG_CH_STS_RSV_NORM
      | .TLG_CH_STS_RSV_HOT | .TLG_CH_STS_COUNTED | .TLG_CH_STS_BW | .TLG_CH_STS_FRAME_NS | .TLG_CH_SLOT_SLOTS | .THM_DIODE_HEALTHY
      | .PWR_AVS_VMEAS | .ECC_SELFTEST_SLICE_FAIL | .ECC_SELFTEST_CLUSTER_FAIL | .ECC_SELFTEST_PORT_FAIL | .JOB_UNIT_STS_RETIRED => true
      | _ => false)

/-- What switching the domains off takes with it: caches, queues of tiering, the directory (no host holds a line), dictionaries, injections, the
heads' logs and sessions, the temperature rises. -/
def State.darkness (s : State) : State :=
  let s := (s.coh.dir.map (·.1)).foldl (fun (s : State) l => s.dirFix l) s
  let head := fun (h : HeadSt) => ({ subsysVendor := h.subsysVendor, subsysId := h.subsysId } : HeadSt)
  { s with
    coh := State.reset.coh
    xlt := { s.xlt with tlb := [] }
    pg := { s.pg with promoQ := [], demoQ := [], forcedQ := [] }
    cdc := { s.cdc with built := none, cache := [] }
    job := State.reset.job
    ecc := { s.ecc with inj := [] }
    sec := { s.sec with sessions := [], secrets := [] }
    host := { s.host with heads := s.host.heads.map (fun x => (x.1, head x.2)), rings := [] }
    pwr := { s.pwr with rises := [], diodeBad := [], diodeGood := [] } }

/-- PD_FAB has power again: the L0 node is reloaded from copy A, or from copy B, from which A is rewritten (R121, R127). -/
def State.reloadL0 (s : State) (e : Option Bool) : State :=
  match e with
  | none => s
  | some false => s.report (msg1 bSlc s.capSlice 9)
  | some true => { s with pg := { s.pg with badNodes := linsert 0 s.pg.badNodes } }

/-- PS3_EXIT_DONE (R121, R493, R496, R497): the Saddlebag is restored, the channels leave self-refresh and run ZQ, the device is in PS0 and ready,
heads may train and Caravan ports with AUTO_UP begin DETECT. `late`: the exit has taken more than 5 ms. -/
def execPs3ExitDone (r : Restore) (late : Bool) (s : State) : Res :=
  if s.get .PWR_STATE_PS ≠ 3 ∨ ¬ s.pwr.waking ∨ s.pwr.stopped then .next s
  else
    let s : State := { s with pwr := { s.pwr with waking := false } }
    let s := ((s.darkness.resetRegs (ps3Keep (!r.bad.contains 4))).restoreBag r).countEngines
    let s := s.exitSelfRefresh
    let s := (List.range 16).foldl (fun (s : State) c => if s.inService c then (s.maint c 10).emit (.dram c 4 0) else s) s
    let s := if keysLost r then (List.range 16).foldl (fun (s : State) c => if s.inService c then s.setChState c 1 else s) s
      else r.areas.foldl (fun (s : State) a => s.retrainKept a.1.val a.2) s
    let s := ((s.put .PWR_STATE_PS 0).put .PWR_STATE_ENTERING 0).setStatus stOk
    let s := if late then s.report (msg2 bPwr 0 3) else s
    .next ((s.reloadL0 r.l0).recap.retoll.trainHeads.autoUp)

/-! ### The thermal model (R498–R501) -/

/-- dT and T of a node. -/
def State.rise (s : State) (i : Nat) : Rat := tgetD 0 i s.pwr.rises
def State.temp (s : State) (i : Nat) : Rat := s.pwr.base + s.rise i

/-- A temperature in 1/16 °C, two's complement of 16 bits. -/
def s16 (t : Rat) : Nat := ((16 * t).floor % 65536).toNat

/-- The hottest node of the main die, the lowest-numbered of a tie. -/
def State.hottest (s : State) : Nat := (List.range 63).foldl (fun b i => if s.temp b < s.temp i then i else b) 0

/-- One update of node i on the powers p of the 31 domains and the VDD_SG33 monitor, in W. -/
def State.nodeStep (s : State) (p : Nat → Rat) (i : Nat) : Rat :=
  let pi := (List.range 32).foldl (fun a d => a + Config.thermW i d * p d) 0
  let flow := (List.range 64).foldl (fun a j => a + Config.thermG i j * (s.rise j - s.rise i)) 0
  s.rise i + Config.thermC i * (pi - Config.thermG0 i * s.rise i + flow)

/-- LEVEL at a temperature (R501). -/
def levelAt (was : Nat) (t warn throt : Rat) : Nat :=
  if throt ≤ t ∨ (was = 2 ∧ throt - 5 ≤ t) then 2
  else if warn ≤ t ∨ (1 ≤ was ∧ warn - 5 ≤ t) then 1 else 0

/-- The thresholds are judged (R501, R507). -/
def State.judgeTemp (s : State) : State :=
  let n := s.hottest
  let t := s.temp n
  let was := s.get .THM_STS_LEVEL
  let l := levelAt was t (s.get .THM_LIMITS_WARN_C) (s.get .THM_LIMITS_THROT_C)
  let s := ((s.put .THM_STS_TMAX (s16 t)).put .THM_STS_HOTNODE n).put .THM_STS_LEVEL l
  let s := if (was = 0) = (l = 0) then s else s.report (msg1 bThm 0 0)
  if (was = 2) = (l = 2) then s else s.report (msg1 bThm 0 1)

/-- The main die has power. -/
def State.fabOn (s : State) : Bool := decide (s.boot.phase = 3) && s.get .PWR_STATE_PS != 3 && !s.pwr.stopped

/-- THERMAL_MODEL_UPDATE (R498, R501): `p`: the powers of PWR instances 0–30 and of VDD_SG33, in mW. -/
def execThermalModelUpdate (p : List (Fin (2 ^ 24))) (s : State) : Res :=
  if ¬ s.fabOn then .next s
  else
    let mw : Nat → Nat := fun d => match p[d]? with | some x => x.val | none => 0
    let rises := (List.range 64).map (fun i => (i, s.nodeStep (fun d => (mw d : Rat) / 1000) i))
    let s : State := { s with pwr := { s.pwr with rises := rises } }
    let s := (List.range 31).foldl (fun (s : State) d => s.put .PWR_DOM_PWR_MW (mw d) d) s
    .next s.judgeTemp

/-- The lower median of temperatures. -/
def insertRat (x : Rat) : List Rat → List Rat
  | [] => [x]
  | y :: l => if x ≤ y then x :: y :: l else y :: insertRat x l

def median (l : List Rat) : Rat := (l.foldr insertRat []).getD ((l.length - 1) / 2) 0

/-- The nearest integer, halves upward. -/
def roundRat (x : Rat) : Int := (x + 1 / 2).floor

/-- The health of a diode after a calibration (R499): in range or not; its difference from B' in agreement or not. -/
def State.diode (s : State) (d : Nat) (inRange agrees : Bool) : State :=
  let good := s.isSet .THM_DIODE_HEALTHY d
  if good then
    let n := if agrees then 0 else tgetD 0 d s.pwr.diodeBad + 1
    let s : State := { s with pwr := { s.pwr with diodeBad := tputD 0 d n s.pwr.diodeBad } }
    if ¬ inRange ∨ 3 ≤ n then
      let s : State := { s with pwr := { s.pwr with diodeBad := tdel d s.pwr.diodeBad, diodeGood := tdel d s.pwr.diodeGood } }
      (s.put .THM_DIODE_HEALTHY 0 d).report (msg1 bThm (1 + d) 4)
    else s
  else
    let n := if inRange ∧ agrees then tgetD 0 d s.pwr.diodeGood + 1 else 0
    let s : State := { s with pwr := { s.pwr with diodeGood := tputD 0 d (if 100 ≤ n then 0 else n) s.pwr.diodeGood } }
    if 100 ≤ n then s.put .THM_DIODE_HEALTHY 1 d else s

/-- MODEL (R500): 0 good, 1 degraded, 2 failed. -/
def modelOf (healthy : Nat) : Nat := if healthy < 4 then 2 else if healthy < 8 then 1 else 0

/-- B after a calibration (R499, R500), from the B_d of the healthy diodes. -/
def State.newBase (s : State) (bs : List Rat) (healthy : List Rat) : Rat :=
  match healthy with
  | [] => if s.pwr.noDiode then s.pwr.base else s.pwr.base + 15
  | b :: l =>
    if healthy.length < 4 then l.foldl max b + 5
    else
      let t := median bs
      if s.pwr.base + 2 < t then s.pwr.base + 2 else if t < s.pwr.base - 2 then s.pwr.base - 2 else t

/-- DIODE_CALIBRATION (R499, R500, R504): `t`: the readings of the 24 diodes in 1/16 °C. A failed model forces throttle steps 1 to 3. -/
def execDiodeCalibration (t : List Int) (s : State) : Res :=
  if ¬ s.fabOn then .next s
  else
    let deg := fun d => ((t.getD d 0 : Int) : Rat) / 16
    let inRange := fun d => decide (-50 ≤ deg d ∧ deg d ≤ 175)
    let bd := fun d => deg d - s.rise (s.get .THM_DIODE_NODE d)
    let bs := ((List.range 24).filter (fun d => s.isSet .THM_DIODE_HEALTHY d && inRange d)).map bd
    let ref := if bs = [] then s.pwr.base else median bs
    let s := (List.range 24).foldl (fun (s : State) d =>
      (s.put .THM_DIODE_T ((t.getD d 0) % 65536).toNat d).diode d (inRange d) (decide (bd d - ref ≤ 8 ∧ ref - bd d ≤ 8))) s
    let ok := (List.range 24).filter (fun d => s.isSet .THM_DIODE_HEALTHY d)
    let base := s.newBase bs (ok.map bd)
    let model := modelOf ok.length
    let was := s.get .THM_STS_MODEL
    let s : State := { s with pwr := { s.pwr with base := base, noDiode := ok.isEmpty } }
    let s := (s.put .THM_STS_HEALTHY ok.length).put .THM_STS_MODEL model
    let s := if was < model then s.report (msg2 bThm 0 3) else s
    let s := if model = 2 ∧ s.get .PWR_STATE_PS < 2 then s.put .THM_STS_STEP (max 3 (s.get .THM_STS_STEP)) else s
    let ta := s.temp Config.aonNode
    .next { s with pwr := { s.pwr with
      rcTrim := if s.pwr.crystal then s.pwr.rcTrim else Config.rcBase + roundRat (Config.rcK * (ta - 25))
      t63 := s.temp 63
      ownSensor := decide (model = 2) } }

/-! ### Throttle and shutdown (R502, R503) -/

/-- The step after a period (R500, R502). -/
def nextStep (k : Nat) (t throt : Rat) (failed : Bool) : Nat :=
  let k := if throt ≤ t then min 8 (k + 1) else if t < throt - 5 then k - 1 else k
  if failed then max 3 k else k

/-- THROTTLE_STEP (R489, R500, R502): STEP_MS passes. Steps 6 to 8 take 1 to 3 points off the top of every channel. -/
def execThrottleStep (s : State) : Res :=
  if ¬ s.alive ∨ 2 ≤ s.get .PWR_STATE_PS then .next s
  else
    let k := nextStep (s.get .THM_STS_STEP) (s.temp s.hottest) (s.get .THM_LIMITS_THROT_C) (s.get .THM_STS_MODEL == 2)
    let s := s.put .THM_STS_STEP k
    .next ((List.range 16).foldl (fun (s : State) c =>
      if s.inService c then (s.setChan c { s.chan c with throttle := k - 5 }).askThrottle c else s) s)

/-- The device stops (R8): every link down, every channel in self-refresh. -/
def State.stopDevice (s : State) : State :=
  let s := (List.range 8).foldl (fun (s : State) h => s.depart h) s
  let s := ((s.dropLink 0).dropLink 1).selfRefreshAll
  { s with pwr := { s.pwr with stopped := true } }

/-- THERMAL_SHUTDOWN (R501, R503): TMAX is at 155 °C, or in PS3 the comparator on diode 0 trips. -/
def execThermalShutdown (s : State) : Res :=
  if s.pwr.stopped ∨ s.boot.phase = 0 ∨ ¬ (s.get .PWR_STATE_PS = 3 ∨ 155 ≤ s.temp s.hottest) then .next s
  else
    let s := s.report (msgFatal bThm 0 2)
    .next ({ s with pwr := { s.pwr with trip := true } } : State).stopDevice

/-- THERMTRIP_RELEASE (R503): diode 0 reads below 120 °C (reading in 1/16 °C). -/
def execThermtripRelease (t : Int) (s : State) : Res :=
  .next (if s.pwr.trip ∧ t < 16 * 120 then { s with pwr := { s.pwr with trip := false } } else s)

/-- SG_TEMPERATURE_VALUE_TIMEOUT (R504). -/
def execSgTemperatureValueTimeout (s : State) : Res := .next { s with pwr := { s.pwr with ownSensor := true } }

/-- THM_QUERY (R498, R505). -/
def execThmQuery (q : Req) (s : State) : Res :=
  serve { op := 0x0F03, priv := 0, mctp := true, output := true } q none (fun s =>
    okOut s (s.word .THM_STS_TMAX) 384 ((List.range 64).map (fun i => (2 * i, 2, s16 (s.temp i)))
      ++ (List.range 24).map (fun d => (0x80 + 8 * d, 8, s.word .THM_DIODE_T d)) ++ [(0x140, 8, s16 s.pwr.base), (0x148, 8, Config.thermPrint)])) s

/-- THM_SET_LIMITS (R501, R505, R506): 0 keeps a field. -/
def execThmSetLimits (q : Req) (s : State) : Res :=
  let keep := fun (v was : Nat) => if v = 0 then was else v
  let w := keep (par q 0x10 1) (s.get .THM_LIMITS_WARN_C)
  let t := keep (par q 0x11 1) (s.get .THM_LIMITS_THROT_C)
  let m := keep (par q 0x12 1) (s.get .THM_LIMITS_STEP_MS)
  serve { op := 0x0F04, priv := 2, mctp := true, fields := [fld 0x10 3] } q
    (firstBad [(0x10, decide (85 ≤ w ∧ w ≤ 135)), (0x11, decide (w + 5 ≤ t ∧ t ≤ 145)), (0x12, decide (1 ≤ m ∧ m ≤ 100))]) (fun s =>
      ok (((s.put .THM_LIMITS_WARN_C w).put .THM_LIMITS_THROT_C t).put .THM_LIMITS_STEP_MS m)) s

/-! ### Supplies and clocks (R558, R562, R565) -/

/-- SUPPLY_TRIP (R565): the monitor of a rail trips at `mv`; for rail 4, on these channels. Monitors of VDD_CORE and VDD_SRAM are ignored during a
thermal shutdown. -/
def execSupplyTrip (rail : Fin 8) (chans : List (Fin 16)) (mv : Fin 8192) (s : State) : Res :=
  if s.boot.phase = 0 ∨ (s.pwr.trip ∧ rail.val ≤ 1) ∨ (rail.val = 4 ∧ chans = []) then .next s
  else
    let c := match chans with | c :: _ => c.val | [] => 0
    let s := (s.put .PWR_RAIL_MON_MV mv.val rail.val).put .PWR_RAIL_MON_TRIP 1 rail.val
    let s := if rail.val = 4 then s.put .PWR_RAIL_MON_CHAN c 4 else s
    let m := msgFatal bPwr 31 rail.val (if rail.val = 4 then c else 0)
    match rail.val, chans with
    | 4, [_] =>
      if s.inService c then
        let s := s.freeze c 6 (some m) []
        .next (s.setChan c { s.chan c with hold := some .always })
      else .next (s.report m)
    | 6, _ =>
      let s := (s.report m).stopDevice
      .next { s with flt := { s.flt with ring := [] }, sec := { s.sec with haltRec := none }, pwr := { s.pwr with trip := false, bag := [] } }
    | 7, _ => .next (((List.range 32).foldl (fun (s : State) n => s.gateOff n) (s.report m)).stopDevice)
    | _, _ => .next (s.report m).stopDevice

/-- CRYSTAL_FAILURE (R504, R558): the AON domain runs on the RC oscillator. -/
def execCrystalFailure (s : State) : Res :=
  .next (if s.pwr.crystal then ({ s with pwr := { s.pwr with crystal := false } } : State).report (msg1 bGlb 1 1) else s)

/-- PLL_LOCK_LOSS (R10, R558): reported; the spec states no further action. -/
def execPllLockLoss (s : State) : Res := .next (s.report (msgFatal bGlb 1 0))

end Sys2Proof.Machine
end

