-- ==== Sys2Proof/Machine/CfgBlock.lean ====
section
/-!
DEFINITION. The contents of the boot flash (20_startup_firmware.md): the selector, firmware headers, the configuration block, their checks
(R535–R540), and what a valid block sets.
-/
namespace Sys2Proof.Machine
open Sys2Proof

/-- Bytes of a flash area; what has not been written reads erased. -/
def flashRead (bs : List Byte) (off n : Nat) : List Byte :=
  let l := (bs.drop off).take n
  l ++ List.replicate (n - l.length) 0xFF

/-- A field of a flash area, little-endian. -/
def flashNat (bs : List Byte) (off n : Nat) : Nat := leNat (flashRead bs off n)

/-! ### Firmware (R536, R537) -/

/-- SEL and COUNT of a selector sector, where it is valid: MAGIC and CRC pass (R536). -/
def selectorOf (bs : List Byte) : Option (Nat × Nat) :=
  if flashNat bs 0 4 = 0x53454C30 ∧ flashNat bs 0x10 4 = crc32c (flashRead bs 0 0x10) then some (flashNat bs 4 4 % 2, flashNat bs 8 8) else none

/-- The bytes of a selector sector. -/
def selBytes (copy count : Nat) : List Byte :=
  let b := natBytes 4 0x53454C30 ++ natBytes 4 copy ++ natBytes 8 count
  b ++ natBytes 4 (crc32c b)

/-- What a selector sector says. -/
def State.selAt (s : State) (k : Nat) : Option (Nat × Nat) := selectorOf (tgetD [] k s.boot.sels)

/-- The copy the selector names (R536): that of the valid sector with the higher COUNT; copy A without one. -/
def State.selected (s : State) : Nat :=
  match s.selAt 0, s.selAt 1 with
  | some (a, n), some (b, m) => if n < m then b else a
  | some (a, _), none => a
  | none, some (b, _) => b
  | none, none => 0

/-- Write the selector (R536): to an invalid sector, or to the one with the lower COUNT. COUNT rises by 1. -/
def State.writeSelector (s : State) (copy : Nat) : State :=
  let put := fun (k n : Nat) => ({ s with boot := { s.boot with sels := tput k (selBytes copy n) s.boot.sels } } : State)
  match s.selAt 0, s.selAt 1 with
  | some (_, n), some (_, m) => if n < m then put 0 (m + 1) else put 1 (n + 1)
  | some (_, n), none => put 1 (n + 1)
  | none, some (_, m) => put 0 (m + 1)
  | none, none => put 0 1

def fwVersion (bs : List Byte) : Nat := flashNat bs 0x8 8
def fwMinLive (bs : List Byte) : Nat := flashNat bs 0x10 8
def fwSvn (bs : List Byte) : Nat := flashNat bs 0x18 4
def fwBodyLen (bs : List Byte) : Nat := flashNat bs 0x1C 4

/-- MAGIC, FMT, PART and BODY_LEN of a firmware header. -/
def fwHeader (bs : List Byte) : Bool :=
  flashNat bs 0 4 == 0x56584657 && flashNat bs 4 2 == 1 && flashNat bs 6 2 == 0x0960 && decide (1 ≤ fwBodyLen bs ∧ fwBodyLen bs ≤ 31453184)

/-- DIGEST matches the body. -/
def fwDigest (bs : List Byte) : Bool := sha384 (flashRead bs 0x1000 (fwBodyLen bs)) == flashRead bs 0x20 48

/-- SIG verifies. -/
def fwSig (key bs : List Byte) : Bool := ecdsaOk key (flashRead bs 0 0x50) (flashRead bs 0x50 96)

/-- A firmware copy. -/
def State.fwCopy (s : State) (c : Nat) : List Byte := tgetD [] c s.boot.fw

/-- A copy authenticates (R537). -/
def State.fwOk (s : State) (c : Nat) : Bool :=
  let b := s.fwCopy c
  fwHeader b && fwSig s.boot.fwKey b && fwDigest b && decide (s.get .GLB_OTP_SVN_MIN ≤ fwSvn b)

/-! ### The configuration block (R538–R540) -/

/-- A record: TYPE, where it starts in the block, its payload. -/
structure CfgRec where
  typ : Nat
  off : Nat
  data : List Byte
  deriving DecidableEq, Repr

/-- The entries of a REG record: BAR4 offset, the word of bits [63:32], value. -/
def regEntries : Nat → List Byte → List (Nat × Nat × Nat)
  | 0, _ => []
  | n + 1, l => (payNat l 0 4, payNat l 4 4, payNat l 8 8) :: regEntries n (l.drop 16)

def CfgRec.entries (r : CfgRec) : List (Nat × Nat × Nat) := regEntries (r.data.length / 16) r.data

/-- A record has a known TYPE, a legal PLEN and a payload as its TYPE lays down (check 6 of R540). That a payload field which is not of the
layout fails this check is an inference (DEDUCED, log 56). -/
def CfgRec.ok (r : CfgRec) : Bool :=
  match r.typ with
  | 0 => r.data.length == 0
  | 1 => r.data.length == 8 && payNat r.data 7 1 == 0 && decide (payNat r.data 5 1 < 128 ∧ payNat r.data 6 1 < 128)
  | 2 => r.data.length == 240
  | 3 => r.data.length == 16 && r.data.all (fun b => decide (b.toNat ≤ 2))
  | 4 => r.data.length % 16 == 0 && r.entries.all (fun e => e.2.1 == 0 && regEntryOk e.1 e.2.2)
  | _ => false

/-- The records of a list, up to the first whose header does not fit: the records, and where that one starts. -/
def cfgRecords : Nat → Nat → List Byte → List CfgRec × Option Nat
  | 0, _, _ => ([], none)
  | _, _, [] => ([], none)
  | n + 1, off, l =>
    let plen := payNat l 2 2
    if payNat l 4 4 ≠ 0 ∨ plen % 8 ≠ 0 ∨ l.length < 8 + plen then ([], some off)
    else
      let r : CfgRec := { typ := payNat l 0 2, off := off, data := (l.drop 8).take plen }
      let (rest, bad) := cfgRecords n (off + 8 + plen) (l.drop (8 + plen))
      (r :: rest, bad)

def cfgLen (bs : List Byte) : Nat := flashNat bs 0x10 4
def cfgGen (bs : List Byte) : Nat := flashNat bs 0x8 8
def cfgKey (bs : List Byte) : List Byte := flashRead bs 0x18 96

/-- The records of a block. -/
def blockRecords (bs : List Byte) : List CfgRec × Option Nat :=
  let n := cfgLen bs - 352
  cfgRecords (n / 8 + 1) 0x100 (flashRead bs 0x100 n)

/-- The CRC of a block passes (with a LEN that R538 allows). -/
def cfgCrc (bs : List Byte) : Bool :=
  let n := cfgLen bs
  n % 8 == 0 && decide (648 ≤ n ∧ n ≤ 1048576) && crc32c (flashRead bs 0x18 (n - 0x18)) == flashNat bs 0x14 4

/-- Check 2. -/
def cfgHeader (bs : List Byte) : Bool := flashNat bs 0 4 == 0x56434647 && flashNat bs 4 2 == 1 && flashNat bs 6 2 == 0x0960 && cfgCrc bs

/-- Check 3, against an owner digest where there is one. -/
def cfgSigned (owner : Option Nat) (bs : List Byte) : Bool :=
  let n := cfgLen bs
  ecdsaOk (cfgKey bs) (flashRead bs 0 0x14 ++ flashRead bs 0x18 (n - 96 - 0x18)) (flashRead bs (n - 96) 96)
    && (match owner with | some d => leNat (sha384 (cfgKey bs)) == d | none => true)

/-- Where the first record that fails check 6 starts. -/
def badRecord (bs : List Byte) : Option Nat :=
  let (l, bad) := blockRecords bs
  match l.find? (fun r => !r.ok) with
  | some r => some r.off
  | none => bad

/-- Check 5. -/
def cfgCounts (bs : List Byte) : Bool :=
  let l := (blockRecords bs).1.map (·.typ)
  let once := fun (t : Nat) => (l.filter (fun x => x == t)).length == 1
  once 0 && once 1 && once 2 && once 3 && l.getLast? == some 0

/-- The checks of one copy in the order of R540 after check 1: the cause of the first failure and [31:12] of the cause word. -/
def checkBlock (owner : Option Nat) (bs : List Byte) : Option (Nat × Nat) :=
  if ¬ cfgHeader bs then some (2, 0)
  else if ¬ cfgSigned owner bs then some (3, 0)
  else match badRecord bs with
    | some off => some (6, off / 8)
    | none => if cfgCounts bs then none else some (5, 0)

def State.cfgCopy (s : State) (c : Nat) : List Byte := tgetD [] c s.boot.cfg

/-- Checks 2 to 6 of R540 on both copies: the cause word, 0 where the configuration is valid. While no owner is programmed, copy A's key is the
owner's for copy B. -/
def State.checkConfig (s : State) : Nat :=
  let a := s.cfgCopy 0
  let b := s.cfgCopy 1
  let ra := checkBlock s.boot.owner a
  let owner := match s.boot.owner with | some d => some d | none => if ra.isNone then some (leNat (sha384 (cfgKey a))) else none
  let rb := checkBlock owner b
  match ra, rb with
  | some (c, p), r => c + 0x100 + (if r.isSome then 0x200 else 0) + p * 0x1000
  | none, some (c, p) => c + 0x200 + p * 0x1000
  | none, none => if cfgGen a = cfgGen b then 0 else 4 + (if cfgGen a < cfgGen b then 0x100 else 0x200)

/-- The cause of a block that `cfg.load` brings, alone (R545): it is no copy in flash, so bits 8 and 9 are 0 (DEDUCED, log 56). -/
def blockCause (owner : Option Nat) (bs : List Byte) : Option Nat := (checkBlock owner bs).map (fun r => r.1 + r.2 * 0x1000)

/-- The owner digest is programmed while OWNED is 0 (R540). -/
def State.own' (s : State) (bs : List Byte) : State :=
  match s.boot.owner with
  | some _ => s
  | none => ({ s with boot := { s.boot with owner := some (leNat (sha384 (cfgKey bs))) } } : State).put .GLB_OTP_OWNED 1

/-- What IDENT, KEYS and BOARD of a valid block set (R53, R60, R89, R335, R402, R529, R539). -/
def State.takeIdent (s : State) (bs : List Byte) : State :=
  let l := (blockRecords bs).1
  let rec' := fun (t : Nat) => match l.find? (fun r => r.typ == t) with | some r => r.data | none => []
  let id := rec' 1
  let keys := rec' 2
  let board := rec' 3
  let s := (List.range 8).foldl (fun (s : State) h =>
    (s.setHead h { s.head h with subsysVendor := payNat id 0 2, subsysId := payNat id 2 2 }).put .HPT_DEV_STS_STEWARD
      (b2n (bit (payNat id 4 1) h)) h) s
  { s with
    boot := { s.boot with
      regs := (l.filter (fun r => r.typ == 4)).flatMap (fun r => r.entries.map (fun e => (e.1, e.2.2)))
      stewardKey := keys.take 96
      anchor := payNat keys 192 48
      smbus := payNat id 5 1
      i3c := payNat id 6 1 }
    acc := { s.acc with dbgKey := (keys.drop 96).take 96 }
    mem := { s.mem with board := (List.range 16).map (fun c => (c, payNat board c 1)) } }

end Sys2Proof.Machine
end

