-- ==== Sys2Proof/Machine/Boot.lean ====
section
/-!
DEFINITION. Start-up and resets (20_startup_firmware.md): the boot from PWROK or from a warm reset to media ready, PWROK and SYS_RST_N, engine
and slice resets.
-/
namespace Sys2Proof.Machine
open Sys2Proof

/-- Bytes that nothing determines: free values. -/
def State.freeBytes (s : State) (n : Nat) : State × List Byte :=
  ({ s with fresh := s.fresh + n }, (List.range n).map (fun i => BitVec.ofNat 8 (Config.freeValue (s.fresh + i))))

/-! ### Flash writes and what cuts them off (R545, R551) -/

/-- The block of the open `cfg.load` sequence. -/
def State.loadBytes (s : State) : List Byte := match s.boot.load with | some l => l.bytes | none => []

def State.setCfg (s : State) (c : Nat) (bs : List Byte) : State := { s with boot := { s.boot with cfg := tput c bs s.boot.cfg } }

def State.setFw (s : State) (c : Nat) (bs : List Byte) : State := { s with boot := { s.boot with fw := tput c bs s.boot.fw } }

/-- A reset cuts off what writes flash. `cut`: how far the write of a configuration block has come: 0 not begun, 1 amid copy A, 2 copy A written,
3 amid copy B; a copy cut amid its write holds free values. A staging is left unauthenticated, as an erased copy is (R551). -/
def State.cutFlash (s : State) (cut : Nat) : State :=
  let writing := (s.findOp (fun k => k == .cfgLoad)).isSome
  let n := s.loadBytes.length
  let s : State :=
    if writing = false ∨ cut = 0 then s
    else if cut = 1 then let (s, l) := s.freeBytes n; s.setCfg 0 l
    else
      let s := s.setCfg 0 s.loadBytes
      if cut = 2 then s else let (s, l) := s.freeBytes n; s.setCfg 1 l
  let s := if s.get .GLB_FW_STS_ROLL = 1 then s.setFw (1 - s.selected) [] else s
  { s with boot := { s.boot with load := none } }

/-! ### Steps 4 to 6 of R541 -/

/-- Outputs are refused (R543, R544): heads come up for CXL.io only, STATUS reads ST_CFG_INVALID, GLB 0x1 is raised. -/
def State.refuseOutputs (s : State) (word : Nat) : State :=
  let s := ((s.put .GLB_BOOT_STS_REFUSED 1).put .GLB_BOOT_STS_CAUSE (word % 256)).put .GLB_BOOT_STS_BADCOPY (word / 256 % 4)
  let s := ({ s with cause := word } : State).setStatus stCfgInvalid
  s.report (msg2 bGlb 0 1)

/-- A valid configuration comes into force: what its records name, and every register but those a test keeps (R539, R546). The guard of a slot that BOARD
declares absent reads EMPTY (R561). -/
def State.takeConfig (s : State) (keep : RegKey → Bool) : State :=
  let bs := s.cfgCopy 0
  let s := ((s.own' bs).takeIdent bs).applyCfg keep
  let s := ((List.range 32).filter s.slotAbsent).foldl (fun (s : State) n => (s.put .SLT_SG_STS_PRSNT 0 n).setSg n 0) s
  let s := ((s.put .GLB_BOOT_STS_REFUSED 0).put .GLB_BOOT_STS_CAUSE 0).put .GLB_BOOT_STS_BADCOPY 0
  ({ s with cause := 0 } : State).put .GLB_CFG_STS_GEN (cfgGen bs)

/-- Steps 4 and 5: the selected copy boots, or the other one (BOOT_ALT). None where neither authenticates. -/
def State.bootFw (s : State) : Option (Nat × Bool) :=
  let c := s.selected
  if s.fwOk c then some (c, false) else if s.fwOk (1 - c) then some (1 - c, true) else none

/-- Bits of a list of numbers. -/
def maskOf (l : List Nat) : Nat := (List.range 64).foldl (fun a k => a + (if l.contains k then 2 ^ k else 0)) 0

/-- The self-tests of step 6 (R322, R323, R554). -/
def State.selfTest (s : State) (e : BootIn) : State :=
  let slices := e.sliceFail.map (·.val)
  let s := e.engineFail.foldl (fun (s : State) n => s.put .ENG_STS_STATE 2 n.val) s
  let s := e.clusterFail.foldl (fun (s : State) c => (List.range 8).foldl (fun (s : State) k => s.put .ENG_STS_STATE 3 (8 * c.val + k)) s) s
  let s := s.countEngines
  let many := (List.range 16).filter (fun n => slices.contains n)
  let refused := decide (1 < many.length ∨ s.healthy < 40) || e.keyFail || e.sgFail
  let s := ((s.put .ECC_SELFTEST_SLICE_FAIL (maskOf slices)).put .ECC_SELFTEST_CLUSTER_FAIL (maskOf (e.clusterFail.map (·.val)))).put
    .ECC_SELFTEST_PORT_FAIL (maskOf (e.portFail.map (·.val)))
  let s := ((s.put .ECC_SELFTEST_KEY_FAIL (b2n e.keyFail)).put .ECC_SELFTEST_OTHER_FAIL (b2n e.keyFail)).put .ECC_SELFTEST_REFUSED (b2n refused)
  if refused then s.report (msgFatal bEcc (many.headD 0) 8)
  else
    let s : State := { s with mem := { s.mem with disabledSlices := many } }
    let s := many.foldl (fun (s : State) n => (if s.inService n then s.takeOffline n else s).report (msg2 bEcc n 8)) s
    if e.clusterFail = [] ∧ e.portFail = [] then s else s.report (msg2 bEcc 0 8)

/-! ### Step 7 -/

/-- Bring-up of every channel with seated DIMMs where AUTO_ON is set, and of every channel with a powered slot (R479, R541). -/
def State.bringupAll (s : State) : State :=
  (List.range 16).foldl (fun (s : State) c =>
    let on := (s.seated c).any (fun n => s.sg n == 4)
    if ¬ s.mem.disabledSlices.contains c ∧ s.seated c ≠ [] ∧ (on ∨ s.isSet .SLT_CFG_AUTO_ON) then s.bringup c else s) s

/-- What R549 compares: GRAIN, and the directory of every home. -/
def State.keepWords (s : State) : List Nat :=
  s.get .MEM_GLB_GRAIN :: (List.range 16).flatMap (fun n =>
    [s.get .COH_DIR_CFG_SETLOG2 n, s.get .COH_DIR_CFG_EN n, s.get .COH_DIR_CFG_BASE n])

/-- Every channel's DIMMs report the SPD identity they had. -/
def State.sameDimms (s : State) (e : BootIn) : Bool :=
  s.mem.dimms.all (fun x => match e.spd.find? (fun y => y.1.val == x.1) with
    | some y => y.2.part == x.2.part && y.2.serial == x.2.serial
    | none => false)

/-- Media is not kept (R549): the channels start anew. -/
def State.dropMedia (s : State) : State :=
  let s := s.loseMedia.keepRegs (fun k => !(areaRegs.contains k.r || k.r == .MEM_CH_STS_STATE || k.r == .MEM_CH_STS_FP || k.r == .MEM_CH_STS_RATE))
  let s := (s.applyCfg (fun k => !areaRegs.contains k.r)).put .GLB_RST_STS_MEDIA_KEPT 0
  let s : State := { s with
    mem := { s.mem with dimms := [], chans := s.mem.chans.map (fun x => (x.1, { drstHigh := x.2.drstHigh })) }
    pg := { s.pg with chCap := [], areas := [] } }
  s.report (msg2 bGlb 0 0)

/-- Step 7 of R541 and what is left of step 8, once a configuration is in force: as on a cold boot, or, where a warm reset keeps media, the
channels leave self-refresh and are checked; a bring-up that the reset cut off starts again. -/
def State.step7 (s : State) : State :=
  let e := s.boot.env
  let s := s.setStatus stPending
  if ¬ s.isSet .GLB_RST_STS_LAST then s.bringupAll.bootDone
  else if s.boot.keep ∧ s.keepWords = s.boot.before ∧ s.sameDimms e then
    let s := (s.put .GLB_RST_STS_MEDIA_KEPT 1).exitSelfRefresh
    let s := (e.restore.areas ++ e.checkFail).foldl (fun (s : State) a => s.retrainKept a.1.val a.2) s
    let s := (List.range 16).foldl (fun (s : State) c =>
      if s.chState c = 1 ∨ s.chState c = 7 then (s.setChState c 0).bringup c else s) s
    s.recap.retoll.bootDone
  else s.dropMedia.bringupAll.bootDone

/-! ### The whole of a boot from step 4 -/

/-- Steps 4 to 7. `keep`: registers that the configuration does not touch. -/
def State.boot4 (s : State) (keep : RegKey → Bool) : State :=
  let e := s.boot.env
  let s : State := { s with boot := { s.boot with phase := 3 } }
  let s : State := { s with host := { s.host with x8 := s.host.perstHigh.filter (fun p => s.isSet .HPT_PORT_CFG_MODE p) } }
  let s := s.put .GLB_BOOT_STS_STEP 6
  match s.bootFw with
  | none => ((s.countEngines.put .GLB_BOOT_STS_ROMREC 1).refuseOutputs 0x301).trainHeads
  | some (c, alt) =>
    let s := ((s.put .GLB_BOOT_STS_FWCOPY c).put .GLB_BOOT_STS_BOOT_ALT (b2n alt)).put .GLB_FW_VER_VERSION (fwVersion (s.fwCopy c))
    let word := s.checkConfig
    let s := if word = 0 then s.takeConfig keep else s
    let s : State := { s with host := { s.host with x8 := s.host.perstHigh.filter (fun p => s.isSet .HPT_PORT_CFG_MODE p) } }
    let s := if alt then s.report (msg1 bGlb 0 2) else s
    let s := (s.selfTest e).trainHeads
    let s := if word = 0 then s else s.refuseOutputs word
    if s.isSet .ECC_SELFTEST_REFUSED then s.setStatus stMediaNotReady
    else if word = 0 then s.step7 else s

/-! ### PWROK (R541, R547, R564) -/

/-- What a cold reset leaves: the flash, OTP, the halt record and the Fatal ring of the Saddlebag, pins, and what has left the device. -/
def State.coldOff (s : State) : State :=
  let haltRec := s.get .SEC_STS_HALT_REC
  let svn := s.get .GLB_OTP_SVN_MIN
  let owned := s.get .GLB_OTP_OWNED
  let b := s.boot
  let t : State := { State.reset with
    now := s.now
    fresh := s.fresh
    out := s.out
    pending := s.pending
    flt := { State.reset.flt with ring := s.flt.ring }
    sec := { State.reset.sec with haltRec := s.sec.haltRec }
    host := { State.reset.host with perstHigh := s.host.perstHigh }
    pwr := { State.reset.pwr with trip := s.pwr.trip }
    acc := { State.reset.acc with tapReset := s.acc.tapReset }
    boot := { State.reset.boot with sels := b.sels, fw := b.fw, cfg := b.cfg, owner := b.owner, fwKey := b.fwKey } }
  ((t.put .SEC_STS_HALT_REC haltRec).put .GLB_OTP_SVN_MIN svn).put .GLB_OTP_OWNED owned

/-- A flash fitted while PWROK is low. -/
def State.fitFlash (s : State) (f : Option FlashImage) : State :=
  match f with
  | none => s
  | some f =>
    { s with boot := { s.boot with sels := [(0, f.sel0), (1, f.sel1)], fw := [(0, f.fwA), (1, f.fwB)], cfg := [(0, f.cfgA), (1, f.cfgB)] } }

/-- PWROK_RISE (R31, R121, R292, R322, R323, R479, R534–R544, R564, R571): steps 1 to 3 of R541, then, unless SYS_RST_N is low, the rest. A device
whose THERMTRIP_N is low stays off. -/
def execPwrokRise (e : BootIn) (s : State) : Res :=
  if s.boot.phase ≠ 0 ∨ s.pwr.trip then .next s
  else
    let s := s.coldOff.fitFlash e.flash
    let s : State := { s with pwr := { s.pwr with since := s.now, crystal := e.crystal }, boot := { s.boot with env := e, from' := s.now } }
    let s := e.seated.foldl (fun (s : State) n => (s.put .SLT_SG_STS_PRSNT 1 n.val).setSg n.val 2) s
    let s := (s.put .SLT_STS_LINK_OK 1).put .SLT_STS_SELFTEST_OK (b2n (!e.sgFail))
    let s := s.freshKeys
    let s := s.put .GLB_BOOT_STS_STEP 3
    if e.rstLow then .next { s with boot := { s.boot with phase := 1 } } else .next (s.boot4 (fun _ => false))

/-- PWROK_FALL (R479, R547, R564): every gate is off; a cold reset follows from any state. `cut`: as in `cutFlash`. -/
def execPwrokFall (cut : Fin 4) (s : State) : Res := .next (if s.boot.phase = 0 then s else (s.cutFlash cut.val).coldOff)

/-! ### Warm reset (R445, R495, R547–R549) -/

/-- Running operations end with ST_ABORTED and without a signal; a sweep's says that it continues (R100). -/
def State.endOps (s : State) : State :=
  s.pyx.slots.foldl (fun (s : State) x =>
    if x.2.running then s.endSilent x.1 stAborted (match x.2.kind with | .rotate _ => 1 | _ => 0) else s) s

/-- Freezes, holds and changes under way end with the reset: the channel is in service again. -/
def State.thawAll (s : State) : State :=
  (List.range 16).foldl (fun (s : State) c =>
    let st := s.chState c
    let s := if 3 ≤ st ∧ st ≤ 5 then s.setChState c 2 else s
    s.setChan c { s.chan c with hold := none, wasHeld := false, retrainDue := false, changeTo := none, pauseHit := none, freezes := [] }) s

/-- Steps 1 to 5 of R548. -/
def State.warmDown (s : State) (d : Drain) (cut : Nat) : State :=
  let s := (s.cutFlash cut).endOps
  let s := (List.range 8).foldl (fun (s : State) h => s.depart h) s
  let s := [0, 1].foldl (fun (s : State) p => s.goDown p) s
  let s := (s.pg.moves).foldl (fun (s : State) m => s.abortMove m.1 m.2) s
  let s := ((s.thawAll.drain d).saveBag).debugOff
  let s : State := { s with
    flt := { s.flt with recs := s.flt.recs.map (fun x => (x.1, { x.2 with tmr := false })) }
    boot := { s.boot with before := s.keepWords, phase := 2, from' := s.now } }
  s

/-- SYS_RST_ASSERT (R100, R299, R445, R495, R528, R547, R548): without effect in a security halt; where nothing has power but PD_AON, only the
boot that follows remains. -/
def execSysRstAssert (d : Drain) (cut : Fin 4) (s : State) : Res :=
  if s.boot.phase ≠ 3 ∨ s.halt.isSome ∨ s.pwr.stopped then .next s
  else if s.get .PWR_STATE_PS = 3 then .next { s.endOps with boot := { s.boot with phase := 2, from' := s.now, before := s.keepWords } }
  else .next (s.warmDown d cut.val)

/-- Registers that keep their values over a warm reset (R547–R549): those restored, the status of what is kept, and what R10 to R548 exempt. -/
def warmKeep (images : Bool) (k : RegKey) : Bool :=
  (images && warmRegs.contains k.r) || areaRegs.contains k.r || guardRegs.contains k.r
    || (secretRegs.contains k.r && k.r != .SEC_STS_ALARM_PEND)
    || (fixedRegs.contains k.r && !(k.r == .PWR_WAKE_CFG_EN || k.r == .PWR_AON_TIMER_CMP || k.r == .PWR_RAIL_MON_MV || k.r == .PWR_RAIL_MON_TRIP
      || k.r == .PWR_RAIL_MON_CHAN))
    || (match k.r with
      | .MEM_CH_STS_STATE | .MEM_CH_STS_FP | .MEM_CH_STS_RATE | .MEM_CH_STS_TYPE | .MEM_CH_STS_DIMMS | .MEM_CH_STS_RANKS | .MEM_CH_STS_X8
      | .MEM_CH_STS_CIDB | .MEM_RFM_CFG_RFM_EN | .MEM_RFM_CFG_PRAC_EN | .MEM_RFM_CFG_RAAIMT | .MEM_RFM_CFG_RAAMMT | .MEM_RFM_CFG_RAADEC
      | .CDC_FRIT_STS_CUR | .CDC_FRIT_STS_VER0 | .CDC_FRIT_STS_VER1 | .CDC_FRIT_STS_SCOPED | .CDC_FRIT_STS_SCOPE | .XLT_CAP_COUNT
      | .XLT_PRESS_STS_LEVEL | .XLT_PRESS_STS_SHORTFALL => true
      | _ => false)

/-- A port over a warm reset: its loans, and what it lends. -/
def keptPort (c : CvnPort) : CvnPort :=
  { loanB := c.loanB, blocks := c.blocks, giving := c.giving, closing := c.closing, uses := c.uses, loanL := c.loanL, lent := c.lent
    store := c.store, marked := c.marked, tags := c.tags, downAt := c.downAt }

/-- What the internal reset takes with it beside the registers. -/
def State.warmWipe (s : State) : State :=
  let s := (s.coh.dir.map (·.1)).foldl (fun (s : State) l => s.dirFix l) s
  let head := fun (h : HeadSt) => ({ subsysVendor := h.subsysVendor, subsysId := h.subsysId } : HeadSt)
  let slots := s.pyx.slots
  { s with
    disabled := []
    coh := State.reset.coh
    xlt := State.reset.xlt
    pg := { s.pg with promoQ := [], demoQ := [], forcedQ := [], moves := [], epochs := 0, cold := false, coldDue := false, hist := [],
                      histNew := [], opPages := [], newTier := [] }
    cdc := { s.cdc with built := none, cache := [] }
    job := State.reset.job
    ecc := { s.ecc with inj := [], hits := [], scrubAt := [], scrubFrom := [] }
    sec := { s.sec with sessions := [], secrets := [], alarms := [] }
    mem := { s.mem with disabledSlices := [] }
    cvn := ⟨s.cvn.ports.map (fun x => (x.1, keptPort x.2))⟩
    slt := { s.slt with marks := [], fast := [], failed := [], stopping := [] }
    host := { s.host with heads := s.host.heads.map (fun x => (x.1, head x.2)), rings := [] }
    pyx := { s.pyx with slots := slots }
    boot := { s.boot with regs := [], setSvn := false, rollOld := 0 }
    pwr := { s.pwr with waiters := [], afterRoll := [], linkWait := false, waking := false, again := false, woken := [], rises := [] } }

/-- A sweep goes on under a fresh operation slot, of the same submitter (R100, R103, R548). -/
def State.resumeSweeps (s : State) : State :=
  (List.range 4).foldl (fun (s : State) k =>
    if ¬ s.sweeping k then s
    else
      let old := (s.pyx.slots.filter (fun x => x.2.kind == .rotate k)).foldl (fun (b : Option OpSlot) x =>
        match b with
        | some o => if o.seq < x.2.seq then some x.2 else b
        | none => some x.2) none
      match s.freeSlot, old with
      | some slot, some o =>
        let handle := s.nextHandle
        let o' : OpSlot := { o with seq := s.pyx.seq + 1, running := true, status := stPending, detail := 0, result := 0, ready := none, quiet := true
                                    at' := s.now, endedAt := 0 }
        { s with
          pyx := { s.pyx with slots := tput slot o' s.pyx.slots, seq := s.pyx.seq + 1 }
          sec := { s.sec with resumed := tput k handle s.sec.resumed } }
      | _, _ => s) s

/-- A warm boot from step 4 (R541, R548, R549). -/
def State.warmBoot (s : State) : State :=
  let e := s.boot.env
  let keep := warmKeep (!e.restore.bad.contains 4)
  let s := s.warmWipe.keepRegs (fun k => keep k || k.r == .COH_DIR_CFG_BASE)
  let s := (s.bump .GLB_RST_STS_WARM_CNT 0xFFFF).put .GLB_RST_STS_LAST 1
  let s := (s.put .SLT_STS_LINK_OK 1).put .SLT_STS_SELFTEST_OK 1
  let s := (List.range 64).foldl (fun (s : State) f => s.put .CDC_FRIT_STS_REBUILD 1 f) s
  let s := (s.restoreBag e.restore).resumeSweeps
  ({ s with boot := { s.boot with keep := !keysLost e.restore } } : State).boot4 keep

/-- SYS_RST_DEASSERT (R215, R322, R496, R541, R548, R549, R564): the boot that waited goes on: from step 3 of a cold boot, or as a warm one. -/
def execSysRstDeassert (e : BootIn) (s : State) : Res :=
  match s.boot.phase with
  | 1 => .next (s.boot4 (fun _ => false))
  | 2 => .next ({ s with boot := { s.boot with env := e } } : State).warmBoot
  | _ => .next s

/-! ### Engines and slices (R550, R554) -/

/-- ENGINE_HANG (R554–R556): an engine makes no progress in its command for 1 ms; the command ends with ST_FAULTED, DETAIL the record's SEQ. -/
def execEngineHang (n : Fin 48) (r : Option Req) (s : State) : Res :=
  if s.boot.phase ≠ 3 ∨ ¬ (s.get .ENG_STS_STATE n.val = 0 ∨ s.get .ENG_STS_STATE n.val = 4) then .next s
  else
    let seq := s.get .FLT_SEQ_NEXT
    let s := s.hangEngine n.val
    .next (match r with | some q => s.reply q stFaulted 0 (seq % 2 ^ 32) 0 [] | none => s)

/-- ENGINE_RESET (R554): a hung engine is reset alone and its record acknowledged; it is HEALTHY again. -/
def execEngineReset (n : Fin 48) (s : State) : Res :=
  if s.get .ENG_STS_STATE n.val ≠ 1 then .next s
  else
    let s := (s.put .ENG_STS_STATE 0 n.val).countEngines
    match newest (fun r => decide (srcId r.msg = bEng * 1024 + n.val * 16) && r.tmr) s.flt.recs with
    | some (k, _) => .next (s.ackRec k)
    | none => .next s

/-- SLICE_RESET (R550): the slice's dirty lines are written back, the Saddlebag is saved, its pipelines and caches empty. It waits for the slice's open
transactions. -/
def execSliceReset (n : Fin 16) (d : Drain) (s : State) : Res :=
  let mine := fun (line : Nat) => s.home (line / 64) == n.val
  if s.boot.phase ≠ 3 ∨ s.halt.isSome ∨ 2 ≤ s.get .PWR_STATE_PS ∨ s.coh.trk.any (fun t => mine t.1) ∨ s.coh.twins.any (fun t => mine (8 * t.sector)) then
    .next s
  else
    let s := (s.dirtySectors.filter (fun k => mine (8 * k))).foldl (fun (s : State) k =>
      match d.wbs.find? (fun w => 8 * w.lpn.val + w.k.val == k) with
      | some w => s.wbStep (k / 8) (k % 8) w.body w.hint w.f w.f2
      | none => s.wbStep (k / 8) (k % 8) [] 0 {} {}) s
    let left := (s.coh.lc.filter (fun x => x.2.dirty && mine x.1)).map (fun x => (x.1, (0 : Line), some 5))
    let s := ((s.storeLines left).flushTree (fun k => k == n.val)).saveBag
    .next (s.coh' (fun c => { c with
      lc := c.lc.filter (fun x => !mine x.1)
      mdc := c.mdc.filter (fun x => !mine (64 * x.1))
      pred := c.pred.filter (fun x => x.1 / 16384 != n.val)
      spec := c.spec.filter (fun x => !mine x.line)
      missAt := c.missAt.filter (fun x => !mine (8 * x.1)) }))

end Sys2Proof.Machine
end

