-- ==== Sys2Proof/Machine/Firm.lean ====
section
/-!
DEFINITION. Loading a configuration, replacing firmware, and the end of operations (R100, R545, R546, R551–R553, R556, R557).
-/
namespace Sys2Proof.Machine
open Sys2Proof

/-! ### The configuration (R545, R546, R556, R557) -/

/-- A copy's generation, 0 where its CRC fails. -/
def State.genOf (s : State) (c : Nat) : Nat := if cfgCrc (s.cfgCopy c) then cfgGen (s.cfgCopy c) else 0

/-- CFG_QUERY (R556). -/
def execCfgQuery (q : Req) (s : State) : Res :=
  serve { op := 0x0200, priv := 0, mctp := true, output := true } q none (fun s =>
    okOut s (s.word .GLB_CFG_STS_GEN) 32
      [(0x00, 8, s.genOf 0), (0x08, 8, s.genOf 1), (0x10, 8, s.word .GLB_BOOT_STS_STEP), (0x18, 8, s.word .GLB_OTP_SVN_MIN)] s.cause) s

/-- Bytes a caller's open sequence has received. -/
def State.received (s : State) (o : Origin) : List Byte :=
  match s.boot.load with
  | some l => if sessionHolder l.caller = sessionHolder o then l.bytes else []
  | none => []

/-- An operation of a kind runs. -/
def State.running (s : State) (p : OpKind → Bool) : Bool := s.pyx.slots.any (fun x => x.2.running && p x.2.kind)

/-- CFG_LOAD (R91, R540, R544, R545, R557): the last chunk is judged with the whole block; a refusal leaves the sequence as it was. -/
def execCfgLoad (q : Req) (s : State) : Res :=
  let off := par q 0x10 4
  let was := if off = 0 then [] else s.received q.origin
  serve { op := 0x0201, priv := 2, mctp := true, payload := 1048576, fields := [fld 0x10 4, fbits 0x14 0 1] } q
    (firstBad [(0x08, decide (1 ≤ q.plen)), (0x10, decide (off = was.length ∧ off + q.plen ≤ 1048576))]) (fun s =>
      let other : Bool := match s.boot.load with | some l => sessionHolder l.caller != sessionHolder q.origin | none => false
      if other ∨ s.running (fun k => k == .cfgLoad) then busy s
      else
        let bs := was ++ q.payload
        let next := ({ s with boot := { s.boot with load := some { caller := q.origin, bytes := bs } } } : State)
        if ¬ parBit q 0x14 0 then ok next
        else if s.isSet .GLB_BOOT_STS_ROMREC then refuse s stCfgInvalid s.cause
        else match blockCause s.boot.owner bs with
          | some w => refuse s stCfgInvalid w
          | none =>
            if (List.range 2).any (fun c => cfgCrc (s.cfgCopy c) && decide (cfgGen bs ≤ cfgGen (s.cfgCopy c))) then refuse s stStale 4
            else s.flashPort q opW 0x3C10000 (fun _ => s.flashPort q opW 0x3D10000 (fun _ => pend (next.own' bs) .cfgLoad))) s

/-- CFG_LOAD_TIMEOUT (R545): no chunk for 60 s. -/
def execCfgLoadTimeout (s : State) : Res :=
  .next (if s.running (fun k => k == .cfgLoad) then s else { s with boot := { s.boot with load := none } })

/-- CFG_READ (R556, R557). -/
def execCfgRead (q : Req) (s : State) : Res :=
  let off := par q 0x14 4
  let n := par q 0x18 4
  serve { op := 0x0202, priv := 2, mctp := true, output := true, fields := [fld 0x10 1, fld 0x14 4, fld 0x18 4] } q
    (firstBad [(0x10, decide (par q 0x10 1 ≤ 1)), (0x14, decide (off + n ≤ 1048576)), (0x18, decide (1 ≤ n ∧ n ≤ 65536))]) (fun s =>
      s.flashPort q opR (0x3C10000 + 0x100000 * par q 0x10 1 + off) (fun s =>
      okOut s 0 n [(0, n, leNat (flashRead (s.cfgCopy (par q 0x10 1)) off n))])) s

/-- CFG_GRANT (R90, R556, R557). -/
def execCfgGrant (q : Req) (s : State) : Res :=
  let h := par q 0x10 1
  let c := par q 0x11 1
  serve { op := 0x0203, priv := 2, mctp := true, fields := [fld 0x10 2, fbits 0x12 0 1] } q (firstBad [(0x10, decide (h ≤ 7))]) (fun s =>
    let w := s.get .GLB_GRANT_CTX h (c / 64)
    let b := 2 ^ (c % 64)
    ok (s.put .GLB_GRANT_CTX (if parBit q 0x12 0 then w ||| b else w - (w &&& b)) h (c / 64))) s

/-- Both copies hold the block; while outputs are refused it takes effect at once, and boot goes on at step 7 (R545, R546). -/
def State.cfgWritten (s : State) : State :=
  let bs := s.loadBytes
  let s := (s.setCfg 0 bs).setCfg 1 bs
  let s : State := { s with boot := { s.boot with load := none } }
  if ¬ s.isSet .GLB_BOOT_STS_REFUSED then s
  else
    let warm := s.isSet .GLB_RST_STS_LAST
    let s := s.takeConfig (fun k => warm && warmKeep true k)
    if s.isSet .ECC_SELFTEST_REFUSED then s else s.step7

/-! ### Firmware (R551–R553, R556, R557) -/

/-- FW_QUERY (R556). -/
def execFwQuery (q : Req) (s : State) : Res :=
  serve { op := 0x1000, priv := 0, mctp := true, output := true } q none (fun s =>
    let v := fun (c : Nat) => if s.fwOk c then fwVersion (s.fwCopy c) else 0
    let n := fun (c : Nat) => if s.fwOk c then fwSvn (s.fwCopy c) else 0
    okOut s (s.word .GLB_FW_VER_VERSION) 48
      [(0x00, 8, v 0), (0x08, 8, v 1), (0x10, 4, n 0), (0x14, 4, n 1), (0x18, 1, s.selected), (0x20, 8, s.word .GLB_FW_STS_ROLL),
       (0x28, 1, s.get .ENG_GLB_HEALTHY)]) s

/-- The copy that staging writes. -/
def State.staging (s : State) : Nat := 1 - s.selected

/-- FW_STAGE (R551, R557): a chunk at offset 0 erases the copy. -/
def execFwStage (q : Req) (s : State) : Res :=
  let off := par q 0x10 4
  let was := if off = 0 ∨ s.get .GLB_FW_STS_ROLL ≠ 1 then [] else s.fwCopy s.staging
  serve { op := 0x1001, priv := 2, mctp := true, payload := 1048576, fields := [fld 0x10 4] } q
    (firstBad [(0x08, decide (1 ≤ q.plen)), (0x10, decide (off = was.length ∧ off + q.plen ≤ 31457280))]) (fun s =>
      if 2 ≤ s.get .GLB_FW_STS_ROLL ∨ s.running (fun k => k == .fwStage) then busy s
      else s.flashPort q opW (0x10000 + 0x1E00000 * s.staging + off) (fun s =>
        let bs := was ++ q.payload
        let s := (s.setFw s.staging bs).put .GLB_FW_STS_ROLL 1
        pendDone (s.put .GLB_FW_STS_STAGED_KIB (bs.length / 1024)) .fwStage stOk 0 0)) s

/-- Why the staged copy is refused: DETAIL of ST_STALE (R552). A header that is not one of R537 counts as DIGEST (DEDUCED, log 57). MIN_LIVE binds
only while some firmware runs. -/
def State.stageFault (s : State) : Option Nat :=
  let b := s.fwCopy s.staging
  if s.get .GLB_FW_STS_ROLL ≠ 1 then some 1
  else if ¬ fwHeader b ∨ ¬ fwDigest b then some 2
  else if ¬ fwSig s.boot.fwKey b then some 3
  else if fwSvn b < s.get .GLB_OTP_SVN_MIN then some 4
  else if ¬ s.isSet .GLB_BOOT_STS_ROMREC ∧ s.get .GLB_FW_VER_VERSION < fwMinLive b then some 5
  else none

/-- The lowest cluster from one on that is on (R552). -/
def State.nextCluster (s : State) (from' : Nat) : Option Nat :=
  (List.range 6).find? (fun k => decide (from' ≤ k) && (List.range 8).any (fun e => decide (s.get .ENG_STS_STATE (8 * k + e) < 2)))

/-- A cluster reset empties its cache (R550): dirty lines go home, and no line is held any more. -/
def State.clearCluster (s : State) (k : Nat) : State :=
  let mine := s.coh.held.filter (fun x => x.1 / 2 ^ 39 == 8 + k)
  mine.foldl (fun (s : State) x =>
    let line := x.1 % 2 ^ 39
    let s := if x.2.st = 4 then s.lcDirty line x.2.data x.2.poison 5 0 else s
    (s.hold (8 + k) line none).sfDrop line (8 + k)) s

/-- A cluster's turn in a roll (R552): its engines take no command, and its cache is empty. -/
def State.startCluster (s : State) (k : Nat) : State :=
  let s := (List.range 8).foldl (fun (s : State) e =>
    if s.get .ENG_STS_STATE (8 * k + e) = 0 then s.put .ENG_STS_STATE 4 (8 * k + e) else s) (s.put .GLB_FW_STS_CLUSTER k)
  s.clearCluster k

/-- The cluster being rolled has passed its self-check and takes commands again, on the staged firmware (R552). The first to pass is the lowest-numbered,
whose version `GLB_FW_VER` shows. -/
def State.passCluster (s : State) : State :=
  let k := s.get .GLB_FW_STS_CLUSTER
  let s := (List.range 8).foldl (fun (s : State) e =>
    if s.get .ENG_STS_STATE (8 * k + e) = 4 then (s.put .ENG_STS_STATE 0 (8 * k + e)).put .ENG_STS_NEWFW 1 (8 * k + e) else s) s
  s.put .GLB_FW_VER_VERSION (fwVersion (s.fwCopy s.staging))

/-- FW_ACTIVATE (R544, R552, R553, R557): the roll starts at the lowest cluster that is on; in ROM recovery no cluster runs firmware. -/
def execFwActivate (q : Req) (s : State) : Res :=
  serve { op := 0x1002, priv := 2, mctp := true, fields := [fbits 0x10 0 1] } q none (fun s =>
    if 2 ≤ s.get .GLB_FW_STS_ROLL ∨ s.running (fun k => k == .fwStage) then busy s
    else match s.stageFault with
      | some d => refuse s stStale d
      | none => s.flashPort q opW 0 (fun s =>
        let s : State := { s with boot := { s.boot with rollOld := s.get .GLB_FW_VER_VERSION, setSvn := parBit q 0x10 0 } }
        let s := s.put .GLB_FW_STS_ROLL 2
        pend (match if s.isSet .GLB_BOOT_STS_ROMREC then none else s.nextCluster 0 with
          | some k => s.startCluster k
          | none => s) .fwActivate)) s

/-- A roll is over: every cluster takes commands, after a rollback on the old firmware, and the `pwr.set_state` commands that waited go on (R552, R553). -/
def State.rollOver (s : State) : State :=
  let back := decide (s.get .GLB_FW_STS_ROLL = 3)
  let s := if back then (List.range 6).foldl (fun (s : State) k =>
      if (List.range 8).any (fun e => s.isSet .ENG_STS_NEWFW (8 * k + e)) then s.clearCluster k else s) (s.put .GLB_FW_VER_VERSION s.boot.rollOld) else s
  let s := (List.range 48).foldl (fun (s : State) n =>
    (if s.get .ENG_STS_STATE n = 4 then s.put .ENG_STS_STATE 0 n else s).put .ENG_STS_NEWFW 0 n) s
  let s := ((s.put .GLB_FW_STS_ROLL 0).put .GLB_FW_STS_CLUSTER 0).put .GLB_FW_STS_STAGED_KIB 0
  let w := s.pwr.afterRoll
  let s : State := { s with pwr := { s.pwr with afterRoll := [] } }
  w.foldl (fun (s : State) q => (setStateBody q s).finish s q) s

/-- The last cluster has passed: the selector names the new copy, and SVN_MIN may rise (R552). In ROM recovery a warm reset follows the selector's
write (R544). Answers the new VERSION. -/
def State.rolled (s : State) : State × Nat :=
  let c := s.staging
  let b := s.fwCopy c
  let s := s.writeSelector c
  let s := if s.boot.setSvn then s.put .GLB_OTP_SVN_MIN (max (s.get .GLB_OTP_SVN_MIN) (fwSvn b)) else s
  if s.isSet .GLB_BOOT_STS_ROMREC then (s.warmDown {} 0, fwVersion b)
  else (((s.put .GLB_FW_VER_VERSION (fwVersion b)).put .GLB_BOOT_STS_FWCOPY c), fwVersion b)

/-- FW_ABORT (R551, R553, R557). A staging ends with its copy unauthenticated, as an erased one is. -/
def execFwAbort (q : Req) (s : State) : Res :=
  serve { op := 0x1003, priv := 2, mctp := true } q none (fun s =>
    match s.get .GLB_FW_STS_ROLL with
    | 0 => refuse s stStale 0
    | 1 => ok (((s.setFw s.staging []).put .GLB_FW_STS_ROLL 0).put .GLB_FW_STS_STAGED_KIB 0)
    | 2 => ok ((s.put .GLB_FW_STS_ROLL 3).endKind (fun k => k == .fwActivate) stAborted 0 0)
    | _ => ok s) s

/-! ### The end of operations (R100) -/

/-- OPERATION_END (R100): the operation of a slot, its work done, ends and is signalled. `cvn.link_up` action 0 also ends when the link is not UP
within 1 s (R420); the end of `cfg.load` is the end of its flash writes (R545), that of `key.zeroise`
the end of its sweep (R310); while `fw.activate` rolls clusters, each passes one, and the last ends the roll (R552, R553; DESIGN CHOICE, log 134). -/
def execOperationEnd (slot : Fin 64) (s : State) : Res :=
  match tget slot.val s.pyx.slots with
  | some o => match o.ready with
    | some (st, d, res) =>
      let t := if o.running then s.endOp slot.val st d res else s
      .next (if o.running ∧ o.kind = .fwActivate then t.rollOver else t)
    | none => match o.running, o.kind with
      | true, .linkUp p 0 =>
        .next (if o.at' + 1000000000 ≤ s.now then s.endOp slot.val stTimeout (s.get .CVN_LINK_STS_STATE p) 0 else s)
      | true, .zeroise ks _ => .next ((s.zeroSweep ks).endOp slot.val stOk 0 0)
      | true, .cfgLoad => .next (s.endOp slot.val stOk 0 0).cfgWritten
      | true, .fwActivate =>
        let rom := s.isSet .GLB_BOOT_STS_ROMREC
        let s := if rom then s else s.passCluster
        match if rom then none else s.nextCluster (s.get .GLB_FW_STS_CLUSTER + 1) with
        | some k => .next (s.startCluster k)
        | none =>
          let (t, v) := s.rolled
          .next (if t.boot.phase = 2 then t else (t.endOp slot.val stOk 0 v).rollOver)
      | _, _ => .next s
  | none => .next s

end Sys2Proof.Machine
end

