-- ==== Sys2Proof/Machine/Contain.lean ====
section
/-!
DEFINITION. Fault messages whose event has no command of its own (15_faults.md): what their containing action changes, by the tables of R142, R171, R176,
R198, R459, R507, R518, R533 and R553.
-/
namespace Sys2Proof.Machine
open Sys2Proof

/-- A parity error in a translation cache (R132, R142): the entries of the holder for the tenant address go, leaves or pointers. -/
def State.xltParity (s : State) (holder ta : Nat) (ptr : Bool) : State :=
  s.setTlb (s.xlt.tlb.filter (fun e => !(e.holder == holder && entT e.val == ptr && e.tag == ta % 2 ^ 48 / 2 ^ lvlShift e.lvl)))

/-- A snoop-filter entry is uncorrectable (R176): every agent may hold the line, so each gets SnpInv, and the entry is rebuilt from the answers. A
transaction of the line that is open has read the entry already. -/
def State.sfRebuild (s : State) (line : Nat) : State :=
  if (s.trkOf line).isSome then s
  else (s.coh' (fun c => { c with sf := tput line { st := 1, holders := List.range 18, f := none } c.sf })).openOwn line .purge

/-- A directory record is uncorrectable (R171): each head with BI_EN may hold every line in M; BISnpInv goes out for all of them, and the answers rebuild
the record. -/
def State.dirRebuild (s : State) (lpn : Nat) : State :=
  let heads := (List.range 8).filter (fun h => (s.head h).biDec)
  if heads = [] then s.setDir lpn {}
  else
    let mask := heads.foldl (fun a h => a + 2 ^ h) 0
    let r : DirRec :=
      { hp := (List.range 64).map (fun k => (k, mask)), excl := List.range 64
        epoch := heads.foldl (fun t h => tputD 0 h (s.epochOf h) t) [] }
    let s := (s.setDir lpn r).coh' (fun c => { c with rebuild := linsert lpn c.rebuild })
    let s := heads.foldl (fun (s : State) h => s.bump .COH_BI_CNT_DIR_RECALLS 0xFFFF h) s
    (recPairs lpn r).foldl (fun (s : State) p => s.biSend p.1 p.2 0) s

/-- A line of a cluster cache or a job buffer is uncorrectable (R176): a clean one is dropped; a dirty one goes home as poison, and the job that wrote
it ends. -/
def State.lineSpoilt (s : State) (a line : Nat) : State :=
  match s.heldAt a line with
  | none => s
  | some h =>
    let s := s.hold a line none
    if h.st ≠ 4 then s
    else
      let s := ((s.coh' (fun c => { c with evs := tput (agKey a line) 1 c.evs })).say { cls := cREQ, code := 3, line := line, src := a, dst := s.homeAg line }).sendWb a line 0 true
      if 0x0E ≤ a then s.failJob (a - 0x0E) else s

/-- An uncorrectable line of a line cache (R198): a clean one is dropped and read again, a dirty one is poison. -/
def State.lcSpoilt (s : State) (line : Nat) : State :=
  match s.lcOf line with
  | some l => if l.dirty then s.poisonLine line 5 else s.lcDel line
  | none => s

/-- An uncorrectable entry of a metadata cache is read again from media, where A and D are 0 (R198, R237). -/
def State.mdcSpoilt (s : State) (lpn : Nat) : State :=
  let p := s.page lpn
  if (tget lpn s.coh.mdc).isNone ∨ ¬ hasImage p.pl.tier then s
  else (s.putPage lpn { p with pl := { p.pl with a := false, d := false } }).coh' (fun c => { c with mdc := tdel lpn c.mdc })

/-- The sector that the eviction sequencer failed on is written with the poison marking (R198). -/
def State.sectorSpoilt (s : State) (line : Nat) : State :=
  if hasImage (s.tier (line / 64)) then
    (sectorLines line).foldl (fun (s : State) l => (s.poisonMedia l 5).lcDel l) s
  else s

/-- A read of the key store finds copies of a slot's material uncorrectable (R269): the other copy repairs one; with both gone the slot is EMPTY. ADDR is the
slot, with bit 5 for copy A and bit 6 for copy B (DESIGN CHOICE, log 116). -/
def State.keySpoilt (s : State) (m : Msg) : State :=
  let ks := m.addr % 32
  let a := if bit m.addr 5 then none else tget ks s.sec.keysA
  let b := if bit m.addr 6 then none else tget ks s.sec.keysB
  match a <|> b with
  | some k => { s with sec := { s.sec with keysA := tput ks k s.sec.keysA, keysB := tput ks k s.sec.keysB } }
  | none => if s.slotActive ks then s.zeroise ks else s

/-- Both copies of a frit slot are uncorrectable (R218): what it held is gone, and every LZE sector that uses it reads as poison. One copy is repaired from the
other. ADDR is the slot's number in the store (DESIGN CHOICE, log 116). -/
def State.fritSpoilt (s : State) (x : Nat) : State := ({ s with cdc := { s.cdc with store := tdel x s.cdc.store } } : State).fritDrop x

/-- A slot of a slice's frit cache fails its parity (R231): it is refilled, or, its row disabled, used no more. ADDR is the cache slot (DESIGN CHOICE, log 116). -/
def State.fritParity (s : State) (n i : Nat) : State :=
  if s.isOff bCdc n 5 then ({ s with cdc := { s.cdc with cache := tdel (8 * n + i) s.cdc.cache } } : State).showFrits n else s

/-- The trainer fails (R231): the training ends. -/
def State.trainerFails (s : State) : State := if s.trainState = 1 ∨ s.trainState = 2 then s.fritDiscard else s

/-- The value a register field has from the configuration block, or its default. -/
def State.cfgValue (s : State) (k : RegKey) : Nat := (({ s with regs := [] } : State).applyCfg (fun _ => false)).get k.r k.i k.j

/-- The fields of a source are to be reloaded when its escalation step comes. -/
def State.toReload (s : State) (m : Msg) (l : List RegKey) : State :=
  { s with flt := { s.flt with reload := tput (srcId m) ((tgetD [] (srcId m) s.flt.reload) ++ l.map (fun k => (k, s.cfgValue k))) s.flt.reload } }

/-- An access-table entry is uncorrectable (R533): it reads as all zero. ADDR is the master, or the range entry where `range` says so (DESIGN CHOICE, log 116). -/
def State.tableSpoilt (s : State) (m : Msg) (range : Bool) : State :=
  let l : List RegKey := if range then
      [⟨.ACC_RNG_BASE_ADDR, m.inst, m.addr % 16⟩, ⟨.ACC_RNG_BASE_CLASS, m.inst, m.addr % 16⟩, ⟨.ACC_RNG_BASE_EN, m.inst, m.addr % 16⟩,
       ⟨.ACC_RNG_LIMIT_ADDR, m.inst, m.addr % 16⟩, ⟨.ACC_RNG_LIMIT_CLASS, m.inst, m.addr % 16⟩, ⟨.ACC_RNG_LIMIT_EN, m.inst, m.addr % 16⟩]
    else [⟨.ACC_TBL_RC, m.inst, m.addr % 0x43⟩]
  l.foldl (fun (s : State) k => s.put k.r 0 k.i k.j) (s.toReload m l)

/-- A severity-table entry is uncorrectable (R442, R459): its check fails until it is reloaded. ADDR is the entry (DESIGN CHOICE, log 116). -/
def State.sevSpoilt (s : State) (m : Msg) : State :=
  let e := m.addr % 1024
  let l : List RegKey := [⟨.FLT_SEV_SEV_C, e, 0⟩, ⟨.FLT_SEV_V_C, e, 0⟩, ⟨.FLT_SEV_SEV_U, e, 0⟩, ⟨.FLT_SEV_V_U, e, 0⟩, ⟨.FLT_SEV_SEV_F, e, 0⟩,
    ⟨.FLT_SEV_V_F, e, 0⟩, ⟨.FLT_SEV_CHKFAIL, e, 0⟩]
  ((s.toReload m l).put .FLT_SEV_CHKFAIL 1 e).put .FLT_STS_SEVT_FAIL 1

/-- A queue entry is uncorrectable (R459): its record is lost, and a running timer of it expires at once. -/
def State.entrySpoilt (s : State) (e : Nat) : State :=
  match tget e s.flt.recs with
  | some r =>
    let s := s.setRecs (tdel e s.flt.recs)
    if r.tmr then (s.orderEscalation r.msg r.direct r.seq 1 (some r)).afterSteps else s
  | none => s

/-- A counter of the performance unit fails its parity (R518): ERR, and its count is undefined; or its control entry, or the filter set it uses, does,
and every counter that uses the entry stops. -/
def State.pmuSpoilt (s : State) (n : Nat) (sub : Nat) (set : Bool) : State :=
  if sub = 0 then (s.drawn.put .PMU_CNT_ERR 1 n).put .PMU_CNT_COUNT (s.draw % 2 ^ 48) n
  else
    let same := fun (k : Nat) => set && s.isSet .PMU_CTL_FILT k && s.get .PMU_CTL_FSET k == s.get .PMU_CTL_FSET n
    ((List.range 256).filter (fun k => k == n || same k)).foldl (fun (s : State) k => s.put .PMU_CTL_EN 0 k) s

/-- The containing action of a message. `alt`: of two events that share a sub-unit and a class, the second: an uncorrectable snoop-filter entry (COH 0x1),
line or entry (SLC 0x1, 0x2), a range entry (ACC 0x4), a filter set (PMU 0x1), both copies of a frit slot (CDC 0x6), a copy of a root (SEC 0x6: repaired from
the other). An instance that did not reach power-good stays off (R507), and a roll whose
cluster failed its self-check goes back (R553). Every other containing action that changes state belongs to its event's own command. -/
def State.contain (s : State) (m : Msg) (alt : Bool) : State :=
  let line := m.addr / 64 % 2 ^ 39
  let lpn := m.addr / 4096 % 2 ^ 33
  if m.ended then s
  else if m.code = bPwr ∧ m.inst ≤ 30 ∧ m.sub = 0 then s.disable (srcId m)
  else if m.code = bEng ∧ 48 ≤ m.inst ∧ m.sub = 3 ∧ s.get .GLB_FW_STS_ROLL = 2 then
    (s.put .GLB_FW_STS_ROLL 3).endKind (fun k => k == .fwActivate) stFaulted 0 0
  else if m.code = bEng ∧ m.inst < 48 ∧ m.sub = 1 then s.endServed m.inst
  else if m.code = bXlt ∧ (m.sub = 1 ∨ m.sub = 2) then s.xltParity m.inst m.addr (m.sub == 2)
  else if m.code = bCoh ∧ m.sub = 1 then (if alt then s.sfRebuild line else s)
  else if m.code = bCoh ∧ m.sub = 2 then s.dirRebuild lpn
  else if m.code = bCoh ∧ m.sub = 5 ∧ 16 ≤ m.inst then s.lineSpoilt (m.inst - 8) line
  else if m.code = bSlc ∧ m.sub = 1 then (if alt ∨ m.fclass = 2 then s.lcSpoilt line else s)
  else if m.code = bSlc ∧ m.sub = 2 then (if alt then s.mdcSpoilt lpn else s)
  else if m.code = bSlc ∧ m.sub = 3 then s.coh' (fun c => { c with pred := tdel (16384 * m.inst + predIx lpn) c.pred })
  else if m.code = bSlc ∧ m.sub = 6 then s.sectorSpoilt line
  else if m.code = bCdc ∧ m.inst < 16 ∧ m.sub = 5 then s.fritParity m.inst (m.addr % 8)
  else if m.code = bCdc ∧ m.inst = 16 ∧ m.sub = 6 then (if alt then s.fritSpoilt (m.addr % 128) else s)
  else if m.code = bCdc ∧ m.inst = 16 ∧ m.sub = 7 then s.trainerFails
  else if m.code = bSec ∧ m.inst = 16 ∧ m.sub = 6 then (if alt then s else s.keySpoilt m)
  else if m.code = bAcc ∧ m.sub = 4 then s.tableSpoilt m alt
  else if m.code = bFab ∧ m.inst = 0 ∧ m.sub = 8 then s.sevSpoilt m
  else if m.code = bFab ∧ m.inst = 0 ∧ m.sub = 9 then s.entrySpoilt (m.addr % 256)
  else if m.code = bTlg ∧ 8 ≤ m.inst ∧ m.sub = 3 then s.setChan (m.inst - 8) { s.chan (m.inst - 8) with noTable := true }
  else if m.code = bPmu ∧ m.sub ≤ 1 then s.pmuSpoilt (m.addr % 256) m.sub alt
  else s

/-- An SRAM injection fires with the message of the read that meets it (R331): the array's, where one is armed and the message says so. The ECC
0x9 Note names the array's instance and, as its address, the array's source ID (DESIGN CHOICE, log 125). -/
def State.fireSram (s : State) (m : Msg) : State × Msg :=
  match s.ecc.inj.find? (fun x => decide (x.kind = 3 ∧ x.la = srcId m)) with
  | some x =>
    if ¬ m.inj then (s, m)
    else
      let s := { s with ecc := { s.ecc with inj := s.ecc.inj.filter (fun y => decide (y.handle ≠ x.handle)) } }
      (s.report { msg1 bEcc (m.inst % 16) 9 (srcId m) with inj := true }, m)
  | none => (s, { m with inj := false })

/-- FAULT_MESSAGE (R331, R440–R451): a message reaches the collector; `dropped` counts messages its stop discarded before it (R440, SRCDROP). -/
def execFaultMessage (m : Msg) (dropped : Nat) (alt : Bool) (s : State) : Res :=
  let (s, m) := s.fireSram m
  .next (((s.put .FLT_OVF_SRCDROP (satAdd 0xFFFF (s.get .FLT_OVF_SRCDROP) dropped)).contain m alt).report m)

end Sys2Proof.Machine
end

