-- ==== Sys2Proof/Machine/Present.lean ====
section
/-!
DEFINITION. What a head presents to its host beside the registers of the spec's own tables (R50–R60, R64, R66, R70–R72): configuration space, the
DVSECs, the BARs, the device registers of BAR2, the MSI-X table and its pending bits. Where the spec leaves a layout to PCIe or CXL it is theirs
(PRESUMED, log 30); the offsets within the device registers are the model's (log 100).
-/
namespace Sys2Proof.Machine
open Sys2Proof

/-! ### Configuration space (R52–R54, R57) -/

/-- Output fields as one little-endian number. -/
def outNat (o : Output) : Nat := o.foldl (fun a f => a + f.2.2 % 2 ^ (8 * f.2.1) * 2 ^ (8 * f.1)) 0

/-- log2 of the size of BAR0, BAR2 and BAR4 of a head; none where the BAR has no writable bits (R57). -/
def State.barLog (s : State) (h k : Nat) : Option Nat :=
  match k with
  | 0 => some 16
  | 1 => some 20
  | _ => if s.isSet .HPT_DEV_STS_STEWARD h then some 26 else none

/-- The static capacity of a head: what its enabled entries that are no Dynamic Capacity hold, in bytes. -/
def State.staticBytes (s : State) (h : Nat) : Nat :=
  ((List.range 16).filter (fun i => s.isSet .HPT_BIND_CTL_EN h i && !s.isSet .HPT_BIND_CTL_DC h i)).foldl
    (fun a i => a + s.get .HPT_BIND_SIZE_SIZE h i * 2 ^ 21) 0

/-- A DVSEC: its header, with vendor, length and ID, and its body. -/
def dvsecOut (vendor len id : Nat) (body : Output) : Output := [(0, 2, 0x23), (2, 1, 1), (4, 4, vendor + len * 2 ^ 20), (8, 2, id)] ++ body

/-- The four DVSECs of R54 in its order: CXL Devices (Cache_Capable and Mem Clr Capable read 0: R52), Flex Bus Port, Register Locator (each block as
BAR number, block identifier and offset), Zynoa head. No GPF DVSEC is among them. -/
def State.dvsec (s : State) (h k : Nat) : Output :=
  match k with
  | 0 =>
    let n := s.staticBytes h
    let ready := b2n (decide (s.status h = stOk))
    dvsecOut 0x1E98 0x3C 0 [(0x0A, 2, 0x96), (0x18, 4, n / 2 ^ 32), (0x1C, 4, n % 2 ^ 32 / 2 ^ 28 * 2 ^ 28 + 3 * ready), (0x20, 4, 0), (0x24, 4, 0)]
  | 1 => dvsecOut 0x1E98 0x20 7 [(0x0A, 2, 0x2026)]
  | 2 =>
    let block : Nat → Nat → Nat → Nat → Output := fun at' bar id off => [(at', 1, bar), (at' + 1, 1, id), (at' + 4, 4, off)]
    dvsecOut 0x1E98 0x24 8 (block 0x0C 0 1 0 ++ block 0x14 2 3 0x1000 ++ if s.isSet .HPT_DEV_STS_STEWARD h then block 0x1C 4 4 0 else [])
  | _ => dvsecOut 0x1F2C 0x10 1 [(0x0A, 4, h + h / 2 * 8 + b2n (s.host.x8.contains (h / 2)) * 32 + s.get .HPT_DEV_STS_STEWARD h * 64)]

/-- A read of configuration space or of a component register of a head. -/
def State.hostRead (s : State) (h : Nat) (f : HostField) : Nat :=
  let hd := s.head h
  match f with
  | .cplValue => hd.cplValue
  | .cplDisable => b2n hd.cplDisable
  | .tags10 => b2n (!hd.tag8)
  | .biEnable => b2n hd.biDec
  | .maxPayload => hd.maxPayload
  | .maxRead => hd.maxRead
  | .decodePoison => b2n hd.decodePoison
  | .ids => 0x09601F2C
  | .classRev => 0x05021001
  | .subsystem => hd.subsysVendor + hd.subsysId * 2 ^ 16
  | .intPin => 0
  | .bar k => match s.barLog h k with | some _ => tgetD 0 k hd.bars + 4 | none => 0
  | .serial => s.get .GLB_DEVID_ID
  | .dvsec k => outNat (s.dvsec h k)

/-- A write of configuration space or of a component register: an encoding the field does not take leaves it (R19, R51, R57, R71, R72). Back-invalidate
enable written 0 acts as R170 states. -/
def State.hostWrite (s : State) (h : Nat) (f : HostField) (v : Nat) : State :=
  let hd := s.head h
  match f with
  | .cplValue => if [0, 1, 2, 5, 6, 9, 10, 13, 14].contains (v % 16) then s.setHead h { hd with cplValue := v % 16 } else s
  | .cplDisable => s.setHead h { hd with cplDisable := bit v 0 }
  | .tags10 => s.setHead h { hd with tag8 := !bit v 0 }
  | .biEnable =>
    if bit v 0 then s.setHead h { hd with biDec := true }
    else match execBiEnCleared (Fin.ofNat 8 h) s with | .next t => t | _ => s
  | .maxPayload => if v % 8 ≤ 2 then s.setHead h { hd with maxPayload := v % 8 } else s
  | .maxRead => if v % 8 ≤ 5 then s.setHead h { hd with maxRead := v % 8 } else s
  | .decodePoison => s.setHead h { hd with decodePoison := bit v 0 }
  | .bar k => match s.barLog h k with | some n => s.setHead h { hd with bars := tput k.val (v % 2 ^ 64 / 2 ^ n * 2 ^ n) hd.bars } | none => s
  | .ids | .classRev | .subsystem | .intPin | .serial | .dvsec _ => s

/-! ### Device registers of BAR2 (R56–R60) -/

/-- Offsets of BAR2 beside the registers of the spec's tables that are decoded (R57): the device registers' 16 KiB with the MSI-X table in it,
the pending-bit array, the primary mailbox. -/
def deviceAt (off : Nat) : Bool := decide ((0x1000 ≤ off ∧ off < 0x5010) ∨ (0x30000 ≤ off ∧ off < 0x70020))

/-- The events logs of a head that hold a record, one bit each (the Event Status register). -/
def State.eventBits (s : State) (h : Nat) : Nat :=
  (List.range 5).foldl (fun a k => a + b2n (!(tgetD {} k (s.head h).logs).recs.isEmpty) * 2 ^ k) 0

/-- Media Status, in bits [3:2] of the Memory Device Status, with mailbox ready in bit 4: Not Ready while the head is not ready (R60). -/
def State.mediaStatus (s : State) (h : Nat) : Nat := 16 + if s.status h = stOk then 4 else 0

/-- A 64-bit word of the device registers: the capabilities array with its three headers, Event Status, Memory Device Status, the MSI-X table, the
pending bits, and the mailbox: payload size 18 and its interrupt, doorbell, return code. Any other word is a free value. -/
def State.deviceWord (s : State) (h off : Nat) : Option Nat :=
  let hd := s.head h
  if 0x4000 ≤ off ∧ off < 0x4480 then
    let e := tgetD {} (off / 16 % 128) hd.msix
    some (if off % 16 = 0 then e.addr else e.data % 2 ^ 32 + b2n e.mask * 2 ^ 32)
  else if 0x5000 ≤ off then
    match off with
    | 0x5000 => some ((hd.msixPend.filter (fun v => decide (v < 64))).foldl (fun a v => a + 2 ^ v) 0)
    | 0x5008 => some ((hd.msixPend.filter (fun v => decide (64 ≤ v))).foldl (fun a v => a + 2 ^ (v - 64)) 0)
    | 0x30000 => some (18 + 32 + b2n hd.mboxBusy * 2 ^ 32)
    | 0x30010 => some (((hd.mbox.map (·.code)).getD 0) * 2 ^ 32)
    | 0x30018 => some 0
    | _ => none
  else match off with
    | 0x1000 => some (1 * 2 ^ 16 + 1 * 2 ^ 24 + 3 * 2 ^ 32)
    | 0x1010 => some (1 + 1 * 2 ^ 16 + 0x40 * 2 ^ 32)
    | 0x1018 => some 8
    | 0x1020 => some (2 + 1 * 2 ^ 16 + 0x2F000 * 2 ^ 32)
    | 0x1028 => some 0x40020
    | 0x1030 => some (0x4000 + 1 * 2 ^ 16 + 0x80 * 2 ^ 32)
    | 0x1038 => some 8
    | 0x1040 => some (s.eventBits h)
    | 0x1080 => some (s.mediaStatus h)
    | _ => none

/-- A write to an entry of the MSI-X table (R56), v under the mask m: a pending message of a vector that is now unmasked goes out. -/
def State.writeMsix (s : State) (h off v m : Nat) : State :=
  let k := off / 16 % 128
  let hd := s.head h
  let e := tgetD {} k hd.msix
  let mix := fun (old : Nat) => old - (old &&& m) + (v &&& m)
  let w := mix (e.data % 2 ^ 32 + b2n e.mask * 2 ^ 32)
  let e' := if off % 16 = 0 then { e with addr := mix e.addr } else { e with data := w % 2 ^ 32, mask := bit w 32 }
  let s := s.setHead h { hd with msix := tput k e' hd.msix }
  if s.isSet .HPT_HEAD_STS_BME h ∧ hd.msixPend.contains k then s.sendPending h [k] else s

/-- A write to the device registers: only the MSI-X table takes one here; a command of the mailbox has a row of its own. -/
def State.deviceWrite2 (s : State) (h off v m : Nat) : State := if 0x4000 ≤ off ∧ off < 0x4480 then s.writeMsix h off v m else s

end Sys2Proof.Machine
end

