-- ==== Sys2Proof/Machine/RegAccess.lean ====
section
/-!
DEFINITION. Accesses to the registers (R18–R20, R44, R46, R519–R524): reads, writes with the behaviours of each access code, bad accesses, and the
TAP (R530).
-/
namespace Sys2Proof.Machine
open Sys2Proof

/-- The state after an event that a register write sets off. -/
def after (s : State) (r : Res) : State := match r with | .next t => t | _ => s

/-- Where a register access goes: BAR2 of a head, or the BAR4 space as a master. -/
inductive Space where
  | bar2 (h : Nat) | bar4 (master : Nat)
  deriving DecidableEq, Repr

/-- The register at an offset of a space. -/
def Space.at' (sp : Space) (off : Nat) : Option (RegRow × Nat × Nat) :=
  match sp with
  | .bar2 h => regAt2 h off
  | .bar4 _ => regAt4 off

/-- The target whose 1 MiB window holds an offset (R519); 37 above all blocks. -/
def regTarget (off : Nat) : Nat := if off < 0x1200000 then 16 + off / 0x100000 else 37

/-- An offset that lies in the record windows of `FLT_REC`. -/
def inRecs (sp : Space) (off : Nat) : Bool := (match sp with | .bar4 _ => true | _ => false) && decide (0x308000 ≤ off ∧ off < 0x30A000)

/-- The head whose device registers an offset names (R57). -/
def Space.device (sp : Space) (off : Nat) : Option Nat :=
  match sp with
  | .bar2 h => if deviceAt off then some h else none
  | .bar4 _ => none

/-- An access of a good size and alignment to a decoded offset (R20). -/
def goodAccess (sp : Space) (off size : Nat) : Bool :=
  decide ((size = 4 ∨ size = 8) ∧ off % size = 0) && (inRecs sp off || (sp.device off).isSome || (sp.at' (off / 8 * 8)).isSome)

/-- The Note of a bad access (R20). -/
def State.badAccess (s : State) (sp : Space) (off : Nat) : State :=
  match sp with
  | .bar2 h => s.report (msg1 bHpt h 7)
  | .bar4 _ => s.report (msg1 bAcc (regTarget off) 3 off)

/-- The access tables judge an access to a register of BAR4, by its offset within the block (R519–R521). -/
def State.regJudge (s : State) (sp : Space) (off op : Nat) : State × Bool :=
  match sp with
  | .bar2 _ => (s, true)
  | .bar4 m => s.access (regTarget off) m (off % 0x100000) op false (if m < 8 then .toHead m else .std)

/-! ### Reads -/

/-- The 64-bit word at an aligned offset. -/
def State.regWord (s : State) (sp : Space) (off : Nat) : Nat :=
  if inRecs sp off then
    match tget ((off - 0x308000) / 32) s.flt.recs with
    | some r => recWord r (off % 32 / 8)
    | none => 0
  else match sp.at' off with
    | some (row, i, j) => s.rowWord row i j
    | none => 0

/-- A read: the state after it, the value, and whether it was denied (R524). A device register that no rule
describes reads a free value. -/
def State.regRead (s : State) (sp : Space) (off size : Nat) : State × Nat × Bool :=
  if ¬ goodAccess sp off size then (s.badAccess sp off, 0, false)
  else
    let (s, ok) := s.regJudge sp off opR
    if ¬ ok then (s, 0, true)
    else
      let cut := fun (w : Nat) => bits w (8 * (off % 8)) (8 * size)
      match sp.device off with
      | none => (s, cut (s.regWord sp (off / 8 * 8)), false)
      | some h => match s.deviceWord h (off / 8 * 8) with
        | some w => (s, cut w, false)
        | none => (s.drawn, s.draw % 2 ^ (8 * size), false)

/-! ### Writes -/

/-- The LOCK field of the block that holds an offset of BAR4. -/
def lockOf (off : Nat) : Option Reg :=
  match off / 0x100000 with
  | 0x01 => some .PWR_LOCK_LOCK | 0x02 => some .THM_LOCK_LOCK | 0x03 => some .FLT_LOCK_LOCK | 0x04 => some .PMU_LOCK_LOCK
  | 0x07 => some .COH_LOCK_LOCK | 0x08 => some .CDC_LOCK_LOCK | 0x09 => some .JOB_LOCK_LOCK | 0x0A => some .SEC_LOCK_LOCK
  | 0x0B => some .ECC_LOCK_LOCK | 0x0C => some .MEM_LOCK_LOCK | 0x0D => some .SLT_LOCK_LOCK | 0x0E => some .CVN_LOCK_LOCK
  | 0x0F => some .HPT_LOCK_LOCK | 0x11 => some .ACC_LOCK_LOCK | _ => none

/-- A field that takes no write now: its block is locked (R18), its binding entry enabled (R62), its ring not DISABLED (R96), its counter or filter
set in use (R514); the grain is locked once it is loaded (R338). -/
def State.heldField (s : State) (f : FieldRow) (off i j : Nat) : Bool :=
  (f.acc == .rwl && (match lockOf off with | some l => s.isSet l | none => false))
    || (match f.reg with
      | .HPT_BIND_BASE_BASE | .HPT_BIND_SIZE_SIZE | .HPT_BIND_TA_TABASE | .HPT_BIND_CTL_KIND | .HPT_BIND_CTL_TC | .HPT_BIND_CTL_DC
      | .HPT_BIND_CTL_DCREG => s.isSet .HPT_BIND_CTL_EN i j
      | .HPT_RING_CFG_SQLOG2 | .HPT_RING_CFG_CQLOG2 | .HPT_RING_CFG_PRIV | .HPT_RING_CFG_IRQ_EN | .HPT_RING_CFG_COAL_CNT | .HPT_RING_CFG_COAL_US
      | .HPT_SQ_BASE_ADDR | .HPT_CQ_BASE_ADDR => s.get .HPT_RING_STS_STATE i j != 0
      | .MEM_GLB_GRAIN => true
      | .PMU_CTL_EVENT | .PMU_CTL_FILT | .PMU_CTL_FSET => s.isSet .PMU_CTL_EN i
      | .PMU_FS_MASK0_MASK | .PMU_FS_MASK1_MASK | .PMU_FS_BASE_LPN | .PMU_FS_LIMIT_LPN | .PMU_FS_SEL_CLSET | .PMU_FS_SEL_TIERSET
      | .PMU_FS_SEL_PRIVSET | .PMU_FS_SEL_RANGE_EN =>
        (List.range 256).any (fun n => s.isSet .PMU_CTL_EN n && s.isSet .PMU_CTL_FILT n && s.get .PMU_CTL_FSET n == i)
      | _ => false)

/-- A field whose write is an event of its own. -/
def ownWrite (r : Reg) : Bool :=
  match r with
  | .HPT_BIND_CTL_EN | .HPT_RING_CTL_EN | .PMU_GCTL_FREEZE => true
  | _ => false

/-- The encoding is one the field takes (R19): EVENT has to be one of its counter's unit, THROT_C and CRIT_C lie 5 above what WARN_C and HOT_C of
the same write have become (R501). -/
def State.legalAt (s : State) (r : Reg) (i v : Nat) : Bool :=
  legal r v && (match r with
    | .PMU_CTL_EVENT => legalEvent i v
    | .THM_LIMITS_THROT_C => decide (s.get .THM_LIMITS_WARN_C + 5 ≤ v ∧ v ≤ 145)
    | .MEM_REF_CTL_CRIT_C => decide (s.get .MEM_REF_CTL_HOT_C i + 5 ≤ v)
    | _ => true)

/-- A field takes its bits of a written word: v the register's word as merged, m the bits the access writes, s0 the state before the access, which
decides whether the field is held (one access is atomic: R20). -/
def State.writeField (s0 s : State) (f : FieldRow) (off i j v m : Nat) : State :=
  let plain := f.acc == .rw || f.acc == .rwl || f.acc == .rws
  if ¬ plain ∨ ownWrite f.reg then s
  else (f.places j).foldl (fun (s : State) p =>
    let x := bits v p.2 f.width
    if bits m p.2 f.width = 0 ∨ s0.heldField f off i p.1 ∨ ¬ s.legalAt f.reg i x then s else s.put f.reg x i p.1) s

/-- The stored bits of a register's writable fields. -/
def State.stored (s : State) (row : RegRow) (i j : Nat) : Nat :=
  row.fields.foldl (fun a f =>
    if f.acc = .rw ∨ f.acc = .rwl ∨ f.acc = .rws then (f.places j).foldl (fun a p => a + (s.get f.reg i p.1 % 2 ^ f.width) * 2 ^ p.2) a else a) 0

/-- What CLR of a register leaves (its table): levels and queue lengths, and what the latest denial names. -/
def keptByClear (r : Reg) : Bool :=
  match r with
  | .XLT_PRESS_STS_LEVEL | .XLT_PRESS_STS_SHORTFALL | .XLT_PRESS_STS_EVAC_READY | .XLT_TIER_SLICE_PQ | .XLT_TIER_SLICE_DQ | .XLT_TIER_SLICE_FQ
  | .ACC_STS_LAST_TGT | .ACC_STS_LAST_MST => true
  | _ => false

/-- CLR of a register is written 1 (R18): its counts are 0. That of `FLT_OVF` also empties `FLT_OVF_MSG`. -/
def State.clearCounts (s : State) (row : RegRow) (i j : Nat) : State :=
  let s := row.fields.foldl (fun (s : State) f =>
    if f.acc = .wo ∨ keptByClear f.reg then s else (f.places j).foldl (fun (s : State) p => s.put f.reg 0 i p.1) s) s
  if row.fields.any (fun f => decide (f.reg = .FLT_OVF_CLR)) then (s.put .FLT_OVF_MSG0_MSG 0).put .FLT_OVF_MSG1_MSG 0 else s

/-- What a written field sets off beside its value: x its bits in the access, 0 where the access does not reach it. -/
def State.writeEvent (s : State) (row : RegRow) (f : FieldRow) (i j x v m : Nat) : State :=
  let reached := decide (bits m f.lo f.width ≠ 0)
  match f.reg with
  | .HPT_SQ_DB_TAIL => if reached then after s (execSqDoorbell (Fin.ofNat 8 i) (Fin.ofNat 64 j) (Fin.ofNat 65536 x) s) else s
  | .HPT_CQ_DB_HEAD => if reached then after s (execCqDoorbell (Fin.ofNat 8 i) (Fin.ofNat 64 j) (Fin.ofNat 65536 x) s) else s
  | .HPT_PYX_OPDONE_DONE => after s (execOpdoneClear (Fin.ofNat 8 i) (Fin.ofNat (2 ^ 64) (v &&& m)) s)
  | .HPT_RING_CTL_EN =>
    if ¬ reached then s
    else if bit v 1 then after s (execRingAbort (Fin.ofNat 8 i) (Fin.ofNat 64 j) s)
    else if x = 1 then after s (execRingEnable (Fin.ofNat 8 i) (Fin.ofNat 64 j) s)
    else after s (execRingDrain (Fin.ofNat 8 i) (Fin.ofNat 64 j) s)
  | .HPT_BIND_CTL_EN => if reached then after s (execBindEnableWrite (Fin.ofNat 8 i) (Fin.ofNat 16 j) (x == 1) s) else s
  | .COH_SPEC_CTL_PFLUSH => if x = 1 then after s (execPredictorFlush (Fin.ofNat 16 i) s) else s
  | .CDC_TRAIN_CTL_START =>
    if x = 1 then s.trainStart (s.get .CDC_TRAIN_CTL_FRIT) (s.get .CDC_TRAIN_CTL_SCOPE) (s.isSet .CDC_TRAIN_CTL_ANY) (s.get .CDC_TRAIN_CTL_SAMPLES)
    else s
  | .CDC_TRAIN_CTL_COMMIT => if x = 1 then s.fritCommit else s
  | .CDC_TRAIN_CTL_DISCARD => if x = 1 then s.fritDiscard else s
  | .MEM_FRZ_CTL_HOLD_END => if x = 1 then after s (execHoldEnd (Fin.ofNat 16 i) s) else s
  | .PMU_GCTL_FREEZE => if reached then after s (execPmuFreeze (x == 1) s) else s
  | .PMU_CNT_CLR => if x = 1 then s.pmuClear i else s
  | r =>
    if lockRegs.contains r then (if x = 1 then s.put r 1 else s)
    else if f.acc = .wo ∧ f.lo = 63 ∧ x = 1 then s.clearCounts row i j
    else s

/-- A write to word 3 of a record window: ACK, then VALID (R445, R452). -/
def State.writeRec (s : State) (off v m : Nat) : State :=
  let k := (off - 0x308000) / 32
  if off % 32 ≠ 24 then s
  else
    let s := if bit (v &&& m) 61 then s.ackRec k else s
    if bit (v &&& m) 56 then s.clearRec k else s

/-- The effect of a write of v under the mask m at an aligned offset. -/
def State.writeWord (s : State) (sp : Space) (off v m : Nat) : State :=
  if inRecs sp off then s.writeRec off v m
  else match sp.device off with
  | some h => s.deviceWrite2 h off v m
  | none => match sp.at' off with
    | none => s
    | some (row, i, j) =>
      let old := s.stored row i j
      let new := (old - (old &&& m)) + (v &&& m)
      let s := row.fields.foldl (fun (t : State) f => State.writeField s t f off i j new m) s
      row.fields.foldl (fun (s : State) f => s.writeEvent row f i j (bits (v &&& m) f.lo f.width) v m) s

/-- A write: the state after it, and whether it was denied. -/
def State.regWrite (s : State) (sp : Space) (off size v : Nat) : State × Bool :=
  if ¬ goodAccess sp off size then (s.badAccess sp off, false)
  else
    let (s, ok) := s.regJudge sp off opW
    if ¬ ok then (s, true)
    else
      let sh := 2 ^ (8 * (off % 8))
      (s.writeWord sp (off / 8 * 8) (v % 2 ^ (8 * size) * sh) ((2 ^ (8 * size) - 1) * sh), false)

/-- The registers answer: the main die has power and runs. -/
def State.regsUp (s : State) : Bool := decide (s.boot.phase = 3) && s.get .PWR_STATE_PS != 3 && !s.pwr.stopped

/-- A head claims no access to BAR4 while it is no Steward head (R57). -/
def State.claims (s : State) (m : Nat) : Bool := decide (8 ≤ m) || s.isSet .HPT_DEV_STS_STEWARD m

/-- REGISTER_WRITE (R18–R20, R57, R521, R524): a write of 4 or 8 bytes; whatever the register does on a write happens. A head that is no Steward head
discards one to BAR4. BAR2 and configuration space are reached by their head alone. -/
def execRegisterWrite (sp : RegSpace) (m : Master) (off : Fin (2 ^ 26)) (wide : Bool) (v : Fin (2 ^ 64)) (s : State) : Res :=
  .next (
    if ¬ s.regsUp then s
    else match sp with
      | .bar4 => if s.claims m.val then (s.regWrite (.bar4 m.val) off.val (if wide then 8 else 4) v.val).1 else s
      | .bar2 => if m.val < 8 then (s.regWrite (.bar2 m.val) off.val (if wide then 8 else 4) v.val).1 else s
      | .host f => if m.val < 8 then s.hostWrite m.val f v.val else s)

/-- BAD_REGISTER_ACCESS (R20, R57): an access of a size, an alignment or an offset that is not good: a read returns 0, a write has no effect, a Note is
sent; configuration space makes none. To a head that is no Steward head BAR4 is unclaimed. A read that is good after all returns its value. -/
def execBadRegisterAccess (sp : RegSpace) (m : Master) (off : Fin (2 ^ 26)) (size : Fin 129) (read : Bool) (s : State) : Res :=
  let reads := fun (p : Space) =>
    if read then let (t, v, _) := s.regRead p off.val size.val; t.emit (.value v)
    else if goodAccess p off.val size.val then s else s.badAccess p off.val
  .next (
    if ¬ s.regsUp then s
    else match sp with
      | .bar4 => if s.claims m.val then reads (.bar4 m.val) else if read then s.emit (.unsupported m.val) else s
      | .bar2 => if m.val < 8 then reads (.bar2 m.val) else s
      | .host f => if m.val < 8 ∧ read then s.emit (.value (s.hostRead m.val f)) else s)

/-- COUNTER_CLEAR (R18): CLR of the register at an offset of BAR4 is written 1. -/
def execCounterClear (m : Master) (off : Fin (2 ^ 26)) (s : State) : Res :=
  .next (if s.regsUp ∧ s.claims m.val ∧ off.val % 8 = 0 then (s.regWrite (.bar4 m.val) off.val 8 (2 ^ 63)).1 else s)

/-- BLOCK_LOCK (R18): LOCK of the block that holds an offset of BAR4 is written 1. -/
def execBlockLock (m : Master) (off : Fin (2 ^ 26)) (s : State) : Res :=
  match s.regsUp && s.claims m.val, lockOf off.val with
  | true, some l =>
    let lockAt := if off.val / 0x100000 = 0x0C then 0xFF00 else 0xF0000
    let (s, ok) := s.regJudge (.bar4 m.val) (off.val / 0x100000 * 0x100000 + lockAt) opW
    .next (if ok then s.put l 1 else s)
  | _, _ => .next s

/-! ### The TAP (R524, R528, R530) -/

/-- TAP_RESET (R530): TAP_RST_N low holds the TAP in Test-Logic-Reset, which selects IDCODE. -/
def execTapReset (low : Bool) (s : State) : Res :=
  .next { s with acc := { s.acc with tapReset := low, tapInstr := if low then 1 else s.acc.tapInstr } }

/-- The TAP takes instructions and the main die answers. -/
def State.tapOn (s : State) : Bool := !s.acc.tapReset && s.boot.phase != 0

/-- DBG_ACC (R521, R524, R528, R530): a 64-bit access as master DBG to the BAR4 space, or to logical memory (byte address). Level 0 denies it. An access to memory waits
until the home has the line. `hint`:
the allocator's choice for a write. -/
def execDbgAcc (mem write : Bool) (addr : Fin (2 ^ 45)) (data : Fin (2 ^ 64)) (hint : Nat) (s : State) : Res :=
  if ¬ s.tapOn then .next s
  else
    let s : State := { s with acc := { s.acc with tapInstr := 0x20, tapErr := false } }
    let err := fun (s : State) => ({ s with acc := { s.acc with tapErr := true } } : State).emit (.value 0)
    if ¬ s.regsUp ∨ s.get .ACC_DBG_LEVEL = 0 then .next (err s)
    else if ¬ mem then
      if write then
        match s.regWrite (.bar4 mDbg) addr.val 8 data.val with
        | (s, denied) => .next (if denied then err s else s)
      else
        match s.regRead (.bar4 mDbg) addr.val 8 with
        | (s, v, denied) => .next (if denied then err s else s.emit (.value v))
    else
      let line := addr.val / 64
      let at' := 64 * (addr.val / 8 % 8)
      match s.memAccess mDbg (line / 64) (if write then opW else opR) false .std with
      | (s, false) => .next (err s)
      | (s, true) =>
        .next ({ s with acc := { s.acc with tapMem := some (line, at', if write then some data.val else none, hint) } } : State).tapGo

/-- Seconds of an unlock that are left. -/
def State.dbgLeft (s : State) : Nat := if s.get .ACC_DBG_LEVEL = 0 then 0 else (s.acc.dbgUntil - s.now + 999999999) / 1000000000

/-- DBG_STS (R530): level in [1:0], remaining seconds in [18:2], ERR in bit 19 (layout: DESIGN CHOICE, log 58). -/
def execDbgSts (s : State) : Res :=
  if ¬ s.tapOn then .next s
  else
    let s : State := { s with acc := { s.acc with tapInstr := 0x21 } }
    .next (s.emit (.value (s.get .ACC_DBG_LEVEL + 4 * s.dbgLeft + 2 ^ 19 * b2n s.acc.tapErr)))

/-- EXTEST (R530): while SYS_RST_N is held low, or at level 2; else BYPASS is selected. Gates, SG_FETSHORT_N and THERMTRIP_N are never driven, so no
state of the model changes. -/
def execExtest (s : State) : Res :=
  if ¬ s.tapOn then .next s
  else
    let may := decide (s.boot.phase = 1 ∨ s.boot.phase = 2 ∨ s.get .ACC_DBG_LEVEL = 2)
    .next { s with acc := { s.acc with tapInstr := if may then 0x00 else 0xFF } }

end Sys2Proof.Machine
end

