-- ==== Sys2Proof/Machine/Sys.lean ====
section
/-!
DEFINITION. The `sys` commands (R102, R103, R577), and what the DOE mailbox of a head and the SPDM responder answer (R55, R66, R309).
-/
namespace Sys2Proof.Machine
open Sys2Proof

/-! ### The `sys` commands -/

/-- SYS_QUERY (R102). -/
def execSysQuery (q : Req) (s : State) : Res :=
  serve { op := 0x0100, priv := 0, mctp := true, output := true } q none (fun s =>
    let rom := s.isSet .GLB_BOOT_STS_ROMREC
    let c := s.get .GLB_BOOT_STS_FWCOPY
    okOut s 0x01010960 64 [(0x00, 8, s.get .GLB_FW_VER_VERSION), (0x08, 8, s.get .GLB_DEVID_ID),
      (0x10, 4, if rom then 0 else fwSvn (s.fwCopy c)), (0x14, 1, c)]) s

/-- SYS_NOP (R102). -/
def execSysNop (q : Req) (s : State) : Res := serve { op := 0x0101, priv := 0, mctp := true } q none (fun s => ok s) s

/-- The checks of R103 on an offset and a width. The width fills the 8 bytes at its offset, of which R102 gives no number (DESIGN CHOICE, log 106). An offset beyond the BAR4 space is no parameter of these commands (DEDUCED, log 59). -/
def regBad (q : Req) (wOff : Nat) : Option Nat :=
  let w := par q wOff 8
  firstBad [(wOff, decide (w = 4 ∨ w = 8)), (0x10, decide ((w ≠ 4 ∨ par q 0x10 8 % 4 = 0) ∧ (w ≠ 8 ∨ par q 0x10 8 % 8 = 0) ∧ par q 0x10 8 < 0x4000000))]

/-- SYS_REG_READ (R20, R44, R103): with the master ID of the serving engine. -/
def execSysRegRead (q : Req) (s : State) : Res :=
  serve { op := 0x0102, priv := 2, mctp := true, fields := [fld 0x10 8, fld 0x18 8] } q (regBad q 0x18) (fun s =>
    match s.regRead (.bar4 (mEng q.engine.val)) (par q 0x10 8) (par q 0x18 8) with
    | (t, _, true) => deniedAns t (s.get .FLT_SEQ_NEXT)
    | (t, v, false) => ok t v) s

/-- SYS_REG_WRITE (R20, R44, R103). -/
def execSysRegWrite (q : Req) (s : State) : Res :=
  serve { op := 0x0103, priv := 2, mctp := true, fields := [fld 0x10 8, fld 0x18 8, fld 0x20 8] } q (regBad q 0x20) (fun s =>
    match s.regWrite (.bar4 (mEng q.engine.val)) (par q 0x10 8) (par q 0x20 8) (par q 0x18 8) with
    | (t, true) => deniedAns t (s.get .FLT_SEQ_NEXT)
    | (t, false) => ok t) s

/-- The operation a handle names: none was issued under it, a newer one holds its slot, or it is there (R103). -/
inductive Looked where
  | never | stale | found (slot : Nat) (o : OpSlot)

/-- A handle that was never issued as such, its count having gone to another slot, meets both sentences of R103 where its slot holds a newer
operation: the slot decides, and it is stale (DESIGN CHOICE, log 107). -/
def State.lookOp (s : State) (handle : Nat) : Looked :=
  match tget (handle % 64) s.pyx.slots with
  | some o => if o.seq = handle / 64 then .found (handle % 64) o else if handle / 64 = 0 ∨ o.seq < handle / 64 then .never else .stale
  | none => .never

/-- The caller's scope covers an operation (R103). -/
def State.covers (s : State) (q : Req) (o : OpSlot) : Bool :=
  match s.priv q.origin with
  | 2 => true
  | 1 => (headOf q.origin).isSome && headOf q.origin == headOf o.origin
  | _ => match q.origin, o.origin with
    | .mctp a _ _, .mctp b _ _ => a == b
    | _, _ => false

/-- The refusal of an operation outside the caller's scope. -/
def State.outOfScope (s : State) (q : Req) : Option (Nat × Nat) :=
  match s.lookOp (par q 0x10 8) with
  | .found _ o => if s.covers q o then none else some (stNoPriv, 3)
  | _ => none

/-- The handle was issued since cold reset. -/
def State.handleBad (s : State) (q : Req) : Option Nat :=
  match s.lookOp (par q 0x10 8) with
  | .never => some 0x10
  | _ => none

/-- SYS_OP_STATUS (R102, R103). -/
def execSysOpStatus (q : Req) (s : State) : Res :=
  serve { op := 0x0104, priv := 0, mctp := true, fields := [fld 0x10 8] } q (s.handleBad q) (fun s =>
    match s.lookOp (par q 0x10 8) with
    | .found _ o => ok s (o.status + o.progress % 128 * 2 ^ 16) o.detail
    | _ => refuse s stStale 0) s (s.outOfScope q)

/-- `mem.set_freq` on channels that have not begun is dropped; the operation ends with ST_ABORTED unless the change under way is its last. -/
def State.cancelFreq (s : State) (slot : Nat) (l : List Nat) : State :=
  let waits := l.filter (fun c => (s.chan c).changeTo.isSome && s.chState c != 5)
  let s := waits.foldl (fun (s : State) c => s.setChan c { s.chan c with changeTo := none }) s
  if waits = [] then s else s.readyOp slot stAborted 0 0

/-- What `sys.op_cancel` does to a running operation (R577). An operation whose work is done keeps its own end. Whether the flash write of a
`cfg.load` has begun is a free value (log 108). -/
def State.cancelOp (s : State) (slot : Nat) (o : OpSlot) : State :=
  let handle := o.seq * 64 + slot
  let drop := { s with pg := { s.pg with opPages := s.pg.opPages.filter (fun x => x.handle != handle) } }
  if o.running = false ∨ o.ready.isSome then s
  else match o.kind with
    | .dcAdd h | .dcRelease h =>
      (s.setHead h { s.head h with dcPending := (s.head h).dcPending.filter (fun x => x.handle != handle) }).readyOp slot stAborted 0 0
    | .tierPin =>
      let mine := (s.pg.opPages.filter (fun x => x.handle == handle)).map (·.lpn)
      (mine.foldl (fun (t : State) l => t.setQueue 2 (t.home l) ((t.queue 2 (t.home l)).filter (fun r => !(r.lpn == l && r.cls == 4)))) drop).readyOp
        slot stAborted 0 0
    | .tierTwin | .zeroise _ _ => drop.readyOp slot stAborted 0 0
    | .job n => s.cutJob n stAborted 0
    | .rotate k => (s.stopSweep k).sweepEnds k stAborted 0 0
    | .cfgLoad =>
      if s.draw % 2 = 1 then s.drawn else ({ s.drawn with boot := { s.boot with load := none } } : State).readyOp slot stAborted 0 0
    | .retrain _ | .offline _ | .fwStage => s
    | .setFreq l _ => s.cancelFreq slot l
    | .powerOn c => { s with slt := { s.slt with stopping := linsert c s.slt.stopping } }
    | .service c => if s.svc c = 1 then s.cancelSvc c else s
    | .linkUp p a =>
      if a ≠ 0 then s
      else
        let s := s.put .CVN_PORT_CFG_AUTO_UP 0 p
        let st := s.get .CVN_LINK_STS_STATE p
        (if st = 5 ∨ st = 6 then s else (s.dropLink p).put .CVN_LINK_STS_STATE 0 p).readyOp slot stAborted 0 0
    | .reclaim p => (s.setPort p { s.port p with closing := false }).readyOp slot stAborted 0 0
    | .ps3 =>
      if s.pwr.linkWait then
        (({ s with pwr := { s.pwr with linkWait := false } } : State).put .PWR_STATE_ENTERING 0).readyOp slot stAborted 0 0
      else s
    | .fwActivate => if s.get .GLB_FW_STS_ROLL = 2 then (s.put .GLB_FW_STS_ROLL 3).readyOp slot stAborted 0 0 else s

/-- SYS_OP_CANCEL (R102, R103, R577). -/
def execSysOpCancel (q : Req) (s : State) : Res :=
  serve { op := 0x0105, priv := 1, mctp := true, fields := [fld 0x10 8] } q (s.handleBad q) (fun s =>
    match s.lookOp (par q 0x10 8) with
    | .found slot o => ok (s.cancelOp slot o)
    | _ => refuse s stStale 0) s (s.outOfScope q)

/-- SYS_TIME_SYNC (R102). -/
def execSysTimeSync (q : Req) (s : State) : Res :=
  serve { op := 0x0106, priv := 2, mctp := true, fields := [fld 0x10 8] } q none (fun s =>
    ok { s with pyx := { s.pyx with timeBase := (par q 0x10 8 : Int) - s.now } }) s

/-- SYS_EVENT_RECEIVER (R102). -/
def execSysEventReceiver (q : Req) (s : State) : Res :=
  let eid := par q 0x10 1
  serve { op := 0x0107, priv := 2, mctp := true, fields := [fld 0x10 2] } q (firstBad [(0x11, decide (par q 0x11 1 ≤ 2))]) (fun s =>
    ok { s with pyx := { s.pyx with receiver := if eid = 0 then none else some (eid, par q 0x11 1) } }) s

/-! ### The DOE mailbox (R55, R66, R309) -/

/-- The DOE protocols: vendor and type. Their numbers are those of PCIe and CXL (PRESUMED, log 30). -/
def doeProtocols : List (Nat × Nat) := [(0x0001, 0), (0x0001, 1), (0x0001, 2), (0x1E98, 2)]

/-- DOE_DISCOVERY (R55): the protocol at an index, and the index of the next, 0 after the last. -/
def execDoeDiscovery (h : Fin 8) (index : Fin 256) (s : State) : Res :=
  if ¬ s.alive then .next s
  else
    let (v, t) := doeProtocols.getD index.val (0xFFFF, 0)
    .next (s.emit (.doe h.val 0 [(0, 2, v), (2, 1, t), (3, 1, if index.val + 1 < doeProtocols.length then index.val + 1 else 0)]))

/-- The ranges a head reports in its CDAT, base and length in bytes (R55): each enabled entry of static capacity, then each Dynamic Capacity region. -/
def State.cdatRanges (s : State) (h : Nat) : List (Nat × Nat) :=
  ((List.range 16).filter (fun i => s.isSet .HPT_BIND_CTL_EN h i && !s.isSet .HPT_BIND_CTL_DC h i)).map (fun i =>
    (s.get .HPT_BIND_BASE_BASE h i * 2 ^ 21, s.get .HPT_BIND_SIZE_SIZE h i * 2 ^ 21)) ++ (s.dcRegions h).map (fun r => (r.2.1, r.2.2))

/-- The bandwidth a head reports, in GB/s: its port's (R197), or half of it where the port runs x8 + x8 (DEDUCED, log 109). -/
def State.headBw (s : State) (h : Nat) : Nat := if s.host.x8.contains (h / 2) then 120 else 240

/-- A DSMAS entry and its DSLBIS entries: read latency of Furnace with the placement entry cached and write latency (R196), in units of 1000 ps, and
the read bandwidth of the head, in units of 1000 MB/s. The layout is the CDAT's (PRESUMED, log 30); the header bytes of the table are free values. -/
def cdatOut (off k bw : Nat) (r : Nat × Nat) : Output :=
  let slbis := fun (o t v : Nat) => ([(o, 1, 1), (o + 2, 2, 24), (o + 4, 1, k), (o + 6, 1, t), (o + 8, 8, 1000), (o + 16, 2, v)] : Output)
  [(off, 1, 0), (off + 2, 2, 24), (off + 4, 1, k), (off + 8, 8, r.1), (off + 16, 8, r.2)]
    ++ slbis (off + 24) 1 95 ++ slbis (off + 48) 2 60 ++ slbis (off + 72) 4 bw

/-- CDAT_TABLE_ACCESS (R55, R196, R197). -/
def execCdatTableAccess (h : Fin 8) (s : State) : Res :=
  if ¬ s.alive then .next s
  else
    let l := s.cdatRanges h.val
    .next ((s.emit (.doe h.val 1 ((0, 16, s.draw % 2 ^ 128) ::
      (List.range l.length).flatMap (fun k => cdatOut (16 + 96 * k) k (s.headBw h.val) (l.getD k (0, 0)))))).drawn)

/-- A secured session of a holder (a head, or 256 + the MCTP requester) exists. -/
def State.hasSession (s : State) (holder id : Nat) : Bool := s.sec.sessions.contains (holder, id)

/-- A secured session stands, with an Export Master Secret that the handshake made: a free value (R274; DESIGN CHOICE, log 5). -/
def State.openSession (s : State) (holder id : Nat) : State :=
  if s.hasSession holder id then s
  else ({ s with sec := { s.sec with sessions := s.sec.sessions ++ [(holder, id)], secrets := s.sec.secrets ++ [(holder, id, natBytes 48 s.draw)] } } : State).drawn

/-- A secured session is gone, and its secret with it. -/
def State.closeSpdm (s : State) (holder id : Nat) : State :=
  { s with sec := { s.sec with sessions := s.sec.sessions.filter (fun x => x != (holder, id))
                               secrets := s.sec.secrets.filter (fun x => !(x.1 == holder && x.2.1 == id)) } }

/-- SPDM_REQUEST (R309, R529): the responder of a head's DOE mailbox, or of an MCTP requester. What it answers is SPDM's own and not restated: a free
value. A session stands once it is finished, and ends when it is asked to; measurements report the debug level. PSK_EX is not supported. -/
def execSpdmRequest (holder : Fin 512) (r : SpdmReq) (s : State) : Res :=
  if ¬ s.alive then .next s
  else
    let answer := fun (s : State) (o : Output) => (s.emit (.doe holder.val 2 ((0, 64, s.draw) :: o))).drawn
    match r with
    | .finish id => .next (answer (s.openSession holder.val id) [])
    | .endSession id => .next (answer (s.closeSpdm holder.val id) [])
    | .measurements => .next (answer s [(64, 1, s.get .ACC_DBG_LEVEL)])
    | .pskExchange => .next (s.emit (.doe holder.val 3 []))
    | .other => .next (answer s [])

/-- IDE_KM_REQUEST (R66, R67): keys are programmed, and streams started and stopped, only within a secured session of the head's own DOE mailbox.
`mem`: the CXL.cachemem stream, else the PCIe link stream. A new key on a running stream is a refresh. -/
def execIdeKmRequest (h : Fin 8) (session : Nat) (mem : Bool) (k : IdeKm) (s : State) : Res :=
  if ¬ s.alive ∨ ¬ s.hasSession h.val session then .next s
  else
    let hd := s.head h.val
    let done := fun (s : State) => s.emit (.doe h.val 4 [])
    match k with
    | .query => .next (done s)
    | .keyProg => .next (done (s.setHead h.val (if mem then { hd with ideKeyMem := true } else { hd with ideKeyLink := true })))
    | .go skid =>
      if ¬ (if mem then hd.ideKeyMem else hd.ideKeyLink) then .next (done s)
      else .next (done (if mem then s.put .HPT_HEAD_STS_IDE (if skid then 2 else 1) h.val else s.setHead h.val { hd with ideLink := 1 }))
    | .stop => .next (done (if mem then s.put .HPT_HEAD_STS_IDE 0 h.val else s.setHead h.val { hd with ideLink := 0 }))

end Sys2Proof.Machine
end

