-- ==== Sys2Proof/Machine/Dispatch.lean ====
section
/-!
DEFINITION. One arm for each command: the meaning of the command, called by its full name.
-/
namespace Sys2Proof.Machine
open Sys2Proof

def exec (i : Instr) (s : State) : Host.Outcome State Fault Refusal :=
  match i with
  | .sysQuery r => Sys2Proof.Machine.execSysQuery r s
  | .sysNop r => Sys2Proof.Machine.execSysNop r s
  | .sysRegRead r => Sys2Proof.Machine.execSysRegRead r s
  | .sysRegWrite r => Sys2Proof.Machine.execSysRegWrite r s
  | .sysOpStatus r => Sys2Proof.Machine.execSysOpStatus r s
  | .sysOpCancel r => Sys2Proof.Machine.execSysOpCancel r s
  | .sysTimeSync r => Sys2Proof.Machine.execSysTimeSync r s
  | .sysEventReceiver r => Sys2Proof.Machine.execSysEventReceiver r s
  | .cfgQuery r => Sys2Proof.Machine.execCfgQuery r s
  | .cfgLoad r => Sys2Proof.Machine.execCfgLoad r s
  | .cfgRead r => Sys2Proof.Machine.execCfgRead r s
  | .cfgGrant r => Sys2Proof.Machine.execCfgGrant r s
  | .segQuery r => Sys2Proof.Machine.execSegQuery r s
  | .segCtxCreate r => Sys2Proof.Machine.execSegCtxCreate r s
  | .segCtxDestroy r => Sys2Proof.Machine.execSegCtxDestroy r s
  | .segSetRoot r => Sys2Proof.Machine.execSegSetRoot r s
  | .segDcAdd r => Sys2Proof.Machine.execSegDcAdd r s
  | .segDcRelease r => Sys2Proof.Machine.execSegDcRelease r s
  | .segAlloc r => Sys2Proof.Machine.execSegAlloc r s
  | .segFree r => Sys2Proof.Machine.execSegFree r s
  | .xltQuery r => Sys2Proof.Machine.execXltQuery r s
  | .xltFlush r => Sys2Proof.Machine.execXltFlush r s
  | .xltFlushAll r => Sys2Proof.Machine.execXltFlushAll r s
  | .tierQuery r => Sys2Proof.Machine.execTierQuery r s
  | .tierSetObjective r => Sys2Proof.Machine.execTierSetObjective r s
  | .tierPin r => Sys2Proof.Machine.execTierPin r s
  | .tierUnpin r => Sys2Proof.Machine.execTierUnpin r s
  | .tierTwin r => Sys2Proof.Machine.execTierTwin r s
  | .tierSetBudget r => Sys2Proof.Machine.execTierSetBudget r s
  | .tierCapacity r => Sys2Proof.Machine.execTierCapacity r s
  | .tierThinConsent r => Sys2Proof.Machine.execTierThinConsent r s
  | .jobQuery r => Sys2Proof.Machine.execJobQuery r s
  | .jobSubmit r => Sys2Proof.Machine.execJobSubmit r s
  | .jobSessionOpen r => Sys2Proof.Machine.execJobSessionOpen r s
  | .jobSessionClose r => Sys2Proof.Machine.execJobSessionClose r s
  | .jobFlush r => Sys2Proof.Machine.execJobFlush r s
  | .jobDictLoad r d => Sys2Proof.Machine.execJobDictLoad r d s
  | .jobDictUnload r => Sys2Proof.Machine.execJobDictUnload r s
  | .secQuery r => Sys2Proof.Machine.execSecQuery r s
  | .keyGenerate r => Sys2Proof.Machine.execKeyGenerate r s
  | .keyImport r => Sys2Proof.Machine.execKeyImport r s
  | .keyRotate r => Sys2Proof.Machine.execKeyRotate r s
  | .keyZeroise r => Sys2Proof.Machine.execKeyZeroise r s
  | .secSetRange r => Sys2Proof.Machine.execSecSetRange r s
  | .secRebase r => Sys2Proof.Machine.execSecRebase r s
  | .secZeroPages r => Sys2Proof.Machine.execSecZeroPages r s
  | .secAlarmAck r => Sys2Proof.Machine.execSecAlarmAck r s
  | .eccQuery r => Sys2Proof.Machine.execEccQuery r s
  | .eccSetCode r => Sys2Proof.Machine.execEccSetCode r s
  | .eccScrubCfg r => Sys2Proof.Machine.execEccScrubCfg r s
  | .eccInject r => Sys2Proof.Machine.execEccInject r s
  | .eccPoisonList r => Sys2Proof.Machine.execEccPoisonList r s
  | .memQuery r => Sys2Proof.Machine.execMemQuery r s
  | .memSetFreq r => Sys2Proof.Machine.execMemSetFreq r s
  | .memRetrain r => Sys2Proof.Machine.execMemRetrain r s
  | .memFreezeExtend r => Sys2Proof.Machine.execMemFreezeExtend r s
  | .memSnapshotRead r => Sys2Proof.Machine.execMemSnapshotRead r s
  | .memChannelOffline r => Sys2Proof.Machine.execMemChannelOffline r s
  | .slotQuery r => Sys2Proof.Machine.execSlotQuery r s
  | .slotPowerOn r => Sys2Proof.Machine.execSlotPowerOn r s
  | .slotPowerOff r => Sys2Proof.Machine.execSlotPowerOff r s
  | .slotServiceStart r => Sys2Proof.Machine.execSlotServiceStart r s
  | .slotServiceCancel r => Sys2Proof.Machine.execSlotServiceCancel r s
  | .slotSetLimits r => Sys2Proof.Machine.execSlotSetLimits r s
  | .slotClearFault r => Sys2Proof.Machine.execSlotClearFault r s
  | .cvnQuery r => Sys2Proof.Machine.execCvnQuery r s
  | .cvnLinkUp r => Sys2Proof.Machine.execCvnLinkUp r s
  | .cvnLinkDown r => Sys2Proof.Machine.execCvnLinkDown r s
  | .cvnLendCfg r => Sys2Proof.Machine.execCvnLendCfg r s
  | .cvnReclaim r => Sys2Proof.Machine.execCvnReclaim r s
  | .cvnCompat r => Sys2Proof.Machine.execCvnCompat r s
  | .tlgQuery r => Sys2Proof.Machine.execTlgQuery r s
  | .tlgSetQuota r => Sys2Proof.Machine.execTlgSetQuota r s
  | .tlgSetGuarantee r => Sys2Proof.Machine.execTlgSetGuarantee r s
  | .tlgSetCap r => Sys2Proof.Machine.execTlgSetCap r s
  | .fltQuery r => Sys2Proof.Machine.execFltQuery r s
  | .fltReadRecords r => Sys2Proof.Machine.execFltReadRecords r s
  | .fltAck r => Sys2Proof.Machine.execFltAck r s
  | .fltClear r => Sys2Proof.Machine.execFltClear r s
  | .fltSetSeverity r => Sys2Proof.Machine.execFltSetSeverity r s
  | .fltInject r => Sys2Proof.Machine.execFltInject r s
  | .pmuQuery r => Sys2Proof.Machine.execPmuQuery r s
  | .pmuConfig r => Sys2Proof.Machine.execPmuConfig r s
  | .pmuRead r => Sys2Proof.Machine.execPmuRead r s
  | .pmuClear r => Sys2Proof.Machine.execPmuClear r s
  | .pwrQuery r => Sys2Proof.Machine.execPwrQuery r s
  | .pwrSetState r => Sys2Proof.Machine.execPwrSetState r s
  | .pwrWakeCfg r => Sys2Proof.Machine.execPwrWakeCfg r s
  | .thmQuery r => Sys2Proof.Machine.execThmQuery r s
  | .thmSetLimits r => Sys2Proof.Machine.execThmSetLimits r s
  | .fwQuery r => Sys2Proof.Machine.execFwQuery r s
  | .fwStage r => Sys2Proof.Machine.execFwStage r s
  | .fwActivate r => Sys2Proof.Machine.execFwActivate r s
  | .fwAbort r => Sys2Proof.Machine.execFwAbort r s
  | .accQuery r => Sys2Proof.Machine.execAccQuery r s
  | .accSetTable r => Sys2Proof.Machine.execAccSetTable r s
  | .accLock r => Sys2Proof.Machine.execAccLock r s
  | .debugUnlock r => Sys2Proof.Machine.execDebugUnlock r s
  | .debugLock r => Sys2Proof.Machine.execDebugLock r s
  | .mailboxBadLength h => Sys2Proof.Machine.execMailboxBadLength h s
  | .mailboxUnsupported h => Sys2Proof.Machine.execMailboxUnsupported h s
  | .getPoisonList h => Sys2Proof.Machine.execGetPoisonList h s
  | .injectPoison h dpa hint => Sys2Proof.Machine.execInjectPoison h dpa hint s
  | .clearPoison h dpa data hint => Sys2Proof.Machine.execClearPoison h dpa data hint s
  | .getEventRecords h log => Sys2Proof.Machine.execGetEventRecords h log s
  | .clearEventRecords h log handles => Sys2Proof.Machine.execClearEventRecords h log handles s
  | .dcHostResponse h release parts => Sys2Proof.Machine.execDcHostResponse h release parts s
  | .doeDiscovery h index => Sys2Proof.Machine.execDoeDiscovery h index s
  | .cdatTableAccess h => Sys2Proof.Machine.execCdatTableAccess h s
  | .spdmRequest holder r => Sys2Proof.Machine.execSpdmRequest holder r s
  | .ideKmRequest h session mem k => Sys2Proof.Machine.execIdeKmRequest h session mem k s
  | .mctpShortMessage => Sys2Proof.Machine.execMctpShortMessage s
  | .hdmDecoderCommit h d base size skip ways gran => Sys2Proof.Machine.execHdmDecoderCommit h d base size skip ways gran s
  | .sqDoorbell h r tail => Sys2Proof.Machine.execSqDoorbell h r tail s
  | .cqDoorbell h r head => Sys2Proof.Machine.execCqDoorbell h r head s
  | .ringEnable h r => Sys2Proof.Machine.execRingEnable h r s
  | .ringDrain h r => Sys2Proof.Machine.execRingDrain h r s
  | .ringAbort h r => Sys2Proof.Machine.execRingAbort h r s
  | .ringDrainDone h r => Sys2Proof.Machine.execRingDrainDone h r s
  | .ringEntryFetch h r payload err => Sys2Proof.Machine.execRingEntryFetch h r payload err s
  | .ringCommandStart h r fence payload => Sys2Proof.Machine.execRingCommandStart h r fence payload s
  | .msixCoalesceTimeout h r => Sys2Proof.Machine.execMsixCoalesceTimeout h r s
  | .opdoneClear h mask => Sys2Proof.Machine.execOpdoneClear h mask s
  | .operationEnd slot => Sys2Proof.Machine.execOperationEnd slot s
  | .memrd m => Sys2Proof.Machine.execMemrd m s
  | .memwr m data mask poison => Sys2Proof.Machine.execMemwr m data mask poison s
  | .memclnevct m => Sys2Proof.Machine.execMemclnevct m s
  | .quotaAdmit h => Sys2Proof.Machine.execQuotaAdmit h s
  | .birsp h line keepS => Sys2Proof.Machine.execBirsp h line keepS s
  | .bisnpTimeout h line => Sys2Proof.Machine.execBisnpTimeout h line s
  | .biEnCleared h => Sys2Proof.Machine.execBiEnCleared h s
  | .linkUp h rate width flit => Sys2Proof.Machine.execLinkUp h rate width flit s
  | .linkDown h => Sys2Proof.Machine.execLinkDown h s
  | .hotReset h => Sys2Proof.Machine.execHotReset h s
  | .perstAssert p => Sys2Proof.Machine.execPerstAssert p s
  | .perstDeassert p => Sys2Proof.Machine.execPerstDeassert p s
  | .linkEnterL2L3 h => Sys2Proof.Machine.execLinkEnterL2L3 h s
  | .departureDone h => Sys2Proof.Machine.execDepartureDone h s
  | .flr h => Sys2Proof.Machine.execFlr h s
  | .cxlReset h => Sys2Proof.Machine.execCxlReset h s
  | .busMasterEnableCleared h => Sys2Proof.Machine.execBusMasterEnableCleared h s
  | .busMasterEnableSet h => Sys2Proof.Machine.execBusMasterEnableSet h s
  | .ideCheckFailure h mem => Sys2Proof.Machine.execIdeCheckFailure h mem s
  | .barUnclaimed h read => Sys2Proof.Machine.execBarUnclaimed h read s
  | .badRegisterAccess sp m off size read => Sys2Proof.Machine.execBadRegisterAccess sp m off size read s
  | .bmCompletion h tag last => Sys2Proof.Machine.execBmCompletion h tag last s
  | .completionTimeout h tag => Sys2Proof.Machine.execCompletionTimeout h tag s
  | .tagQuarantineExpire h tag => Sys2Proof.Machine.execTagQuarantineExpire h tag s
  | .bindEnableWrite h n on => Sys2Proof.Machine.execBindEnableWrite h n on s
  | .reads q nc => Sys2Proof.Machine.execReads q nc s
  | .reado q full page wrote => Sys2Proof.Machine.execReado q full page wrote s
  | .upgrade q => Sys2Proof.Machine.execUpgrade q s
  | .wbm a line => Sys2Proof.Machine.execWbm a line s
  | .evf a line => Sys2Proof.Machine.execEvf a line s
  | .snpinv a line => Sys2Proof.Machine.execSnpinv a line s
  | .snpfwd a line o rid => Sys2Proof.Machine.execSnpfwd a line o rid s
  | .snpdata a line => Sys2Proof.Machine.execSnpdata a line s
  | .snoopResponse a line code => Sys2Proof.Machine.execSnoopResponse a line code s
  | .ack toHome a line wrote => Sys2Proof.Machine.execAck toHome a line wrote s
  | .nack a line => Sys2Proof.Machine.execNack a line s
  | .nackBackoffExpire a line => Sys2Proof.Machine.execNackBackoffExpire a line s
  | .data a line => Sys2Proof.Machine.execData a line s
  | .wbdata m => Sys2Proof.Machine.execWbdata m s
  | .agentEviction a line => Sys2Proof.Machine.execAgentEviction a line s
  | .specDataReturn line bad => Sys2Proof.Machine.execSpecDataReturn line bad s
  | .stage2WalkDone line nodeErr left => Sys2Proof.Machine.execStage2WalkDone line nodeErr left s
  | .mediaReadDone line f prefetch victims => Sys2Proof.Machine.execMediaReadDone line f prefetch victims s
  | .suspectRereadDone line f => Sys2Proof.Machine.execSuspectRereadDone line f s
  | .sectorWriteback lpn k body hint f f2 => Sys2Proof.Machine.execSectorWriteback lpn k body hint f f2 s
  | .twinWriteAck lpn k => Sys2Proof.Machine.execTwinWriteAck lpn k s
  | .twinTimeout lpn k => Sys2Proof.Machine.execTwinTimeout lpn k s
  | .xltEntryExpire ix => Sys2Proof.Machine.execXltEntryExpire ix s
  | .flushAckTimeout n => Sys2Proof.Machine.execFlushAckTimeout n s
  | .moveDispatch n hint => Sys2Proof.Machine.execMoveDispatch n hint s
  | .migrationGrant lpn bodies reads => Sys2Proof.Machine.execMigrationGrant lpn bodies reads s
  | .migrationCommit lpn => Sys2Proof.Machine.execMigrationCommit lpn s
  | .migrationAbort lpn => Sys2Proof.Machine.execMigrationAbort lpn s
  | .epochBoundary => Sys2Proof.Machine.execEpochBoundary s
  | .coldPassStart => Sys2Proof.Machine.execColdPassStart s
  | .coldPassDone => Sys2Proof.Machine.execColdPassDone s
  | .sweepAdvance k hint reads => Sys2Proof.Machine.execSweepAdvance k hint reads s
  | .sweepRetry k => Sys2Proof.Machine.execSweepRetry k s
  | .entropyFailure => Sys2Proof.Machine.execEntropyFailure s
  | .fritTrainStart frit scope any samples => Sys2Proof.Machine.execFritTrainStart frit scope any samples s
  | .fritSamplingDone n => Sys2Proof.Machine.execFritSamplingDone n s
  | .fritBuildDone lit ctl dict lz lze failed => Sys2Proof.Machine.execFritBuildDone lit ctl dict lz lze failed s
  | .fritCommit => Sys2Proof.Machine.execFritCommit s
  | .fritDiscard => Sys2Proof.Machine.execFritDiscard s
  | .fritRefWriteback => Sys2Proof.Machine.execFritRefWriteback s
  | .fritRefRebuildDone => Sys2Proof.Machine.execFritRefRebuildDone s
  | .predictorFlush n => Sys2Proof.Machine.execPredictorFlush n s
  | .directorySweep => Sys2Proof.Machine.execDirectorySweep s
  | .refreshDue c postpone => Sys2Proof.Machine.execRefreshDue c postpone s
  | .zqCalibration c => Sys2Proof.Machine.execZqCalibration c s
  | .oscillatorRead c driftPs => Sys2Proof.Machine.execOscillatorRead c driftPs s
  | .liveRetrainStart c => Sys2Proof.Machine.execLiveRetrainStart c s
  | .liveRetrainDone c passed pauseNs => Sys2Proof.Machine.execLiveRetrainDone c passed pauseNs s
  | .freqChangeStart c => Sys2Proof.Machine.execFreqChangeStart c s
  | .freqChangeDone c passed pauseNs => Sys2Proof.Machine.execFreqChangeDone c passed pauseNs s
  | .frameBoundary c => Sys2Proof.Machine.execFrameBoundary c s
  | .caAlert c backoff served => Sys2Proof.Machine.execCaAlert c backoff served s
  | .mcLockLoss c => Sys2Proof.Machine.execMcLockLoss c s
  | .freezeThaw c => Sys2Proof.Machine.execFreezeThaw c s
  | .holdExpire c => Sys2Proof.Machine.execHoldExpire c s
  | .holdEnd c => Sys2Proof.Machine.execHoldEnd c s
  | .sensorPoll slot sensor t pmic => Sys2Proof.Machine.execSensorPoll slot sensor t pmic s
  | .sensorRepoll slot sensor t => Sys2Proof.Machine.execSensorRepoll slot sensor t s
  | .scrubRead c e raced pausedNs => Sys2Proof.Machine.execScrubRead c e raced pausedNs s
  | .mediaInitDone c => Sys2Proof.Machine.execMediaInitDone c s
  | .trainingDone c ok => Sys2Proof.Machine.execTrainingDone c ok s
  | .sgFastTrip n m => Sys2Proof.Machine.execSgFastTrip n m s
  | .sgOvercurrent n m => Sys2Proof.Machine.execSgOvercurrent n m s
  | .sgFaultTimerExpire n m => Sys2Proof.Machine.execSgFaultTimerExpire n m s
  | .sgPowerGood n m => Sys2Proof.Machine.execSgPowerGood n m s
  | .sgRampDone n m => Sys2Proof.Machine.execSgRampDone n m s
  | .sgRampTimeout n m => Sys2Proof.Machine.execSgRampTimeout n m s
  | .sgRetryExpire n m => Sys2Proof.Machine.execSgRetryExpire n m s
  | .sgAttemptsReset n => Sys2Proof.Machine.execSgAttemptsReset n s
  | .sgPresenceArrival n => Sys2Proof.Machine.execSgPresenceArrival n s
  | .sgPresenceLoss n long => Sys2Proof.Machine.execSgPresenceLoss n long s
  | .sgSenseFault n m => Sys2Proof.Machine.execSgSenseFault n m s
  | .sgUvin n m => Sys2Proof.Machine.execSgUvin n m s
  | .sgTherm n m => Sys2Proof.Machine.execSgTherm n m s
  | .sgFetShort n m => Sys2Proof.Machine.execSgFetShort n m s
  | .sgTambFail mv => Sys2Proof.Machine.execSgTambFail mv s
  | .sgButtonPress n => Sys2Proof.Machine.execSgButtonPress n s
  | .serviceRefusedBlinkEnd n => Sys2Proof.Machine.execServiceRefusedBlinkEnd n s
  | .evacuationComplete c => Sys2Proof.Machine.execEvacuationComplete c s
  | .serviceDark c v0 v1 => Sys2Proof.Machine.execServiceDark c v0 v1 s
  | .bringupStepDone c spd0 spd1 => Sys2Proof.Machine.execBringupStepDone c spd0 spd1 s
  | .markedEvacuationStart => Sys2Proof.Machine.execMarkedEvacuationStart s
  | .idleTimeout => Sys2Proof.Machine.execIdleTimeout s
  | .ps1Exit => Sys2Proof.Machine.execPs1Exit s
  | .ps2EntryDone d => Sys2Proof.Machine.execPs2EntryDone d s
  | .demandWake what => Sys2Proof.Machine.execDemandWake what s
  | .wakeDone => Sys2Proof.Machine.execWakeDone s
  | .ps3LinkWaitTimeout => Sys2Proof.Machine.execPs3LinkWaitTimeout s
  | .ps3Entry d => Sys2Proof.Machine.execPs3Entry d s
  | .wakeSource src n => Sys2Proof.Machine.execWakeSource src n s
  | .ps3ExitDone r late => Sys2Proof.Machine.execPs3ExitDone r late s
  | .thermalModelUpdate p => Sys2Proof.Machine.execThermalModelUpdate p s
  | .diodeCalibration t => Sys2Proof.Machine.execDiodeCalibration t s
  | .throttleStep => Sys2Proof.Machine.execThrottleStep s
  | .thermalShutdown => Sys2Proof.Machine.execThermalShutdown s
  | .supplyTrip rail chans mv => Sys2Proof.Machine.execSupplyTrip rail chans mv s
  | .crystalFailure => Sys2Proof.Machine.execCrystalFailure s
  | .pllLockLoss => Sys2Proof.Machine.execPllLockLoss s
  | .faultMessage m dropped alt => Sys2Proof.Machine.execFaultMessage m dropped alt s
  | .graceTimerExpire entry => Sys2Proof.Machine.execGraceTimerExpire entry s
  | .recordAckWrite entry => Sys2Proof.Machine.execRecordAckWrite entry s
  | .recordValidClear entry => Sys2Proof.Machine.execRecordValidClear entry s
  | .pmuFreeze on => Sys2Proof.Machine.execPmuFreeze on s
  | .pmuCounterClear n => Sys2Proof.Machine.execPmuCounterClear n s
  | .counterClear m off => Sys2Proof.Machine.execCounterClear m off s
  | .blockLock m off => Sys2Proof.Machine.execBlockLock m off s
  | .registerWrite sp m off wide v => Sys2Proof.Machine.execRegisterWrite sp m off wide v s
  | .engineHang n r => Sys2Proof.Machine.execEngineHang n r s
  | .jobStart n chain => Sys2Proof.Machine.execJobStart n chain s
  | .jobPendingTimeout n => Sys2Proof.Machine.execJobPendingTimeout n s
  | .jobEnd n acc e => Sys2Proof.Machine.execJobEnd n acc e s
  | .jobHang n at' => Sys2Proof.Machine.execJobHang n at' s
  | .baleDataRx p raw bad => Sys2Proof.Machine.execBaleDataRx p raw bad s
  | .baleReplayRx p raw bad => Sys2Proof.Machine.execBaleReplayRx p raw bad s
  | .baleLinkctlRx p raw bad ns => Sys2Proof.Machine.execBaleLinkctlRx p raw bad ns s
  | .baleIdleRx p raw bad => Sys2Proof.Machine.execBaleIdleRx p raw bad s
  | .replayTimerExpire p bad => Sys2Proof.Machine.execReplayTimerExpire p bad s
  | .linkctlRepeat p => Sys2Proof.Machine.execLinkctlRepeat p s
  | .laneFail p lane => Sys2Proof.Machine.execLaneFail p lane s
  | .symbolLockTimeout p => Sys2Proof.Machine.execSymbolLockTimeout p s
  | .compatCreditTimeout p => Sys2Proof.Machine.execCompatCreditTimeout p s
  | .cvnDetectPoll p found => Sys2Proof.Machine.execCvnDetectPoll p found s
  | .cvnTrainDone p ok fast bad => Sys2Proof.Machine.execCvnTrainDone p ok fast bad s
  | .retrainDone p badEntry => Sys2Proof.Machine.execRetrainDone p badEntry s
  | .caravanRead p errs => Sys2Proof.Machine.execCaravanRead p errs s
  | .caravanWrite p parity hint => Sys2Proof.Machine.execCaravanWrite p parity hint s
  | .twrite p parity hint => Sys2Proof.Machine.execTwrite p parity hint s
  | .grow p id hint => Sys2Proof.Machine.execGrow p id hint s
  | .return p => Sys2Proof.Machine.execReturn p s
  | .sync p => Sys2Proof.Machine.execSync p s
  | .caravanSpdm p outcome reply => Sys2Proof.Machine.execCaravanSpdm p outcome reply s
  | .note p => Sys2Proof.Machine.execNote p s
  | .reclaim p => Sys2Proof.Machine.execReclaim p s
  | .rdata p f => Sys2Proof.Machine.execRdata p f s
  | .wack p => Sys2Proof.Machine.execWack p s
  | .grant p => Sys2Proof.Machine.execGrant p s
  | .rack p => Sys2Proof.Machine.execRack p s
  | .messageResendTimeout p tid => Sys2Proof.Machine.execMessageResendTimeout p tid s
  | .loanHoldTimeout p line => Sys2Proof.Machine.execLoanHoldTimeout p line s
  | .loanLost p => Sys2Proof.Machine.execLoanLost p s
  | .pwrokRise e => Sys2Proof.Machine.execPwrokRise e s
  | .pwrokFall cut => Sys2Proof.Machine.execPwrokFall cut s
  | .sysRstAssert d cut => Sys2Proof.Machine.execSysRstAssert d cut s
  | .sysRstDeassert e => Sys2Proof.Machine.execSysRstDeassert e s
  | .cfgLoadTimeout => Sys2Proof.Machine.execCfgLoadTimeout s
  | .tapReset low => Sys2Proof.Machine.execTapReset low s
  | .dbgAcc mem write addr data hint => Sys2Proof.Machine.execDbgAcc mem write addr data hint s
  | .dbgSts => Sys2Proof.Machine.execDbgSts s
  | .extest => Sys2Proof.Machine.execExtest s
  | .debugDurationExpire => Sys2Proof.Machine.execDebugDurationExpire s
  | .debugNonceExpire => Sys2Proof.Machine.execDebugNonceExpire s
  | .serviceCancelWindowEnd c => Sys2Proof.Machine.execServiceCancelWindowEnd c s
  | .sgOvercurrentEnd n m => Sys2Proof.Machine.execSgOvercurrentEnd n m s
  | .sgThermHoldRelease n m => Sys2Proof.Machine.execSgThermHoldRelease n m s
  | .thermtripRelease t => Sys2Proof.Machine.execThermtripRelease t s
  | .sgTemperatureValueTimeout => Sys2Proof.Machine.execSgTemperatureValueTimeout s
  | .msixVectorUnmask h v addr data => Sys2Proof.Machine.execMsixVectorUnmask h v addr data s
  | .biconflict h line => Sys2Proof.Machine.execBiconflict h line s
  | .cxlMandatoryCommand h opcode arg => Sys2Proof.Machine.execCxlMandatoryCommand h opcode arg s
  | .sliceReset n d => Sys2Proof.Machine.execSliceReset n d s
  | .engineReset n => Sys2Proof.Machine.execEngineReset n s

end Sys2Proof.Machine
end

