-- ==== Sys2Proof/WellFormed.lean ====
section
/-!
DEFINITION. Which commands are well formed: every operand the types do not already bound lies within the width the spec gives it.
-/
namespace Sys2Proof

/-- The fields of a request header keep their widths, and a payload is no longer than the longest (R82). -/
def Req.wf (r : Req) : Bool :=
  decide (r.opcode < 2 ^ 16 ∧ r.rsvFlags < 16 ∧ r.hver < 256 ∧ r.tag < 2 ^ 32 ∧ r.plen < 2 ^ 32 ∧ r.rsvTc < 2 ^ 23 ∧
    r.param < 2 ^ 384 ∧ r.payload.length ≤ 1048576)

/-- A request carries the opcode of its row, or one that no row has (R86, R105). -/
def Req.asks (r : Req) (op : Nat) : Bool := r.wf && (r.opcode == op || !Machine.opcodes.contains r.opcode)

/-- A host's tag has 16 bits. -/
def HostMem.wf (m : HostMem) : Bool := decide (m.tag < 2 ^ 16)

/-- The fields of a fault message keep their widths, its instance is one that its block has (R47), and FCLASS 0 is never sent (R439). -/
def Msg.wf (m : Msg) : Bool :=
  decide (m.code < 64 ∧ m.inst < Machine.instances m.code ∧ m.sub < 16 ∧ m.kind < 256 ∧ 1 ≤ m.fclass ∧ m.fclass ≤ 3 ∧ m.addr < 2 ^ 64 ∧ m.extra < 2 ^ 32)

/-- An SPD describes a DIMM of R335. -/
def Dimm.wf (d : Dimm) : Bool := decide ((d.width = 4 ∨ d.width = 8) ∧ (d.ranks = 1 ∨ d.ranks = 2 ∨ d.ranks = 4))

/-- The tables of a frit hold 256 byte-wide lengths each, and its dictionary at most 4,096 bytes (R212). -/
def lengthsOk (lit ctl : List Nat) (dict : List Byte) : Bool :=
  lit.all (· < 256) && ctl.all (· < 256) && decide (lit.length ≤ 256 ∧ ctl.length ≤ 256 ∧ dict.length ≤ 4096)

/-- The body of a sector is no longer than its page. -/
def bodyOk (b : List Byte) : Bool := decide (b.length ≤ 4096)

/-- A bale has 256 bytes (R383). -/
def baleOk (b : List Byte) : Bool := decide (b.length = 256)

/-- The bodies of a drain are well formed. -/
def Drain.wf (d : Drain) : Bool := d.wbs.all (fun w => bodyOk w.body)

/-- What a boot meets is well formed: the SPDs it reads. -/
def BootIn.wf (e : BootIn) : Bool := e.spd.all (fun p => p.2.wf)

/-- A command is well formed. -/
def Instr.wf : Instr → Bool
  | .sysQuery r => r.asks 0x0100
  | .sysNop r => r.asks 0x0101
  | .sysRegRead r => r.asks 0x0102
  | .sysRegWrite r => r.asks 0x0103
  | .sysOpStatus r => r.asks 0x0104
  | .sysOpCancel r => r.asks 0x0105
  | .sysTimeSync r => r.asks 0x0106
  | .sysEventReceiver r => r.asks 0x0107
  | .cfgQuery r => r.asks 0x0200
  | .cfgLoad r => r.asks 0x0201
  | .cfgRead r => r.asks 0x0202
  | .cfgGrant r => r.asks 0x0203
  | .segQuery r => r.asks 0x0300
  | .segCtxCreate r => r.asks 0x0301
  | .segCtxDestroy r => r.asks 0x0302
  | .segSetRoot r => r.asks 0x0303
  | .segDcAdd r => r.asks 0x0304
  | .segDcRelease r => r.asks 0x0305
  | .segAlloc r => r.asks 0x0306
  | .segFree r => r.asks 0x0307
  | .xltQuery r => r.asks 0x0400
  | .xltFlush r => r.asks 0x0401
  | .xltFlushAll r => r.asks 0x0402
  | .tierQuery r => r.asks 0x0500
  | .tierSetObjective r => r.asks 0x0501
  | .tierPin r => r.asks 0x0502
  | .tierUnpin r => r.asks 0x0503
  | .tierTwin r => r.asks 0x0504
  | .tierSetBudget r => r.asks 0x0505
  | .tierCapacity r => r.asks 0x0506
  | .tierThinConsent r => r.asks 0x0507
  | .jobQuery r => r.asks 0x0600
  | .jobSubmit r => r.asks 0x0601
  | .jobSessionOpen r => r.asks 0x0602
  | .jobSessionClose r => r.asks 0x0603
  | .jobFlush r => r.asks 0x0604
  | .jobDictLoad r _ => r.asks 0x0605
  | .jobDictUnload r => r.asks 0x0606
  | .secQuery r => r.asks 0x0700
  | .keyGenerate r => r.asks 0x0701
  | .keyImport r => r.asks 0x0702
  | .keyRotate r => r.asks 0x0703
  | .keyZeroise r => r.asks 0x0704
  | .secSetRange r => r.asks 0x0705
  | .secRebase r => r.asks 0x0706
  | .secZeroPages r => r.asks 0x0707
  | .secAlarmAck r => r.asks 0x0708
  | .eccQuery r => r.asks 0x0800
  | .eccSetCode r => r.asks 0x0801
  | .eccScrubCfg r => r.asks 0x0802
  | .eccInject r => r.asks 0x0803
  | .eccPoisonList r => r.asks 0x0804
  | .memQuery r => r.asks 0x0900
  | .memSetFreq r => r.asks 0x0901
  | .memRetrain r => r.asks 0x0902
  | .memFreezeExtend r => r.asks 0x0903
  | .memSnapshotRead r => r.asks 0x0904
  | .memChannelOffline r => r.asks 0x0905
  | .slotQuery r => r.asks 0x0A00
  | .slotPowerOn r => r.asks 0x0A01
  | .slotPowerOff r => r.asks 0x0A02
  | .slotServiceStart r => r.asks 0x0A03
  | .slotServiceCancel r => r.asks 0x0A04
  | .slotSetLimits r => r.asks 0x0A05
  | .slotClearFault r => r.asks 0x0A06
  | .cvnQuery r => r.asks 0x0B00
  | .cvnLinkUp r => r.asks 0x0B01
  | .cvnLinkDown r => r.asks 0x0B02
  | .cvnLendCfg r => r.asks 0x0B03
  | .cvnReclaim r => r.asks 0x0B04
  | .cvnCompat r => r.asks 0x0B05
  | .tlgQuery r => r.asks 0x0C00
  | .tlgSetQuota r => r.asks 0x0C01
  | .tlgSetGuarantee r => r.asks 0x0C02
  | .tlgSetCap r => r.asks 0x0C03
  | .fltQuery r => r.asks 0x0D00
  | .fltReadRecords r => r.asks 0x0D01
  | .fltAck r => r.asks 0x0D02
  | .fltClear r => r.asks 0x0D03
  | .fltSetSeverity r => r.asks 0x0D04
  | .fltInject r => r.asks 0x0D05
  | .pmuQuery r => r.asks 0x0E00
  | .pmuConfig r => r.asks 0x0E01
  | .pmuRead r => r.asks 0x0E02
  | .pmuClear r => r.asks 0x0E03
  | .pwrQuery r => r.asks 0x0F00
  | .pwrSetState r => r.asks 0x0F01
  | .pwrWakeCfg r => r.asks 0x0F02
  | .thmQuery r => r.asks 0x0F03
  | .thmSetLimits r => r.asks 0x0F04
  | .fwQuery r => r.asks 0x1000
  | .fwStage r => r.asks 0x1001
  | .fwActivate r => r.asks 0x1002
  | .fwAbort r => r.asks 0x1003
  | .accQuery r => r.asks 0x1100
  | .accSetTable r => r.asks 0x1101
  | .accLock r => r.asks 0x1102
  | .debugUnlock r => r.asks 0x1103
  | .debugLock r => r.asks 0x1104
  | .memrd m => m.wf
  | .memwr m _ _ _ => m.wf
  | .memclnevct m => m.wf
  | .sectorWriteback _ _ body _ _ _ => bodyOk body
  | .migrationGrant _ bodies _ => bodies.all bodyOk
  | .fritBuildDone lit ctl dict _ _ _ => lengthsOk lit ctl dict
  | .bringupStepDone _ spd0 spd1 => (match spd0 with | none => true | some d => d.wf) && (match spd1 with | none => true | some d => d.wf)
  | .ps2EntryDone d => d.wf
  | .ps3Entry d => d.wf
  | .faultMessage m _ _ => m.wf
  | .engineHang _ r => (match r with | none => true | some q => q.wf)
  | .baleDataRx _ raw _ => baleOk raw
  | .baleReplayRx _ raw _ => baleOk raw
  | .baleLinkctlRx _ raw _ _ => baleOk raw
  | .baleIdleRx _ raw _ => baleOk raw
  | .pwrokRise e => e.wf
  | .sysRstAssert d _ => d.wf
  | .sysRstDeassert e => e.wf
  | .msixVectorUnmask _ _ addr dat => decide (addr < 2 ^ 64 ∧ dat < 2 ^ 32)
  | .cxlMandatoryCommand _ opcode arg => decide (opcode < 2 ^ 16 ∧ arg < 2 ^ 64)
  | .sliceReset _ d => d.wf
  | .mailboxBadLength _ | .mailboxUnsupported _ | .getPoisonList _ | .injectPoison _ _ _ | .clearPoison _ _ _ _ | .getEventRecords _ _ |
    .clearEventRecords _ _ _ | .dcHostResponse _ _ _ | .doeDiscovery _ _ | .cdatTableAccess _ | .spdmRequest _ _ | .ideKmRequest _ _ _ _ |
    .mctpShortMessage | .hdmDecoderCommit _ _ _ _ _ _ _ | .sqDoorbell _ _ _ | .cqDoorbell _ _ _ | .ringEnable _ _ | .ringDrain _ _ |
    .ringAbort _ _ | .ringDrainDone _ _ | .ringEntryFetch _ _ _ _ | .ringCommandStart _ _ _ _ | .msixCoalesceTimeout _ _ | .opdoneClear _ _
    | .operationEnd _ | .quotaAdmit _ | .birsp _ _ _ | .bisnpTimeout _ _ | .biEnCleared _ | .linkUp _ _ _ _ | .linkDown _ | .hotReset _ |
    .perstAssert _ | .perstDeassert _ | .linkEnterL2L3 _ | .departureDone _ | .flr _ | .cxlReset _ | .busMasterEnableCleared _ |
    .busMasterEnableSet _ | .ideCheckFailure _ _ | .barUnclaimed _ _ | .badRegisterAccess _ _ _ _ _ | .bmCompletion _ _ _ |
    .completionTimeout _ _ | .tagQuarantineExpire _ _ | .bindEnableWrite _ _ _ | .reads _ _ | .reado _ _ _ _ | .upgrade _ | .wbm _ _ | .evf
    _ _ | .snpinv _ _ | .snpfwd _ _ _ _ | .snpdata _ _ | .snoopResponse _ _ _ | .ack _ _ _ _ | .nack _ _ | .nackBackoffExpire _ _ | .data _
    _ | .wbdata _ | .agentEviction _ _ | .specDataReturn _ _ | .stage2WalkDone _ _ _ | .mediaReadDone _ _ _ _ | .suspectRereadDone _ _ |
    .twinWriteAck _ _ | .twinTimeout _ _ | .xltEntryExpire _ | .flushAckTimeout _ | .moveDispatch _ _ | .migrationCommit _ | .migrationAbort
    _ | .epochBoundary | .coldPassStart | .coldPassDone | .sweepAdvance _ _ _ | .sweepRetry _ | .entropyFailure | .fritTrainStart _ _ _ _ |
    .fritSamplingDone _ | .fritCommit | .fritDiscard | .fritRefWriteback | .fritRefRebuildDone | .predictorFlush _ | .directorySweep |
    .refreshDue _ _ | .zqCalibration _ | .oscillatorRead _ _ | .liveRetrainStart _ | .liveRetrainDone _ _ _ | .freqChangeStart _ |
    .freqChangeDone _ _ _ | .frameBoundary _ | .caAlert _ _ _ | .mcLockLoss _ | .freezeThaw _ | .holdExpire _ | .holdEnd _ | .sensorPoll _ _
    _ _ | .sensorRepoll _ _ _ | .scrubRead _ _ _ _ | .mediaInitDone _ | .trainingDone _ _ | .sgFastTrip _ _ | .sgOvercurrent _ _ |
    .sgFaultTimerExpire _ _ | .sgPowerGood _ _ | .sgRampDone _ _ | .sgRampTimeout _ _ | .sgRetryExpire _ _ | .sgAttemptsReset _ |
    .sgPresenceArrival _ | .sgPresenceLoss _ _ | .sgSenseFault _ _ | .sgUvin _ _ | .sgTherm _ _ | .sgFetShort _ _ | .sgTambFail _ |
    .sgButtonPress _ | .serviceRefusedBlinkEnd _ | .evacuationComplete _ | .serviceDark _ _ _ | .markedEvacuationStart | .idleTimeout |
    .ps1Exit | .demandWake _ | .wakeDone | .ps3LinkWaitTimeout | .wakeSource _ _ | .ps3ExitDone _ _ | .thermalModelUpdate _ |
    .diodeCalibration _ | .throttleStep | .thermalShutdown | .supplyTrip _ _ _ | .crystalFailure | .pllLockLoss | .graceTimerExpire _ |
    .recordAckWrite _ | .recordValidClear _ | .pmuFreeze _ | .pmuCounterClear _ | .counterClear _ _ | .blockLock _ _ | .registerWrite _ _ _
    _ _ | .jobStart _ _ | .jobPendingTimeout _ | .jobEnd _ _ _ | .jobHang _ _ | .replayTimerExpire _ _ | .linkctlRepeat _ | .laneFail _ _ |
    .symbolLockTimeout _ | .compatCreditTimeout _ | .cvnDetectPoll _ _ | .cvnTrainDone _ _ _ _ | .retrainDone _ _ | .caravanRead _ _ |
    .caravanWrite _ _ _ | .twrite _ _ _ | .grow _ _ _ | .return _ | .sync _ | .caravanSpdm _ _ _ | .note _ | .reclaim _ | .rdata _ _ | .wack
    _ | .grant _ | .rack _ | .messageResendTimeout _ _ | .loanHoldTimeout _ _ | .loanLost _ | .pwrokFall _ | .cfgLoadTimeout | .tapReset _ |
    .dbgAcc _ _ _ _ _ | .dbgSts | .extest | .debugDurationExpire | .debugNonceExpire | .serviceCancelWindowEnd _ | .sgOvercurrentEnd _ _ |
    .sgThermHoldRelease _ _ | .thermtripRelease _ | .sgTemperatureValueTimeout | .biconflict _ _ | .engineReset _ => true

end Sys2Proof
end

