-- ==== Sys2Proof/Safety.lean ====
section
/-!
DEFINITION. The words in which claims speak: when a Pyryx request is served and how it is answered, and what every step keeps.
-/
namespace Sys2Proof.Machine
open Sys2Proof

/-! ### Requests -/

/-- The state in which a request is answered: its transport has taken note of it, the request has woken the device (R484–R487), and the cluster of its
engine has counted it (R514). -/
def State.asked (s : State) (info : CmdInfo) (q : Req) : State :=
  ((s.begin q).touch info.op).count (.cluster (q.engine.val / 8)) 0x01 1 none

/-- A request is served: the device takes it, `t` is the state in which it is answered, the checks of R86 find nothing, and it is not its EID's
fifth. -/
def Served (info : CmdInfo) (q : Req) (bad : Option Nat) (s t : State) (deny : Option (Nat × Nat) := none) : Prop :=
  s.takes q = true ∧ t = s.asked info q ∧ t.check info q bad deny = none ∧ t.fifth q = false

/-- The command completes with ST_OK: the next state is `u` with the reply in it. -/
def Completes (o : Res) (u : State) (q : Req) (result : Nat := 0) (len : Nat := 0) (out : Output := []) (detail : Nat := 0) : Prop :=
  o = .next (u.reply q stOk result detail len out)

/-- The command goes on as an operation (R100): `t` offered a slot, and the next state is `u` with the operation and the reply in it. `ready`: its
work is done. -/
def Starts (o : Res) (t u : State) (q : Req) (k : OpKind) (ready : Option (Nat × Nat × Nat) := none) : Prop :=
  ∃ slot, t.freeSlot = some slot ∧ o = .next ((u.openOp slot q k ready).reply q stPending t.nextHandle 0 0 [])

/-- The command is refused: the next state is the one before it, with the reply in it (R87). -/
def Refused (o : Res) (t : State) (q : Req) (status detail : Nat) : Prop := o = .next (t.reply q status 0 detail 0 [])

/-- The access tables let the engine of a request use the key store's command interface (R526, R527), and touch flash at an offset (R519, R524). -/
abbrev State.keysOpen (s : State) (q : Req) (op : Nat) : Prop := s.decideAccess 34 (mEng q.engine.val) 0 op false = true
abbrev State.flashOpen (s : State) (q : Req) (op off : Nat) : Prop :=
  s.decideAccess 36 (mEng q.engine.val) (s.rangeClass 36 off) op false = true

/-- A flush that has a slot and that nothing holds up: every holder drops the entries of its scope, and the longest time that a flush has taken is
kept (R134, R135). -/
def State.flushDone (s : State) (w : Waiting) : State :=
  let u := s.flushScope w
  u.put .XLT_FLUSH_STS_MAX_NS (max (u.get .XLT_FLUSH_STS_MAX_NS) (min 0xFFFF (u.now - s.now)))

/-- The pages of a request with every copy of them recalled (R174, R311). -/
def State.allRecalled (s : State) (q : Req) : State := (pagesOf q).foldl (fun (s : State) p => s.recallPage p) s

/-! ### What every step keeps -/

/-- The register fields that have been written stand in one order, each at most once. -/
def regsSorted : List (RegKey × Nat) → Bool
  | [] => true
  | [_] => true
  | a :: b :: t => regKeyLt a.1 b.1 && regsSorted (b :: t)

/-- What every step keeps: the register file and the memory are in their canonical forms, the list of disabled parts rises strictly, and the start-up
phase is one of the four the spec gives. -/
def State.Inv (s : State) : Prop :=
  regsSorted s.regs = true ∧ Memory.wf s.pg.mem = true ∧ s.disabled.Pairwise (· < ·) ∧ s.boot.phase ≤ 3

end Sys2Proof.Machine
end

