-- ==== Sys2Proof/Certificates/Slice0/Obligations.lean ====
section
/-!
DEFINITION. The statements for the provers. A statement about a Pyryx command speaks of a request that is served (`Served`): `s` is the state the command
finds and `s₁` that state once the request has woken the device.
-/
open Sys2Proof Sys2Proof.Machine

/-- The sys commands complete with their effects (R85, R102, R103, R577). -/
def Obligations.SysCommandsComplete : Prop :=
  (∀ (q : Req) (s s₁ : State),
    Served { op := 0x0100, priv := 0, mctp := true, output := true } q none s s₁ →
      Completes (exec (.sysQuery q) s) s₁ q 0x01010960 64 [(0x00, 8, s₁.get .GLB_FW_VER_VERSION), (0x08, 8, s₁.get .GLB_DEVID_ID),
        (0x10, 4, if s₁.isSet .GLB_BOOT_STS_ROMREC then 0 else fwSvn (s₁.fwCopy (s₁.get .GLB_BOOT_STS_FWCOPY))),
        (0x14, 1, s₁.get .GLB_BOOT_STS_FWCOPY)]) ∧
  (∀ (q : Req) (s s₁ : State),
    Served { op := 0x0101, priv := 0, mctp := true } q none s s₁ →
      Completes (exec (.sysNop q) s) s₁ q) ∧
  (∀ (q : Req) (s s₁ : State) (slot : Nat) (o : OpSlot),
    Served { op := 0x0104, priv := 0, mctp := true, fields := [fld 0x10 8] } q (s.handleBad q) s s₁ (s.outOfScope q) →
    s₁.lookOp (par q 0x10 8) = .found slot o →
      Completes (exec (.sysOpStatus q) s) s₁ q (o.status + o.progress % 128 * 2 ^ 16) 0 [] o.detail) ∧
  (∀ (q : Req) (s s₁ : State) (slot : Nat) (o : OpSlot),
    Served { op := 0x0105, priv := 1, mctp := true, fields := [fld 0x10 8] } q (s.handleBad q) s s₁ (s.outOfScope q) →
    s₁.lookOp (par q 0x10 8) = .found slot o →
      Completes (exec (.sysOpCancel q) s) (s₁.cancelOp slot o) q) ∧
  (∀ (s : State) (slot : Nat) (o : OpSlot), o.running = true → o.ready = none → (o.kind = .tierTwin ∨ ∃ k f, o.kind = .zeroise k f) →
      s.cancelOp slot o = ({ s with pg := { s.pg with opPages := s.pg.opPages.filter (fun x => x.handle != o.seq * 64 + slot) } } : State).readyOp slot stAborted 0 0) ∧
  (∀ (s : State) (slot k : Nat) (o : OpSlot), o.running = true → o.ready = none → o.kind = .rotate k →
      s.cancelOp slot o = (s.stopSweep k).sweepEnds k stAborted 0 0) ∧
  (∀ (s : State) (slot : Nat) (o : OpSlot), (o.running = false ∨ o.ready.isSome = true) →
      s.cancelOp slot o = s) ∧
  (∀ (q : Req) (s s₁ : State),
    Served { op := 0x0106, priv := 2, mctp := true, fields := [fld 0x10 8] } q none s s₁ →
      Completes (exec (.sysTimeSync q) s) { s₁ with pyx := { s₁.pyx with timeBase := (par q 0x10 8 : Int) - s₁.now } } q) ∧
  (∀ (q : Req) (s s₁ : State),
    let eid := par q 0x10 1
    Served { op := 0x0107, priv := 2, mctp := true, fields := [fld 0x10 2] } q (firstBad [(0x11, decide (par q 0x11 1 ≤ 2))]) s s₁ →
      Completes (exec (.sysEventReceiver q) s) { s₁ with pyx := { s₁.pyx with receiver := if eid = 0 then none else some (eid, par q 0x11 1) } } q)

/-- Register accesses that the tables allow take effect, and bad ones do not (R18, R20, R44, R103, R521). -/
def Obligations.RegisterAccessCommands : Prop :=
  (∀ (q : Req) (s s₁ : State),
    Served { op := 0x0102, priv := 2, mctp := true, fields := [fld 0x10 8, fld 0x18 8] } q (regBad q 0x18) s s₁ →
    goodAccess (.bar4 (mEng q.engine.val)) (par q 0x10 8) (par q 0x18 8) = true →
    s₁.decideAccess (regTarget (par q 0x10 8)) (mEng q.engine.val) (s₁.rangeClass (regTarget (par q 0x10 8)) (par q 0x10 8 % 0x100000)) opR false = true →
      Completes (exec (.sysRegRead q) s) s₁ q (bits (s₁.regWord (.bar4 (mEng q.engine.val)) (par q 0x10 8 / 8 * 8)) (8 * (par q 0x10 8 % 8)) (8 * par q 0x18 8))) ∧
  (∀ (q : Req) (s s₁ : State),
    Served { op := 0x0103, priv := 2, mctp := true, fields := [fld 0x10 8, fld 0x18 8, fld 0x20 8] } q (regBad q 0x20) s s₁ →
    goodAccess (.bar4 (mEng q.engine.val)) (par q 0x10 8) (par q 0x20 8) = true →
    s₁.decideAccess (regTarget (par q 0x10 8)) (mEng q.engine.val) (s₁.rangeClass (regTarget (par q 0x10 8)) (par q 0x10 8 % 0x100000)) opW false = true →
      Completes (exec (.sysRegWrite q) s) (s₁.writeWord (.bar4 (mEng q.engine.val)) (par q 0x10 8 / 8 * 8)
        (par q 0x18 8 % 2 ^ (8 * par q 0x20 8) * 2 ^ (8 * (par q 0x10 8 % 8))) ((2 ^ (8 * par q 0x20 8) - 1) * 2 ^ (8 * (par q 0x10 8 % 8)))) q) ∧
  (∀ (s : State) (m : Master) (off : Fin (2 ^ 26)) (wide : Bool) (v : Fin (2 ^ 64)), s.regsUp = true → s.claims m.val = true → (goodAccess (.bar4 m.val) off.val (if wide then 8 else 4) = true) → s.decideAccess (regTarget off.val) m.val (s.rangeClass (regTarget off.val) (off.val % 0x100000)) opW false = true →
      exec (.registerWrite .bar4 m off wide v) s = .next (s.writeWord (.bar4 m.val) (off.val / 8 * 8) (v.val % 2 ^ (if wide then 64 else 32) * 2 ^ (8 * (off.val % 8)))
        ((2 ^ (if wide then 64 else 32) - 1) * 2 ^ (8 * (off.val % 8))))) ∧
  (∀ (s : State) (m : Master) (off : Fin (2 ^ 26)) (wide : Bool) (v : Fin (2 ^ 64)), s.regsUp = true → m.val < 8 → (goodAccess (.bar2 m.val) off.val (if wide then 8 else 4) = true) →
      exec (.registerWrite .bar2 m off wide v) s = .next (s.writeWord (.bar2 m.val) (off.val / 8 * 8) (v.val % 2 ^ (if wide then 64 else 32) * 2 ^ (8 * (off.val % 8)))
        ((2 ^ (if wide then 64 else 32) - 1) * 2 ^ (8 * (off.val % 8))))) ∧
  (∀ (s : State) (m : Master) (f : HostField) (off : Fin (2 ^ 26)) (wide : Bool) (v : Fin (2 ^ 64)), s.regsUp = true → m.val < 8 →
      exec (.registerWrite (.host f) m off wide v) s = .next (s.hostWrite m.val f v.val)) ∧
  (∀ (s : State) (m : Master) (off : Fin (2 ^ 26)) (wide : Bool) (v : Fin (2 ^ 64)), m.val < 8 → s.isSet .HPT_DEV_STS_STEWARD m.val = false →
      exec (.registerWrite .bar4 m off wide v) s = .next (s)) ∧
  (∀ (s : State) (m : Master) (off : Fin (2 ^ 26)), s.regsUp = true → s.claims m.val = true → goodAccess (.bar4 m.val) off.val 8 = true → s.decideAccess (regTarget off.val) m.val (s.rangeClass (regTarget off.val) (off.val % 0x100000)) opW false = true →
      exec (.counterClear m off) s = .next (s.writeWord (.bar4 m.val) off.val (2 ^ 63) (2 ^ 64 - 1))) ∧
  (∀ (s : State) (m : Master) (off : Fin (2 ^ 26)) (size : Fin 129), s.regsUp = true → m.val < 8 → goodAccess (.bar2 m.val) off.val size.val = false →
      exec (.badRegisterAccess .bar2 m off size true) s = .next ((s.report (msg1 bHpt m.val 7)).emit (.value 0)) ∧
      exec (.badRegisterAccess .bar2 m off size false) s = .next (s.report (msg1 bHpt m.val 7))) ∧
  (∀ (s : State) (m : Master) (off : Fin (2 ^ 26)) (size : Fin 129), s.regsUp = true → s.claims m.val = true → goodAccess (.bar4 m.val) off.val size.val = false →
      exec (.badRegisterAccess .bar4 m off size true) s = .next ((s.report (msg1 bAcc (regTarget off.val) 3 off.val)).emit (.value 0)) ∧
      exec (.badRegisterAccess .bar4 m off size false) s = .next (s.report (msg1 bAcc (regTarget off.val) 3 off.val))) ∧
  (∀ (s : State) (m : Master) (off : Fin (2 ^ 26)) (l : Reg), s.regsUp = true → s.claims m.val = true → lockOf off.val = some l → off.val / 0x100000 ≠ 0x0C → s.decideAccess (regTarget (off.val / 0x100000 * 0x100000 + 0xF0000)) m.val
        (s.rangeClass (regTarget (off.val / 0x100000 * 0x100000 + 0xF0000)) ((off.val / 0x100000 * 0x100000 + 0xF0000) % 0x100000)) opW false = true →
      exec (.blockLock m off) s = .next (s.put l 1))

/-- Walks, media reads, speculation, write-backs, twin writes and sweeps at a home go on as chapters 05 and 06 say (R172, R177, R182, R184, R185, R186, R190, R191, R192, R293). -/
def Obligations.AccessPathEvents : Prop :=
  (∀ (s u : State) (line : LineNo), s.coh.spec.filter (fun x => x.line == line.val) ≠ [] → u = (s.coh.spec.filter (fun x => x.line == line.val)).foldl (fun (s : State) x => s.fetchLine (s.specLa line.val x.pl)) s →
      exec (.specDataReturn line true) s = .next (u.coh' (fun c => { c with spec := c.spec.map (fun x => if x.line = line.val then { x with data := false, spoilt := true } else x) }))) ∧
  (∀ (s u : State) (line : LineNo) (t : Trk), s.trkOf line.val = some t → t.walk = true → t.req.quiet = false → u = [1, 2, 3].foldl (fun (s : State) l => s.nodeRead t.req.lpn l false false) s → u.coh.spec = [] →
      exec (.stage2WalkDone line none []) s = .next ((((u.mdcUse t.req.lpn false).predWrite t.req.lpn).place line.val).settled (s.home t.req.lpn))) ∧
  (∀ (s u : State) (line : LineNo) (t : Trk), s.trkOf line.val = some t → t.walk = true → t.req.quiet = true → u = [1, 2, 3].foldl (fun (s : State) l => s.nodeRead t.req.lpn l false false) s → u.coh.spec = [] →
      exec (.stage2WalkDone line none []) s = .next (((u.mdcUse t.req.lpn true).place line.val).settled (s.home t.req.lpn))) ∧
  (∀ (s : State) (line : LineNo) (t : Trk) (f : Fetch) (pre : Bool) (vs : List LineNo) (x : State × RdOut), s.trkOf line.val = some t → t.media = true → s.coh.suspects = [] → hasImage (s.tier (line.val / 64)) = true → s.tier (line.val / 64) ≠ 4 → s.chState (s.chanOf (s.page (line.val / 64)).pl.ma) ≠ 3 → s.chState (s.chanOf (s.page (line.val / 64)).pl.ma) ≠ 5 → x = ((s.evictClean vs).underFor (reqAttr t.req (s.tier (line.val / 64))) 0).readCopy line.val f t.req.master false → x.2 = .data →
      exec (.mediaReadDone line f pre vs) s = .next ((((x.1.prefetch line.val pre t.req.quiet).uncharged).readEnds line.val .data).settled (s.home (line.val / 64)))) ∧
  (∀ (s : State) (line : LineNo) (t : Trk) (f : Fetch) (pre : Bool) (vs : List LineNo) (x : State × RdOut), s.trkOf line.val = some t → t.media = true → s.coh.suspects = [] → hasImage (s.tier (line.val / 64)) = true → s.tier (line.val / 64) ≠ 4 → s.chState (s.chanOf (s.page (line.val / 64)).pl.ma) ≠ 3 → s.chState (s.chanOf (s.page (line.val / 64)).pl.ma) ≠ 5 → x = ((s.evictClean vs).underFor (reqAttr t.req (s.tier (line.val / 64))) 0).readCopy line.val f t.req.master false → x.2 ≠ .data →
      exec (.mediaReadDone line f pre vs) s = .next (((x.1.uncharged).readEnds line.val x.2).settled (s.home (line.val / 64)))) ∧
  (∀ (s : State) (line : LineNo) (t : Trk) (f : Fetch) (pre : Bool) (vs : List LineNo) (p : Page) (u : State) (x : State × RdOut), s.trkOf line.val = some t → t.media = true → s.coh.suspects = [] → p = s.page (line.val / 64) → hasImage p.pl.tier = true → p.pl.tier ≠ 4 → s.chState (s.chanOf p.pl.ma) = 3 → s.twinReadable p = true → u = (s.evictClean vs).underFor (reqAttr t.req p.pl.tier) 0 → x = (u.withdraw (u.laOf p p.pl.ma line.val (isRaw p.pl))).fromTwin line.val f t.req.master 0 .serve → x.2 = .data →
      exec (.mediaReadDone line f pre vs) s = .next ((((x.1.prefetch line.val pre t.req.quiet).uncharged).readEnds line.val .data).settled (s.home (line.val / 64)))) ∧
  (∀ (s u : State) (line : LineNo) (t : Trk) (f : Fetch) (cp : Nat) (x : State × RdOut), s.trkOf line.val = some t → s.coh.suspects.find? (fun x => x.1 == line.val) = some (line.val, cp) → t.lender = none → u = s.coh' (fun c => { c with suspects := c.suspects.filter (fun x => x.1 != line.val) }) → x = (u.underFor (reqAttr t.req (u.tier (line.val / 64))) 0).reread line.val f t.req.master cp →
      ∃ v : State, exec (.suspectRereadDone line f) s = .next v ∧ v = (x.1.uncharged.readEnds line.val x.2).settled (x.1.home (line.val / 64))) ∧
  (∀ (s u : State) (lpn : Lpn) (k : Fin 8) (body : List Byte) (hint : Nat) (f f2 : Fetch) (l : Nat) (r : List Nat) (c : LcLine) (x : State × Option (List (Nat × Nat))) (lost : List (Nat × Nat)), s.halt = none → s.dirtyLines lpn.val k.val = l :: r → s.lcOf l = some c → x = (s.underFor (s.ownAttr none lpn.val c.cls) 4).wbReads lpn.val k.val f f2 → x.2 = some lost → u = x.1.sectorWriteback lpn.val k.val { body := body, hint := hint, lost := lost } →
      exec (.sectorWriteback lpn k body hint f f2) s = .next (u.uncharged)) ∧
  (∀ (s : State) (lpn : Lpn) (k : Fin 8) (body : List Byte) (hint : Nat) (f f2 : Fetch), s.halt = none → s.coh.twins = [] → s.dirtyLines lpn.val k.val = [] →
      exec (.sectorWriteback lpn k body hint f f2) s = .next (s.uncharged)) ∧
  (∀ (s : State) (lpn : Lpn) (k : Fin 8) (body : List Byte) (hint : Nat) (f f2 : Fetch), s.halt = none → s.coh.twins = [] → s.wbWaits (s.page lpn.val) = true →
      exec (.sectorWriteback lpn k body hint f f2) s = .next (s.uncharged)) ∧
  (∀ (s : State) (lpn : Lpn) (k : Fin 8) (w : WbIn) (u : State), s.halt = none → s.coh.twins = [] → s.dirtyLines lpn.val k.val ≠ [] → u = s.writeBack lpn.val k.val w → (u.page lpn.val).pl.twk ≠ 2 → u.coh.twins = [] →
      s.sectorWriteback lpn.val k.val w = u) ∧
  (∀ (s : State) (lpn : Lpn) (k : Fin 8) (t : TwinWr) (tid : Nat), s.coh.twins = [t] → t.sector = 8 * lpn.val + k.val → t.sent = some tid →
      exec (.twinWriteAck lpn k) s = .next (s.twinAcked (8 * lpn.val + k.val)) ∧
      exec (.twinTimeout lpn k) s = .next ((s.twinDrop lpn.val).twinLost (8 * lpn.val + k.val))) ∧
  (∀ (s : State) (k tid : Nat) (t : TwinWr), s.coh.twins = [t] → t.sector = k → t.sent = some tid → t.next = [] →
      (s.twinAcked k).coh.twins = []) ∧
  (∀ (s : State) (n : Fin 16),
      exec (.predictorFlush n) s = .next (s.coh' (fun c => { c with pred := c.pred.filter (fun e => e.1 / 16384 != n.val) }))) ∧
  (∀ (s u : State), s.coh.dir = [] → u = s.coh' (fun c => { c with swept := (List.range 8).foldl (fun t h => tputD 0 h (s.epochOf h) t) c.swept }) →
      exec (.directorySweep) s = .next ((List.range 8).foldl (fun (s : State) h => s.sweepWait h) u)) ∧
  (∀ (s u : State) (l : Nat) (r : List Nat), s.coh.dir.map (·.1) = l :: r → u = (l :: r).foldl (fun (s : State) x => s.dirFix x) s →
      exec (.directorySweep) s = .next ((List.range 8).foldl (fun (s : State) h => s.sweepWait h) (u.coh' (fun c => { c with swept := (List.range 8).foldl (fun t h => tputD 0 h (u.epochOf h) t) c.swept }))))

/-- A sector write-back stores only to its own page (R181, R224, R226, R228). -/
def Obligations.WriteBackTouchesOnlyItsPage : Prop :=
  ∀ (s t : State) (lpn : Lpn) (k : Fin 8) (body : List Byte) (hint : Nat) (f f2 : Fetch), exec (.sectorWriteback lpn k body hint f f2) s = .next t →
      ∀ line, line / 64 ≠ lpn.val → tgetD 0 line t.pg.mem = tgetD 0 line s.pg.mem

/-- A dirty line of a Furnace page reaches memory at its sector's write-back (R181, R190, R224). -/
def Obligations.RawWriteBackStoresTheLine : Prop :=
  ∀ (s u : State) (lpn : Lpn) (k : Fin 8) (i : Fin 8) (l : LcLine) (body : List Byte) (hint : Nat) (f f2 : Fetch) (d : Nat) (r : List Nat) (c : LcLine) (x : State × Option (List (Nat × Nat))) (lost : List (Nat × Nat)), s.halt = none → s.dirtyLines lpn.val k.val = d :: r → s.lcOf d = some c → x = (s.underFor (s.ownAttr none lpn.val c.cls) 4).wbReads lpn.val k.val f f2 → x.2 = some lost → u = x.1 → u.halt = none → u.coh.twins = [] → (u.page lpn.val).pl.tier = 1 → (u.page lpn.val).pl.twk = 0 → (u.page lpn.val).pl.lock = false → (∀ c < 16, u.chState c = 2) → u.slotActive (u.page lpn.val).pl.ks = true → (u.unverif lpn.val = false) → (∀ j < 8, u.ctr lpn.val j < 0xFFFFFFFFFFFFFF00) → u.lcOf (64 * lpn.val + 8 * k.val + i.val) = some l → l.dirty = true → l.prov = false → l.poison = false →
      ∃ t : State, exec (.sectorWriteback lpn k body hint f f2) s = .next t ∧ tgetD 0 (64 * lpn.val + 8 * k.val + i.val) t.pg.mem = l.data ∧
        (t.lcOf (64 * lpn.val + 8 * k.val + i.val)).map (fun x => x.dirty) = some false

/-- Migration, epochs and cold passes run as chapter 07 says (R174, R175, R236, R238, R245, R248, R249, R253, R259). -/
def Obligations.MovesRun : Prop :=
  (∀ (s w : State) (n : Fin 16) (hint : Nat) (x : State × Option (MoveReq × State × MoveSt)) (y : MoveReq × State × MoveSt) (b : Nat), s.halt = none → 40 ≤ s.healthy → x = s.pickMove n.val hint (s.dispatchOrder n.val) → x.2 = some y → x.1.meets y.1 = true → y.1.ver = (x.1.page y.1.lpn).pl.ver → bucketOf y.1.cls = some b → w = (y.2.1.unqueue n.val y.1).spend n.val b ((y.2.1.unqueue n.val y.1).moveBytes y.2.2) →
      exec (.moveDispatch n hint) s = .next ({ w with pg := { w.pg with moves := tput y.1.lpn y.2.2 w.pg.moves } })) ∧
  (∀ (s : State) (n : Fin 16) (hint : Nat) (x : State × Option (MoveReq × State × MoveSt)) (y : MoveReq × State × MoveSt), s.halt = none → 40 ≤ s.healthy → x = s.pickMove n.val hint (s.dispatchOrder n.val) → x.2 = some y → y.1.ver ≠ (x.1.page y.1.lpn).pl.ver →
      exec (.moveDispatch n hint) s = .next ((x.1.unqueue n.val y.1).bump .XLT_TIER_SLICE_STALE 0xFFFF n.val)) ∧
  (∀ (s : State) (n : Fin 16) (hint : Nat) (x : State × Option (MoveReq × State × MoveSt)), s.halt = none → 40 ≤ s.healthy → x = s.pickMove n.val hint (s.dispatchOrder n.val) → x.2 = none →
      exec (.moveDispatch n hint) s = .next (x.1)) ∧
  (∀ (s u : State) (lpn : Lpn) (m : MoveSt) (bodies : List (List Byte)) (reads : List (Fin 64 × Fetch × Fetch)) (x : State × Bool) (y : State × Option (List (Nat × Nat))) (lost : List (Nat × Nat)), tget lpn.val s.pg.moves = some m → m.step = 2 → s.halt = none → s.pageQuiet lpn.val = true → hasImage (s.tier lpn.val) = true → x = s.memAccess mMig lpn.val opR true .std → x.2 = true → u = x.1.say { cls := cRSP, code := 0, line := 64 * lpn.val, src := homeId (s.home lpn.val), dst := 0x12 + s.home lpn.val, page := true, gs := 3, master := mMig } → y = (u.underFor (u.ownAttr (some mMig) lpn.val 0) 5).moveReads lpn.val reads → y.2 = some lost →
      ∃ t : State, exec (.migrationGrant lpn bodies reads) s = .next t ∧ t = (fun (w : State) => ({ w with pg := { w.pg with moves := tput lpn.val { m with step := 4, bodies := bodies, lost := lost } w.pg.moves } } : State)) y.1.uncharged ∧ x.1.home lpn.val = s.home lpn.val) ∧
  (∀ (s : State) (lpn : Lpn) (m : MoveSt) (bodies : List (List Byte)) (reads : List (Fin 64 × Fetch × Fetch)), tget lpn.val s.pg.moves = some m → m.step = 2 → s.halt = none → s.pageQuiet lpn.val = false →
      exec (.migrationGrant lpn bodies reads) s = .next (s.recallPage lpn.val)) ∧
  (∀ (s u : State) (lpn : Lpn) (m : MoveSt) (x : State × Bool), tget lpn.val s.pg.moves = some m → m.step = 4 → s.halt = none → s.moveBlocked lpn.val m = false → hasImage (s.tier lpn.val) = true → x = s.memAccess mMig lpn.val opW true .std → x.2 = true → m.twinOnly = false → m.copy = true → u = (x.1.underFor (x.1.ownAttr (some mMig) lpn.val 0) 5).landCopy lpn.val m →
      exec (.migrationCommit lpn) s = .next (((u.uncharged.count .global 0x02 1 none).mdcLeave lpn.val).moveEnds lpn.val)) ∧
  (∀ (s u : State) (lpn : Lpn) (m : MoveSt) (x : State × Bool), tget lpn.val s.pg.moves = some m → m.step = 4 → s.halt = none → s.moveBlocked lpn.val m = false → hasImage (s.tier lpn.val) = true → x = s.memAccess mMig lpn.val opW true .std → x.2 = true → m.twinOnly = false → m.copy = false → u = (x.1.underFor (x.1.ownAttr (some mMig) lpn.val 0) 5).landNew lpn.val m →
      exec (.migrationCommit lpn) s = .next (((u.uncharged.count .global 0x02 1 none).mdcLeave lpn.val).moveEnds lpn.val)) ∧
  (∀ (s : State) (lpn : Lpn) (m : MoveSt), tget lpn.val s.pg.moves = some m → m.step = 4 → s.halt = none → s.moveBlocked lpn.val m = true →
      exec (.migrationCommit lpn) s = .next (s.abortMove lpn.val m) ∧ exec (.migrationAbort lpn) s = .next (s.abortMove lpn.val m)) ∧
  (∀ (s : State) (lpn : Lpn) (m : MoveSt), tget lpn.val s.pg.moves = some m → m.step = 2 → s.pageQuiet lpn.val = false →
      exec (.migrationAbort lpn) s = .next (s.abortMove lpn.val m)) ∧
  (∀ (s : State), s.halt = none → s.red = false → s.pg.pages = [] →
      ∃ t : State, exec .epochBoundary s = .next t ∧ t.pg.newTier = [] ∧ t.pg.epochs = s.pg.epochs + 1 ∧ t.pg.mem = s.pg.mem) ∧
  (∀ (s : State), s.halt = none → s.get .XLT_TIER_CTL_COLD_EPOCHS ≤ s.pg.epochs → s.pg.coldDue = false → s.pg.cold = false →
      exec (.coldPassStart) s = .next (s.coldPass)) ∧
  (∀ (s u : State), s.halt = none → s.get .XLT_TIER_CTL_COLD_EPOCHS ≤ s.pg.epochs → s.pg.coldDue = false → s.pg.cold = true → u = { s with pg := { s.pg with coldDue := true } } →
      exec (.coldPassStart) s = .next ((u.bump .XLT_TIER_CTL_COLD_LATE 0xFFFF).report (msg1 bSlc u.capSlice 0xE))) ∧
  (∀ (s u v : State), s.pg.cold = true → u = ({ s with pg := { s.pg with cold := false, hist := s.pg.histNew } } : State).recountAll → v = ((u.pg.nodes.map (·.1)).filter (fun k => decide (k / 2 ^ 24 = 3))).foldl (fun (s : State) k => s.releaseNode k) u → v.pg.coldDue = false →
      exec (.coldPassDone) s = .next (v)) ∧
  (∀ (s u v : State), s.pg.cold = true → u = ({ s with pg := { s.pg with cold := false, hist := s.pg.histNew } } : State).recountAll → v = ((u.pg.nodes.map (·.1)).filter (fun k => decide (k / 2 ^ 24 = 3))).foldl (fun (s : State) k => s.releaseNode k) u → v.pg.coldDue = true →
      exec (.coldPassDone) s = .next (v.coldPass))

/-- Re-key sweeps pass pages that need nothing, re-encrypt those that do, and try again after a pause (R273, R303, R304, R305, R306, R312). -/
def Obligations.SweepsRun : Prop :=
  (∀ (s : State) (k : Fin 4) (hint w : Nat) (reads : List (Fin 64 × Fetch × Fetch)), s.halt = none → 40 ≤ s.healthy → s.sweeping k.val = true → s.isSet .SEC_SWEEP_CTL_NOSPACE k.val = false → s.get .THM_STS_STEP = 0 → w = s.get .SEC_SWEEP_WAY_LPN k.val → (tget (nodeKey 3 w) s.pg.nodes).isSome = true → (s.page w).pl.ks ≠ s.get .SEC_SWEEP_CTL_OLD k.val →
      exec (.sweepAdvance k hint reads) s = .next ((s.put .SEC_SWEEP_CTL_STATE 1 k.val).wayTo k.val (w + 1))) ∧
  (∀ (s : State) (k : Fin 4) (hint w : Nat) (reads : List (Fin 64 × Fetch × Fetch)), s.halt = none → 40 ≤ s.healthy → s.sweeping k.val = true → s.isSet .SEC_SWEEP_CTL_NOSPACE k.val = false → s.get .THM_STS_STEP = 0 → w = s.get .SEC_SWEEP_WAY_LPN k.val → (tget (nodeKey 3 w) s.pg.nodes).isSome = false →
      exec (.sweepAdvance k hint reads) s = .next ((s.put .SEC_SWEEP_CTL_STATE 1 k.val).wayTo k.val ((w / 512 + 1) * 512))) ∧
  (∀ (s u : State) (k : Fin 4) (hint w : Nat) (reads : List (Fin 64 × Fetch × Fetch)) (v : State × MoveSt) (y : State × Option (List (Nat × Nat))) (lost : List (Nat × Nat)) (z : State), s.halt = none → 40 ≤ s.healthy → s.sweeping k.val = true → s.isSet .SEC_SWEEP_CTL_NOSPACE k.val = false → s.get .THM_STS_STEP = 0 → w = s.get .SEC_SWEEP_WAY_LPN k.val → (tget (nodeKey 3 w) s.pg.nodes).isSome = true → hasImage (s.page w).pl.tier = true → (s.page w).pl.ks = s.get .SEC_SWEEP_CTL_OLD k.val → (s.unverif w = false) → (s.primChs (s.page w) ++ s.twinChs (s.page w)).any (fun c => s.chState c == 3) = false → u = (s.put .SEC_SWEEP_CTL_STATE 1 k.val).recallPage w → u.notMine w = false → u.pageQuiet w = true → u.affords (u.home w) 2 (u.moveBytes (u.rekeyPlan w (u.get .SEC_SWEEP_CTL_NEW k.val))) = true → u.holdRoom (u.rekeyPlan w (u.get .SEC_SWEEP_CTL_NEW k.val)) hint = some v → y = (((v.1.spend (v.1.home w) 2 (u.moveBytes (u.rekeyPlan w (u.get .SEC_SWEEP_CTL_NEW k.val)))).takePage w).underFor (((v.1.spend (v.1.home w) 2 (u.moveBytes (u.rekeyPlan w (u.get .SEC_SWEEP_CTL_NEW k.val)))).takePage w).ownAttr (some mMig) w 0) 5).moveReads w reads → y.2 = some lost → z = ((y.1.landCopy w { v.2 with lost := lost }).uncharged).mdcLeave w →
      exec (.sweepAdvance k hint reads) s = .next ((({ z with sec := { z.sec with rekeyed := tput k.val (tgetD 0 k.val z.sec.rekeyed + 1) z.sec.rekeyed } } : State).moveEnds w).wayTo k.val (w + 1))) ∧
  (∀ (s u : State) (k : Fin 4) (hint w : Nat) (reads : List (Fin 64 × Fetch × Fetch)), s.halt = none → 40 ≤ s.healthy → s.sweeping k.val = true → s.isSet .SEC_SWEEP_CTL_NOSPACE k.val = false → s.get .THM_STS_STEP = 0 → w = s.get .SEC_SWEEP_WAY_LPN k.val → (tget (nodeKey 3 w) s.pg.nodes).isSome = true → hasImage (s.page w).pl.tier = true → (s.page w).pl.ks = s.get .SEC_SWEEP_CTL_OLD k.val → (s.unverif w = false) → (s.primChs (s.page w) ++ s.twinChs (s.page w)).any (fun c => s.chState c == 3) = false → u = (s.put .SEC_SWEEP_CTL_STATE 1 k.val).recallPage w → u.notMine w = false → u.pageQuiet w = true → u.affords (u.home w) 2 (u.moveBytes (u.rekeyPlan w (u.get .SEC_SWEEP_CTL_NEW k.val))) = true → u.holdRoom (u.rekeyPlan w (u.get .SEC_SWEEP_CTL_NEW k.val)) hint = none →
      exec (.sweepAdvance k hint reads) s = .next ((u.put .SEC_SWEEP_CTL_STATE 2 k.val).put .SEC_SWEEP_CTL_NOSPACE 1 k.val)) ∧
  (∀ (s : State) (k : Fin 4) (hint : Nat) (reads : List (Fin 64 × Fetch × Fetch)), s.halt = none → 40 ≤ s.healthy → s.sweeping k.val = true → s.isSet .SEC_SWEEP_CTL_NOSPACE k.val = false → s.get .THM_STS_STEP ≠ 0 →
      exec (.sweepAdvance k hint reads) s = .next (s.put .SEC_SWEEP_CTL_STATE 2 k.val)) ∧
  (∀ (s : State) (k : Fin 4), s.get .SEC_SWEEP_CTL_STATE k.val = 2 → s.isSet .SEC_SWEEP_CTL_NOSPACE k.val = true →
      exec (.sweepRetry k) s = .next ((s.put .SEC_SWEEP_CTL_STATE 1 k.val).put .SEC_SWEEP_CTL_NOSPACE 0 k.val)) ∧
  (∀ (s : State),
      exec (.entropyFailure) s = .next ((s.put .SEC_STS_ENTROPY_FAIL 1).report (msg2 bSec 17 7)))

/-- The frit trainer, the frit store and the patrol scrubber (R213, R214, R215, R217, R218, R230, R231, R326). -/
def Obligations.FritsAndScrub : Prop :=
  (∀ (s : State) (f : Fin 64) (sc : Fin 256) (any : Bool) (n : Nat), (s.trainState = 0 ∨ s.trainState = 3) → legal .CDC_TRAIN_CTL_SAMPLES n = true →
      exec (.fritTrainStart f sc any n) s = .next (((((((s.put .CDC_TRAIN_CTL_FRIT f.val).put .CDC_TRAIN_CTL_SCOPE sc.val).put .CDC_TRAIN_CTL_ANY (b2n any)).put .CDC_TRAIN_CTL_SAMPLES n).setBuilt none).put .CDC_TRAIN_STS_STATE 1).put .CDC_TRAIN_STS_SAMPLED 0)) ∧
  (∀ (s : State) (n : Nat), s.trainState = 1 → 40 ≤ s.healthy →
      exec (.fritSamplingDone n) s = .next ((s.put .CDC_TRAIN_STS_SAMPLED (min n (s.get .CDC_TRAIN_CTL_SAMPLES))).put .CDC_TRAIN_STS_STATE 2)) ∧
  (∀ (s : State) (lit ctl : List Nat) (d : List Byte) (lz lze : Nat) (any : Bool), s.trainState = 2 → 40 ≤ s.healthy → validTable lit = true → validTable ctl = true → d.length = 4096 → any = (s.isSet .CDC_TRAIN_CTL_ANY && s.isSet .CDC_CTL_XSCOPE) →
      exec (.fritBuildDone lit ctl d lz lze false) s = .next (((((s.setBuilt (some { ver := 0, oneTc := !any, scope := if any then 0 else s.get .CDC_TRAIN_CTL_SCOPE, lit := lit, ctl := ctl, dict := d, nsamp := s.get .CDC_TRAIN_STS_SAMPLED })).put
        .CDC_TRAIN_STS_STATE 3).put .CDC_TRAIN_STS_RATIO_LZ (min lz 2047)).put .CDC_TRAIN_STS_RATIO_LZE (min lze 2047)))) ∧
  (∀ (s : State) (lit ctl : List Nat) (d : List Byte) (lz lze : Nat), s.trainState = 2 → 40 ≤ s.healthy →
      exec (.fritBuildDone lit ctl d lz lze true) s = .next ((s.put .CDC_TRAIN_STS_STATE 0).report (msg1 bCdc 16 7))) ∧
  (∀ (s u v : State) (x : Frit) (f cur : Nat), s.halt = none → s.trainState = 3 → s.cdc.built = some x → f = s.get .CDC_TRAIN_CTL_FRIT → cur = s.get .CDC_FRIT_STS_CUR f → s.get (refReg (1 - cur)) f = 0 → s.isSet .CDC_FRIT_STS_REBUILD f = false → u = { s with cdc := { s.cdc with store := tput (2 * f + (1 - cur)) { x with ver := nextVer (s.fritVerAt f cur) } s.cdc.store, built := none } } → v = (((((u.put (verReg (1 - cur)) (nextVer (s.fritVerAt f cur)) f).put .CDC_FRIT_STS_CUR (1 - cur) f).put .CDC_FRIT_STS_SCOPED (b2n x.oneTc) f).put .CDC_FRIT_STS_SCOPE x.scope f).put .CDC_TRAIN_STS_REFUSED 0).put .CDC_TRAIN_STS_STATE 0 →
      exec (.fritCommit) s = .next ((((v.emptySlot f cur).fritDrop (2 * f + (1 - cur))).writeSlot (2 * f + (1 - cur)) 80).spoilIf (fun p => p.frit == f))) ∧
  (∀ (s : State) (x : Frit), s.halt = none → s.trainState = 3 → s.cdc.built = some x → s.get (refReg (1 - s.get .CDC_FRIT_STS_CUR (s.get .CDC_TRAIN_CTL_FRIT))) (s.get .CDC_TRAIN_CTL_FRIT) ≠ 0 →
      exec (.fritCommit) s = .next (s.put .CDC_TRAIN_STS_REFUSED 1)) ∧
  (∀ (s : State),
      exec (.fritDiscard) s = .next (((s.setBuilt none).put .CDC_TRAIN_STS_STATE 0).put .CDC_TRAIN_STS_SAMPLED 0)) ∧
  (∀ (s : State), s.halt = none →
      exec (.fritRefWriteback) s = .next ((s.cdc.store.map (·.1)).foldl (fun (s : State) x => s.writeSlot x 1) { s with cdc := { s.cdc with refMedia := s.refsNow } })) ∧
  (∀ (s : State), s.isSet .CDC_FRIT_STS_REBUILD 0 = true → s.pg.pages.any (fun x => x.2.pl.tier == 4 && !s.portUp (locPort x.2.pl.ma)) = false →
      exec (.fritRefRebuildDone) s = .next (((List.range 64).foldl (fun (u : State) f =>
        ((((u.put .CDC_FRIT_REF0_REF (tgetD 0 (2 * f) s.countRefs) f).put .CDC_FRIT_REF1_REF (tgetD 0 (2 * f + 1) s.countRefs) f).put .CDC_FRIT_STS_REBUILD 0 f).emptySlot f 0).emptySlot f 1) s))) ∧
  (∀ (s : State) (c : Fin 16) (raced : Bool) (ns : Nat) (e : ReadErr) (x : State × LineOut), s.halt = none → s.inService c.val = true → s.scrubPaused c.val = false → bit (s.get .ECC_SCRUB_CFG_EN) c.val = true → tgetD 0 c.val s.pg.chCap ≠ 0 → (tget c.val s.ecc.scrubFrom).isSome = true → x = (s.underFor { master := some 0x10, priv := 3, lpn := lpnEnd, cls := 0, tier := 6 } 3).readLine (4 * s.maOf c.val (tgetD 0 c.val s.ecc.scrubAt / 4) + tgetD 0 c.val s.ecc.scrubAt % 4) e (s.markedLa (4 * s.maOf c.val (tgetD 0 c.val s.ecc.scrubAt / 4) + tgetD 0 c.val s.ecc.scrubAt % 4)) →
      exec (.scrubRead c e raced ns) s = .next (((x.1.scrubOut (4 * s.maOf c.val (tgetD 0 c.val s.ecc.scrubAt / 4) + tgetD 0 c.val s.ecc.scrubAt % 4) x.2 raced).scrubStep c.val ns).uncharged))

/-- seg.alloc and seg.free complete with their effects (R138, R143, R144, R255, R270, R311). -/
def Obligations.SegmentAllocation : Prop :=
  (∀ (q : Req) (s s₁ : State) (u : State),
    let l := pagesOf q
    Served { op := 0x0306, priv := 1, ctx := 1, fields := rangeFields } q (firstBad (s.rangeChecks q)) s s₁ (s.lpnDeny q (firstLpn q) (pageCount q)) →
    (∀ p ∈ l, s₁.tier p = 0 ∧ s₁.slotActive (s₁.slotFor p) = true) →
    s₁.tablePages l = some u →
      Completes (exec (.segAlloc q) s) u q) ∧
  (∀ (q : Req) (s s₁ : State),
    let l := pagesOf q
    Served { op := 0x0306, priv := 1, ctx := 1, fields := rangeFields } q (firstBad (s.rangeChecks q)) s s₁ (s.lpnDeny q (firstLpn q) (pageCount q)) →
    (∀ p ∈ l, s₁.tier p = 0 ∧ s₁.slotActive (s₁.slotFor p) = true) →
    s₁.tablePages l = none →
      Refused (exec (.segAlloc q) s) s₁ q stNoSpace 0) ∧
  (∀ (q : Req) (s s₁ : State) (i : Nat),
    let l := pagesOf q
    Served { op := 0x0306, priv := 1, ctx := 1, fields := rangeFields } q (firstBad (s.rangeChecks q)) s s₁ (s.lpnDeny q (firstLpn q) (pageCount q)) →
    l.findIdx? (fun p => s₁.tier p != 0) = some i →
      Refused (exec (.segAlloc q) s) s₁ q stStale i) ∧
  (∀ (s t : State) (lpn : Nat), s.tablePage lpn = some t →
      (t.page lpn).pl.tier = 5 ∧ (t.page lpn).pl.twk = 1) ∧
  (∀ (q : Req) (s s₁ : State),
    let l := pagesOf q
    Served { op := 0x0307, priv := 1, ctx := 2, fields := rangeFields } q (firstBad (s.rangeChecks q ++ [(0x10, l.all (fun p => s.tier p == 5 || s.tier p == 7))])) s s₁ (s.lpnDeny q (firstLpn q) (pageCount q)) →
    (∀ c < 256, s₁.isSet .XLT_CTX_CFG_EN c = true → s₁.isSet .XLT_CTX_CFG_ROOTV c = true → s₁.get .XLT_CTX_CFG_ROOT c ∉ l) →
    (∀ p ∈ l, (s₁.allRecalled q).notMine p = false) →
      Completes (exec (.segFree q) s) ((pagesOf q).foldl (fun (s : State) p => s.zeroPage p) (s₁.allRecalled q)).settleUnver q) ∧
  (∀ (q : Req) (s s₁ : State),
    let l := pagesOf q
    Served { op := 0x0307, priv := 1, ctx := 2, fields := rangeFields } q (firstBad (s.rangeChecks q ++ [(0x10, l.all (fun p => s.tier p == 5 || s.tier p == 7))])) s s₁ (s.lpnDeny q (firstLpn q) (pageCount q)) →
    (∀ c < 256, s₁.isSet .XLT_CTX_CFG_EN c = true → s₁.isSet .XLT_CTX_CFG_ROOTV c = true → s₁.get .XLT_CTX_CFG_ROOT c ∉ l) →
    (∃ p ∈ l, (s₁.allRecalled q).notMine p = true) →
      (exec (.segFree q) s) = .next { s₁.allRecalled q with xlt := { (s₁.allRecalled q).xlt with waiting := (s₁.allRecalled q).xlt.waiting ++ [{ kind := 2, req := q }] } })

/-- The slot commands complete with their effects (R461, R465, R468, R471, R475, R476, R477, R478, R480, R481). -/
def Obligations.SlotCommands : Prop :=
  (∀ (q : Req) (s s₁ : State),
    let n := par q 0x10 1
    let c := n / 2
    Served { op := 0x0A00, priv := 0, mctp := true, output := true, fields := [fld 0x10 1] } q (firstBad [(0x10, decide (n < 32))]) s s₁ →
      Completes (exec (.slotQuery q) s) s₁ q (s₁.word .SLT_SG_STS_STATE n) 64 [(0x00, 8, s₁.word .SLT_SG_MEAS_VIN n), (0x08, 8, s₁.word .SLT_SG_LIM_ILIM n), (0x10, 8, s₁.word .SLT_SG_MODEL_R1 n),
        (0x18, 8, s₁.word .SLT_SG_CNT_FAULTS n), (0x20, 8, s₁.word .SLT_CH_SVC_SVC c), (0x28, 1, b2n (s₁.evacReady c)), (0x30, 8, s₁.chAlloc c), (0x38, 8, s₁.othersFree c)]) ∧
  (∀ (q : Req) (s s₁ : State),
    let n := par q 0x10 1
    Served { op := 0x0A01, priv := 2, mctp := true, fields := [fld 0x10 1] } q (firstBad [(0x10, decide (n < 32))]) s s₁ →
    (s₁.sg n = 1 ∨ s₁.sg n = 2 ∨ s₁.sg n = 7) →
    s₁.canBringUp (n / 2) = true →
    (s₁.freeSlot).isSome = true →
      Starts (exec (.slotPowerOn q) s) s₁ (s₁.bringup (n / 2)) q (.powerOn (n / 2)) ∧ (s₁.bringup (n / 2)).svc (n / 2) = 4) ∧
  (∀ (q : Req) (s s₁ : State),
    let n := par q 0x10 1
    Served { op := 0x0A02, priv := 2, mctp := true, fields := [fld 0x10 1, fbits 0x11 0 1] } q (firstBad [(0x10, decide (n < 32))]) s s₁ →
    s₁.chState (n / 2) = 6 →
    parBit q 0x11 0 = false →
    s₁.sg n ≠ 0 →
    s₁.sg n ≠ 6 →
      Completes (exec (.slotPowerOff q) s) ((s₁.gateOff n).setSg n 7) q) ∧
  (∀ (q : Req) (s s₁ : State),
    let n := par q 0x10 1
    Served { op := 0x0A02, priv := 2, mctp := true, fields := [fld 0x10 1, fbits 0x11 0 1] } q (firstBad [(0x10, decide (n < 32))]) s s₁ →
    parBit q 0x11 0 = true →
    s₁.sg n ≠ 0 →
    s₁.sg n ≠ 6 →
    s₁.isSet .SLT_SG_STS_GATE n = true →
      Completes (exec (.slotPowerOff q) s) ((((s₁.gateOff n).setSg n 7).bump .SLT_SG_CNT_FAULTS 0xFFFF n).lostSlot n none) q) ∧
  (∀ (q : Req) (s s₁ : State),
    let n := par q 0x10 1
    Served { op := 0x0A02, priv := 2, mctp := true, fields := [fld 0x10 1, fbits 0x11 0 1] } q (firstBad [(0x10, decide (n < 32))]) s s₁ →
    s₁.chState (n / 2) = 6 →
    (s₁.sg n = 0 ∨ s₁.sg n = 6) →
      Completes (exec (.slotPowerOff q) s) s₁ q) ∧
  (∀ (q : Req) (s s₁ : State),
    let c := par q 0x10 1
    Served { op := 0x0A03, priv := 2, mctp := true, fields := [fld 0x10 1] } q (firstBad [(0x10, decide (c < 16))]) s s₁ →
    s₁.svcRefusal c = none →
    (s₁.freeSlot).isSome = true →
      Starts (exec (.slotServiceStart q) s) s₁ (s₁.startSvc c true false false) q (.service c)) ∧
  (∀ (q : Req) (s s₁ : State),
    let c := par q 0x10 1
    Served { op := 0x0A04, priv := 2, mctp := true, fields := [fld 0x10 1] } q (firstBad [(0x10, decide (c < 16))]) s s₁ →
    s₁.svc c = 1 →
      Completes (exec (.slotServiceCancel q) s) (s₁.cancelSvc c) q) ∧
  (∀ (q : Req) (s s₁ : State),
    let mask := par q 0x10 4
    let slots := (List.range 32).filter (fun n => bit mask n)
    let ilim := par q 0x14 1
    Served { op := 0x0A05, priv := 2, mctp := true, fields := fld 0x10 4 :: limitRows.map (fun r => fld r.2.1 r.2.2.1) } q (firstBad ([(0x10, decide (mask ≠ 0))] ++ limitRows.map (fun r => (r.2.1, let v := par q r.2.1 r.2.2.1; decide (v = 0 ∨ (r.2.2.2.1 ≤ v ∧ v ≤ r.2.2.2.2.1)))) ++ [(0x14, decide (ilim = 0) || slots.all (fun n => let p := ilim * s.get .SLT_SG_MODEL_RSH n; decide (16000 ≤ p ∧ p ≤ 1024000)))])) s s₁ →
      Completes (exec (.slotSetLimits q) s) (slots.foldl (fun (s : State) n => s.setLimits q n) s₁) q) ∧
  (∀ (s : State) (q : Req) (n : Nat), s.isSet .SLT_SG_STS_GATE n = false →
      s.setLimits q n = limitRows.foldl (fun (s : State) r => if par q r.2.1 r.2.2.1 = 0 then s else s.put r.1 (par q r.2.1 r.2.2.1 - r.2.2.2.2.2) n) s) ∧
  (∀ (s : State) (q : Req) (n : Nat), s.isSet .SLT_SG_STS_GATE n = false → n < 32 → par q 0x14 1 ≠ 0 →
      (s.setLimits q n).get .SLT_SG_LIM_ILIM n = par q 0x14 1) ∧
  (∀ (s : State) (q : Req) (n : Nat), s.isSet .SLT_SG_STS_GATE n = false → n < 32 → par q 0x19 1 ≠ 0 →
      (s.setLimits q n).get .SLT_SG_LIM_RETRY_MAX n = par q 0x19 1 - 1) ∧
  (∀ (s : State) (q : Req) (n : Nat), s.isSet .SLT_SG_STS_GATE n = false → par q 0x1A 1 = 0 →
      (s.setLimits q n).get .SLT_SG_LIM_TLIM n = s.get .SLT_SG_LIM_TLIM n) ∧
  (∀ (q : Req) (s s₁ : State),
    let n := par q 0x10 1
    Served { op := 0x0A06, priv := 2, mctp := true, fields := [fld 0x10 1] } q (firstBad [(0x10, decide (n < 32))]) s s₁ →
    s₁.sg n = 6 →
    (s₁.isSet .SLT_SG_STS_FET_SHORT n = false ∨ s₁.get .SLT_SG_MEAS_VOUT n < 1000) →
      Completes (exec (.slotClearFault q) s) ((((s₁.put .SLT_SG_STS_ATTEMPTS 0 n).put .SLT_SG_STS_FET_SHORT 0 n).fetPin).setSg n (if s₁.isSet .SLT_SG_STS_PRSNT n then 2 else 0)) q)

/-- Every fault of a powered slot switches it off, is counted, and waits for a retry or latches (R463, R464, R465, R466, R467, R469, R471). -/
def Obligations.GuardFaults : Prop :=
  (∀ (s : State) (n : Fin 32) (m : SgMeas), s.isSet .SLT_SG_STS_GATE n.val = true → 2000 * s.get .SLT_SG_LIM_ILIM n.val ≤ 16 * m.i.val →
      ∃ t : State, exec (.sgFastTrip n m) s = .next t ∧ t.sg n.val = 5 ∧ t.get .SLT_SG_STS_GATE n.val = 0 ∧ t.get .SLT_SG_STS_PG n.val = 0 ∧ t.get .SLT_SG_STS_LAST_FAULT n.val = 2 ∧
        t.get .SLT_SG_CNT_FAULTS n.val = satAdd 0xFFFF (s.get .SLT_SG_CNT_FAULTS n.val) 1) ∧
  (∀ (s : State) (n : Fin 32) (m : SgMeas), s.isSet .SLT_SG_STS_GATE n.val = true → s.isSet .SLT_SG_STS_TMR n.val = true →
      ∃ t : State, exec (.sgFaultTimerExpire n m) s = .next t ∧ t.sg n.val = 5 ∧ t.get .SLT_SG_STS_GATE n.val = 0 ∧ t.get .SLT_SG_STS_PG n.val = 0 ∧ t.get .SLT_SG_STS_LAST_FAULT n.val = 1 ∧
        t.get .SLT_SG_CNT_FAULTS n.val = satAdd 0xFFFF (s.get .SLT_SG_CNT_FAULTS n.val) 1) ∧
  (∀ (s : State) (n : Fin 32) (m : SgMeas), s.isSet .SLT_SG_STS_GATE n.val = true → s.sg n.val = 3 → s.get .SLT_SG_STS_PG n.val = 0 →
      ∃ t : State, exec (.sgRampTimeout n m) s = .next t ∧ t.sg n.val = 5 ∧ t.get .SLT_SG_STS_GATE n.val = 0 ∧ t.get .SLT_SG_STS_PG n.val = 0 ∧ t.get .SLT_SG_STS_LAST_FAULT n.val = 4 ∧
        t.get .SLT_SG_CNT_FAULTS n.val = satAdd 0xFFFF (s.get .SLT_SG_CNT_FAULTS n.val) 1) ∧
  (∀ (s : State) (n : Fin 32) (m : SgMeas), s.isSet .SLT_SG_STS_GATE n.val = true →
      ∃ t : State, exec (.sgSenseFault n m) s = .next t ∧ t.sg n.val = 6 ∧ t.get .SLT_SG_STS_GATE n.val = 0 ∧ t.get .SLT_SG_STS_PG n.val = 0 ∧ t.get .SLT_SG_STS_LAST_FAULT n.val = 6 ∧
        t.get .SLT_SG_CNT_FAULTS n.val = satAdd 0xFFFF (s.get .SLT_SG_CNT_FAULTS n.val) 1) ∧
  (∀ (s : State) (n : Fin 32) (m : SgMeas), s.isSet .SLT_SG_STS_GATE n.val = true → m.vin.val < 10200 →
      ∃ t : State, exec (.sgUvin n m) s = .next t ∧ t.sg n.val = 5 ∧ t.get .SLT_SG_STS_GATE n.val = 0 ∧ t.get .SLT_SG_STS_PG n.val = 0 ∧ t.get .SLT_SG_STS_LAST_FAULT n.val = 8 ∧
        t.get .SLT_SG_CNT_FAULTS n.val = satAdd 0xFFFF (s.get .SLT_SG_CNT_FAULTS n.val) 1) ∧
  (∀ (s : State) (n : Fin 32) (m : SgMeas), s.isSet .SLT_SG_STS_GATE n.val = true → 100000000000000 * (s.get .SLT_SG_LIM_TLIM n.val : Int) ≤ (s.measure n.val m).tfet n.val →
      ∃ t : State, exec (.sgTherm n m) s = .next t ∧ t.sg n.val = 5 ∧ t.get .SLT_SG_STS_GATE n.val = 0 ∧ t.get .SLT_SG_STS_PG n.val = 0 ∧ t.get .SLT_SG_STS_LAST_FAULT n.val = 3 ∧
        t.get .SLT_SG_CNT_FAULTS n.val = satAdd 0xFFFF (s.get .SLT_SG_CNT_FAULTS n.val) 1 ∧ t.get .SLT_SG_STS_THERM_HOLD n.val = 1) ∧
  (∀ (s : State) (n : Fin 32), s.isSet .SLT_SG_STS_GATE n.val = true → s.isSet .SLT_SG_STS_PRSNT n.val = true →
      ∃ t : State, exec (.sgPresenceLoss n false) s = .next t ∧ t.sg n.val = 6 ∧ t.get .SLT_SG_STS_GATE n.val = 0 ∧ t.get .SLT_SG_STS_PG n.val = 0 ∧ t.get .SLT_SG_STS_LAST_FAULT n.val = 5 ∧
        t.get .SLT_SG_CNT_FAULTS n.val = satAdd 0xFFFF (s.get .SLT_SG_CNT_FAULTS n.val) 1 ∧ t.get .SLT_SG_STS_PRSNT n.val = 0) ∧
  (∀ (s : State) (n : Fin 32) (m : SgMeas), s.isSet .SLT_SG_STS_GATE n.val = false → 1000 < m.vout.val → s.isSet .SLT_SG_STS_FET_SHORT n.val = false →
      ∃ t : State, exec (.sgFetShort n m) s = .next t ∧ t.sg n.val = 6 ∧ t.get .SLT_SG_STS_FET_SHORT n.val = 1 ∧ t.get .SLT_SG_STS_LAST_FAULT n.val = 7 ∧ t.get .SLT_STS_FETSHORT = 1)

/-- The guards, their presence pins, the button and the ambient sensor (R463, R464, R465, R466, R469, R470, R472, R473, R475). -/
def Obligations.GuardEvents : Prop :=
  (∀ (s : State) (n : Fin 32) (m : SgMeas), s.isSet .SLT_SG_STS_GATE n.val = true → 1000 * s.get .SLT_SG_LIM_ILIM n.val < 16 * m.i.val → 16 * m.i.val < 2000 * s.get .SLT_SG_LIM_ILIM n.val → s.get .SLT_SG_STS_TMR n.val = 0 →
      ∃ t : State, exec (.sgOvercurrent n m) s = .next t ∧ t.get .SLT_SG_STS_TMR n.val = 1 ∧ t.get .SLT_SG_STS_PG n.val = 0 ∧ t.get .SLT_SG_STS_GATE n.val = s.get .SLT_SG_STS_GATE n.val ∧ t.get .SLT_SG_MEAS_I n.val = m.i.val) ∧
  (∀ (s : State) (n : Fin 32) (m : SgMeas), s.isSet .SLT_SG_STS_GATE n.val = true → 0 < s.get .SLT_SG_LIM_ILIM n.val → 256 * m.i.val ≤ 15000 * s.get .SLT_SG_LIM_ILIM n.val → s.get .SLT_SG_STS_TMR n.val = 1 →
      ∃ t : State, exec (.sgOvercurrentEnd n m) s = .next t ∧ t.get .SLT_SG_STS_TMR n.val = 0 ∧ t.get .SLT_SG_STS_GATE n.val = s.get .SLT_SG_STS_GATE n.val) ∧
  (∀ (s : State) (n : Fin 32) (m : SgMeas), s.isSet .SLT_SG_STS_GATE n.val = true → s.sg n.val = 3 → n.val ∈ s.slt.rampDone → s.get .SLT_SG_STS_TMR n.val = 0 → 16 * m.i.val ≤ 1000 * s.get .SLT_SG_LIM_ILIM n.val → 0 < s.get .SLT_SG_LIM_ILIM n.val → 92 * m.vin.val ≤ 100 * m.vout.val →
      ∃ t : State, exec (.sgPowerGood n m) s = .next t ∧ t.sg n.val = 4 ∧ t.get .SLT_SG_STS_PG n.val = 1 ∧ (t.chan (n.val / 2)).drstHigh = true) ∧
  (∀ (s u : State) (n : Fin 32) (m : SgMeas), s.sg n.val = 3 → u = s.measure n.val m →
      exec (.sgRampDone n m) s = .next ({ u with slt := { u.slt with rampDone := linsert n.val u.slt.rampDone } })) ∧
  (∀ (s u : State) (n : Fin 32) (m : SgMeas), s.sg n.val = 5 → s.get .SLT_SG_STS_ATTEMPTS n.val < s.get .SLT_SG_LIM_RETRY_MAX n.val → u = s.measure n.val m → u.fetCool n.val = true → (s.get .SLT_SG_STS_LAST_FAULT n.val ≠ 8 ∨ 10800 ≤ m.vin.val) →
      exec (.sgRetryExpire n m) s = .next ((u.bump .SLT_SG_CNT_RETRIES 0xFFFF n.val).ramp n.val)) ∧
  (∀ (s : State) (n : Nat), n < 32 →
      (s.ramp n).sg n = 3 ∧ (s.ramp n).get .SLT_SG_STS_GATE n = 1 ∧ (s.ramp n).get .SLT_SG_STS_PG n = 0) ∧
  (∀ (s u : State) (n : Fin 32) (m : SgMeas), s.sg n.val = 5 → s.get .SLT_SG_LIM_RETRY_MAX n.val ≤ s.get .SLT_SG_STS_ATTEMPTS n.val → u = s.measure n.val m →
      exec (.sgRetryExpire n m) s = .next ((u.setSg n.val 6).report (msg2 bSlt n.val 6))) ∧
  (∀ (s : State) (n : Fin 32), s.isSet .SLT_SG_STS_PG n.val = true →
      exec (.sgAttemptsReset n) s = .next (s.put .SLT_SG_STS_ATTEMPTS 0 n.val)) ∧
  (∀ (s : State) (n : Fin 32), s.isSet .SLT_SG_STS_PRSNT n.val = false → s.slotAbsent n.val = false → s.sg n.val = 0 →
      ∃ t : State, exec (.sgPresenceArrival n) s = .next t ∧ t.sg n.val = 2 ∧ t.get .SLT_SG_STS_PRSNT n.val = 1 ∧ t.get .SLT_SG_STS_ATTEMPTS n.val = 0) ∧
  (∀ (s : State) (n : Fin 32), s.isSet .SLT_SG_STS_PRSNT n.val = true → s.isSet .SLT_SG_STS_GATE n.val = false →
      ∃ t : State, exec (.sgPresenceLoss n true) s = .next t ∧ t.sg n.val = 0 ∧ t.get .SLT_SG_STS_PRSNT n.val = 0 ∧ tget n.val t.mem.dimms = none) ∧
  (∀ (s : State) (n : Fin 32) (m : SgMeas), (s.measure n.val m).fetCool n.val = true →
      exec (.sgThermHoldRelease n m) s = .next ((s.measure n.val m).put .SLT_SG_STS_THERM_HOLD 0 n.val)) ∧
  (∀ (s : State) (mv : Fin 65536), s.isSet .SLT_CFG_TAMB_FITTED = true → s.isSet .SLT_STS_TAMB_FAIL = false → (mv.val < 100 ∨ 2000 < mv.val) →
      exec (.sgTambFail mv) s = .next ((s.put .SLT_STS_TAMB_FAIL 1).report (msg1 bSlt 32 2))) ∧
  (∀ (s : State) (mv : Fin 65536), s.isSet .SLT_CFG_TAMB_FITTED = true → 100 ≤ mv.val → mv.val ≤ 2000 →
      exec (.sgTambFail mv) s = .next ((s.put .SLT_STS_TAMB_FAIL 0).put .SLT_STS_TAMB (BitVec.ofInt 16 (8 * ((mv.val : Int) - 500) / 5)).toNat)) ∧
  (∀ (s u : State) (n : Fin 32), s.isSet .SLT_CFG_BTN_EN = true → u = s.bump .SLT_SG_CNT_PRESSES 0x7FFF n.val → u.sg n.val = 1 → u.svc (n.val / 2) = 0 → u.canBringUp (n.val / 2) = true →
      exec (.sgButtonPress n) s = .next (u.bringup (n.val / 2))) ∧
  (∀ (s u : State) (n : Fin 32), s.isSet .SLT_CFG_BTN_EN = true → u = s.bump .SLT_SG_CNT_PRESSES 0x7FFF n.val → u.sg n.val = 4 → u.svc (n.val / 2) = 0 → u.svcRefusal (n.val / 2) = none →
      exec (.sgButtonPress n) s = .next (u.startSvc (n.val / 2) false false true)) ∧
  (∀ (s u : State) (n : Fin 32), s.isSet .SLT_CFG_BTN_EN = true → u = s.bump .SLT_SG_CNT_PRESSES 0x7FFF n.val → u.sg n.val = 4 → u.svc (n.val / 2) = 0 → (u.svcRefusal (n.val / 2)).isSome = true →
      exec (.sgButtonPress n) s = .next (({ u with slt := { u.slt with fast := linsert n.val u.slt.fast } } : State).svcNote (n.val / 2))) ∧
  (∀ (s u : State) (n : Fin 32), s.isSet .SLT_CFG_BTN_EN = true → u = s.bump .SLT_SG_CNT_PRESSES 0x7FFF n.val → u.svc (n.val / 2) = 1 → u.isSet .SLT_CH_SVC_CANCEL_OPEN (n.val / 2) = true →
      exec (.sgButtonPress n) s = .next (u.cancelSvc (n.val / 2))) ∧
  (∀ (s : State) (n : Fin 32),
      exec (.serviceRefusedBlinkEnd n) s = .next ({ s with slt := { s.slt with fast := lremove n.val s.slt.fast } }))

/-- Service of a channel goes through the steps of R477 (R475, R476, R477, R478). -/
def Obligations.ServiceOfChannels : Prop :=
  (∀ (s u : State) (c : Fin 16), s.svc c.val = 1 → s.holdsPages c.val = false → s.chState c.val ≠ 6 → u = ((s.takeOffline c.val).put .SLT_CH_SVC_SVC 2 c.val).put .SLT_CH_SVC_CANCEL_OPEN 0 c.val →
      exec (.evacuationComplete c) s = .next (((u.toSafe (2 * c.val)).toSafe (2 * c.val + 1)).recap.retoll)) ∧
  (∀ (s : State) (c : Fin 16), s.svc c.val = 1 → s.holdsPages c.val = false →
      ∃ t : State, exec (.evacuationComplete c) s = .next t ∧ t.svc c.val = 2 ∧ t.get .SLT_SG_STS_GATE (2 * c.val) = 0 ∧ t.get .SLT_SG_STS_GATE (2 * c.val + 1) = 0) ∧
  (∀ (s : State) (c : Fin 16) (v0 v1 : Fin 1000), s.svc c.val = 2 →
      exec (.serviceDark c v0 v1) s = .next ((((((s.put .SLT_SG_MEAS_VOUT v0.val (2 * c.val)).put .SLT_SG_MEAS_VOUT v1.val (2 * c.val + 1)).put .SLT_CH_SVC_SVC 3 c.val).svcNote c.val).endKind (fun k => k == .service c.val) stOk 0 0))) ∧
  (∀ (s : State) (c : Fin 16) (a b : Option Dimm), s.svc c.val = 4 → s.get .SLT_CH_SVC_STEP c.val = 0 → c.val ∉ s.slt.stopping → (s.seated c.val).any (fun n => s.sg n == 3) = false → (s.seated c.val).any (fun n => s.sg n == 4) = true →
      exec (.bringupStepDone c a b) s = .next ((s.put .SLT_CH_SVC_STEP 1 c.val).bootDone)) ∧
  (∀ (s u : State) (c : Fin 16) (a b : Option Dimm), s.svc c.val = 4 → s.get .SLT_CH_SVC_STEP c.val = 1 → c.val ∉ s.slt.stopping → (u = s.readSpds c.val (fun k => if k = 0 then a else b)) → u.chState c.val = 7 →
      exec (.bringupStepDone c a b) s = .next ((u.put .SLT_CH_SVC_STEP 2 c.val).bootDone)) ∧
  (∀ (s u : State) (c : Fin 16) (a b : Option Dimm), s.svc c.val = 4 → s.get .SLT_CH_SVC_STEP c.val = 3 → c.val ∉ s.slt.stopping → s.chState c.val ≠ 1 → s.inService c.val = true → u = ((((s.put .SLT_CH_SVC_SVC 0 c.val).put .SLT_CH_SVC_STEP 0 c.val).put .MEM_CH_STS_EVAC_MARK 0 c.val).put .SLT_CH_SVC_BYCMD 0 c.val).put .SLT_CH_SVC_BYMARK 0 c.val →
      exec (.bringupStepDone c a b) s = .next ((((u.placeFixed.retoll).svcNote c.val).endKind (fun k => k == .powerOn c.val) stOk 0 0).bootDone)) ∧
  (∀ (s : State) (c : Nat), s.evacuating = false → s.slt.marks.find? (fun c => s.evacReady c) = some c →
      exec (.markedEvacuationStart) s = .next (s.startSvc c false true false)) ∧
  (∀ (s : State) (c : Fin 16),
      exec (.serviceCancelWindowEnd c) s = .next (s.put .SLT_CH_SVC_CANCEL_OPEN 0 c.val))

/-- The pwr and thm commands complete with their effects (R484, R488, R490, R492, R498, R501, R505, R506). -/
def Obligations.PowerCommands : Prop :=
  (∀ (q : Req) (s s₁ : State),
    Served { op := 0x0F00, priv := 0, mctp := true, output := true } q none s s₁ →
      Completes (exec (.pwrQuery q) s) s₁ q (s₁.word .PWR_STATE_PS) 64 [(0x00, 8, s₁.word .PWR_CTL_AUTO_PS1), (0x08, 8, s₁.word .PWR_DOM_STS_D), (0x10, 8, s₁.word .PWR_WAKE_CFG_EN),
        (0x18, 8, s₁.word .PWR_LAST_WAKE_SRC), (0x20, 8, s₁.word .PWR_SADDLE_STS_GEN), (0x28, 4, (List.range 31).foldl (fun n i => n + s₁.get .PWR_DOM_PWR_MW i) 0)]) ∧
  (∀ (q : Req) (s s₁ : State),
    Served { op := 0x0F01, priv := 2, mctp := true, fields := [fld 0x10 1] } q (firstBad [(0x10, decide (par q 0x10 1 ≤ 3))]) s s₁ →
    par q 0x10 1 = 0 →
    s₁.get .PWR_STATE_PS = 0 →
      Completes (exec (.pwrSetState q) s) s₁.cancelEntry q) ∧
  (∀ (q : Req) (s s₁ : State),
    Served { op := 0x0F01, priv := 2, mctp := true, fields := [fld 0x10 1] } q (firstBad [(0x10, decide (par q 0x10 1 ≤ 3))]) s s₁ →
    2 ≤ par q 0x10 1 →
    2 ≤ s₁.get .GLB_FW_STS_ROLL →
      (exec (.pwrSetState q) s) = .next { s₁ with pwr := { s₁.pwr with afterRoll := s₁.pwr.afterRoll ++ [q] } }) ∧
  (∀ (q : Req) (s s₁ : State),
    Served { op := 0x0F01, priv := 2, mctp := true, fields := [fld 0x10 1] } q (firstBad [(0x10, decide (par q 0x10 1 ≤ 3))]) s s₁ →
    par q 0x10 1 = 1 →
    s₁.get .PWR_STATE_PS = 0 →
      Completes (exec (.pwrSetState q) s) ((s₁.cancelEntry).put .PWR_STATE_PS 1) q) ∧
  (∀ (q : Req) (s s₁ : State),
    Served { op := 0x0F01, priv := 2, mctp := true, fields := [fld 0x10 1] } q (firstBad [(0x10, decide (par q 0x10 1 ≤ 3))]) s s₁ →
    par q 0x10 1 = 2 →
    s₁.get .PWR_STATE_PS = 0 →
    s₁.get .GLB_FW_STS_ROLL < 2 →
    s₁.chanHeld = false →
    s₁.pwr.linkWait = false →
    s₁.pwr.waking = false →
      (exec (.pwrSetState q) s) = .next (({ s₁ with pwr := { s₁.pwr with waiters := s₁.pwr.waiters ++ [q] } } : State).put .PWR_STATE_ENTERING 1)) ∧
  (∀ (q : Req) (s s₁ : State),
    Served { op := 0x0F01, priv := 2, mctp := true, fields := [fld 0x10 1] } q (firstBad [(0x10, decide (par q 0x10 1 ≤ 3))]) s s₁ →
    par q 0x10 1 = 3 →
    s₁.get .PWR_STATE_PS = 0 →
    s₁.get .GLB_FW_STS_ROLL < 2 →
    s₁.chanHeld = false →
    s₁.pwr.linkWait = false →
    (∀ c < 16, s₁.get .SLT_CH_SVC_SVC c = 0) →
    (∀ k < 4, s₁.sweeping k = false) →
    (∀ p < 2, (s₁.port p).loanB = none ∧ (s₁.port p).loanL = none) →
    (s₁.freeSlot).isSome = true →
      Starts (exec (.pwrSetState q) s) s₁ (({ s₁.cancelEntry with pwr := { s₁.cancelEntry.pwr with linkWait := true } } : State).put .PWR_STATE_ENTERING 1) q .ps3) ∧
  (∀ (q : Req) (s s₁ : State),
    let m := par q 0x10 1
    Served { op := 0x0F02, priv := 2, mctp := true, fields := [fld 0x10 1, fld 0x18 4] } q (firstBad [(0x10, decide (m % 2 = 0 ∧ m < 128))]) s s₁ →
      Completes (exec (.pwrWakeCfg q) s) ((s₁.put .PWR_WAKE_CFG_EN (m / 2)).put .PWR_AON_TIMER_CMP (par q 0x18 4)) q) ∧
  (∀ (q : Req) (s s₁ : State),
    Served { op := 0x0F03, priv := 0, mctp := true, output := true } q none s s₁ →
      Completes (exec (.thmQuery q) s) s₁ q (s₁.word .THM_STS_TMAX) 384 ((List.range 64).map (fun i => (2 * i, 2, s16 (s₁.temp i)))
        ++ (List.range 24).map (fun d => (0x80 + 8 * d, 8, s₁.word .THM_DIODE_T d)) ++ [(0x140, 8, s16 s₁.pwr.base), (0x148, 8, Config.thermPrint)])) ∧
  (∀ (q : Req) (s s₁ : State),
    let keep := fun (v was : Nat) => if v = 0 then was else v
    let w := keep (par q 0x10 1) (s.get .THM_LIMITS_WARN_C)
    let t := keep (par q 0x11 1) (s.get .THM_LIMITS_THROT_C)
    let m := keep (par q 0x12 1) (s.get .THM_LIMITS_STEP_MS)
    Served { op := 0x0F04, priv := 2, mctp := true, fields := [fld 0x10 3] } q (firstBad [(0x10, decide (85 ≤ w ∧ w ≤ 135)), (0x11, decide (w + 5 ≤ t ∧ t ≤ 145)), (0x12, decide (1 ≤ m ∧ m ≤ 100))]) s s₁ →
      Completes (exec (.thmSetLimits q) s) (((s₁.put .THM_LIMITS_WARN_C w).put .THM_LIMITS_THROT_C t).put .THM_LIMITS_STEP_MS m) q)

/-- Entries to and exits from the power states (R483, R484, R485, R486, R487, R488, R490, R491, R492, R493). -/
def Obligations.PowerStates : Prop :=
  (∀ (s : State), s.alive = true → s.idle (fun _ => false) = true → s.get .PWR_STATE_ENTERING = 0 → s.get .PWR_STATE_PS = 0 → s.isSet .PWR_CTL_AUTO_PS1 = true →
      exec (.idleTimeout) s = .next (s.put .PWR_STATE_PS 1)) ∧
  (∀ (s : State), s.alive = true → s.idle (fun _ => false) = true → s.get .PWR_STATE_ENTERING = 0 → s.get .PWR_STATE_PS = 1 → s.isSet .PWR_CTL_AUTO_PS2 = true →
      exec (.idleTimeout) s = .next (s.put .PWR_STATE_ENTERING 1)) ∧
  (∀ (s : State), s.get .PWR_STATE_PS = 1 →
      exec (.ps1Exit) s = .next ((s.put .PWR_STATE_PS 0).cancelEntry)) ∧
  (∀ (s u : State) (d : Drain), s.alive = true → s.idle (fun _ => false) = true → s.isSet .PWR_STATE_ENTERING = true → s.pwr.linkWait = false → u = (s.drain d).coh' (fun c => { c with pred := [] }) → u.pwr.waiters = [] →
      exec (.ps2EntryDone d) s = .next ((({ u with pwr := { u.pwr with waiters := [], woken := [] } } : State).put .PWR_STATE_PS 2).put .PWR_STATE_ENTERING 0)) ∧
  (∀ (s : State) (d : Drain), s.alive = true → s.idle (fun _ => false) = true → s.isSet .PWR_STATE_ENTERING = true → s.pwr.linkWait = false →
      ∃ t : State, exec (.ps2EntryDone d) s = .next t ∧ t.get .PWR_STATE_PS = 2 ∧ t.get .PWR_STATE_ENTERING = 0 ∧ t.pwr.waiters = [] ∧ t.coh.pred = [] ∧ t.coh.lc = []) ∧
  (∀ (s : State), s.get .PWR_STATE_PS = 2 →
      exec (.demandWake 0) s = .next (s.beginWake) ∧ exec (.demandWake 1) s = .next (s.wakeCluster) ∧
      exec (.demandWake 2) s = .next ({ s with pwr := { s.pwr with woken := linsert 30 s.pwr.woken } })) ∧
  (∀ (s : State), s.pwr.waking = false →
      s.beginWake.pwr.waking = true ∧ s.beginWake.get .PWR_STATE_PS2_WAKES = satAdd 0xFFFF (s.get .PWR_STATE_PS2_WAKES) 1 ∧ s.beginWake.get .PWR_LAST_WAKE_SRC = 7 ∧
        s.beginWake.get .PWR_LAST_WAKE_FROM = 2 ∧ s.beginWake.get .PWR_LAST_WAKE_AT = s.aonCount) ∧
  (∀ (s : State), s.get .PWR_STATE_PS = 2 → s.pwr.waking = true →
      exec (.wakeDone) s = .next (s.endWake)) ∧
  (∀ s : State, s.endWake.get .PWR_STATE_PS = 0 ∧ s.endWake.pwr.waking = false ∧ ∀ c < 16, (s.endWake.chan c).selfRefresh = false) ∧
  (∀ (s : State), s.pwr.linkWait = true →
      exec .ps3LinkWaitTimeout s = .next ((({ s with pwr := { s.pwr with linkWait := false } } : State).put .PWR_STATE_ENTERING 0).endKind (fun k => k == .ps3) stTimeout 0 0)) ∧
  (∀ (s : State) (d : Drain), s.pwr.linkWait = true → (∀ h < 8, s.get .HPT_HEAD_STS_LINK_UP h = 0) → s.idle (fun k => k == .ps3) = true →
      ∃ t : State, exec (.ps3Entry d) s = .next t ∧ t.get .PWR_STATE_PS = 3 ∧ t.pwr.linkWait = false ∧ t.get .CVN_LINK_STS_STATE 0 = 0 ∧ t.get .CVN_LINK_STS_STATE 1 = 0 ∧ t.coh.lc = []) ∧
  (∀ (s : State) (src : Fin 7) (n : Fin 32), s.get .PWR_STATE_PS = 3 → s.pwr.waking = false → s.pwr.stopped = false → src ≠ 0 → bit (s.get .PWR_WAKE_CFG_EN) (src.val - 1) = true →
      ∃ t : State, exec (.wakeSource src n) s = .next t ∧ t.pwr.waking = true ∧ t.get .PWR_LAST_WAKE_SRC = src.val ∧ t.get .PWR_LAST_WAKE_FROM = 3 ∧ t.get .PWR_LAST_WAKE_AT = s.aonCount) ∧
  (∀ (s : State) (r : Restore) (late : Bool), s.get .PWR_STATE_PS = 3 → s.pwr.waking = true → s.pwr.stopped = false →
      ∃ t : State, exec (.ps3ExitDone r late) s = .next t ∧ t.get .PWR_STATE_PS = 0 ∧ t.get .PWR_STATE_ENTERING = 0 ∧ t.pwr.waking = false ∧ t.get .HPT_DEV_STS_STATUS 0 = stOk)

/-- The thermal model, its calibration, the throttle and the shutdown (R498, R499, R500, R501, R502, R503, R504). -/
def Obligations.ThermalEvents : Prop :=
  (∀ (s : State) (p : List (Fin (2 ^ 24))), s.fabOn = true →
      ∃ t : State, exec (.thermalModelUpdate p) s = .next t ∧ (∀ d < 31, t.get .PWR_DOM_PWR_MW d = (p.getD d 0).val) ∧ t.get .THM_STS_HOTNODE = t.hottest ∧ t.get .THM_STS_TMAX = s16 (t.temp t.hottest) ∧ t.pg = s.pg) ∧
  (∀ (s : State) (l : List Int), s.fabOn = true →
      ∃ t : State, exec (.diodeCalibration l) s = .next t ∧ (∀ d < 24, t.get .THM_DIODE_T d = (l.getD d 0 % 65536).toNat) ∧
        t.get .THM_STS_HEALTHY = ((List.range 24).filter (fun d => t.isSet .THM_DIODE_HEALTHY d)).length ∧ t.get .THM_STS_MODEL = modelOf (t.get .THM_STS_HEALTHY) ∧
        t.pwr.ownSensor = decide (t.get .THM_STS_MODEL = 2)) ∧
  (∀ (s : State), s.alive = true → s.get .PWR_STATE_PS < 2 →
      ∃ t : State, exec .throttleStep s = .next t ∧ t.get .THM_STS_STEP = nextStep (s.get .THM_STS_STEP) (s.temp s.hottest) (s.get .THM_LIMITS_THROT_C) (s.get .THM_STS_MODEL == 2) ∧ t.pg = s.pg) ∧
  (∀ (s : State), s.pwr.stopped = false → s.boot.phase ≠ 0 → (s.get .PWR_STATE_PS = 3 ∨ 155 ≤ s.temp s.hottest) →
      ∃ t : State, exec .thermalShutdown s = .next t ∧ t.pwr.stopped = true ∧ t.pwr.trip = true) ∧
  (∀ (s : State) (v : Int), s.pwr.trip = true → v < 1920 →
      exec (.thermtripRelease v) s = .next ({ s with pwr := { s.pwr with trip := false } })) ∧
  (∀ (s : State) (v : Int), 1920 ≤ v →
      exec (.thermtripRelease v) s = .next (s)) ∧
  (∀ (s : State),
      exec (.sgTemperatureValueTimeout) s = .next ({ s with pwr := { s.pwr with ownSensor := true } }))

/-- Rails, the crystal and the PLLs (R10, R504, R558, R562, R565). -/
def Obligations.SupplyAndClockFailures : Prop :=
  (∀ (s : State) (rail : Fin 8) (l : List (Fin 16)) (mv : Fin 8192), s.boot.phase ≠ 0 → s.pwr.trip = false → rail.val ∉ [4, 6, 7] →
      ∃ t : State, exec (.supplyTrip rail l mv) s = .next t ∧ t.pwr.stopped = true ∧ t.get .PWR_RAIL_MON_MV rail.val = mv.val ∧ t.get .PWR_RAIL_MON_TRIP rail.val = 1) ∧
  (∀ (s u : State) (c : Fin 16) (mv : Fin 8192), s.boot.phase ≠ 0 → u = ((s.put .PWR_RAIL_MON_MV mv.val 4).put .PWR_RAIL_MON_TRIP 1 4).put .PWR_RAIL_MON_CHAN c.val 4 → u.inService c.val = true →
      exec (.supplyTrip 4 [c] mv) s = .next ((u.freeze c.val 6 (some (msgFatal bPwr 31 4 c.val)) []).setChan c.val { (u.freeze c.val 6 (some (msgFatal bPwr 31 4 c.val)) []).chan c.val with hold := some .always })) ∧
  (∀ (s : State), s.pwr.crystal = true →
      exec .crystalFailure s = .next (({ s with pwr := { s.pwr with crystal := false } } : State).report (msg1 bGlb 1 1))) ∧
  (∀ (s : State),
      exec (.pllLockLoss) s = .next (s.report (msgFatal bGlb 1 0)))

/-- Boots and resets end in the phase they are due, and engine and slice resets clear what they reset (R541, R547, R548, R550, R554, R564). -/
def Obligations.BootAndResets : Prop :=
  (∀ (s : State) (e : BootIn), s.boot.phase = 0 → s.pwr.trip = false →
      ∃ t : State, exec (.pwrokRise e) s = .next t ∧ t.boot.phase = (if e.rstLow then 1 else 3) ∧ t.pg.mem = [] ∧ t.pg.pages = [] ∧ t.coh.held = []) ∧
  (∀ (s : State) (cut : Fin 4), s.boot.phase ≠ 0 →
      ∃ t : State, exec (.pwrokFall cut) s = .next t ∧ t.boot.phase = 0 ∧ t.pg = State.reset.pg ∧ t.coh = State.reset.coh ∧ t.out = s.out ∧ t.now = s.now) ∧
  (∀ (s : State) (d : Drain) (cut : Fin 4), s.boot.phase = 3 → s.halt = none → s.pwr.stopped = false → s.get .PWR_STATE_PS ≠ 3 →
      ∃ t : State, exec (.sysRstAssert d cut) s = .next t ∧ t = s.warmDown d cut.val ∧ t.boot.phase = 2 ∧ t.coh.lc = [] ∧ t.pg.moves = []) ∧
  (∀ (s : State) (d : Drain) (cut : Fin 4), s.boot.phase = 3 → s.halt = none → s.pwr.stopped = false → s.get .PWR_STATE_PS = 3 →
      exec (.sysRstAssert d cut) s = .next ({ s.endOps with boot := { s.boot with phase := 2, from' := s.now, before := s.keepWords } })) ∧
  (∀ (s : State) (e : BootIn), s.boot.phase = 1 →
      ∃ t : State, exec (.sysRstDeassert e) s = .next t ∧ t.boot.phase = 3) ∧
  (∀ (s : State) (e : BootIn), s.boot.phase = 2 →
      ∃ t : State, exec (.sysRstDeassert e) s = .next t ∧ t.boot.phase = 3) ∧
  (∀ (s : State) (n : Fin 48), s.boot.phase = 3 → s.get .ENG_STS_STATE n.val = 0 →
      (∃ t : State, exec (.engineHang n none) s = .next t ∧ t.get .ENG_STS_STATE n.val = 1) ∧
      ∀ q, exec (.engineHang n (some q)) s = .next ((s.hangEngine n.val).reply q stFaulted 0 (s.get .FLT_SEQ_NEXT % 2 ^ 32) 0 [])) ∧
  (∀ (s : State) (n : Fin 48), s.get .ENG_STS_STATE n.val = 1 →
      ∃ t : State, exec (.engineReset n) s = .next t ∧ t.get .ENG_STS_STATE n.val = 0 ∧ t.pg = s.pg) ∧
  (∀ (s : State) (n : Fin 16) (d : Drain), s.boot.phase = 3 → s.halt = none → s.get .PWR_STATE_PS < 2 → s.coh.trk = [] → s.coh.twins = [] →
      ∃ t : State, exec (.sliceReset n d) s = .next t ∧ (∀ x ∈ t.coh.lc, t.home (x.1 / 64) ≠ n.val) ∧ t.get .PWR_SADDLE_STS_GEN = (s.get .PWR_SADDLE_STS_GEN + 1) % 2 ^ 32)

/-- The cvn commands complete with their effects (R402, R413, R416, R419, R420, R421). -/
def Obligations.CaravanCommands : Prop :=
  (∀ (q : Req) (s s₁ : State),
    let p := cvnPortOf q
    Served { op := 0x0B00, priv := 0, mctp := true, output := true, fields := [fld 0x10 1] } q (firstBad [(0x10, decide (p ≤ 1))]) s s₁ →
      Completes (exec (.cvnQuery q) s) s₁ q (s₁.word .CVN_LINK_STS_STATE p) 64 [(0, 8, s₁.word .CVN_PEER_ID_ID p), (8, 8, s₁.word .CVN_CNT_CHK_DROP p), (0x10, 8, s₁.word .CVN_LEND_STS_GRANTED p),
        (0x18, 8, s₁.word .CVN_BORROW_STS_HELD p), (0x20, 8, (s₁.port p).loanB.getD 0), (0x28, 8, match (s₁.port p).loanL with | some (id, _) => id | none => 0)]) ∧
  (∀ (q : Req) (s s₁ : State),
    let p := cvnPortOf q
    let a := par q 0x11 1
    Served { op := 0x0B01, priv := 2, fields := [fld 0x10 2] } q (firstBad [(0x10, decide (p ≤ 1)), (0x11, decide (a ≤ 3) && !(decide (2 ≤ a) && s.isSet .CVN_PORT_CFG_COMPAT p) && !(a == 2 && decide (2 ≤ (s.port p).badLanes.length)))]) s s₁ →
    a = 0 →
    s₁.get .CVN_LINK_STS_STATE p = 0 →
    (s₁.freeSlot).isSome = true →
      Starts (exec (.cvnLinkUp q) s) s₁ ((s₁.put .CVN_PORT_CFG_AUTO_UP 1 p).put .CVN_LINK_STS_STATE 1 p) q (.linkUp p 0)) ∧
  (∀ (q : Req) (s s₁ : State),
    let p := cvnPortOf q
    let a := par q 0x11 1
    Served { op := 0x0B01, priv := 2, fields := [fld 0x10 2] } q (firstBad [(0x10, decide (p ≤ 1)), (0x11, decide (a ≤ 3) && !(decide (2 ≤ a) && s.isSet .CVN_PORT_CFG_COMPAT p) && !(a == 2 && decide (2 ≤ (s.port p).badLanes.length)))]) s s₁ →
    a = 0 →
    s₁.get .CVN_LINK_STS_STATE p = 5 →
    (s₁.freeSlot).isSome = true →
      Starts (exec (.cvnLinkUp q) s) s₁ (s₁.put .CVN_PORT_CFG_AUTO_UP 1 p) q (.linkUp p 0) (some (stOk, 0, 0))) ∧
  (∀ (q : Req) (s s₁ : State),
    let p := cvnPortOf q
    let a := par q 0x11 1
    Served { op := 0x0B01, priv := 2, fields := [fld 0x10 2] } q (firstBad [(0x10, decide (p ≤ 1)), (0x11, decide (a ≤ 3) && !(decide (2 ≤ a) && s.isSet .CVN_PORT_CFG_COMPAT p) && !(a == 2 && decide (2 ≤ (s.port p).badLanes.length)))]) s s₁ →
    a ≠ 0 →
    s₁.get .CVN_LINK_STS_STATE p = 5 →
    (s₁.freeSlot).isSome = true →
      Starts (exec (.cvnLinkUp q) s) s₁ (if a = 1 then s₁.linkAsk p 0x10 0 else s₁.linkAsk p 0x11 (if a = 2 then 8 else 4)) q (.linkUp p a)) ∧
  (∀ (q : Req) (s s₁ : State),
    let p := cvnPortOf q
    Served { op := 0x0B02, priv := 2, fields := [fld 0x10 1, fbits 0x11 0 1] } q (firstBad [(0x10, decide (p ≤ 1))]) s s₁ →
    s₁.pg.pages.any (fun x => x.2.pl.tier == 4 && locPort x.2.pl.ma == p && x.2.pl.twk != 1) = false →
    s₁.get .CVN_LINK_STS_STATE p = 1 →
      Completes (exec (.cvnLinkDown q) s) ((s₁.put .CVN_PORT_CFG_AUTO_UP 0 p).put .CVN_LINK_STS_STATE 0 p) q) ∧
  (∀ (q : Req) (s s₁ : State),
    let p := cvnPortOf q
    Served { op := 0x0B02, priv := 2, fields := [fld 0x10 1, fbits 0x11 0 1] } q (firstBad [(0x10, decide (p ≤ 1))]) s s₁ →
    (s₁.pg.pages.any (fun x => x.2.pl.tier == 4 && locPort x.2.pl.ma == p && x.2.pl.twk != 1) = false ∨ parBit q 0x11 0 = true) →
    s₁.get .CVN_LINK_STS_STATE p = 5 →
      Completes (exec (.cvnLinkDown q) s) ((((s₁.put .CVN_PORT_CFG_AUTO_UP 0 p).linkCtl p 0x20 0).goDown p).put .CVN_LINK_STS_STATE 0 p) q) ∧
  (∀ (q : Req) (s s₁ : State) (u : State),
    let p := cvnPortOf q
    Served { op := 0x0B03, priv := 2, fields := [fld 0x10 1, fbits 0x11 0 2, fld 0x12 1, fbits 0x14 0 31] } q (firstBad [(0x10, decide (p ≤ 1)), (0x12, decide (par q 0x12 1 ≤ 50))]) s s₁ →
    u = (((s₁.put .CVN_PORT_CFG_LEND_EN (b2n (parBit q 0x11 0)) p).put .CVN_PORT_CFG_BORROW_EN (b2n (parBit q 0x11 1)) p).put .CVN_PORT_CFG_LEND_PCT (par q 0x12 1) p).put .CVN_BORROW_MAX_MAX (par q 0x14 4) p →
      Completes (exec (.cvnLendCfg q) s) (u.askBack p ((u.used 257 - par q 0x12 1 * (u.get .XLT_CAP_COUNT 3 + u.used 257) / 100 + 15) / 16)) q) ∧
  (∀ (q : Req) (s s₁ : State),
    let p := cvnPortOf q
    let mode := par q 0x11 1
    Served { op := 0x0B04, priv := 2, fields := [fld 0x10 2] ++ (if mode = 1 then [fld 0x18 4] else []) } q (firstBad [(0x10, decide (p ≤ 1)), (0x11, decide (mode ≤ 2))]) s s₁ →
    mode = 0 →
    (s₁.port p).loanB.isSome = true →
    s₁.pg.pages = [] →
    (s₁.freeSlot).isSome = true →
      Starts (exec (.cvnReclaim q) s) s₁ ((((s₁.setPort p { s₁.port p with closing := true }).giveBack p (s₁.port p).blocks.length).recallPages p).returnEmpty p) q (.reclaim p)) ∧
  (∀ (q : Req) (s s₁ : State),
    let p := cvnPortOf q
    let mode := par q 0x11 1
    Served { op := 0x0B04, priv := 2, fields := [fld 0x10 2] ++ (if mode = 1 then [fld 0x18 4] else []) } q (firstBad [(0x10, decide (p ≤ 1)), (0x11, decide (mode ≤ 2))]) s s₁ →
    mode = 1 →
    (s₁.port p).loanL.isSome = true →
      Completes (exec (.cvnReclaim q) s) (s₁.askBack p (par q 0x18 4)) q) ∧
  (∀ (q : Req) (s s₁ : State),
    let p := cvnPortOf q
    let mode := par q 0x11 1
    Served { op := 0x0B04, priv := 2, fields := [fld 0x10 2] ++ (if mode = 1 then [fld 0x18 4] else []) } q (firstBad [(0x10, decide (p ≤ 1)), (0x11, decide (mode ≤ 2))]) s s₁ →
    mode = 2 →
    (s₁.port p).loanL.isSome = true →
    s₁.portUp p = false →
      Completes (exec (.cvnReclaim q) s) (s₁.freeLoan p) q) ∧
  (∀ (q : Req) (s s₁ : State),
    let p := cvnPortOf q
    Served { op := 0x0B05, priv := 2, fields := [fld 0x10 1, fbits 0x11 0 1] } q (firstBad [(0x10, decide (p ≤ 1))]) s s₁ →
    (s₁.get .CVN_LINK_STS_STATE p = 0 ∨ s₁.get .CVN_LINK_STS_STATE p = 7) →
      Completes (exec (.cvnCompat q) s) (s₁.put .CVN_PORT_CFG_COMPAT (b2n (parBit q 0x11 0)) p) q)

/-- Received bales are counted, dropped or taken as chapter 13 says (R386, R387, R388, R390, R391, R393, R394, R397, R400, R401, R403, R406). -/
def Obligations.ReceivedBales : Prop :=
  (∀ (s : State) (p : Fin 2) (raw : List Byte) (bad : Option Nat) (x : State × Option (BaleHead × List Byte)) (h : BaleHead) (payload : List Byte), s.halt = none → s.lively p.val = true → x = s.rxBytes p.val raw → x.2 = some (h, payload) → h.typ = 1 →
      exec (.baleDataRx p raw bad) s = .next (x.1.rxData p.val h payload bad)) ∧
  (∀ (s : State) (p : Fin 2) (raw : List Byte) (bad : Option Nat) (x : State × Option (BaleHead × List Byte)) (h : BaleHead) (payload : List Byte), s.halt = none → s.lively p.val = true → x = s.rxBytes p.val raw → x.2 = some (h, payload) → h.typ = 2 →
      exec (.baleReplayRx p raw bad) s = .next (x.1.rxReplay p.val h bad)) ∧
  (∀ (s : State) (p : Fin 2) (raw : List Byte) (bad : Option Nat) (x : State × Option (BaleHead × List Byte)) (h : BaleHead) (payload : List Byte), s.halt = none → s.lively p.val = true → x = s.rxBytes p.val raw → x.2 = some (h, payload) → h.typ = 0 →
      exec (.baleIdleRx p raw bad) s = .next (x.1.rxHead p.val h bad)) ∧
  (∀ (s : State) (p : Fin 2) (raw : List Byte) (bad : Option Nat) (x : State × Option (BaleHead × List Byte)) (h : BaleHead) (payload : List Byte) (ns : Nat), s.halt = none → s.lively p.val = true → x = s.rxBytes p.val raw → x.2 = some (h, payload) → h.typ = 3 →
      exec (.baleLinkctlRx p raw bad ns) s = .next (x.1.rxLinkctl p.val h payload bad ns)) ∧
  (∀ (s : State) (p : Fin 2) (raw : List Byte) (bad : Option Nat) (x : State × Option (BaleHead × List Byte)) (h : BaleHead) (payload : List Byte) (ns : Nat), s.halt = none → (s.get .CVN_LINK_STS_STATE p.val = 2 ∨ s.get .CVN_LINK_STS_STATE p.val = 3) → x = s.rxBytes p.val raw → x.2 = some (h, payload) → h.typ = 3 →
      exec (.baleLinkctlRx p raw bad ns) s = .next (x.1.rxLinkctl p.val h payload bad ns)) ∧
  (∀ (s : State) (p : Fin 2) (raw : List Byte) (bad : Option Nat) (ns : Nat) (x : State × Option (BaleHead × List Byte)), s.halt = none → s.lively p.val = true → x = s.rxBytes p.val raw → x.2 = none →
      exec (.baleDataRx p raw bad) s = .next (x.1) ∧ exec (.baleIdleRx p raw bad) s = .next (x.1) ∧
      exec (.baleReplayRx p raw bad) s = .next (x.1) ∧ exec (.baleLinkctlRx p raw bad ns) s = .next (x.1)) ∧
  (∀ (s : State) (p : Nat) (raw : List Byte), raw.length ≠ 256 →
      s.rxBytes p raw = (s.dropBale p, none)) ∧
  (∀ (s u : State) (p : Nat), s.lively p = true → (s.port p).dropping = false → u = (s.bump .CVN_CNT_CHK_DROP 0xFFFF p).report (msg1 bCvn p 0) →
      s.dropBale p = (u.setPort p { u.port p with dropping := true }).health p 0 1) ∧
  (∀ (s : State) (p : Nat) (h : BaleHead) (payload : List Byte) (bad : Option Nat), (s.port p).dropping = true →
      s.rxData p h payload bad = s) ∧
  (∀ (s u : State) (p : Nat) (h : BaleHead) (payload : List Byte) (bad : Option Nat), (s.port p).dropping = false → (s.port p).bodyOf h payload = none → u = (s.bump .CVN_CNT_AUTH_DROP 0xFFFF p).report (msg1 bCvn p 1) →
      s.rxData p h payload bad = (u.setPort p { u.port p with dropping := true }).strike p) ∧
  (∀ (s : State) (p : Nat) (h : BaleHead) (payload body : List Byte) (bad : Option Nat), (s.port p).dropping = false → (s.port p).bodyOf h payload = some body → h.pool = false →
      s.rxData p h payload bad = s.acceptData p h (isVoid h payload) body bad) ∧
  (∀ (s u v : State) (p : Nat) (h : BaleHead) (body : List Byte) (bad : Option Nat), h.enc = false → (s.port p).rxAt = (s.port p).rcvd → u = ((s.setPort p { s.port p with rxAt := (s.port p).rxAt + 1, rcvd := (s.port p).rcvd + 1 }).count (.port p) 0x02 1 none).takeBody p h body → u.lively p = true → v = u.rxHead p h bad → v.keyWorn p = false →
      s.acceptData p h false body bad = v) ∧
  (∀ (s : State) (p back : Nat) (h : BaleHead) (bad : Option Nat), back = ((s.port p).rcvd + 4096 - h.xseq) % 4096 → back ≤ 511 → back ≤ (s.port p).rcvd →
      s.rxReplay p h bad = (s.setPort p { s.port p with dropping := false, rxAt := (s.port p).rcvd - back }).rxHead p h bad) ∧
  (∀ (s : State) (p : Nat) (h : BaleHead) (payload : List Byte) (bad : Option Nat) (ns : Nat), s.lively p = false → h.lcode = 2 →
      s.rxLinkctl p h payload bad ns = s.identify p (leNat (payload.take 8))) ∧
  (∀ (s : State) (p id : Nat), s.get .CVN_LINK_STS_STATE p = 2 → id ≠ Config.deviceId →
      s.identify p id = (((s.put .CVN_PEER_ID_ID id p).put .CVN_LINK_STS_LEADER (b2n (decide (Config.deviceId < id))) p).put .CVN_LINK_STS_STATE 3 p)) ∧
  (∀ (s : State) (p : Nat), s.get .CVN_LINK_STS_STATE p = 2 →
      s.identify p Config.deviceId = (s.put .CVN_PEER_ID_ID Config.deviceId p).trainFail p) ∧
  (∀ (s : State) (p : Nat) (h : BaleHead) (payload : List Byte) (bad : Option Nat) (ns : Nat), s.lively p = false → h.lcode = 3 →
      s.rxLinkctl p h payload bad ns = s.linkCtl p 4 h.larg) ∧
  (∀ (s u : State) (p : Nat) (h : BaleHead) (payload : List Byte) (bad : Option Nat) (ns : Nat), s.lively p = true → h.lcode = 0x10 → u = s.rxHead p h bad → u.portUp p = true → (u.port p).linkOp = none →
      s.rxLinkctl p h payload bad ns = u.linkAgree p 0x10 h.larg)

/-- Detection, training, replay timers, lanes and losses of a Caravan link (R392, R399, R400, R403, R404, R405, R406, R407, R419). -/
def Obligations.LinkEvents : Prop :=
  (∀ (s : State) (p : Fin 2), s.halt = none → s.get .CVN_LINK_STS_STATE p.val = 1 →
      (∃ t : State, exec (.cvnDetectPoll p true) s = .next t ∧ t.get .CVN_LINK_STS_STATE p.val = 2 ∧ t.get .CVN_LINK_STS_COMPAT_ACT p.val = s.get .CVN_PORT_CFG_COMPAT p.val ∧
        t.get .CVN_LINK_STS_FAILED_LANE p.val = 15 ∧ t.get .CVN_LINK_STS_SPARE_USED p.val = 0 ∧ (t.port p.val).badLanes = []) ∧
      exec (.cvnDetectPoll p false) s = .next (s.put .CVN_LINK_STS_COMPAT_ACT (s.get .CVN_PORT_CFG_COMPAT p.val) p.val)) ∧
  (∀ (s : State) (p : Fin 2) (fast : Bool), s.halt = none → s.get .CVN_LINK_STS_STATE p.val = 4 → (s.port p.val).keyed = true → (s.port p.val).peerSync.isSome = true → (s.port p.val).waits = [] → (s.port p.val).giving = [] →
      ∃ t : State, exec (.cvnTrainDone p true fast []) s = .next t ∧ t.get .CVN_LINK_STS_STATE p.val = 5 ∧ t.get .CVN_LINK_STS_WIDTH p.val = 0 ∧ t.get .CVN_LINK_STS_SPARE_USED p.val = 0 ∧
        t.get .CVN_LINK_STS_RATE p.val = b2n (fast && s.isSet .CVN_PORT_CFG_MAXRATE p.val && !s.isSet .CVN_LINK_STS_COMPAT_ACT p.val)) ∧
  (∀ (s : State) (p : Fin 2) (bad : Option Nat), s.halt = none → s.portUp p.val = true → (s.port p.val).unacked ≠ [] →
      exec (.replayTimerExpire p bad) s = .next (s.replayStart p.val bad)) ∧
  (∀ (s : State) (p : Fin 2), s.get .CVN_LINK_STS_STATE p.val = 2 →
      exec (.linkctlRepeat p) s = .next ((s.linkCtl p.val 0x01 1).linkCtl p.val 0x02 0 identBody)) ∧
  (∀ (s : State) (p : Fin 2), s.get .CVN_LINK_STS_STATE p.val = 3 →
      exec (.linkctlRepeat p) s = .next (s.linkCtl p.val 0x03 ((s.port p.val).rtts.length % 256))) ∧
  (∀ (s : State) (p : Fin 2) (code arg : Nat), s.get .CVN_LINK_STS_STATE p.val = 5 → (s.port p.val).linkOp = some (code, arg, true) →
      exec (.linkctlRepeat p) s = .next (s.linkCtl p.val code arg)) ∧
  (∀ (s : State) (p : Fin 2) (code arg : Nat) (mine : Bool) (bad : Option Nat), s.get .CVN_LINK_STS_STATE p.val = 6 → s.halt = none → (s.port p.val).linkOp = some (code, arg, mine) →
      exec (.retrainDone p bad) s = .next ((if mine then s.linkCtl p.val 0x1A code else s).linkDone p.val bad)) ∧
  (∀ (s : State) (p : Fin 2) (lane : Fin 8), s.halt = none → s.portUp p.val = true → (s.port p.val).badLanes = [] →
      exec (.laneFail p lane.castSucc) s = .next (((s.excludeLane p.val lane.val).report (msg2 bCvn p.val 2 lane.val)).linkAsk p.val 0x12 lane.val)) ∧
  (∀ (s : State) (p : Fin 2), s.portUp p.val = true →
      ∃ t : State, exec (.symbolLockTimeout p) s = .next t ∧ t = s.goDown p.val ∧ t.get .CVN_LINK_STS_STATE p.val = 7) ∧
  (∀ (s : State) (p : Fin 2), s.portUp p.val = true → s.isSet .CVN_LINK_STS_COMPAT_ACT p.val = true → (s.port p.val).sendQ ≠ [] →
      ∃ t : State, exec (.compatCreditTimeout p) s = .next t ∧ t.get .CVN_LINK_STS_STATE p.val = 7)

/-- The lender answers the messages of a borrower (R409, R410, R411, R413, R414, R415, R416, R418). -/
def Obligations.LenderMessages : Prop :=
  (∀ (s u : State) (p : Fin 2) (y : CvnMsg × State) (parity : Bool) (hint : Nat), s.halt = none → s.portUp p.val = true → s.nextMsg p.val 2 = some y → u = y.2.wakeMem.underFor { master := some (mCvn p.val), priv := 3, lpn := lpnEnd, cls := y.2.get .CVN_PORT_CFG_LCLASS p.val, tier := 6 } 0 →
      exec (.caravanWrite p parity hint) s = .next ((u.loanWrite p.val hint parity y.1).uncharged)) ∧
  (∀ (s u : State) (p : Fin 2) (y : CvnMsg × State) (parity : Bool) (hint : Nat), s.halt = none → s.portUp p.val = true → s.nextMsg p.val 3 = some y → u = y.2.wakeMem.underFor { master := some (mCvn p.val), priv := 3, lpn := lpnEnd, cls := y.2.get .CVN_PORT_CFG_LCLASS p.val, tier := 6 } 0 →
      exec (.twrite p parity hint) s = .next ((u.loanWrite p.val hint parity y.1).uncharged)) ∧
  (∀ (s u : State) (p : Fin 2) (y : CvnMsg × State) (errs : List (Nat × ReadErr)), s.halt = none → s.portUp p.val = true → s.nextMsg p.val 1 = some y → u = y.2.wakeMem.underFor { master := some (mCvn p.val), priv := 3, lpn := lpnEnd, cls := y.2.get .CVN_PORT_CFG_LCLASS p.val, tier := 6 } 0 →
      exec (.caravanRead p errs) s = .next ((u.loanRead p.val errs y.1).uncharged)) ∧
  (∀ (s u : State) (p : Fin 2) (y : CvnMsg × State) (id : Fin (2 ^ 64)) (hint : Nat), s.halt = none → s.portUp p.val = true → s.nextMsg p.val 4 = some y → u = y.2.wakeMem.underFor { master := some (mCvn p.val), priv := 3, lpn := lpnEnd, cls := y.2.get .CVN_PORT_CFG_LCLASS p.val, tier := 6 } 0 →
      exec (.grow p id hint) s = .next ((u.growFor p.val hint id.val y.1).uncharged)) ∧
  (∀ (s u : State) (p : Fin 2) (y : CvnMsg × State), s.halt = none → s.portUp p.val = true → s.nextMsg p.val 5 = some y → u = y.2.wakeMem.underFor { master := some (mCvn p.val), priv := 3, lpn := lpnEnd, cls := y.2.get .CVN_PORT_CFG_LCLASS p.val, tier := 6 } 0 →
      exec (.return p) s = .next ((u.returnFor p.val y.1).uncharged)) ∧
  (∀ (s : State) (p hint pos : Nat) (m : CvnMsg) (data : List Byte) (b : LentBlock), payloadOf m (m.lloc % 16 * 256 + m.off) = some (data, []) → loanRange (s.port p) m.lloc m.off data.length = some (b, pos) → m.rawf = false →
      s.loanWrite p hint false m = ((linesAt pos data.length).foldl (fun (s : State) i => s.loanLine p b pos data [] m.poison i) s).sendMsg p { op := 0x82, tid := m.tid, status := 0 }) ∧
  (∀ (s : State) (p hint : Nat) (m : CvnMsg) (data : List Byte) (tags : List Nat), payloadOf m (m.lloc % 16 * 256 + m.off) = some (data, tags) → loanRange (s.port p) m.lloc m.off data.length = none →
      s.loanWrite p hint false m = (s.sendMsg p { op := 0x82, tid := m.tid, status := 1 }).protoErr p) ∧
  (∀ (s : State) (p hint : Nat) (m : CvnMsg), s.loanWrite p hint true m = (s.report (msg1 bCvn p 6)).sendMsg p { op := 0x82, tid := m.tid, status := 3 }) ∧
  (∀ (s : State) (p pos : Nat) (m : CvnMsg) (b : LentBlock) (errs : List (Nat × ReadErr)) (x : State × List LineOut), loanRange (s.port p) m.lloc m.off m.arg = some (b, pos) → b.rawf = false → x = s.loanReads p b errs (linesAt pos m.arg) → x.2.any (fun r => r.out == .uncorrectable || r.out == .address) = false →
      s.loanRead p errs m = (x.1.eccSay x.2).sendMsg p { op := 0x81, tid := m.tid, poison := x.2.any (fun r => r.out == .poison), status := 0, data := ((((linesAt pos m.arg).zip x.2).flatMap (fun y =>
          fixBytes (lineBytes (tgetD 0 (64 * b.block + y.1) ((x.1.eccSay x.2).port p).store)) y.2.left)).drop (pos % 64)).take m.arg }) ∧
  (∀ (s : State) (p : Nat) (m : CvnMsg) (errs : List (Nat × ReadErr)), loanRange (s.port p) m.lloc m.off m.arg = none →
      s.loanRead p errs m = (s.sendMsg p { op := 0x81, tid := m.tid, status := 1 }).protoErr p) ∧
  (∀ (s : State) (p hint id : Nat) (m : CvnMsg) (nums : List Nat) (x : State × Nat), s.keptAt p m.tid = none → blocksOf m = some nums → x = s.grantBlocks p hint nums 0 → (x.1.port p).loanL.isSome = true → 0 < x.2 →
      s.growFor p hint id m = (x.1.keep p m.tid 0 x.2).sendMsg p { op := 0x84, tid := m.tid, status := 0, arg := x.2 }) ∧
  (∀ (s : State) (p hint id st n : Nat) (m : CvnMsg), s.keptAt p m.tid = some (st, n) →
      s.growFor p hint id m = s.sendMsg p { op := 0x84, tid := m.tid, status := st, arg := n } ∧ s.returnFor p m = s.sendMsg p { op := 0x85, tid := m.tid, status := st }) ∧
  (∀ (s u : State) (p : Nat) (m : CvnMsg) (b : LentBlock), s.keptAt p m.tid = none → blocksOf m = some [b.block] → (s.port p).lent = [b] → u = (s.freeBlock p b).put .CVN_LEND_STS_ASKED ((s.freeBlock p b).get .CVN_LEND_STS_ASKED p - 1) p → (u.port p).lent = [] →
      s.returnFor p m = ((u.setPort p { u.port p with loanL := none }).keep p m.tid 0 0).sendMsg p { op := 0x85, tid := m.tid, status := 0 })

/-- The borrower takes the answers of its lender, and loses a loan, as chapter 13 says (R308, R400, R402, R410, R411, R412, R414, R415, R416, R417, R418). -/
def Obligations.BorrowerMessages : Prop :=
  (∀ (s u : State) (p : Fin 2) (y : CvnMsg × State) (w : CvnWait), s.halt = none → s.portUp p.val = true → s.nextMsg p.val 130 = some y → u = y.2.wakeMem.underFor { master := some (mCvn p.val), priv := 3, lpn := lpnEnd, cls := y.2.get .CVN_PORT_CFG_LCLASS p.val, tier := 6 } 0 → u.waitOf p.val y.1.tid (fun op => op == 2 || op == 3) = some w → y.1.status ≠ 3 →
      exec (.wack p) s = .next ((u.wackFor p.val y.1 w).uncharged)) ∧
  (∀ (s : State) (p : Nat) (m : CvnMsg) (w : CvnWait), w.use ≠ 2 → m.status = 0 →
      s.wackFor p m w = s.waitDone p m.tid) ∧
  (∀ (s : State) (p : Nat) (m : CvnMsg) (w : CvnWait), w.use = 2 → m.status = 0 → s.coh.twins.any (fun t => t.sector == w.arg && t.sent == some w.tid) = true →
      s.wackFor p m w = (s.twinAcked w.arg).waitDone p m.tid) ∧
  (∀ (s u v : State) (p : Fin 2) (y : CvnMsg × State) (w : CvnWait) (c : CvnPort), s.halt = none → s.portUp p.val = true → s.nextMsg p.val 132 = some y → u = y.2.wakeMem.underFor { master := some (mCvn p.val), priv := 3, lpn := lpnEnd, cls := y.2.get .CVN_PORT_CFG_LCLASS p.val, tier := 6 } 0 → u.waitOf p.val y.1.tid (· == 4) = some w → y.1.status ≠ 3 → v = u.waitDone p.val y.1.tid → c = { v.port p.val with blocks := (v.port p.val).blocks ++ w.nums.take y.1.arg } →
      exec (.grant p) s = .next ((v.setPort p.val { c with loanB := if heldBlocks c = 0 then none else c.loanB }).uncharged)) ∧
  (∀ (s u : State) (p : Fin 2) (y : CvnMsg × State) (w : CvnWait), s.halt = none → s.portUp p.val = true → s.nextMsg p.val 133 = some y → u = y.2.wakeMem.underFor { master := some (mCvn p.val), priv := 3, lpn := lpnEnd, cls := y.2.get .CVN_PORT_CFG_LCLASS p.val, tier := 6 } 0 → u.waitOf p.val y.1.tid (· == 5) = some w → y.1.status ≠ 3 →
      exec (.rack p) s = .next (((u.waitDone p.val y.1.tid).closeLoan p.val).uncharged)) ∧
  (∀ (s u : State) (p : Fin 2) (y : CvnMsg × State) (w : CvnWait) (f : Fetch), s.halt = none → s.portUp p.val = true → s.nextMsg p.val 129 = some y → u = y.2.wakeMem.underFor { master := some (mCvn p.val), priv := 3, lpn := lpnEnd, cls := y.2.get .CVN_PORT_CFG_LCLASS p.val, tier := 6 } 0 → u.waitOf p.val y.1.tid (· == 1) = some w → y.1.status ≠ 3 →
      exec (.rdata p f) s = .next ((u.lentAnswer p.val f y.1 w).uncharged)) ∧
  (∀ (s u : State) (p : Fin 2) (y : CvnMsg × State) (w : CvnWait) (f : Fetch), s.halt = none → s.portUp p.val = true → s.nextMsg p.val 129 = some y → u = y.2.wakeMem.underFor { master := some (mCvn p.val), priv := 3, lpn := lpnEnd, cls := y.2.get .CVN_PORT_CFG_LCLASS p.val, tier := 6 } 0 → u.waitOf p.val y.1.tid (· == 1) = some w → y.1.status = 3 →
      exec (.rdata p f) s = .next ((u.resend p.val w).uncharged)) ∧
  (∀ (s u v : State) (p : Nat) (f : Fetch) (m : CvnMsg) (w : CvnWait) (t : Trk), u = s.waitDone p m.tid → u.trkOf w.arg = some t → m.poison = true → v = u.coh' (fun c => { c with suspects := c.suspects.filter (fun x => x.1 != w.arg) }) →
      s.lentAnswer p f m w = ((v.putTrk w.arg { t with lender := none }).readEnds w.arg (.poison 0)).settle (u.home (w.arg / 64))) ∧
  (∀ (s : State) (p : Fin 2) (tid : Fin 65536) (w : CvnWait), s.halt = none → s.portUp p.val = true → s.waitOf p.val tid.val (fun _ => true) = some w → w.tries < 3 →
      exec (.messageResendTimeout p tid) s = .next (s.resend p.val w)) ∧
  (∀ (s : State) (p : Fin 2) (tid : Fin 65536) (w : CvnWait), s.halt = none → s.portUp p.val = true → s.waitOf p.val tid.val (fun _ => true) = some w → 3 ≤ w.tries →
      exec (.messageResendTimeout p tid) s = .next (s.goDown p.val)) ∧
  (∀ (s u : State) (p : Fin 2) (y : CvnMsg × State), s.halt = none → s.portUp p.val = true → s.nextMsg p.val 8 = some y → u = y.2.wakeMem.underFor { master := some (mCvn p.val), priv := 3, lpn := lpnEnd, cls := y.2.get .CVN_PORT_CFG_LCLASS p.val, tier := 6 } 0 →
      exec (.note p) s = .next ((u.lenderBad p.val y.1.lloc).uncharged)) ∧
  (∀ (s : State) (p lloc v : Nat), tget lloc (s.port p).uses = some v → (s.page (v / 2)).pl.twk = 1 →
      s.lenderBad p lloc = s.queueRepair (v / 2)) ∧
  (∀ (s u : State) (p : Fin 2) (y : CvnMsg × State), s.halt = none → s.portUp p.val = true → s.nextMsg p.val 9 = some y → u = y.2.wakeMem.underFor { master := some (mCvn p.val), priv := 3, lpn := lpnEnd, cls := y.2.get .CVN_PORT_CFG_LCLASS p.val, tier := 6 } 0 →
      exec (.reclaim p) s = .next ((((u.giveBack p.val (y.1.arg - (heldBlocks (u.port p.val) - (u.port p.val).blocks.length))).recallPages p.val).returnEmpty p.val).uncharged)) ∧
  (∀ (s : State) (p : Fin 2) (y : CvnMsg × State), (s.port p.val).keyed = true → s.sessionMsg p.val 6 = some y → y.1.data.length = 16 →
      exec (.sync p) s = .next (y.2.compareLoans p.val (leNat (y.1.data.take 8)) (leNat (y.1.data.drop 8)))) ∧
  (∀ (s u : State) (p asB asL : Nat), u = s.setPort p { s.port p with peerSync := some (asB, asL) } → (u.port p).loanB = none → (u.port p).loanL = none →
      s.compareLoans p asB asL = u) ∧
  (∀ (s u : State) (p asB asL id : Nat), u = s.setPort p { s.port p with peerSync := some (asB, asL) } → (u.port p).loanB = some id → id ≠ asL → ((u.loseLoan p).port p).loanL = none →
      s.compareLoans p asB asL = u.loseLoan p) ∧
  (∀ (s : State) (p : Fin 2) (y : CvnMsg × State) (reply : List Byte), s.sessionMsg p.val 7 = some y → reply ≠ [] →
      exec (.caravanSpdm p 0 reply) s = .next (y.2.sendMsg p.val { op := 7, data := reply.take 4608 }) ∧
      exec (.caravanSpdm p 0 []) s = .next (y.2) ∧ exec (.caravanSpdm p 1 []) s = .next (y.2.installKeys p.val)) ∧
  (∀ (s : State) (p : Fin 2), s.halt = none → s.portUp p.val = false → (s.port p.val).loanB.isSome = true →
      exec (.loanLost p) s = .next (s.loseLoan p.val)) ∧
  (∀ (s u : State) (p : Fin 2) (line : LineNo) (t : Trk), s.halt = none → s.portUp p.val = false → (s.port p.val).held.contains line.val = true → u = s.setPort p.val { s.port p.val with held := (s.port p.val).held.filter (fun l => l != line.val), waits := (s.port p.val).waits.filter (fun w => !(w.use == 0 && w.arg == line.val)) } → u.trkOf line.val = some t → t.req.head.isSome = true →
      exec (.loanHoldTimeout p line) s = .next ((u.readEnds line.val (.poison 0)).settle (u.home (line.val / 64))))

/-- A step runs the command at the front of the queue (R98, R105). -/
def Obligations.StepRunsTheFrontCommand : Prop :=
  ∀ (s : State) (c : Instr) (rest : List Instr), s.pending = c :: rest →
      step s = exec c { s with pending := rest }

/-- On an empty queue a step lets 1 µs pass (the choice of the model, log 1) (R98, R341, R391). -/
def Obligations.AnEmptyQueueLetsTimePass : Prop :=
  (∀ (s : State), s.pending = [] →
      step s = .next s.tickLinks) ∧
  (∀ (s : State), (∀ p < 2, s.get .CVN_LINK_STS_STATE p ≠ 4 ∧ s.portUp p = false) →
      s.tickLinks = s.countCycles.tick) ∧
  (∀ (s : State), s.portUp 0 = true → s.portUp 1 = true →
      s.tickLinks = (s.countCycles.tick.sendIdle 0).sendIdle 1) ∧
  (∀ (s : State), (∀ c < 16, s.chState c ≠ 2 ∧ s.chState c ≠ 4) →
      s.tick = { s with now := s.now + 1000 }) ∧
  (∀ (s : State) (c : Nat), c < 16 → s.chState c = 2 → (∀ d < 16, d ≠ c → s.chState d ≠ 2 ∧ s.chState d ≠ 4) →
      s.tick = ({ s with now := s.now + 1000 } : State).runSlots c (s.slotsPerUs c))

/-- The registers hold the values of the Reset columns after a cold reset (R18, R60, R85, R94, R239, R240, R258, R322, R350, R469, R509, R541). -/
def Obligations.RegistersAtReset : Prop :=
  (∀ h < 8, State.reset.get .HPT_CANARY_CANARY h = 0x4E580960 ∧ State.reset.get .HPT_DEV_STS_STATUS h = stPending ∧ State.reset.get .HPT_DEV_STS_HEAD h = h ∧ State.reset.get .HPT_TAG_CTL_MAXTAG h = 64 ∧ State.reset.get .HPT_HEAD_STS_LINK_UP h = 0) ∧
  (∀ h < 8, ∀ r < 64, State.reset.get .HPT_RING_CFG_SQLOG2 h r = 4 ∧ State.reset.get .HPT_RING_CFG_CQLOG2 h r = 4 ∧ State.reset.get .HPT_RING_STS_PHASE h r = 1 ∧ State.reset.get .HPT_RING_STS_STATE h r = 0) ∧
  (∀ n < 16, State.reset.get .COH_BI_CFG_BI_TMO n = 2000 ∧ State.reset.get .COH_BI_CFG_BI_MAX n = 64 ∧ State.reset.get .COH_SPEC_CTL_MAXOUT n = 16 ∧ State.reset.get .COH_TWIN_CFG_TWIN_TMO n = 32 ∧ State.reset.get .CDC_CTL_VERIFY n = 1) ∧
  (State.reset.get .CDC_TRAIN_CTL_SAMPLES = 2048 ∧ State.reset.get .XLT_TIER_CTL_EPOCH_MS = 64 ∧ State.reset.get .XLT_TIER_CTL_COLD_EPOCHS = 4096 ∧ State.reset.get .XLT_TIER_CTL_INC = 1 ∧ State.reset.get .XLT_TIER_CTL_WINC = 2 ∧ State.reset.get .XLT_BUDGET_AMBER_PCT = 10 ∧ State.reset.get .XLT_BUDGET_RED_PCT = 3 ∧ State.reset.get .SEC_CTL_RKEY = 4 ∧ State.reset.get .ECC_MARK_CFG_MARK_THR = 4 ∧ State.reset.get .ECC_MARK_CFG_MARK_WIN = 10 ∧ State.reset.get .MEM_GLB_GRAIN = 3) ∧
  (∀ c < 16, State.reset.get .MEM_CH_STS_STATE c = 0 ∧ State.reset.get .MEM_TRN_CTL_RETRAIN_S c = 900 ∧ State.reset.get .MEM_REF_CTL_HOT_C c = 85 ∧ State.reset.get .MEM_REF_CTL_CRIT_C c = 95) ∧
  (∀ p < 2, State.reset.get .CVN_LINK_STS_STATE p = 0 ∧ State.reset.get .CVN_PORT_CFG_REPLAY_MAX p = 8 ∧ State.reset.get .CVN_PORT_CFG_LOST_S p = 10 ∧ State.reset.get .CVN_PORT_CFG_HOLD_MS p = 2) ∧
  (∀ n < 32, State.reset.get .SLT_SG_LIM_ILIM n = 64 ∧ State.reset.get .SLT_SG_LIM_RETRY_MAX n = 3 ∧ State.reset.get .SLT_SG_LIM_TLIM n = 150 ∧ State.reset.get .SLT_SG_MODEL_R1 n = 150 ∧ State.reset.get .SLT_SG_MODEL_R2 n = 400 ∧ State.reset.get .SLT_SG_STS_STATE n = 0) ∧
  (State.reset.get .FLT_CTL_GRACE_US = 2000 ∧ State.reset.get .FLT_SEQ_NEXT = 1 ∧ State.reset.get .PWR_CTL_AUTO_PS1 = 1 ∧ State.reset.get .PWR_CTL_IDLE_US = 10 ∧ State.reset.get .PWR_WAKE_CFG_EN = 31 ∧ State.reset.get .PWR_STATE_PS = 0 ∧ State.reset.get .THM_LIMITS_WARN_C = 125 ∧ State.reset.get .THM_LIMITS_THROT_C = 140 ∧ State.reset.get .THM_STS_STEP = 0 ∧ State.reset.get .GLB_ID_DEVICE = 2400 ∧ State.reset.get .GLB_ID_VENDOR = 7980 ∧ State.reset.get .GLB_BOOT_STS_STEP = 0) ∧
  (∀ k < 256, State.reset.get .PMU_CNT_COUNT k = 0 ∧ State.reset.get .PMU_CTL_EN k = 0) ∧
  (State.reset.pending = [] ∧ State.reset.pg.pages = [] ∧ State.reset.pg.mem = [] ∧ State.reset.pyx.slots = [] ∧ State.reset.flt.recs = [] ∧ State.reset.halt = none ∧ State.reset.pwr.stopped = false ∧ State.reset.boot.phase = 0 ∧ State.reset.coh.held = [] ∧ State.reset.cvn.ports = [])

/-- The state after reset meets the invariant (R131, R541). -/
def Obligations.ResetMeetsTheInvariant : Prop :=
  State.reset.Inv

/-- Every step keeps the invariant, and takes at most the front of the queue (R18, R131, R440, R541). -/
def Obligations.EveryStepKeepsTheInvariant : Prop :=
  ∀ s t : State, s.Inv → step s = .next t → t.Inv ∧ t.pending = s.pending.tail

/-- The home slice of a page is a hash of its LPN alone (R30). -/
def Obligations.HomeSliceOfAPage : Prop :=
  (∀ (s : State) (lpn : Nat), s.mem.disabledSlices = [] →
      s.home lpn = (List.range 8).foldl (fun h k => h ^^^ (lpn / 2 ^ (4 * k) % 16)) 0 ^^^ (lpn / 2 ^ 32 % 2)) ∧
  (∀ (s t : State) (lpn : Nat), s.mem.disabledSlices = t.mem.disabledSlices →
      s.home lpn = t.home lpn)

/-- The interleave maps media addresses one to one onto channels and local granule indices (R33, R338). -/
def Obligations.InterleaveIsOneToOne : Prop :=
  (∀ s : State, (s.get .MEM_GLB_GRAIN = 0 → s.grainB = 0) ∧ (s.get .MEM_GLB_GRAIN = 1 → s.grainB = 1) ∧ (s.get .MEM_GLB_GRAIN = 2 → s.grainB = 2) ∧ (s.get .MEM_GLB_GRAIN = 3 → s.grainB = 4)) ∧
  (∀ (s : State) (ma b : Nat), ma < 2 ^ 36 → b = s.grainB →
      s.chanOf ma = (ma / 2 ^ b % 16) ^^^ (List.range 8).foldl (fun h k => h ^^^ (ma / 2 ^ (b + 4) / 2 ^ (4 * k) % 16)) 0 ∧
      s.localOf ma = ma / 2 ^ (b + 4) * 2 ^ b + ma % 2 ^ b ∧ s.chanOf ma < 16 ∧ s.localOf ma < 2 ^ 32 ∧ s.maOf (s.chanOf ma) (s.localOf ma) = ma) ∧
  (∀ (s : State) (c loc : Nat), c < 16 → loc < 2 ^ 32 →
      s.maOf c loc < 2 ^ 36 ∧ s.chanOf (s.maOf c loc) = c ∧ s.localOf (s.maOf c loc) = loc)

/-- What the encoder stores under VERIFY decodes to the sector (R206, R210, R219, R220). -/
def Obligations.StoredSectorsDecode : Prop :=
  (∀ (pol : Nat) (frit : Option Frit) (sec body : List Byte), sec.length = 512 →
      decodeBody frit (encodeSector pol frit true sec body).1 = some sec) ∧
  (∀ (mode : Nat) (sec : List Byte), (mode = 4 ∨ mode = 5 ∨ mode = 6) → sec.length = 512 →
      ∃ res : List Byte, res.length = 512 ∧ unpredict mode res = sec ∧ ∀ res₂ : List Byte, res₂.length = 512 → unpredict mode res₂ = sec → res₂ = res) ∧
  (∀ (frit : Option Frit) (m : Byte) (rest : List Byte), 8 ≤ m.toNat ∨ m.toNat = 1 ∨ (m.toNat = 0 ∧ rest.length ≠ 512) ∨ (m.toNat = 2 ∧ rest.length ≠ 15) ∨ (3 ≤ m.toNat ∧ (rest.length < 15 ∨ 511 < rest.length)) →
      decodeBody frit (m :: rest) = none)

/-- The thermal model with too few healthy diodes is degraded or failed (R500). -/
def Obligations.ModelWithTooFewDiodes : Prop :=
  (∀ (s : State) (t : List Int), s.fabOn = true →
      ∃ u : State, exec (.diodeCalibration t) s = .next u ∧ u.get .THM_STS_HEALTHY = ((List.range 24).filter (fun d => u.isSet .THM_DIODE_HEALTHY d)).length ∧ u.get .THM_STS_MODEL = (if ((List.range 24).filter (fun d => u.isSet .THM_DIODE_HEALTHY d)).length < 4 then 2 else if ((List.range 24).filter (fun d => u.isSet .THM_DIODE_HEALTHY d)).length < 8 then 1 else 0)) ∧
  (∀ (s u : State) (t : List Int) (d : Nat) (l : List Nat), s.fabOn = true → ((List.range 24).filter (fun d => u.isSet .THM_DIODE_HEALTHY d)) = d :: l → l.length < 3 → exec (.diodeCalibration t) s = .next u →
      u.pwr.base = l.foldl (fun b e => max b ((fun d => (((t.getD d 0 : Int) : Rat) / 16 - s.rise (s.get .THM_DIODE_NODE d))) e)) ((fun d => (((t.getD d 0 : Int) : Rat) / 16 - s.rise (s.get .THM_DIODE_NODE d))) d) + 5) ∧
  (∀ (s u : State) (t : List Int), s.fabOn = true → ((List.range 24).filter (fun d => u.isSet .THM_DIODE_HEALTHY d)) = [] → exec (.diodeCalibration t) s = .next u →
      u.pwr.base = (if s.pwr.noDiode then s.pwr.base else s.pwr.base + 15)) ∧
  (∀ (s : State), s.alive = true → s.get .PWR_STATE_PS < 2 → s.get .THM_STS_MODEL = 2 →
      ∃ t : State, exec .throttleStep s = .next t ∧ 3 ≤ t.get .THM_STS_STEP)

/-- Requests are checked in the order of R86, and a failed check leaves only its reply (R86, R87, R88, R92, R97, R98, R104, R105). -/
def Obligations.RequestChecks : Prop :=
  (∀ (s u : State) (info : CmdInfo) (q : Req) (bad : Option Nat) (deny : Option (Nat × Nat)) (st d : Nat) (body : State → Ans), s.takes q = true → u = s.asked info q → u.check info q bad deny = some (st, d) →
      serve info q bad body s deny = .next (u.reply q st 0 d 0 [])) ∧
  (∀ (s : State) (info : CmdInfo) (q : Req) (bad : Option Nat) (deny : Option (Nat × Nat)) (body : State → Ans), s.takes q = false →
      serve info q bad body s deny = .next s) ∧
  (∀ (s u : State) (info : CmdInfo) (q : Req) (bad : Option Nat) (deny : Option (Nat × Nat)) (body : State → Ans), s.takes q = true → u = s.asked info q → u.check info q bad deny = none → u.fifth q = true →
      serve info q bad body s deny = .next (u.drawn.reply q stBusy 0 (u.draw % 10000 + 1) 0 [])) ∧
  (∀ (s : State) (q : Req) (st res d n : Nat) (out : Output), let t := s.reply q st res d n out
    { t with regs := s.regs, out := s.out, host := s.host, pyx := s.pyx } = s ∧
      (onRing q = false → t.regs = s.regs) ∧ (∀ (h : Fin 8), q.origin = .mailbox h → t.pyx = s.pyx) ∧ (∀ e b n, q.origin = .mctp e b n → t.host = s.host) ∧
      ∀ (r : Reg) (i j : Nat), r ≠ .HPT_RING_STS_CQTAIL → r ≠ .HPT_RING_STS_PHASE → t.get r i j = s.get r i j) ∧
  (∀ (s : State) (info : CmdInfo) (q : Req) (bad : Option Nat) (h : Fin 8) (r : Fin 64), q.origin = .ring h r → q.hver ≠ 1 →
      s.check info q bad = some (stBadParam, 3)) ∧
  (∀ (s : State) (info : CmdInfo) (q : Req) (bad : Option Nat) (h : Fin 8) (r : Fin 64), q.origin = .ring h r → q.hver = 1 → opcodes.contains q.opcode = false →
      s.check info q bad = some (stBadOpcode, 1)) ∧
  (∀ (s : State) (info : CmdInfo) (q : Req) (bad : Option Nat) (h : Fin 8), q.origin = .mailbox h → q.opcode = info.op → q.payload.length = q.plen → q.hver = 1 → info.mbox = false →
      s.check info q bad = some (stBadOpcode, 0)) ∧
  (∀ (s : State) (info : CmdInfo) (q : Req) (bad : Option Nat) (eid : Fin 256) (st : Bool) (n : Nat), q.origin = .mctp eid st n → q.payload.length = q.plen → q.hver = 1 → info.mctp = false →
      s.check info q bad = some (stBadOpcode, 2)) ∧
  (∀ (s : State) (info : CmdInfo) (q : Req) (bad : Option Nat) (h : Fin 8) (r : Fin 64), q.origin = .ring h r → q.hver = 1 → opcodes.contains q.opcode = true → s.priv q.origin < info.priv → info.op ≠ 0x0201 →
      s.check info q bad = some (stNoPriv, info.priv)) ∧
  (∀ (s : State) (info : CmdInfo) (q : Req) (bad : Option Nat) (h : Fin 8) (r : Fin 64) (seq : Nat), q.origin = .ring h r → q.hver = 1 → opcodes.contains q.opcode = true → info.priv ≤ s.priv q.origin → s.priv q.origin ≠ 1 → s.halt = some seq → info.op ≠ 0x0700 → info.op ≠ 0x0D01 → info.op ≠ 0x0100 →
      s.check info q bad = some (stFaulted, seq % 2 ^ 32)) ∧
  (∀ (s : State) (info : CmdInfo) (q : Req) (bad : Option Nat) (h : Fin 8) (r : Fin 64), q.origin = .ring h r → q.hver = 1 → opcodes.contains q.opcode = true → info.priv ≤ s.priv q.origin → s.priv q.origin ≠ 1 → s.halt = none → s.get .HPT_DEV_STS_STATUS 0 = stPending → info.op ≠ 0x0100 → info.op ≠ 0x0101 →
      s.check info q bad = some (stBusy, 100)) ∧
  (∀ (s : State) (info : CmdInfo) (q : Req) (bad : Option Nat) (h : Fin 8) (r : Fin 64), q.origin = .ring h r → q.hver = 1 → opcodes.contains q.opcode = true → info.priv ≤ s.priv q.origin → s.priv q.origin ≠ 1 → s.halt = none → s.get .HPT_DEV_STS_STATUS 0 = stCfgInvalid → info.op / 256 ≠ 1 → info.op / 256 ≠ 2 → info.op / 256 ≠ 0x10 → info.op / 256 ≠ 0x0D →
      s.check info q bad = some (stCfgInvalid, s.cause)) ∧
  (∀ (s : State) (info : CmdInfo) (q : Req) (h : Fin 8) (r : Fin 64) (off : Nat), q.origin = .ring h r → q.hver = 1 → opcodes.contains q.opcode = true → info.priv ≤ s.priv q.origin → s.priv q.origin ≠ 1 → s.stateCheck info.op = none → badHeader info q = none → reservedAt (info.fields ++ ptrFields q) q = none →
      s.check info q (some off) = some (stBadParam, off))

/-- The cfg commands complete with their effects (R545, R556, R557, R90). -/
def Obligations.ConfigurationCommands : Prop :=
  (∀ (q : Req) (s s₁ : State),
    Served { op := 0x0200, priv := 0, mctp := true, output := true } q none s s₁ →
      Completes (exec (.cfgQuery q) s) s₁ q (s₁.word .GLB_CFG_STS_GEN) 32 [(0x00, 8, s₁.genOf 0), (0x08, 8, s₁.genOf 1),
        (0x10, 8, s₁.word .GLB_BOOT_STS_STEP), (0x18, 8, s₁.word .GLB_OTP_SVN_MIN)] s₁.cause) ∧
  (∀ (q : Req) (s s₁ : State),
    let off := par q 0x10 4
    let was := if off = 0 then [] else s.received q.origin
    Served { op := 0x0201, priv := 2, mctp := true, payload := 1048576, fields := [fld 0x10 4, fbits 0x14 0 1] } q (firstBad [(0x08, decide (1 ≤ q.plen)), (0x10, decide (off = was.length ∧ off + q.plen ≤ 1048576))]) s s₁ →
    parBit q 0x14 0 = false →
    (∀ l, s₁.boot.load = some l → sessionHolder l.caller = sessionHolder q.origin) →
    s₁.running (fun k => k == .cfgLoad) = false →
      Completes (exec (.cfgLoad q) s) { s₁ with boot := { s₁.boot with load := some { caller := q.origin, bytes := was ++ q.payload } } } q) ∧
  (∀ (q : Req) (s s₁ : State),
    let off := par q 0x10 4
    let was := if off = 0 then [] else s.received q.origin
    Served { op := 0x0201, priv := 2, mctp := true, payload := 1048576, fields := [fld 0x10 4, fbits 0x14 0 1] } q (firstBad [(0x08, decide (1 ≤ q.plen)), (0x10, decide (off = was.length ∧ off + q.plen ≤ 1048576))]) s s₁ →
    parBit q 0x14 0 = true →
    (∀ l, s₁.boot.load = some l → sessionHolder l.caller = sessionHolder q.origin) →
    s₁.running (fun k => k == .cfgLoad) = false →
    s₁.isSet .GLB_BOOT_STS_ROMREC = false →
    s₁.flashOpen q opW 0x3C10000 →
    s₁.flashOpen q opW 0x3D10000 →
    (s₁.freeSlot).isSome = true →
      (∀ w, blockCause s₁.boot.owner (was ++ q.payload) = some w → Refused (exec (.cfgLoad q) s) s₁ q stCfgInvalid w) ∧
      (blockCause s₁.boot.owner (was ++ q.payload) = none →
        (∀ c < 2, cfgCrc (s₁.cfgCopy c) = true → cfgGen (s₁.cfgCopy c) < cfgGen (was ++ q.payload)) →
        Starts (exec (.cfgLoad q) s) s₁ (({ s₁ with boot := { s₁.boot with load := some { caller := q.origin, bytes := was ++ q.payload } } } : State).own' (was ++ q.payload))
          q .cfgLoad)) ∧
  (∀ (s : State), s.running (fun k => k == .cfgLoad) = false → exec .cfgLoadTimeout s = .next { s with boot := { s.boot with load := none } }) ∧
  (∀ (q : Req) (s s₁ : State),
    let off := par q 0x14 4
    let n := par q 0x18 4
    Served { op := 0x0202, priv := 2, mctp := true, output := true, fields := [fld 0x10 1, fld 0x14 4, fld 0x18 4] } q (firstBad [(0x10, decide (par q 0x10 1 ≤ 1)), (0x14, decide (off + n ≤ 1048576)), (0x18, decide (1 ≤ n ∧ n ≤ 65536))]) s s₁ →
    s₁.flashOpen q opR (0x3C10000 + 0x100000 * par q 0x10 1 + off) →
      Completes (exec (.cfgRead q) s) s₁ q 0 n [(0, n, leNat (flashRead (s₁.cfgCopy (par q 0x10 1)) off n))]) ∧
  (∀ (q : Req) (s s₁ : State),
    let h := par q 0x10 1
    let c := par q 0x11 1
    Served { op := 0x0203, priv := 2, mctp := true, fields := [fld 0x10 2, fbits 0x12 0 1] } q (firstBad [(0x10, decide (h ≤ 7))]) s s₁ →
    parBit q 0x12 0 = true →
      Completes (exec (.cfgGrant q) s) (s₁.put .GLB_GRANT_CTX (s₁.get .GLB_GRANT_CTX h (c / 64) ||| 2 ^ (c % 64)) h (c / 64)) q) ∧
  (∀ (q : Req) (s s₁ : State),
    let h := par q 0x10 1
    let c := par q 0x11 1
    Served { op := 0x0203, priv := 2, mctp := true, fields := [fld 0x10 2, fbits 0x12 0 1] } q (firstBad [(0x10, decide (h ≤ 7))]) s s₁ →
    parBit q 0x12 0 = false →
      Completes (exec (.cfgGrant q) s) (s₁.put .GLB_GRANT_CTX (s₁.get .GLB_GRANT_CTX h (c / 64) - (s₁.get .GLB_GRANT_CTX h (c / 64) &&& 2 ^ (c % 64))) h (c / 64)) q)

/-- The fw commands complete with their effects (R551, R552, R553, R556, R557, R544). -/
def Obligations.FirmwareCommands : Prop :=
  (∀ (q : Req) (s s₁ : State),
    Served { op := 0x1000, priv := 0, mctp := true, output := true } q none s s₁ →
      Completes (exec (.fwQuery q) s) s₁ q (s₁.word .GLB_FW_VER_VERSION) 48
        [(0x00, 8, if s₁.fwOk 0 then fwVersion (s₁.fwCopy 0) else 0), (0x08, 8, if s₁.fwOk 1 then fwVersion (s₁.fwCopy 1) else 0),
         (0x10, 4, if s₁.fwOk 0 then fwSvn (s₁.fwCopy 0) else 0), (0x14, 4, if s₁.fwOk 1 then fwSvn (s₁.fwCopy 1) else 0),
         (0x18, 1, s₁.selected), (0x20, 8, s₁.word .GLB_FW_STS_ROLL), (0x28, 1, s₁.get .ENG_GLB_HEALTHY)]) ∧
  (∀ (q : Req) (s s₁ : State),
    let off := par q 0x10 4
    let was := if off = 0 ∨ s.get .GLB_FW_STS_ROLL ≠ 1 then [] else s.fwCopy s.staging
    Served { op := 0x1001, priv := 2, mctp := true, payload := 1048576, fields := [fld 0x10 4] } q (firstBad [(0x08, decide (1 ≤ q.plen)), (0x10, decide (off = was.length ∧ off + q.plen ≤ 31457280))]) s s₁ →
    s₁.get .GLB_FW_STS_ROLL < 2 →
    s₁.running (fun k => k == .fwStage) = false →
    s₁.flashOpen q opW (0x10000 + 0x1E00000 * s₁.staging + off) →
    (s₁.freeSlot).isSome = true →
      Starts (exec (.fwStage q) s) s₁ (((s₁.setFw s₁.staging (was ++ q.payload)).put .GLB_FW_STS_ROLL 1).put .GLB_FW_STS_STAGED_KIB ((was ++ q.payload).length / 1024))
        q .fwStage (some (stOk, 0, 0))) ∧
  (∀ (q : Req) (s s₁ : State),
    Served { op := 0x1002, priv := 2, mctp := true, fields := [fbits 0x10 0 1] } q none s s₁ →
    s₁.get .GLB_FW_STS_ROLL = 1 →
    s₁.running (fun k => k == .fwStage) = false →
    s₁.stageFault = none →
    s₁.flashOpen q opW 0 →
    (s₁.freeSlot).isSome = true →
      Starts (exec (.fwActivate q) s) s₁ (match if s₁.isSet .GLB_BOOT_STS_ROMREC = true then none else s₁.nextCluster 0 with
        | some k => (({ s₁ with boot := { s₁.boot with rollOld := s₁.get .GLB_FW_VER_VERSION, setSvn := parBit q 0x10 0 } } : State).put .GLB_FW_STS_ROLL 2).startCluster k
        | none => ({ s₁ with boot := { s₁.boot with rollOld := s₁.get .GLB_FW_VER_VERSION, setSvn := parBit q 0x10 0 } } : State).put .GLB_FW_STS_ROLL 2) q .fwActivate) ∧
  (∀ (q : Req) (s s₁ : State) (d : Nat),
    Served { op := 0x1002, priv := 2, mctp := true, fields := [fbits 0x10 0 1] } q none s s₁ →
    s₁.get .GLB_FW_STS_ROLL < 2 →
    s₁.running (fun k => k == .fwStage) = false →
    s₁.stageFault = some d →
      Refused (exec (.fwActivate q) s) s₁ q stStale d) ∧
  (∀ (q : Req) (s s₁ : State),
    Served { op := 0x1003, priv := 2, mctp := true } q none s s₁ →
    s₁.get .GLB_FW_STS_ROLL = 1 →
      Completes (exec (.fwAbort q) s) (((s₁.setFw s₁.staging []).put .GLB_FW_STS_ROLL 0).put .GLB_FW_STS_STAGED_KIB 0) q) ∧
  (∀ (q : Req) (s s₁ : State),
    Served { op := 0x1003, priv := 2, mctp := true } q none s s₁ →
    s₁.get .GLB_FW_STS_ROLL = 2 →
      Completes (exec (.fwAbort q) s) ((s₁.put .GLB_FW_STS_ROLL 3).endKind (fun k => k == .fwActivate) stAborted 0 0) q) ∧
  (∀ (q : Req) (s s₁ : State),
    Served { op := 0x1003, priv := 2, mctp := true } q none s s₁ →
    s₁.get .GLB_FW_STS_ROLL = 3 →
      Completes (exec (.fwAbort q) s) s₁ q)

/-- OPERATION_END ends an operation with the values its work left, and keeps them readable (R100, R420, R545). -/
def Obligations.OperationsEnd : Prop :=
  (∀ (s t : State) (k : Fin 64) (o : OpSlot) (st d res : Nat), tget k.val s.pyx.slots = some o → o.running = true → o.ready = some (st, d, res) →
      o.kind ≠ .fwActivate → t = s.endOp k.val st d res →
      exec (.operationEnd k) s = .next t ∧
      ∃ o', tget k.val t.pyx.slots = some o' ∧ o'.running = false ∧ o'.status = st ∧ o'.detail = d ∧ o'.result = res ∧ o'.seq = o.seq ∧ o'.kind = o.kind) ∧
  (∀ (s : State) (k : Fin 64) (o : OpSlot), tget k.val s.pyx.slots = some o → o.running = true → o.ready = none → o.kind = .cfgLoad →
      exec (.operationEnd k) s = .next (s.endOp k.val stOk 0 0).cfgWritten) ∧
  (∀ (s : State) (k : Fin 64) (o : OpSlot) (p : Nat), tget k.val s.pyx.slots = some o → o.running = true → o.ready = none → o.kind = .linkUp p 0 → o.at' + 1000000000 ≤ s.now →
      exec (.operationEnd k) s = .next (s.endOp k.val stTimeout (s.get .CVN_LINK_STS_STATE p) 0)) ∧
  (∀ (s : State) (k : Fin 64) (o : OpSlot) (ks sw : Nat), tget k.val s.pyx.slots = some o → o.running = true → o.ready = none → o.kind = .zeroise ks sw →
      exec (.operationEnd k) s = .next ((s.zeroSweep ks).endOp k.val stOk 0 0)) ∧
  (∀ (s : State) (k : Fin 64) (o : OpSlot) (c : Nat), tget k.val s.pyx.slots = some o → o.running = true → o.ready = none → o.kind = .fwActivate → s.isSet .GLB_BOOT_STS_ROMREC = false → s.passCluster.nextCluster (s.passCluster.get .GLB_FW_STS_CLUSTER + 1) = some c →
      exec (.operationEnd k) s = .next (s.passCluster.startCluster c))

/-- The acc and debug commands, the TAP and the ends of an unlock take effect (R525, R528, R529, R530, R531, R532, R521). -/
def Obligations.AccessAndDebugCommands : Prop :=
  (∀ (q : Req) (s s₁ : State),
    let t := par q 0x10 1
    let m := par q 0x11 1
    Served { op := 0x1100, priv := 0, mctp := true, output := true, fields := [fld 0x10 2] } q (firstBad [(0x10, decide (t ≤ 36)), (0x11, decide (m ≤ 0x42))]) s s₁ →
      Completes (exec (.accQuery q) s) s₁ q (s₁.word .ACC_TBL_RC t m) 272
        ((List.range 16).flatMap (fun e => [(16 * e, 8, s₁.word .ACC_RNG_BASE_ADDR t e), (16 * e + 8, 8, s₁.word .ACC_RNG_LIMIT_ADDR t e)])
          ++ [(0x100, 8, s₁.word .ACC_STS_DENIALS), (0x108, 8, s₁.word .ACC_DBG_LEVEL)])) ∧
  (∀ (q : Req) (s s₁ : State),
    let kind := par q 0x11 1
    Served { op := 0x1101, priv := 2, mctp := true, fields := accFields kind } q (accBad q) s s₁ →
    kind = 0 →
    s₁.isSet .ACC_LOCK_LOCK = false →
      Completes (exec (.accSetTable q) s) ((accTargets (par q 0x10 1)).foldl (fun s t =>
        (if par q 0x12 1 = 0xFF then List.range 0x43 else [par q 0x12 1]).foldl (fun s m => s.put .ACC_TBL_RC (par q 0x18 6) t m) s) s₁) q) ∧
  (∀ (q : Req) (s s₁ : State),
    let kind := par q 0x11 1
    Served { op := 0x1101, priv := 2, mctp := true, fields := accFields kind } q (accBad q) s s₁ →
    kind ≠ 0 →
    s₁.isSet .ACC_LOCK_LOCK = false →
      Completes (exec (.accSetTable q) s) ((accTargets (par q 0x10 1)).foldl (fun s t =>
        (((s.put .ACC_RNG_BASE_ADDR (par q 0x18 8) t (par q 0x12 1)).put .ACC_RNG_BASE_CLASS (parBits q 0x13 0 4) t (par q 0x12 1)).put .ACC_RNG_BASE_EN
          (parBits q 0x13 4 1) t (par q 0x12 1)).put .ACC_RNG_LIMIT_ADDR (par q 0x20 8) t (par q 0x12 1)) s₁) q) ∧
  (∀ (q : Req) (s s₁ : State),
    Served { op := 0x1102, priv := 2, mctp := true } q none s s₁ →
      Completes (exec (.accLock q) s) (s₁.put .ACC_LOCK_LOCK 1) q) ∧
  (∀ (q : Req) (s s₁ : State),
    let ph := par q 0x10 1
    let sess := par q 0x14 4
    Served { op := 0x1103, priv := 2, mctp := true, output := true, payload := 144, fields := [fld 0x10 1, fld 0x14 4] } q (firstBad [(0x10, decide (ph ≤ 1)), (0x08, decide (q.plen = if ph = 1 then 144 else 0))]) s s₁ →
    ph = 0 →
    s₁.sec.sessions.contains (sessionHolder q.origin, sess) = true →
      Completes (exec (.debugUnlock q) s) { s₁.drawn with acc := { s₁.acc with nonce := some (s₁.draw % 2 ^ 256, sess, s₁.now) } } q 0 32 [(0, 32, s₁.draw % 2 ^ 256)]) ∧
  (∀ (q : Req) (s s₁ : State) (v : Nat),
    let ph := par q 0x10 1
    let sess := par q 0x14 4
    Served { op := 0x1103, priv := 2, mctp := true, output := true, payload := 144, fields := [fld 0x10 1, fld 0x14 4] } q (firstBad [(0x10, decide (ph ≤ 1)), (0x08, decide (q.plen = if ph = 1 then 144 else 0))]) s s₁ →
    ph = 1 →
    s₁.sec.sessions.contains (sessionHolder q.origin, sess) = true →
    s₁.liveNonce sess = some v →
    s₁.tokenOk q.payload v = true →
      Completes (exec (.debugUnlock q) s) (({ s₁ with acc := { s₁.acc with nonce := none } } : State).setDebug (payNat q.payload 2 1) (payNat q.payload 4 4)) q
        (payNat q.payload 2 1)) ∧
  (∀ (q : Req) (s s₁ : State) (v : Nat),
    let ph := par q 0x10 1
    let sess := par q 0x14 4
    Served { op := 0x1103, priv := 2, mctp := true, output := true, payload := 144, fields := [fld 0x10 1, fld 0x14 4] } q (firstBad [(0x10, decide (ph ≤ 1)), (0x08, decide (q.plen = if ph = 1 then 144 else 0))]) s s₁ →
    ph = 1 →
    s₁.sec.sessions.contains (sessionHolder q.origin, sess) = true →
    s₁.liveNonce sess = some v →
    s₁.tokenOk q.payload v = false →
      Refused (exec (.debugUnlock q) s) (s₁.report (msg1 bAcc 33 5)) q stBadParam 0x40) ∧
  (∀ (q : Req) (s s₁ : State),
    Served { op := 0x1104, priv := 2, mctp := true } q none s s₁ →
      Completes (exec (.debugLock q) s) (s₁.setDebug 0 0) q) ∧
  (∀ (s : State), exec .debugDurationExpire s = .next (s.setDebug 0 0) ∧
      exec .debugNonceExpire s = .next { s with acc := { s.acc with nonce := none } }) ∧
  (∀ (s : State), exec (.tapReset true) s = .next { s with acc := { s.acc with tapReset := true, tapInstr := 1 } } ∧
      exec (.tapReset false) s = .next { s with acc := { s.acc with tapReset := false } }) ∧
  (∀ (s : State), s.tapOn = true →
      exec .dbgSts s = .next (({ s with acc := { s.acc with tapInstr := 0x21 } } : State).emit
        (.value (s.get .ACC_DBG_LEVEL + 4 * s.dbgLeft + 2 ^ 19 * b2n s.acc.tapErr))) ∧
      exec .extest s = .next { s with acc := { s.acc with
        tapInstr := if s.boot.phase = 1 ∨ s.boot.phase = 2 ∨ s.get .ACC_DBG_LEVEL = 2 then 0x00 else 0xFF } } ∧
      ∀ (mem write : Bool) (addr : Fin (2 ^ 45)) (data : Fin (2 ^ 64)) (hint : Nat), s.get .ACC_DBG_LEVEL = 0 →
        exec (.dbgAcc mem write addr data hint) s =
          .next (({ s with acc := { s.acc with tapInstr := 0x20, tapErr := true } } : State).emit (.value 0))) ∧
  (∀ (s t : State) (write : Bool) (addr : Fin (2 ^ 45)) (data : Fin (2 ^ 64)) (hint : Nat), s.tapOn = true → s.regsUp = true → s.get .ACC_DBG_LEVEL ≠ 0 → (t = { s with acc := { s.acc with tapInstr := 0x20, tapErr := false, tapMem := some (addr.val / 64, 64 * (addr.val / 8 % 8), if write then some data.val else none, hint) } }) → (s.decideAccess (s.home (addr.val / 4096)) mDbg (s.rangeClass (s.home (addr.val / 4096)) (addr.val / 4096)) (if write then opW else opR) false = true) →
      exec (.dbgAcc true write addr data hint) s = .next (t.tapGo)) ∧
  (∀ (s t : State) (line sh hint : Nat) (d : Line), s.acc.tapMem = some (line, sh, none, hint) → t = s.dirFix (line / 64) → t.lineHome line = true → hasImage (t.tier (line / 64)) = true → t.homeCopy line = some d →
      s.tapGo = ({ t with acc := { t.acc with tapMem := none } } : State).emit (.value (bits d.toNat sh 64)))

/-- The pmu commands and events take effect (R514, R515, R516, R517). -/
def Obligations.CounterCommands : Prop :=
  (∀ (q : Req) (s s₁ : State),
    Served { op := 0x0E00, priv := 0, mctp := true, output := true } q none s s₁ →
      Completes (exec (.pmuQuery q) s) s₁ q (s₁.word .PMU_GSTS_FROZEN) 64 [(0x00, 32, s₁.pmuMap .PMU_CTL_EN), (0x20, 32, s₁.pmuMap .PMU_CNT_SAT)]) ∧
  (∀ (q : Req) (s s₁ : State),
    Served { op := 0x0E01, priv := 2, mctp := true, payload := 48, fields := pmuConfigFields (par q 0x10 1) } q (pmuConfigBad q) s s₁ →
    par q 0x10 1 = 0 →
    s₁.isSet .PMU_CTL_EN (par q 0x12 2) = false →
      Completes (exec (.pmuConfig q) s) ((((s₁.put .PMU_CTL_EVENT (par q 0x14 1) (par q 0x12 2)).put .PMU_CTL_EN (parBits q 0x15 0 1) (par q 0x12 2)).put .PMU_CTL_FILT
        (parBits q 0x15 1 1) (par q 0x12 2)).put .PMU_CTL_FSET (parBits q 0x15 2 4) (par q 0x12 2)) q) ∧
  (∀ (q : Req) (s s₁ : State),
    Served { op := 0x0E01, priv := 2, mctp := true, payload := 48, fields := pmuConfigFields (par q 0x10 1) } q (pmuConfigBad q) s s₁ →
    par q 0x10 1 = 1 →
    (∀ n < 256, ¬ (s₁.isSet .PMU_CTL_EN n = true ∧ s₁.isSet .PMU_CTL_FILT n = true ∧ s₁.get .PMU_CTL_FSET n = par q 0x11 1)) →
      ∃ u : State, Completes (exec (.pmuConfig q) s) u q ∧ u.get .PMU_FS_MASK0_MASK (par q 0x11 1) = payNat q.payload 0 8 ∧
        u.get .PMU_FS_BASE_LPN (par q 0x11 1) = payNat q.payload 0x10 8 % 2 ^ 33 ∧ u.get .PMU_FS_LIMIT_LPN (par q 0x11 1) = payNat q.payload 0x18 8 % 2 ^ 33 ∧
        u.get .PMU_FS_SEL_CLSET (par q 0x11 1) = payNat q.payload 0x20 2 ∧ u.get .PMU_FS_SEL_TIERSET (par q 0x11 1) = payNat q.payload 0x22 1 ∧
        u.get .PMU_FS_SEL_PRIVSET (par q 0x11 1) = payNat q.payload 0x23 1 % 16 ∧ ∀ n, u.get .PMU_CNT_COUNT n = s₁.get .PMU_CNT_COUNT n) ∧
  (∀ (q : Req) (s s₁ : State),
    Served { op := 0x0E02, priv := 0, mctp := true, output := true, fields := [fld 0x10 2, fld 0x12 2, fbits 0x14 0 1] } q (pmuRangeBad q) s s₁ →
      Completes (exec (.pmuRead q) s) s₁ q 0 (8 * par q 0x12 2) ((List.range (par q 0x12 2)).map (fun k => (8 * k, 8, s₁.word .PMU_CNT_COUNT (par q 0x10 2 + k))))) ∧
  (∀ (q : Req) (s s₁ : State),
    Served { op := 0x0E03, priv := 2, mctp := true, fields := [fld 0x10 2, fld 0x12 2] } q (pmuRangeBad q) s s₁ →
      Completes (exec (.pmuClear q) s) (s₁.pmuClearRange (par q 0x10 2) (par q 0x12 2)) q) ∧
  (∀ (s : State) (n : Fin 256), exec (.pmuCounterClear n) s = .next (s.pmuClear n.val) ∧ (s.pmuClear n.val).get .PMU_CNT_COUNT n.val = 0 ∧
      (s.pmuClear n.val).get .PMU_CNT_SAT n.val = 0 ∧ ∀ k ≠ n.val, (s.pmuClear n.val).get .PMU_CNT_COUNT k = s.get .PMU_CNT_COUNT k) ∧
  (∀ (s : State) (on : Bool), exec (.pmuFreeze on) s = .next ((s.put .PMU_GCTL_FREEZE (b2n on)).put .PMU_GSTS_FROZEN (b2n on)))

/-- A counter adds the occurrences of its event, stops at the top, and stands still while frozen (R509, R512, R515). -/
def Obligations.CountersCountTheirEvent : Prop :=
  (∀ (s : State) (u : PmuUnit) (code k : Nat) (a : Option Attr), s.isSet .PMU_GCTL_FREEZE = true → s.count u code k a = s) ∧
  (∀ (s : State) (u : PmuUnit) (code k n : Nat) (a : Option Attr), s.unitCounts u = true →
      (unitCounters u).1 ≤ n → n < (unitCounters u).1 + (unitCounters u).2 →
      s.isSet .PMU_CTL_EN n = true → s.isSet .PMU_CTL_FILT n = false → s.get .PMU_CTL_EVENT n = code →
      (s.count u code k a).get .PMU_CNT_COUNT n = min 0xFFFFFFFFFFFF (s.get .PMU_CNT_COUNT n + k) ∧
      (0xFFFFFFFFFFFF < s.get .PMU_CNT_COUNT n + k → (s.count u code k a).get .PMU_CNT_SAT n = 1)) ∧
  (∀ (s : State) (u : PmuUnit) (code k n : Nat) (a : Option Attr), s.isSet .PMU_CTL_EN n = false →
      (s.count u code k a).get .PMU_CNT_COUNT n = s.get .PMU_CNT_COUNT n ∧ (s.count u code k a).get .PMU_CNT_SAT n = s.get .PMU_CNT_SAT n)

/-- The tlg commands and the frame boundary take effect (R427, R433, R434, R435, R436, R437). -/
def Obligations.TollgateCommands : Prop :=
  (∀ (q : Req) (s s₁ : State),
    let kind := par q 0x10 1
    let ix := par q 0x11 1
    Served { op := 0x0C00, priv := 0, mctp := true, output := true, fields := [fld 0x10 2] } q (firstBad [(0x10, decide (kind ≤ 3)), (0x11, decide (kind > 3 ∨ ix < (match kind with | 0 => 1 | 1 => 8 | _ => 16)))]) s s₁ →
    kind ≤ 3 →
      Completes (exec (.tlgQuery q) s) s₁ q (s₁.word .TLG_STS_F) (if kind = 3 then 136 else 128)
        (if kind = 0 then s₁.perClass .TLG_GUAR_BW 0 true else if kind = 1 then s₁.perClass .TLG_HQ_QUOTA ix false
         else if kind = 2 then s₁.perClass .TLG_SQ_QUOTA ix false else s₁.perClass .TLG_CH_SLOT_SLOTS ix false ++ [(0x80, 8, s₁.word .TLG_CH_STS_BW ix)])) ∧
  (∀ (q : Req) (s s₁ : State),
    let point := par q 0x10 1
    Served { op := 0x0C01, priv := 2, fields := [fld 0x10 1, fld 0x12 2, fld 0x14 1, fld 0x16 2] } q (firstBad [(0x10, decide (point ≤ 1)), (0x12, decide (par q 0x12 2 ≠ 0 ∧ (point ≠ 0 ∨ par q 0x12 2 < 256))), (0x14, decide (par q 0x14 1 < 16)), (0x16, decide (par q 0x16 2 ≤ 1023))]) s s₁ →
    point = 0 →
      ∃ u : State, Completes (exec (.tlgSetQuota q) s) u q ∧ (∀ n < 8, bit (par q 0x12 2) n = true → u.get .TLG_HQ_QUOTA n (par q 0x14 1) = par q 0x16 2) ∧
        (∀ n c, (bit (par q 0x12 2) n = false ∨ c ≠ par q 0x14 1) → u.get .TLG_HQ_QUOTA n c = s₁.get .TLG_HQ_QUOTA n c) ∧ u.pg = s₁.pg ∧ u.coh = s₁.coh) ∧
  (∀ (q : Req) (s s₁ : State),
    let point := par q 0x10 1
    Served { op := 0x0C01, priv := 2, fields := [fld 0x10 1, fld 0x12 2, fld 0x14 1, fld 0x16 2] } q (firstBad [(0x10, decide (point ≤ 1)), (0x12, decide (par q 0x12 2 ≠ 0 ∧ (point ≠ 0 ∨ par q 0x12 2 < 256))), (0x14, decide (par q 0x14 1 < 16)), (0x16, decide (par q 0x16 2 ≤ 1023))]) s s₁ →
    point = 1 →
      ∃ u : State, Completes (exec (.tlgSetQuota q) s) u q ∧ (∀ n < 16, bit (par q 0x12 2) n = true → u.get .TLG_SQ_QUOTA n (par q 0x14 1) = par q 0x16 2) ∧
        (∀ n c, (bit (par q 0x12 2) n = false ∨ c ≠ par q 0x14 1) → u.get .TLG_SQ_QUOTA n c = s₁.get .TLG_SQ_QUOTA n c) ∧ u.pg = s₁.pg ∧ u.coh = s₁.coh) ∧
  (∀ (q : Req) (s s₁ : State),
    let k := par q 0x10 1
    let b := par q 0x12 2
    Served { op := 0x0C02, priv := 2, fields := [fld 0x10 1, fld 0x12 2] } q (firstBad [(0x10, decide (1 ≤ k ∧ k ≤ 15))]) s s₁ →
    b ≤ s₁.get .TLG_GUAR_BW k →
      Completes (exec (.tlgSetGuarantee q) s) (s₁.put .TLG_GUAR_BW b k).retoll q (s₁.put .TLG_GUAR_BW b k).sumB) ∧
  (∀ (q : Req) (s s₁ : State),
    let k := par q 0x10 1
    let b := par q 0x12 2
    Served { op := 0x0C02, priv := 2, fields := [fld 0x10 1, fld 0x12 2] } q (firstBad [(0x10, decide (1 ≤ k ∧ k ≤ 15))]) s s₁ →
    (s₁.put .TLG_GUAR_BW b k).sumB * 6400000 ≤ s₁.get .TLG_CFG_CAP * s₁.delivNomNum →
      Completes (exec (.tlgSetGuarantee q) s) (s₁.put .TLG_GUAR_BW b k).retoll q (s₁.put .TLG_GUAR_BW b k).sumB) ∧
  (∀ (q : Req) (s s₁ : State),
    let k := par q 0x10 1
    let b := par q 0x12 2
    Served { op := 0x0C02, priv := 2, fields := [fld 0x10 1, fld 0x12 2] } q (firstBad [(0x10, decide (1 ≤ k ∧ k ≤ 15))]) s s₁ →
    s₁.get .TLG_GUAR_BW k < b →
    s₁.get .TLG_CFG_CAP * s₁.delivNomNum < (s₁.put .TLG_GUAR_BW b k).sumB * 6400000 →
      Refused (exec (.tlgSetGuarantee q) s) s₁ q stOvercommit (((s₁.put .TLG_GUAR_BW b k).sumB * 6400000 - s₁.get .TLG_CFG_CAP * s₁.delivNomNum + 6399999) / 6400000)) ∧
  (∀ (q : Req) (s s₁ : State),
    let cap := par q 0x10 1
    Served { op := 0x0C03, priv := 2, fields := [fld 0x10 1] } q (firstBad [(0x10, decide (50 ≤ cap ∧ cap ≤ 90))]) s s₁ →
    cap * s₁.delivNomNum < s₁.sumB * 6400000 →
      Refused (exec (.tlgSetCap q) s) s₁ q stOvercommit ((s₁.sumB * 6400000 - cap * s₁.delivNomNum + 6399999) / 6400000)) ∧
  (∀ (q : Req) (s s₁ : State),
    let cap := par q 0x10 1
    Served { op := 0x0C03, priv := 2, fields := [fld 0x10 1] } q (firstBad [(0x10, decide (50 ≤ cap ∧ cap ≤ 90))]) s s₁ →
    s₁.sumB * 6400000 ≤ cap * s₁.delivNomNum →
      Completes (exec (.tlgSetCap q) s) (s₁.put .TLG_CFG_CAP cap).retoll q) ∧
  (∀ (s : State) (c : Fin 16), s.counted c.val = true →
      ∃ t : State, exec (.frameBoundary c) s = .next t ∧ (∀ k < 16, t.get .TLG_CH_SLOT_SLOTS c.val k = s.slotsOf k c.val ∧
        t.get .TLG_CH_SLOT_USED c.val k = (tgetD 0 k (s.chan c.val).subA.used + tgetD 0 k (s.chan c.val).subB.used) % 2048) ∧
        (t.chan c.val).subA.used = [] ∧ (t.chan c.val).subB.used = [] ∧ (t.chan c.val).subA.at' = 0 ∧ (t.chan c.val).subB.at' = 0 ∧
        (∀ d ≠ c.val, ∀ k, t.get .TLG_CH_SLOT_SLOTS d k = s.get .TLG_CH_SLOT_SLOTS d k) ∧ t.pg = s.pg ∧ t.coh = s.coh ∧ t.out = s.out)

/-- The flt commands complete with their effects (R444, R445, R447, R452, R457, R458). -/
def Obligations.FaultCommands : Prop :=
  (∀ (q : Req) (s s₁ : State),
    Served { op := 0x0D00, priv := 0, mctp := true, output := true } q none s s₁ →
      Completes (exec (.fltQuery q) s) s₁ q (s₁.word .FLT_STS_USED) 64
        [(0x00, 8, s₁.word .FLT_CTL_GRACE_US), (0x08, 8, s₁.word .FLT_STS_USED), (0x10, 8, s₁.get .FLT_SEQ_NEXT), (0x18, 8, s₁.word .FLT_OVF_OVERWRITTEN),
         (0x20, 8, s₁.get .FLT_OVF_MSG0_MSG), (0x28, 8, s₁.get .FLT_OVF_MSG1_MSG),
         (0x30, 8, match oldest (fun _ => true) s₁.flt.recs with | some (_, r) => r.seq | none => 0), (0x38, 8, s₁.get .FLT_SEQ_NEXT - 1)]) ∧
  (∀ (q : Req) (s s₁ : State) (l : List FltRec),
    Served { op := 0x0D01, priv := 0, mctp := true, output := true, fields := [fld 0x10 8, fld 0x18 2, fbits 0x1A 0 2] } q (firstBad [(0x18, decide (1 ≤ par q 0x18 2 ∧ par q 0x18 2 ≤ 256))]) s s₁ →
    (l = (bySeq ((if parBit q 0x1A 1 then s₁.flt.ring else s₁.flt.recs.map (·.2)).filter (fun r => decide (par q 0x10 8 ≤ r.seq)))).take (par q 0x18 2)) →
      Completes (exec (.fltReadRecords q) s) s₁ q l.length (32 * l.length) (recsOut 0 l)) ∧
  (∀ (q : Req) (s s₁ : State) (k : Nat) (r : FltRec),
    Served { op := 0x0D02, priv := 2, mctp := true, fields := [fld 0x10 8] } q none s s₁ →
    s₁.recBySeq (par q 0x10 8) = some (k, r) →
    tget k s₁.flt.recs = some r →
    r.esc = false →
      Completes (exec (.fltAck q) s) (s₁.setRecs (tput k { r with ack := true, tmr := false } s₁.flt.recs)) q) ∧
  (∀ (q : Req) (s s₁ : State) (k : Nat) (r : FltRec),
    Served { op := 0x0D03, priv := 2, mctp := true, fields := [fld 0x10 8, fbits 0x18 0 1] } q none s s₁ →
    parBit q 0x18 0 = false →
    s₁.recBySeq (par q 0x10 8) = some (k, r) →
    tget k s₁.flt.recs = some r →
    r.active = false →
      Completes (exec (.fltClear q) s) (s₁.setRecs (tdel k s₁.flt.recs)) q 1) ∧
  (∀ (q : Req) (s s₁ : State),
    Served { op := 0x0D03, priv := 2, mctp := true, fields := [fld 0x10 8, fbits 0x18 0 1] } q none s s₁ →
    parBit q 0x18 0 = true →
      Completes (exec (.fltClear q) s) (s₁.setRecs (s₁.flt.recs.filter (fun p => p.2.active))) q (s₁.flt.recs.filter (fun p => !p.2.active)).length) ∧
  (∀ (q : Req) (s s₁ : State),
    Served { op := 0x0D04, priv := 2, mctp := true, fields := [fld 0x10 1, fld 0x11 1, fld 0x12 1, fbits 0x13 0 3] } q (firstBad [(0x10, decide (instances (par q 0x10 1) ≠ 0)), (0x11, decide (par q 0x11 1 < 16)), (0x12, decide (1 ≤ par q 0x12 1 ∧ par q 0x12 1 ≤ 3))]) s s₁ →
      Completes (exec (.fltSetSeverity q) s) (s₁.setSev (16 * par q 0x10 1 + par q 0x11 1) (par q 0x12 1) (parBits q 0x13 0 2) (parBits q 0x13 2 1)) q) ∧
  (∀ (q : Req) (s s₁ : State),
    let m := injected q
    Served { op := 0x0D05, priv := 2, mctp := true, fields := [fld 0x10 3, fbits 0x13 0 6, fld 0x14 12] } q (firstBad [(0x10, decide (m.inst < instances m.code)), (0x13, decide (m.fclass ≠ 0)), (0x13, !(m.active && m.ended))]) s s₁ →
      Completes (exec (.fltInject q) s) (s₁.reportK m .std true).1 q (s₁.reportK m .std true).2)

/-- Messages, timers and record windows act on the collector (R440, R445, R447, R449, R452). -/
def Obligations.FaultEvents : Prop :=
  (∀ (s : State) (m : Msg) (dropped : Nat) (alt : Bool), s.ecc.inj = [] → m.inj = false → m.code ∉ [bPwr, bEng, bXlt, bCoh, bSlc, bCdc, bSec, bAcc, bFab, bTlg, bPmu] →
      exec (.faultMessage m dropped alt) s = .next ((s.put .FLT_OVF_SRCDROP (satAdd 0xFFFF (s.get .FLT_OVF_SRCDROP) dropped)).report m)) ∧
  (∀ (s : State) (m : Msg) (dropped : Nat) (alt : Bool), s.ecc.inj = [] → m.inj = false →
      exec (.faultMessage m dropped alt) s = .next (((s.put .FLT_OVF_SRCDROP (satAdd 0xFFFF (s.get .FLT_OVF_SRCDROP) dropped)).contain m alt).report m)) ∧
  (∀ (s : State) (k : Fin 256) (r : FltRec), tget k.val s.flt.recs = some r → r.tmr = true →
      exec (.graceTimerExpire k) s =
        .next ((s.setRecs (tput k.val { r with tmr := false, esc := true } s.flt.recs)).orderEscalation r.msg r.direct r.seq 1
          (some { r with tmr := false, esc := true })).afterSteps) ∧
  (∀ (s : State) (k : Fin 256), (∀ r, tget k.val s.flt.recs = some r → r.tmr = false) → exec (.graceTimerExpire k) s = .next s) ∧
  (∀ (s : State) (k : Fin 256) (r : FltRec), tget k.val s.flt.recs = some r →
      (r.esc = false → exec (.recordAckWrite k) s = .next (s.setRecs (tput k.val { r with ack := true, tmr := false } s.flt.recs))) ∧
      (r.active = false → exec (.recordValidClear k) s = .next (s.setRecs (tdel k.val s.flt.recs))) ∧
      (r.active = true → exec (.recordValidClear k) s = .next s))

/-- The seg and xlt commands, the expiry of a cached entry and a lost flush answer take effect (R134, R135, R138, R143, R144, R65, R133, R554). -/
def Obligations.SegmentAndTranslationCommands : Prop :=
  (∀ (q : Req) (s s₁ : State),
    let tc := q.tc.val
    Served { op := 0x0300, priv := 1, mctp := true, ctx := 1, output := true } q none s s₁ →
      Completes (exec (.segQuery q) s) s₁ q (s₁.word .XLT_CTX_CFG_EN tc) 80
        ([(0, 2, s₁.get .XLT_CTX_MASK_CLMASK tc), (2, 1, s₁.get .XLT_CTX_MASK_OBMASK tc),
          (3, 1, s₁.get .XLT_CTX_MASK_DEFCL tc + 16 * s₁.get .XLT_CTX_MASK_DEFOB tc), (8, 8, s₁.get .XLT_CTX_CFG_ROOT tc)]
          ++ (List.range 4).flatMap (fun w => [(0x10 + 16 * w, 8, s₁.get .XLT_WIN_BASE_LPN tc w), (0x18 + 16 * w, 8, s₁.get .XLT_WIN_LIMIT_LPN tc w)]))) ∧
  (∀ (q : Req) (s s₁ : State),
    let tc := q.tc.val
    let base := fun w => payNat q.payload (16 * w) 8
    let lim := fun w => payNat q.payload (16 * w + 8) 8
    Served { op := 0x0301, priv := 2, ctx := 1, payload := 64, fields := [fld 0x10 3, fbits 0x13 0 7] } q (firstBad ([(0x08, decide (q.plen = 64)), (0x0C, !s.isSet .XLT_CTX_CFG_EN tc)] ++ (List.range 4).flatMap (fun w => [(0x40 + 16 * w, decide (base w ≤ lim w)), (0x48 + 16 * w, decide (lim w ≤ devWindow))]))) s s₁ →
      ∃ u : State, Completes (exec (.segCtxCreate q) s) (u.regrant s₁) q ∧ u.get .XLT_CTX_CFG_EN tc = 1 ∧ u.get .XLT_CTX_CFG_ROOTV tc = 0 ∧ u.get .XLT_CTX_MASK_CLMASK tc = par q 0x10 2 ∧
        u.get .XLT_CTX_MASK_OBMASK tc = par q 0x12 1 ∧ u.get .XLT_CTX_MASK_DEFCL tc = parBits q 0x13 0 4 ∧ u.get .XLT_CTX_MASK_DEFOB tc = parBits q 0x13 4 3 ∧
        (∀ w < 4, u.get .XLT_WIN_BASE_LPN tc w = base w ∧ u.get .XLT_WIN_LIMIT_LPN tc w = lim w) ∧ u.pg = s₁.pg ∧ u.xlt = s₁.xlt) ∧
  (∀ (q : Req) (s s₁ : State),
    let tc := q.tc.val
    Served { op := 0x0302, priv := 2, ctx := 1 } q none s s₁ →
    s₁.bound tc = false →
    s₁.ctxBusy tc = false →
    s₁.flushesOn < 16 →
    s₁.unaccepted = [] →
      Completes (exec (.segCtxDestroy q) s) (((s₁.flushDone { kind := 7, req := q }).put .XLT_CTX_CFG_EN 0 tc).regrant (s₁.flushDone { kind := 7, req := q })).showFlush q) ∧
  (∀ (q : Req) (s s₁ : State),
    let tc := q.tc.val
    let root := par q 0x10 8
    let clear := parBit q 0x18 0
    Served { op := 0x0303, priv := 1, ctx := 1, fields := [fld 0x10 8, fbits 0x18 0 1] } q (firstBad [(0x10, clear || (s.windowed tc root 1 && s.tier root == 5))]) s s₁ (if clear then none else s.lpnDeny q root 1) →
    clear = true →
    s₁.flushesOn < 16 →
    s₁.unaccepted = [] →
      Completes (exec (.segSetRoot q) s) ((s₁.put .XLT_CTX_CFG_ROOTV 0 tc).flushDone { kind := 6, req := q }).showFlush q) ∧
  (∀ (q : Req) (s s₁ : State),
    let tc := q.tc.val
    let root := par q 0x10 8
    let clear := parBit q 0x18 0
    Served { op := 0x0303, priv := 1, ctx := 1, fields := [fld 0x10 8, fbits 0x18 0 1] } q (firstBad [(0x10, clear || (s.windowed tc root 1 && s.tier root == 5))]) s s₁ (if clear then none else s.lpnDeny q root 1) →
    clear = false →
    s₁.flushesOn < 16 →
    s₁.unaccepted = [] →
      Completes (exec (.segSetRoot q) s) (((s₁.put .XLT_CTX_CFG_ROOT root tc).put .XLT_CTX_CFG_ROOTV 1 tc).flushDone { kind := 6, req := q }).showFlush q) ∧
  (∀ (q : Req) (s s₁ : State) (e : Extent),
    Served { op := 0x0304, priv := 2, fields := dcFields } q (s.dcBad q true) s s₁ →
    s₁.dcExtent q = some e →
    (s₁.freeSlot).isSome = true →
      Starts (exec (.segDcAdd q) s) s₁ ((s₁.setHead (par q 0x10 1) { s₁.head (par q 0x10 1) with dcPending := (s₁.head (par q 0x10 1)).dcPending ++
          [{ ext := e, release := false, forced := false, handle := s₁.nextHandle }] }).logCxl (par q 0x10 1) 4
        { handle := 0, kind := 4, typ := 0, a := e.base, b := e.len, c := e.region }) q (.dcAdd (par q 0x10 1))) ∧
  (∀ (q : Req) (s s₁ : State) (e : Extent),
    Served { op := 0x0305, priv := 2, fields := dcFields } q (s.dcBad q false) s s₁ →
    s₁.dcExtent q = some e →
    (s₁.freeSlot).isSome = true →
      Starts (exec (.segDcRelease q) s) s₁ ((s₁.setHead (par q 0x10 1) { s₁.head (par q 0x10 1) with dcPending := (s₁.head (par q 0x10 1)).dcPending ++
          [{ ext := e, release := true, forced := false, handle := s₁.nextHandle }] }).logCxl (par q 0x10 1) 4
        { handle := 0, kind := 4, typ := 1, a := e.base, b := e.len, c := e.region }) q (.dcRelease (par q 0x10 1))) ∧
  (∀ (s : State) (h : Fin 8) (p : DcPending) (parts : List (Nat × Nat)), s.mboxOpen h.val = true → (s.head h.val).dcPending.find? (fun p => p.release == false) = some p → partsOk p.ext parts = true →
      exec (.dcHostResponse h false parts) s = .next (((s.setHead h.val { s.head h.val with
          extents := (s.head h.val).extents ++ parts.map (fun x => Extent.mk p.ext.region x.1 x.2 p.ext.tag)
          dcPending := (s.head h.val).dcPending.erase p }).readyOp (p.handle % 64) stOk 0
          ((parts.map (fun x => Extent.mk p.ext.region x.1 x.2 p.ext.tag)).foldl (fun n e => n + e.len) 0)).mailbox h.val cxlSuccess [])) ∧
  (∀ (q : Req) (s s₁ : State),
    Served { op := 0x0400, priv := 1, mctp := true, ctx := 1, fields := [fld 0x10 8], output := true } q none s s₁ →
    2 ^ 48 ≤ par q 0x10 8 →
      Completes (exec (.xltQuery q) s) s₁ q 0 8 [] 0x02) ∧
  (∀ (q : Req) (s s₁ : State) (val lvl lpn addr : Nat),
    Served { op := 0x0400, priv := 1, mctp := true, ctx := 1, fields := [fld 0x10 8], output := true } q none s s₁ →
    par q 0x10 8 < 2 ^ 48 →
    (s₁.walk { holder := 8 + q.engine.val, tc := q.tc.val, ta := par q 0x10 8, master := mEng q.engine.val } false).2.1 = .leaf val lvl lpn addr →
      Completes (exec (.xltQuery q) s) s₁ q val 8 [(0, 8, lpn)] (lvl * 256)) ∧
  (∀ (q : Req) (s s₁ : State) (k lvl val : Nat) (a0 : Bool),
    Served { op := 0x0400, priv := 1, mctp := true, ctx := 1, fields := [fld 0x10 8], output := true } q none s s₁ →
    par q 0x10 8 < 2 ^ 48 →
    (s₁.walk { holder := 8 + q.engine.val, tc := q.tc.val, ta := par q 0x10 8, master := mEng q.engine.val } false).2.1 = .fault k lvl a0 val →
      Completes (exec (.xltQuery q) s) s₁ q val 8 [] (k + lvl * 256)) ∧
  (∀ (q : Req) (s s₁ : State),
    let range := par q 0x10 1
    let ta := par q 0x18 8
    let n := par q 0x20 8
    Served { op := 0x0401, priv := 1, ctx := 1, fields := [fld 0x10 1, fld 0x18 8, fld 0x20 8] } q (firstBad [(0x10, decide (range ≤ 1)), (0x18, decide (range ≠ 1 ∨ (ta % 4096 = 0 ∧ ta < 2 ^ 48))), (0x20, decide (range ≠ 1 ∨ (1 ≤ n ∧ n ≤ 2 ^ 36)))]) s s₁ →
    s₁.flushesOn < 16 →
    s₁.unaccepted = [] →
      Completes (exec (.xltFlush q) s) (s₁.flushDone { kind := 4, req := q }).showFlush q) ∧
  (∀ (q : Req) (s s₁ : State),
    Served { op := 0x0402, priv := 2 } q none s s₁ →
    s₁.flushesOn < 16 →
    s₁.unaccepted = [] →
      Completes (exec (.xltFlushAll q) s) (s₁.flushDone { kind := 5, req := q }).showFlush q) ∧
  (∀ (s : State) (q : Req),
      (par q 0x10 1 = 0 → s.flushScope { kind := 4, req := q } = s.flushCtx q.tc.val) ∧
      (par q 0x10 1 = 1 → s.flushScope { kind := 4, req := q } = s.flush q.tc.val (par q 0x18 8) (par q 0x20 8)) ∧
      s.flushScope { kind := 5, req := q } = s.setTlb [] ∧ s.flushScope { kind := 6, req := q } = s.flushCtx q.tc.val ∧ s.flushScope { kind := 7, req := q } = s.flushCtx q.tc.val) ∧
  (∀ (s : State) (ix : Nat),
      exec (.xltEntryExpire ix) s = .next (s.setTlb (s.xlt.tlb.eraseIdx ix))) ∧
  (∀ (s : State) (n : Fin 48), 0 < s.flushesOn →
      exec (.flushAckTimeout n) s = .next ((((({ s with xlt := { s.xlt with waiting := s.xlt.waiting.map (fun (w : Waiting) => { w with left := w.left.filter (fun k =>
        !(match tget k s.coh.reqs with | some r => r.req.master == mEng n.val | none => false)) }) } } : State).bump .XLT_FLUSH_STS_HUNG 0xFFFF).report
        (msg1 bXlt (8 + n.val) 4)).hangEngine n.val).wake))

/-- The tier commands complete with their effects (R241, R250, R263, R264, R265). -/
def Obligations.TieringCommands : Prop :=
  (∀ (q : Req) (s s₁ : State),
    let lpn := firstLpn q
    Served { op := 0x0500, priv := 1, mctp := true, ctx := 2, fields := [fbits 0x10 0 33] } q (firstBad [(0x0C, q.ctxv || decide (s.priv q.origin ≠ 1)), (0x10, decide (lpn < devWindow))]) s s₁ (if q.ctxv then s.lpnDeny q lpn 1 else none) →
      Completes (exec (.tierQuery q) s) s₁ q ((s₁.page lpn).pl.tier + b2n (s₁.page lpn).pl.pin * 2 ^ 3 + (s₁.page lpn).pl.heat * 2 ^ 4 + (s₁.page lpn).pl.obj * 2 ^ 8 +
        b2n (s₁.page lpn).pl.sh * 2 ^ 11 + (s₁.page lpn).pl.twk * 2 ^ 12 +
        (if ((s₁.page lpn).pl.tier = 2 ∨ (s₁.page lpn).pl.tier = 3 ∨ (s₁.page lpn).pl.tier = 4) ∧ ¬ (s₁.page lpn).pl.ns then (s₁.page lpn).pl.len else 0) * 2 ^ 14 +
        b2n (s₁.page lpn).pl.ns * 2 ^ 18 + (s₁.page lpn).pl.code * 2 ^ 19 + b2n (s₁.page lpn).pl.lock * 2 ^ 20 + (s₁.page lpn).pl.ver * 2 ^ 21 +
        s₁.twinNeed (s₁.page lpn) * 2 ^ 29)) ∧
  (∀ (q : Req) (s s₁ : State),
    let ob := par q 0x10 1
    let floor := par q 0x11 1
    let ceil := par q 0x12 1
    let promo := par q 0x13 1
    let age := par q 0x14 1
    let lend := parBits q 0x15 0 1
    let twin := parBits q 0x15 1 2
    Served { op := 0x0501, priv := 2, fields := [fld 0x10 5, fbits 0x15 0 4] } q (firstBad [(0x10, decide (ob < 8)), (0x11, decide (1 ≤ floor ∧ floor ≤ 3)), (0x12, decide (1 ≤ ceil ∧ ceil ≤ 3 ∧ ceil ≤ floor)), (0x13, decide (1 ≤ promo ∧ promo ≤ 15 ∧ (age = 0 ∨ 4 < age ∨ 2 ^ (4 - age) ≤ promo))), (0x14, decide (1 ≤ age ∧ age ≤ 4)), (0x15, decide (twin ≠ 3 ∧ (lend = 0 ∨ (floor ≠ 1 ∧ twin ≠ 2))))]) s s₁ →
      Completes (exec (.tierSetObjective q) s) ((((((((s₁.put .XLT_OBJ_FLOOR floor ob).put .XLT_OBJ_CEIL ceil ob).put .XLT_OBJ_PROMO promo ob).put .XLT_OBJ_AGE age ob).put .XLT_OBJ_LEND lend ob).put
        .XLT_OBJ_TWIN twin ob).put .XLT_OBJ_CODE (parBits q 0x15 3 1) ob).boundsPass ob) q) ∧
  (∀ (q : Req) (s s₁ : State) (u : State),
    let t := par q 0x20 1
    let l := pagesOf q
    let ok' := decide (1 ≤ pageCount q ∧ pageCount q ≤ 512)
    Served { op := 0x0502, priv := 1, ctx := 2, fields := rangeFields ++ [fld 0x20 1] } q (firstBad (s.rangeChecks q ++ [(0x20, decide (t ≤ 3)), (0x20, !ok' || l.all (fun p => !(s.page p).pl.sh || decide (s.pinTarget p t = 1) || !(hasImage (s.tier p)) || s.tier p == 5))])) s s₁ (if q.ctxv then s.lpnDeny q (firstLpn q) (pageCount q) else none) →
    (∀ p ∈ l, 1 ≤ s₁.tier p ∧ s₁.tier p ≤ 4) →
    u = l.foldl (fun (s : State) p => s.pinPage p t) s₁ →
    u.pg.opPages.any (fun o => o.handle == s₁.nextHandle) = false →
      Completes (exec (.tierPin q) s) u q) ∧
  (∀ (q : Req) (s s₁ : State) (u : State),
    let t := par q 0x20 1
    let l := pagesOf q
    let ok' := decide (1 ≤ pageCount q ∧ pageCount q ≤ 512)
    Served { op := 0x0502, priv := 1, ctx := 2, fields := rangeFields ++ [fld 0x20 1] } q (firstBad (s.rangeChecks q ++ [(0x20, decide (t ≤ 3)), (0x20, !ok' || l.all (fun p => !(s.page p).pl.sh || decide (s.pinTarget p t = 1) || !(hasImage (s.tier p)) || s.tier p == 5))])) s s₁ (if q.ctxv then s.lpnDeny q (firstLpn q) (pageCount q) else none) →
    (∀ p ∈ l, 1 ≤ s₁.tier p ∧ s₁.tier p ≤ 4) →
    u = l.foldl (fun (s : State) p => s.pinPage p t) s₁ →
    u.pg.opPages.any (fun o => o.handle == s₁.nextHandle) = true →
    (s₁.freeSlot).isSome = true →
      Starts (exec (.tierPin q) s) s₁ u q .tierPin) ∧
  (∀ (s : State) (lpn t : Nat),
      (s.pinPage lpn t).pg.mem = s.pg.mem ∧ ((s.pinPage lpn t).page lpn).pl.pin = true ∧
      (s.tier lpn ≠ s.pinTarget lpn t → OpPage.mk s.nextHandle lpn false (s.pinTarget lpn t) ∈ (s.pinPage lpn t).pg.opPages)) ∧
  (∀ (q : Req) (s s₁ : State),
    Served { op := 0x0503, priv := 1, ctx := 2, fields := rangeFields } q (firstBad (s.rangeChecks q)) s s₁ (if q.ctxv then s.lpnDeny q (firstLpn q) (pageCount q) else none) →
      Completes (exec (.tierUnpin q) s) ((pagesOf q).foldl (fun (s : State) l => s.putPage l { s.page l with pl := { (s.page l).pl with pin := false } }) s₁).settleOps q) ∧
  (∀ (q : Req) (s s₁ : State) (u : State),
    let kind := par q 0x20 1
    let l := pagesOf q
    let ok' := decide (1 ≤ pageCount q ∧ pageCount q ≤ 512)
    Served { op := 0x0504, priv := 1, ctx := 2, fields := rangeFields ++ [fld 0x20 1] } q (firstBad (s.rangeChecks q ++ [(0x20, decide (kind ≤ 2)), (0x20, !ok' || kind != 0 || l.all (fun p => s.get .XLT_OBJ_TWIN (s.page p).pl.obj == 0))])) s s₁ (if q.ctxv then s.lpnDeny q (firstLpn q) (pageCount q) else none) →
    (kind < 2 ∨ s₁.portUp 0 = true ∨ s₁.portUp 1 = true) →
    u = l.foldl (fun (s : State) p => s.askTwin p kind) s₁ →
    u.pg.opPages.any (fun o => o.handle == s₁.nextHandle) = false →
      Completes (exec (.tierTwin q) s) u.settleOps q) ∧
  (∀ (q : Req) (s s₁ : State) (u : State),
    let kind := par q 0x20 1
    let l := pagesOf q
    let ok' := decide (1 ≤ pageCount q ∧ pageCount q ≤ 512)
    Served { op := 0x0504, priv := 1, ctx := 2, fields := rangeFields ++ [fld 0x20 1] } q (firstBad (s.rangeChecks q ++ [(0x20, decide (kind ≤ 2)), (0x20, !ok' || kind != 0 || l.all (fun p => s.get .XLT_OBJ_TWIN (s.page p).pl.obj == 0))])) s s₁ (if q.ctxv then s.lpnDeny q (firstLpn q) (pageCount q) else none) →
    (kind < 2 ∨ s₁.portUp 0 = true ∨ s₁.portUp 1 = true) →
    u = l.foldl (fun (s : State) p => s.askTwin p kind) s₁ →
    u.pg.opPages.any (fun o => o.handle == s₁.nextHandle) = true →
    (s₁.freeSlot).isSome = true →
      Starts (exec (.tierTwin q) s) s₁ u q .tierTwin) ∧
  (∀ (q : Req) (s s₁ : State) (new : List (Nat × Nat)),
    Served { op := 0x0505, priv := 2, fields := [fld 0x10 5, fld 0x16 2, fld 0x18 4, fld 0x1C 2] } q (firstBad (budgetRows.map (fun r => (r.2.1, decide (par q r.2.1 r.2.2.1 = 0 ∨ (r.2.2.2.1 ≤ par q r.2.1 r.2.2.1 ∧ par q r.2.1 r.2.2.1 ≤ r.2.2.2.2)))) ++ [(0x14, decide (s.nextTier q 4 0x14 1 < s.nextTier q 3 0x13 1))])) s s₁ →
    new = (budgetRows.filter (fun r => par q r.2.1 r.2.2.1 != 0)).map (fun r => (r.1, par q r.2.1 r.2.2.1)) →
      Completes (exec (.tierSetBudget q) s) { s₁ with pg := { s₁.pg with newTier := s₁.pg.newTier.filter (fun x => !new.any (fun y => y.1 == x.1)) ++ new } } q) ∧
  (∀ (q : Req) (s s₁ : State),
    let a := par q 0x10 2
    Served { op := 0x0506, priv := 0, output := true, fields := [fld 0x10 2] } q (firstBad [(0x10, decide (a ≤ 257 ∨ a = 0xFFFF))]) s s₁ →
      ∃ out, Completes (exec (.tierCapacity q) s) s₁ q 0 256 out ∧ (∀ k < 6, (8 * k, 8, s₁.get .XLT_CAP_COUNT k) ∈ out) ∧ (∀ h < 16, (0x80 + 8 * h, 8, tgetD 0 h s₁.pg.hist) ∈ out) ∧
        (a ≠ 0xFFFF → (0x40, 8, s₁.commit a) ∈ out ∧ (0x48, 8, s₁.thin a) ∈ out ∧ (0x50, 8, s₁.pop a) ∈ out ∧ (0x58, 8, s₁.used a) ∈ out ∧ (0x60, 8, s₁.res a) ∈ out)) ∧
  (∀ (q : Req) (s s₁ : State) (u : State),
    let a := q.tc.val
    let commit := par q 0x10 8
    let thin := par q 0x18 8
    let twl := parBits q 0x20 0 1
    Served { op := 0x0507, priv := 2, ctx := 1, fields := [fld 0x10 8, fld 0x18 8, fbits 0x20 0 1] } q (firstBad [(0x10, decide (commit ≤ s.windowPages a)), (0x18, decide (commit + thin ≤ s.windowPages a))]) s s₁ →
    u = ((s₁.put .XLT_ACCT_VALUE commit a 0).put .XLT_ACCT_VALUE thin a 1).put .XLT_ACCT_TWL twl a →
    u.res a - s₁.res a ≤ s₁.get .XLT_CAP_COUNT 3 →
      Completes (exec (.tierThinConsent q) s) (u.put .XLT_CAP_COUNT (s₁.get .XLT_CAP_COUNT 2 + u.res a - s₁.res a) 2).repress q) ∧
  (∀ (q : Req) (s s₁ : State) (u : State),
    let a := q.tc.val
    let commit := par q 0x10 8
    let thin := par q 0x18 8
    let twl := parBits q 0x20 0 1
    Served { op := 0x0507, priv := 2, ctx := 1, fields := [fld 0x10 8, fld 0x18 8, fbits 0x20 0 1] } q (firstBad [(0x10, decide (commit ≤ s.windowPages a)), (0x18, decide (commit + thin ≤ s.windowPages a))]) s s₁ →
    u = ((s₁.put .XLT_ACCT_VALUE commit a 0).put .XLT_ACCT_VALUE thin a 1).put .XLT_ACCT_TWL twl a →
    s₁.get .XLT_CAP_COUNT 3 < u.res a - s₁.res a →
      Refused (exec (.tierThinConsent q) s) s₁ q stNoSpace (min 0xFFFFFFFF (u.res a - s₁.res a - s₁.get .XLT_CAP_COUNT 3)))

/-- The CXL mailbox, DOE, SPDM and IDE_KM commands take effect (R55, R66, R67, R68, R70, R93, R97, R309). -/
def Obligations.MailboxAndDiscoveryCommands : Prop :=
  (∀ (s : State) (h : Fin 8), s.mboxOpen h.val = true →
      exec (.mailboxBadLength h) s = .next (s.mailbox h.val cxlInvalidLength []) ∧
      exec (.mailboxUnsupported h) s = .next (s.mailbox h.val cxlUnsupported []) ∧ exec .mctpShortMessage s = .next s) ∧
  (∀ (s : State) (h : Fin 8) (log : Fin 5), s.mboxOpen h.val = false →
      exec (.mailboxBadLength h) s = .next s ∧ exec (.mailboxUnsupported h) s = .next s ∧ exec (.getPoisonList h) s = .next s ∧
      exec (.getEventRecords h log) s = .next s ∧ exec (.clearEventRecords h log none) s = .next s) ∧
  (∀ (s : State) (h : Fin 8), s.mboxOpen h.val = true →
      exec (.getPoisonList h) s = .next (s.mailbox h.val cxlSuccess ([(0, 1, b2n (s.head h.val).poisonOvf),
        (1, 8, (s.head h.val).poisonOvfTime), (9, 2, (s.head h.val).poison.length)] ++
          (List.range (s.head h.val).poison.length).map (fun i => (0x20 + 16 * i, 8, (s.head h.val).poison.getD i 0))))) ∧
  (∀ (s u : State) (h : Fin 8) (dpa : Dpa) (d : Line) (hint l : Nat), s.mboxOpen h.val = true → s.isSet .HPT_DEV_STS_STEWARD h.val = true → s.lineOf h.val dpa.val = some l → u = s.deviceWrite h.val l d false 0 hint →
      exec (.injectPoison h dpa hint) s = .next (((s.deviceWrite h.val l 0 true 7 hint).listPoison h.val dpa.val).mailbox h.val cxlSuccess []) ∧
      exec (.clearPoison h dpa d hint) s = .next ((u.setHead h.val { u.head h.val with
        poison := (u.head h.val).poison.filter (fun x => decide (x ≠ dpa.val / 64 * 64)) }).mailbox h.val cxlSuccess [])) ∧
  (∀ (s : State) (h : Fin 8) (dpa : Dpa) (d : Line) (hint : Nat), s.mboxOpen h.val = true → (s.isSet .HPT_DEV_STS_STEWARD h.val = false ∨ s.lineOf h.val dpa.val = none) →
      ∃ code, code ≠ cxlSuccess ∧ exec (.injectPoison h dpa hint) s = .next (s.mailbox h.val code []) ∧ exec (.clearPoison h dpa d hint) s = .next (s.mailbox h.val code [])) ∧
  (∀ (s : State) (h : Fin 8) (log : Fin 5) (l : EvLog), s.mboxOpen h.val = true → l = tgetD {} log.val (s.head h.val).logs →
      exec (.getEventRecords h log) s = .next (s.mailbox h.val cxlSuccess
        ([(0, 1, b2n l.overflow), (2, 2, l.ovfCount), (4, 8, l.ovfFirst), (12, 8, l.ovfLast), (20, 2, l.recs.length)] ++
          (List.range l.recs.length).flatMap (fun i => cxlRecOut (0x20 + 128 * i) (l.recs.getD i { handle := 0, kind := 0 }))))) ∧
  (∀ (s : State) (h : Fin 8) (log : Fin 5) (hs : List Nat) (l : EvLog), s.mboxOpen h.val = true → l = { tgetD {} log.val (s.head h.val).logs with overflow := false, ovfCount := 0, ovfFirst := 0, ovfLast := 0 } →
      exec (.clearEventRecords h log (some hs)) s = .next ((s.setHead h.val { s.head h.val with
        logs := tput log.val { l with recs := l.recs.filter (fun r => !hs.contains r.handle) } (s.head h.val).logs }).mailbox h.val cxlSuccess []) ∧
      exec (.clearEventRecords h log none) s = .next ((s.setHead h.val { s.head h.val with logs := tput log.val { l with recs := [] } (s.head h.val).logs }).mailbox h.val cxlSuccess [])) ∧
  (∀ (s : State) (h : Fin 8) (v : Nat), s.mboxOpen h.val = true →
      exec (.cxlMandatoryCommand h 0x0103 v) s = .next ((s.setHead h.val { s.head h.val with irqPolicy := v % 32 }).mailbox h.val cxlSuccess []) ∧
      exec (.cxlMandatoryCommand h 0x0102 v) s = .next (s.mailbox h.val cxlSuccess [(0, 5, (s.head h.val).irqPolicy)]) ∧
      exec (.cxlMandatoryCommand h 0x0301 v) s = .next ((s.setHead h.val { s.head h.val with cxlTime := v, cxlTimeAt := s.now }).mailbox h.val cxlSuccess []) ∧
      exec (.cxlMandatoryCommand h 0x0300 v) s = .next (s.mailbox h.val cxlSuccess [(0, 8, ((s.head h.val).cxlTime + (s.now - (s.head h.val).cxlTimeAt)) % 2 ^ 64)]) ∧
      exec (.cxlMandatoryCommand h 0x4201 v) s = .next (s.mailbox h.val cxlSuccess [(0, 16, (s.head h.val).alerts)]) ∧
      exec (.cxlMandatoryCommand h 0x4202 v) s = .next ((s.setHead h.val { s.head h.val with alerts := v }).mailbox h.val cxlSuccess []) ∧
      exec (.cxlMandatoryCommand h 0x4000 v) s = .next (s.mailbox h.val cxlSuccess (s.identifyOut h.val)) ∧
      exec (.cxlMandatoryCommand h 0x4200 v) s = .next ((s.mailbox h.val cxlSuccess [(0, 1, s.draw), (1, 1, if s.status h.val = stOk then 0 else 1), (3, 2, s.draw), (6, 4, 0)]).drawn) ∧
      exec (.cxlMandatoryCommand h 0x4800 v) s = .next (s.mailbox h.val cxlSuccess (s.dcConfigOut h.val)) ∧
      exec (.cxlMandatoryCommand h 0x4801 v) s = .next (s.mailbox h.val cxlSuccess (s.dcExtentsOut h.val)) ∧
      exec (.cxlMandatoryCommand h 0x4300 v) s = .next (s.mailbox h.val cxlUnsupported []) ∧
      exec (.cxlMandatoryCommand h 0xC999 v) s = .next ((s.drawn.emit (.reply (.mailbox h) false stBadOpcode (s.draw % 2 ^ 32) 0 0 0 [])).mailbox h.val cxlSuccess [])) ∧
  (∀ (s : State) (h : Fin 8), s.alive = true →
      exec (.doeDiscovery h 0) s = .next (s.emit (.doe h.val 0 [(0, 2, 0x0001), (2, 1, 0), (3, 1, 1)])) ∧
      exec (.doeDiscovery h 1) s = .next (s.emit (.doe h.val 0 [(0, 2, 0x0001), (2, 1, 1), (3, 1, 2)])) ∧
      exec (.doeDiscovery h 2) s = .next (s.emit (.doe h.val 0 [(0, 2, 0x0001), (2, 1, 2), (3, 1, 3)])) ∧
      exec (.doeDiscovery h 3) s = .next (s.emit (.doe h.val 0 [(0, 2, 0x1E98), (2, 1, 2), (3, 1, 0)])) ∧
      exec (.cdatTableAccess h) s = .next ((s.emit (.doe h.val 1 ((0, 16, s.draw % 2 ^ 128) :: (List.range (s.cdatRanges h.val).length).flatMap (fun k =>
        cdatOut (16 + 96 * k) k (if s.host.x8.contains (h.val / 2) then 120 else 240) ((s.cdatRanges h.val).getD k (0, 0)))))).drawn)) ∧
  (∀ (s : State) (holder : Fin 512) (id : Nat), s.alive = true →
      exec (.spdmRequest holder (.finish id)) s = .next ((({ s with sec := { s.sec with sessions := if s.hasSession holder.val id then s.sec.sessions else
        s.sec.sessions ++ [(holder.val, id)] } } : State).emit (.doe holder.val 2 [(0, 64, s.draw)])).drawn) ∧
      exec (.spdmRequest holder (.endSession id)) s = .next ((({ s with sec := { s.sec with sessions := s.sec.sessions.filter (fun x => x != (holder.val, id)) } } : State).emit
        (.doe holder.val 2 [(0, 64, s.draw)])).drawn) ∧
      exec (.spdmRequest holder .measurements) s = .next ((s.emit (.doe holder.val 2 [(0, 64, s.draw), (64, 1, s.get .ACC_DBG_LEVEL)])).drawn) ∧
      exec (.spdmRequest holder .pskExchange) s = .next (s.emit (.doe holder.val 3 []))) ∧
  (∀ (s : State) (h : Fin 8) (id : Nat), s.alive = true → s.hasSession h.val id = true →
      exec (.ideKmRequest h id true .keyProg) s = .next ((s.setHead h.val { s.head h.val with ideKeyMem := true }).emit (.doe h.val 4 [])) ∧
      exec (.ideKmRequest h id false .keyProg) s = .next ((s.setHead h.val { s.head h.val with ideKeyLink := true }).emit (.doe h.val 4 [])) ∧
      exec (.ideKmRequest h id true .stop) s = .next ((s.put .HPT_HEAD_STS_IDE 0 h.val).emit (.doe h.val 4 [])) ∧
      exec (.ideKmRequest h id false .stop) s = .next ((s.setHead h.val { s.head h.val with ideLink := 0 }).emit (.doe h.val 4 [])) ∧
      exec (.ideKmRequest h id true .query) s = .next (s.emit (.doe h.val 4 []))) ∧
  (∀ (s : State) (h : Fin 8) (id : Nat) (skid : Bool), s.alive = true → s.hasSession h.val id = true → (s.head h.val).ideKeyMem = true →
      exec (.ideKmRequest h id true (.go skid)) s = .next ((s.put .HPT_HEAD_STS_IDE (if skid then 2 else 1) h.val).emit (.doe h.val 4 []))) ∧
  (∀ (s : State) (h : Fin 8) (id : Nat) (skid : Bool), s.alive = true → s.hasSession h.val id = true → (s.head h.val).ideKeyLink = true →
      exec (.ideKmRequest h id false (.go skid)) s = .next ((s.setHead h.val { s.head h.val with ideLink := 1 }).emit (.doe h.val 4 []))) ∧
  (∀ (s : State) (h : Fin 8) (id : Nat) (skid : Bool), s.alive = true → s.hasSession h.val id = true → (s.head h.val).ideKeyMem = false →
      exec (.ideKmRequest h id true (.go skid)) s = .next (s.emit (.doe h.val 4 [])))

/-- Doorbells, the states of a ring, fetches and starts act as R94 to R96 say (R94, R95, R96, R98). -/
def Obligations.RingStates : Prop :=
  (∀ (s : State) (h : Fin 8) (r : Fin 64), s.get .HPT_RING_STS_STATE h.val r.val = 0 →
      exec (.ringEnable h r) s = .next ((((((((s.put .HPT_RING_STS_STATE 1 h.val r.val).put .HPT_RING_STS_SQHEAD 0 h.val r.val).put .HPT_RING_STS_CQTAIL 0 h.val r.val).put
        .HPT_RING_STS_PHASE 1 h.val r.val).put .HPT_RING_CTL_EN 1 h.val r.val).put .HPT_SQ_DB_TAIL 0 h.val r.val).muteRing h.val r.val).setRing h.val r.val
        { pass := (s.ring h.val r.val).pass + 1 })) ∧
  (∀ (s u : State) (h : Fin 8) (r : Fin 64), s.get .HPT_RING_STS_STATE h.val r.val = 1 → u = ((s.put .HPT_RING_CTL_EN 0 h.val r.val).put .HPT_RING_STS_SQHEAD
        ((s.ring h.val r.val).fetched.headD (s.get .HPT_RING_STS_SQHEAD h.val r.val)) h.val r.val).setRing h.val r.val { s.ring h.val r.val with fetched := [], fetching := 0 } →
      exec (.ringDrain h r) s = .next ((u.abandonReads h.val (fun t => decide (t = .entries r.val))).put .HPT_RING_STS_STATE 3 h.val r.val)) ∧
  (∀ (s : State) (h : Fin 8) (r : Fin 64), s.get .HPT_RING_STS_STATE h.val r.val = 2 →
      exec (.ringDrain h r) s = .next (((s.put .HPT_RING_CTL_EN 0 h.val r.val).put .HPT_RING_STS_STATE 0 h.val r.val).put .HPT_RING_STS_STOPST 0 h.val r.val)) ∧
  (∀ (s : State) (h : Fin 8) (r : Fin 64), s.get .HPT_RING_STS_STATE h.val r.val = 3 → (s.ring h.val r.val).inFlight = 0 →
      exec (.ringDrainDone h r) s = .next (s.put .HPT_RING_STS_STATE 0 h.val r.val)) ∧
  (∀ (s : State) (h : Fin 8) (r : Fin 64),
      exec (.ringAbort h r) s = .next ((s.abortRing h.val r.val).abandonReads h.val (fun u => match u with | .entries k => k == r.val | .payload k _ => k == r.val | .job _ => false)) ∧
      (s.abortRing h.val r.val).get .HPT_RING_STS_STATE h.val r.val = 0 ∧ ((s.abortRing h.val r.val).ring h.val r.val).inFlight = 0 ∧ ((s.abortRing h.val r.val).ring h.val r.val).started = []) ∧
  (∀ (s : State) (h : Fin 8) (r : Fin 64) (tail : Fin 65536), s.get .HPT_RING_STS_STATE h.val r.val ≠ 1 →
      exec (.sqDoorbell h r tail) s = .next (s.put .HPT_SQ_DB_TAIL tail.val h.val r.val)) ∧
  (∀ (s : State) (h : Fin 8) (r : Fin 64) (tail : Fin 65536), s.get .HPT_RING_STS_STATE h.val r.val = 1 → s.sqSize h.val r.val ≤ tail.val →
      exec (.sqDoorbell h r tail) s = .next ((s.put .HPT_SQ_DB_TAIL tail.val h.val r.val).stopRing h.val r.val stBadParam)) ∧
  (∀ (s : State) (h : Fin 8) (r : Fin 64) (tail : Fin 65536), s.get .HPT_RING_STS_STATE h.val r.val = 1 → tail.val < s.sqSize h.val r.val →
      exec (.sqDoorbell h r tail) s = .next ((s.put .HPT_SQ_DB_TAIL tail.val h.val r.val).fetch h.val r.val)) ∧
  (∀ (s : State) (h : Fin 8) (r : Fin 64) (head : Fin 65536) (left : Nat), (s.get .HPT_RING_STS_STATE h.val r.val = 1 ∨ s.get .HPT_RING_STS_STATE h.val r.val = 3) → head.val < s.cqSize h.val r.val → left = (s.get .HPT_RING_STS_CQTAIL h.val r.val + s.cqSize h.val r.val - head.val) % s.cqSize h.val r.val → left ≤ (s.ring h.val r.val).unreleased →
      exec (.cqDoorbell h r head) s = .next ((s.put .HPT_CQ_DB_HEAD head.val h.val r.val).setRing h.val r.val { s.ring h.val r.val with unreleased := left })) ∧
  (∀ (s : State) (h : Fin 8) (r : Fin 64) (head : Fin 65536), s.get .HPT_RING_STS_STATE h.val r.val = 1 → s.cqSize h.val r.val ≤ head.val →
      exec (.cqDoorbell h r head) s = .next ((s.put .HPT_CQ_DB_HEAD head.val h.val r.val).stopRing h.val r.val stBadParam)) ∧
  (∀ (s : State) (h : Fin 8) (r : Fin 64) (t : Nat), (s.head h.val).tags.find? (fun x => decide (x.2 = .entries r.val)) = some (t, .entries r.val) →
      exec (.ringEntryFetch h r false false) s = .next (((s.freeTag h.val t).fetched h.val r.val).refetch h.val)) ∧
  (∀ (s : State) (h : Fin 8) (r : Fin 64) (t : Nat), (s.head h.val).tags.find? (fun x => decide (x.2 = .entries r.val)) = some (t, .entries r.val) → s.get .HPT_RING_STS_STATE h.val r.val = 1 →
      exec (.ringEntryFetch h r false true) s = .next (((s.freeTag h.val t).stopRing h.val r.val stFaulted).refetch h.val)) ∧
  (∀ (s : State) (h : Fin 8) (r : Fin 64) (t ix : Nat), (s.head h.val).tags = [(t, .payload r.val ix)] → s.get .HPT_RING_STS_STATE h.val r.val = 1 →
      exec (.ringEntryFetch h r true false) s = .next (((s.freeTag h.val t).payloadIn h.val r.val ix).refetch h.val) ∧
      exec (.ringEntryFetch h r true true) s = .next ((((s.freeTag h.val t).dropStarted h.val r.val ix).stopRing h.val r.val stFaulted).refetch h.val)) ∧
  (∀ (s : State) (h : Fin 8) (r : Fin 64) (fence : Bool), s.mayStart h.val r.val fence = true →
      exec (.ringCommandStart h r fence none) s = .next (s.setRing h.val r.val { s.ring h.val r.val with
        fetched := (s.ring h.val r.val).fetched.drop 1, inFlight := (s.ring h.val r.val).inFlight + 1, fenced := fence
        started := (s.ring h.val r.val).started ++ [{ ix := (s.ring h.val r.val).fetched.headD 0, fence := fence, wait := false }] })) ∧
  (∀ (s t : State) (h : Fin 8) (r : Fin 64) (fence : Bool) (addr len : Nat), s.mayStart h.val r.val fence = true → s.issueRead h.val addr len (.payload r.val ((s.ring h.val r.val).fetched.headD 0)) = some t →
      exec (.ringCommandStart h r fence (some (addr, len))) s = .next (t.setRing h.val r.val { s.ring h.val r.val with
        fetched := (s.ring h.val r.val).fetched.drop 1, inFlight := (s.ring h.val r.val).inFlight + 1, fenced := fence
        started := (s.ring h.val r.val).started ++ [{ ix := (s.ring h.val r.val).fetched.headD 0, fence := fence, wait := true }] })) ∧
  (∀ (s : State) (h : Fin 8) (mask : Fin (2 ^ 64)),
      exec (.opdoneClear h mask) s = .next (s.put .HPT_PYX_OPDONE_DONE (s.get .HPT_PYX_OPDONE_DONE h.val - (s.get .HPT_PYX_OPDONE_DONE h.val &&& mask.val)) h.val)) ∧
  (∀ (s : State) (h : Fin 8) (r : Fin 64), s.isSet .HPT_RING_CFG_IRQ_EN h.val r.val = true → 0 < (s.ring h.val r.val).unsignalled →
      exec (.msixCoalesceTimeout h r) s = .next ((s.setRing h.val r.val { s.ring h.val r.val with unsignalled := 0 }).msix h.val (8 + r.val)))

/-- Completions, timeouts and quarantine of bus-master reads, and the enables of the bus master (R51, R71, R72, R73, R74, R56, R78). -/
def Obligations.BusMasterReads : Prop :=
  (∀ (s : State) (h : Fin 8) (tag : Fin 16384) (u : TagUse), tget tag.val (s.head h.val).tags = some u →
      exec (.bmCompletion h tag true) s = .next (((s.freeTag h.val tag.val).readDone h.val u).refetch h.val) ∧ exec (.bmCompletion h tag false) s = .next (s)) ∧
  (∀ (s : State) (h : Fin 8) (r ix j : Nat),
      s.readDone h.val (.entries r) = s.fetched h.val r ∧ s.readDone h.val (.payload r ix) = s.payloadIn h.val r ix ∧ s.readDone h.val (.job j) = s) ∧
  (∀ (s : State) (h : Fin 8) (tag : Fin 16384) (last : Bool), tget tag.val (s.head h.val).tags = none → (s.head h.val).quar.contains tag.val = true →
      exec (.bmCompletion h tag last) s = .next (s.bump .HPT_LATE_CPL_COUNT 0xFFFFFFFF h.val)) ∧
  (∀ (s : State) (h : Fin 8) (tag : Fin 16384) (last : Bool), tget tag.val (s.head h.val).tags = none → (s.head h.val).quar.contains tag.val = false →
      exec (.bmCompletion h tag last) s = .next (s.setHead h.val { s.head h.val with aer := (s.head h.val).aer ||| 2 })) ∧
  (∀ (s u v : State) (h : Fin 8) (tag : Fin 16384) (use : TagUse), tget tag.val (s.head h.val).tags = some use → (s.head h.val).cplDisable = false →
      tgetD 0 tag.val (s.head h.val).tagAt + s.cplT h.val ≤ s.now → u = s.quarTag h.val tag.val →
      v = ((u.setHead h.val { u.head h.val with aer := (s.head h.val).aer ||| 1 }).bump .HPT_CPL_TMO_COUNT 0xFFFFFFFF h.val).report (msg2 bHpt h.val 5) →
      (∀ r, use = .entries r → exec (.completionTimeout h tag) s = .next (if v.get .HPT_RING_STS_STATE h.val r = 1 then v.stopRing h.val r stTimeout else v)) ∧
      (∀ r ix w, use = .payload r ix → w = v.dropStarted h.val r ix →
        exec (.completionTimeout h tag) s = .next (if w.get .HPT_RING_STS_STATE h.val r = 1 then w.stopRing h.val r stTimeout else w)) ∧
      (∀ j, use = .job j → exec (.completionTimeout h tag) s = .next (v.cutJob j stTimeout 0))) ∧
  (∀ (s : State) (h : Fin 8) (tag : Fin 16384), tgetD 0 tag.val (s.head h.val).quarTo ≤ s.now →
      exec (.tagQuarantineExpire h tag) s = .next ((s.setHead h.val { s.head h.val with quar := lremove tag.val (s.head h.val).quar, quarTo := tdel tag.val (s.head h.val).quarTo }).refetch h.val) ∧
      tag.val ∉ lremove tag.val (s.head h.val).quar) ∧
  (∀ (s : State) (h : Fin 8),
      exec (.busMasterEnableSet h) s = .next ((s.put .HPT_HEAD_STS_BME 1 h.val).sendPending h.val (s.head h.val).msixPend)) ∧
  (∀ (s u : State) (h : Fin 8), u = (s.put .HPT_HEAD_STS_BME 0 h.val).abandonReads h.val (fun _ => true) →
      exec (.busMasterEnableCleared h) s = .next ((((u.ringsOf h.val).foldl (fun (s : State) r => s.stopRing h.val r stBusMasterOff) u).endJobs
          (fun j => byHead h.val j.req) stBusMasterOff).breakSessions (fun x => x.ring.1 == h.val)) ∧ (u.head h.val).tags = []) ∧
  (∀ (s : State) (h : Fin 8) (v : Fin 72) (a d : Nat), ((s.head h.val).msixPend.contains v.val = false ∨ s.isSet .HPT_HEAD_STS_BME h.val = false) →
      exec (.msixVectorUnmask h v a d) s = .next (s.setHead h.val { s.head h.val with msix := tput v.val { addr := a, data := d, mask := false } (s.head h.val).msix })) ∧
  (∀ (s : State) (h : Fin 8) (v : Fin 72) (a d : Nat), (s.head h.val).msixPend.contains v.val = true → s.isSet .HPT_HEAD_STS_BME h.val = true →
      exec (.msixVectorUnmask h v a d) s = .next ((s.setHead h.val { s.head h.val with msix := tput v.val { addr := a, data := d, mask := false } (s.head h.val).msix }).sendPending h.val [v.val]))

/-- Links come up, heads depart, functions reset, bindings and decoders change as the chapter says (R23, R28, R48, R49, R50, R57, R60, R62, R64, R67, R75, R76). -/
def Obligations.LinksDeparturesAndResets : Prop :=
  (∀ (s : State) (h : Fin 8) (rate : Fin 7) (width : Fin 17) (flit : Fin 3), s.isSet .HPT_HEAD_STS_DEPARTING h.val = false → s.isSet .COH_EPOCH_SWEEP_WAIT h.val = false → s.halt = none → s.alive = true → s.host.perstHigh.contains (h.val / 2) = true → (h.val % 2 = 0 ∨ s.host.x8.contains (h.val / 2) = true) → rate.val ≤ s.get .HPT_PORT_CFG_MAXRATE (h.val / 2) → (width.val = 1 ∨ width.val = 2 ∨ width.val = 4 ∨ width.val = 8 ∨ width.val = 16 ∧ s.host.x8.contains (h.val / 2) = false) → (rate.val ≤ 4 ∧ flit.val = 0 ∨ 4 < rate.val ∧ flit.val ≠ 0) → ((s.head h.val).training = true ∨ s.isSet .HPT_HEAD_STS_LINK_UP h.val = true) →
      exec (.linkUp h rate width flit) s = .next (((((s.put .HPT_HEAD_STS_LINK_UP 1 h.val).put .HPT_HEAD_STS_RATE rate.val h.val).put .HPT_HEAD_STS_WIDTH width.val h.val).put
        .HPT_HEAD_STS_FLIT flit.val h.val).setHead h.val { s.head h.val with reachedL0 := true, training := false, quiesced := false })) ∧
  (∀ (s : State) (h : Fin 8), s.isSet .HPT_HEAD_STS_LINK_UP h.val = true →
      ∃ (u : State) (l : List Nat), exec (.linkDown h) s = .next (u.recallsGone h.val l) ∧ exec (.hotReset h) s = .next (u.recallsGone h.val l) ∧
        exec (.linkEnterL2L3 h) s = .next (u.recallsGone h.val l) ∧ u.get .HPT_HEAD_STS_LINK_UP h.val = 0 ∧ u.get .HPT_HEAD_STS_DEPARTING h.val = 1 ∧
        (u.head h.val).decoders = [] ∧ (u.head h.val).msix = [] ∧ (u.head h.val).reachedL0 = false ∧ (u.head h.val).biDec = false ∧
        u.get .COH_EPOCH_EPOCH h.val = (s.get .COH_EPOCH_EPOCH h.val + 1) % 65536 ∧ u.coh.bi.all (fun b => b.1 != h.val) = true) ∧
  (∀ (s u : State) (p : Fin 4), u = (({ s with host := { s.host with perstHigh := lremove p.val s.host.perstHigh } } : State).depart (2 * p.val)).depart (2 * p.val + 1) →
      exec (.perstAssert p) s = .next ((u.setHead (2 * p.val) { u.head (2 * p.val) with training := false }).setHead (2 * p.val + 1)
        { (u.setHead (2 * p.val) { u.head (2 * p.val) with training := false }).head (2 * p.val + 1) with training := false })) ∧
  (∀ (s u : State) (p : Fin 4), u = { s with host := { s.host with perstHigh := linsert p.val s.host.perstHigh, x8 := lset p.val false s.host.x8 } } → s.isSet .HPT_PORT_CFG_MODE p.val = false → s.isSet .HPT_HEAD_STS_LINK_UP (2 * p.val) = false → s.isSet .HPT_HEAD_STS_LINK_UP (2 * p.val + 1) = false →
      exec (.perstDeassert p) s = .next (u.setHead (2 * p.val) { u.head (2 * p.val) with training := true })) ∧
  (∀ (s u : State) (p : Fin 4), u = { s with host := { s.host with perstHigh := linsert p.val s.host.perstHigh, x8 := lset p.val true s.host.x8 } } → s.isSet .HPT_PORT_CFG_MODE p.val = true → s.isSet .HPT_HEAD_STS_LINK_UP (2 * p.val) = false → s.isSet .HPT_HEAD_STS_LINK_UP (2 * p.val + 1) = false →
      exec (.perstDeassert p) s = .next ((u.setHead (2 * p.val) { u.head (2 * p.val) with training := true }).setHead (2 * p.val + 1)
        { u.head (2 * p.val + 1) with training := true })) ∧
  (∀ (s : State) (h : Fin 8), s.isSet .HPT_HEAD_STS_DEPARTING h.val = true → s.host.perstHigh.contains (h.val / 2) = true → (h.val % 2 = 0 ∨ s.host.x8.contains (h.val / 2) = true) →
      exec (.departureDone h) s = .next ((s.put .HPT_HEAD_STS_DEPARTING 0 h.val).setHead h.val { s.head h.val with training := true })) ∧
  (∀ (s : State) (h : Fin 8), exec (.flr h) s = .next ((s.abortHead h.val).resetFunction h.val false) ∧
      ((s.abortHead h.val).resetFunction h.val false).get .HPT_HEAD_STS_BME h.val = 0 ∧
      ((((s.abortHead h.val).resetFunction h.val false)).head h.val).msix = [] ∧ ((((s.abortHead h.val).resetFunction h.val false)).head h.val).mbox = none) ∧
  (∀ (s u v : State) (h : Fin 8), u = (((s.abortHead h.val).uncommit h.val).resetFunction h.val false).mapOwed h.val (fun q => { q with untracked := true }) →
      v = (u.setHead h.val { u.head h.val with quiesced := true }).dropPort h.val →
      exec (.cxlReset h) s = .next ((v.losePresence h.val).1.recallsGone h.val (v.losePresence h.val).2) ∧ (v.head h.val).decoders = []) ∧
  (∀ (s : State) (h : Fin 8),
      exec (.barUnclaimed h true) s = .next (s.emit (.unsupported h.val)) ∧ exec (.barUnclaimed h false) s = .next (s)) ∧
  (∀ (s : State) (h : Fin 8),
      exec (.ideCheckFailure h true) s = .next (((s.put .HPT_HEAD_STS_IDE 3 h.val).setHead h.val { s.head h.val with
        ideKeyMem := false, aer := (s.head h.val).aer ||| 4 }).report (msg2 bHpt h.val 2)) ∧
      exec (.ideCheckFailure h false) s = .next ((s.setHead h.val { s.head h.val with ideLink := 2, ideKeyLink := false, aer := (s.head h.val).aer ||| 4 }).report (msg2 bHpt h.val 2))) ∧
  (∀ (s : State) (h : Fin 8) (i : Fin 16), (∀ j < 16, j ≠ i.val → s.isSet .HPT_BIND_CTL_EN h.val j = true → s.bindOverlap h.val i.val j = false) → s.get .HPT_BIND_TA_TABASE h.val i.val + s.get .HPT_BIND_SIZE_SIZE h.val i.val ≤ 2 ^ 27 →
      exec (.bindEnableWrite h i true) s = .next ((s.put .HPT_BIND_CTL_EN 1 h.val i.val).put .HPT_BIND_CTL_ERR 0 h.val i.val)) ∧
  (∀ (s : State) (h : Fin 8) (i : Fin 16),
      exec (.bindEnableWrite h i false) s = .next ((s.put .HPT_BIND_CTL_EN 0 h.val i.val).put .HPT_BIND_CTL_ERR 0 h.val i.val)) ∧
  (∀ (s : State) (h : Fin 8) (i : Fin 16) (j : Nat), s.isSet .HPT_BIND_CTL_EN h.val i.val = false → (2 ^ 27 < s.get .HPT_BIND_TA_TABASE h.val i.val + s.get .HPT_BIND_SIZE_SIZE h.val i.val ∨ j < 16 ∧ j ≠ i.val ∧ s.isSet .HPT_BIND_CTL_EN h.val j = true ∧ s.bindOverlap h.val i.val j = true) →
      exec (.bindEnableWrite h i true) s = .next ((s.put .HPT_BIND_CTL_EN 0 h.val i.val).put .HPT_BIND_CTL_ERR 1 h.val i.val)) ∧
  (∀ (s : State) (h d : Fin 8) (base size : Hpa) (skip : Dpa) (ways : Fin 17) (gran : Fin 7), s.get .HPT_DEV_STS_STATUS h.val = stOk → [1, 2, 3, 4, 6, 8, 12, 16].contains ways.val = true → (∀ k < d.val, ∃ x, tget k (s.head h.val).decoders = some x ∧ x.committed = true ∧ x.base + x.size ≤ base.val / 2 ^ 28 * 2 ^ 28) → (∀ i < 16, s.isSet .HPT_BIND_CTL_EN h.val i = true → s.isSet .HPT_BIND_CTL_KIND h.val i = false) →
      exec (.hdmDecoderCommit h d base size skip ways gran) s = .next (s.setHead h.val { s.head h.val with
        quiesced := false
        decoders := tput d.val { base := base.val / 2 ^ 28 * 2 ^ 28, size := size.val / 2 ^ 28 * 2 ^ 28, skip := skip.val / 2 ^ 28 * 2 ^ 28, ways := ways.val, gran := gran.val
                                 committed := true, errNotCommitted := false } (s.head h.val).decoders })) ∧
  (∀ (s : State) (h : Fin 8) (base size : Hpa) (gran : Fin 7) (i : Nat), i < 16 → s.isSet .HPT_BIND_CTL_EN h.val i = true → s.isSet .HPT_BIND_CTL_KIND h.val i = true → (s.head h.val).decoders = [] → 0 < s.get .HPT_BIND_BASE_BASE h.val i + s.get .HPT_BIND_SIZE_SIZE h.val i → s.get .HPT_BIND_BASE_BASE h.val i * 2 ^ 21 < size.val / 2 ^ 28 * 2 ^ 28 → (s.head h.val).biDec = false →
      exec (.hdmDecoderCommit h 0 base size 0 1 gran) s = .next (s.setHead h.val { s.head h.val with
        decoders := [(0, { base := base.val / 2 ^ 28 * 2 ^ 28, size := size.val / 2 ^ 28 * 2 ^ 28, skip := 0, ways := 1, gran := gran.val
                           committed := false, errNotCommitted := true })] }))

/-- The job commands complete with their effects (R366, R363, R370, R371, R373, R379). -/
def Obligations.JobCommands : Prop :=
  (∀ (q : Req) (s s₁ : State),
    let kind := par q 0x10 1
    Served { op := 0x0600, priv := 1, mctp := true, ctx := if kind = 0 then 2 else 1, output := decide (kind = 1), fields := fld 0x10 1 :: (if kind = 0 then [] else [fld 0x18 8]) } q (firstBad [(0x10, decide (kind ≤ 1))]) s s₁ →
    s₁.unitsOff = false →
    kind = 0 →
      Completes (exec (.jobQuery q) s) s₁ q (s₁.job.queue.length + (s₁.job.units.foldl (fun a u => a + 2 ^ u.1) 0) * 2 ^ 9 + s₁.job.sessions.length * 2 ^ 13 +
        s₁.job.dicts.length * 2 ^ 20)) ∧
  (∀ (q : Req) (s s₁ : State),
    let kind := par q 0x10 1
    Served { op := 0x0600, priv := 1, mctp := true, ctx := if kind = 0 then 2 else 1, output := decide (kind = 1), fields := fld 0x10 1 :: (if kind = 0 then [] else [fld 0x18 8]) } q (firstBad [(0x10, decide (kind ≤ 1))]) s s₁ →
    s₁.unitsOff = true →
      Refused (exec (.jobQuery q) s) s₁ q stMediaNotReady 0xFFFFFFFF) ∧
  (∀ (q : Req) (s s₁ : State) (k : Nat) (x : Session),
    let kind := par q 0x10 1
    let h := par q 0x18 8
    Served { op := 0x0600, priv := 1, mctp := true, ctx := if kind = 0 then 2 else 1, output := decide (kind = 1), fields := fld 0x10 1 :: (if kind = 0 then [] else [fld 0x18 8]) } q (firstBad [(0x10, decide (kind ≤ 1))]) s s₁ →
    s₁.unitsOff = false →
    kind = 1 →
    s₁.sessionOf h = some (k, x) →
    x.tc = q.tc.val →
      Completes (exec (.jobQuery q) s) s₁ q (b2n x.broken) 24 [(0, 8, x.src), (8, 8, x.out), (16, 8, x.held)]) ∧
  (∀ (q : Req) (s s₁ : State),
    let h := par q 0x38 8
    let sess := s.sessionOf h
    let dec := if h = 0 then parBit q 0x10 0 else match sess with | some (_, x) => x.dir == 1 | none => false
    Served { op := 0x0601, priv := 1, mbox := false, ctx := 1, fields := submitFields (decide (h ≠ 0)) } q (firstBad ([(0x02, !q.plptr)] ++ (if h = 0 then s.formatChecks q 26 false else []) ++ outChecks q ++ sourceChecks q dec ++ [(0x38, decide (h = 0) || s.onItsRing q h)])) s s₁ →
    s₁.unitsOff = false →
    h = 0 →
    (dec = true ∨ par q 0x20 8 ≤ jobMax) →
    s₁.job.queue.length < 256 →
      (exec (.jobSubmit q) s) = .next (({ s₁ with job := { s₁.job with jobs := tput s₁.job.nextJob { req := q, kind := 0, pieces := 1, next := 1, dict := s₁.dictSlot q.tc.val (par q 0x14 4), bufs := if parBit q 0x10 7 then [] else [(par q 0x28 8, par q 0x30 8)] } s₁.job.jobs, nextJob := s₁.job.nextJob + 1, queue := s₁.job.queue ++ [(s₁.job.nextJob, 0)] } } : State).feed 8)) ∧
  (∀ (q : Req) (s s₁ : State),
    let h := par q 0x38 8
    let sess := s.sessionOf h
    let dec := if h = 0 then parBit q 0x10 0 else match sess with | some (_, x) => x.dir == 1 | none => false
    Served { op := 0x0601, priv := 1, mbox := false, ctx := 1, fields := submitFields (decide (h ≠ 0)) } q (firstBad ([(0x02, !q.plptr)] ++ (if h = 0 then s.formatChecks q 26 false else []) ++ outChecks q ++ sourceChecks q dec ++ [(0x38, decide (h = 0) || s.onItsRing q h)])) s s₁ →
    s₁.unitsOff = false →
    h = 0 →
    dec = false →
    jobMax < par q 0x20 8 →
    s₁.job.queue.length < 256 →
      (exec (.jobSubmit q) s) = .next (({ s₁ with job := { s₁.job with jobs := tput s₁.job.nextJob { req := q, kind := 0, pieces := (par q 0x20 8 + jobPiece - 1) / jobPiece, next := 0, dict := s₁.dictSlot q.tc.val (par q 0x14 4), bufs := if parBit q 0x10 7 then [] else [(par q 0x28 8, par q 0x30 8)] } s₁.job.jobs, nextJob := s₁.job.nextJob + 1 } } : State).feed 8)) ∧
  (∀ (q : Req) (s s₁ : State) (k : Nat) (x : Session),
    let h := par q 0x38 8
    let sess := s.sessionOf h
    let dec := if h = 0 then parBit q 0x10 0 else match sess with | some (_, x) => x.dir == 1 | none => false
    Served { op := 0x0601, priv := 1, mbox := false, ctx := 1, fields := submitFields (decide (h ≠ 0)) } q (firstBad ([(0x02, !q.plptr)] ++ (if h = 0 then s.formatChecks q 26 false else []) ++ outChecks q ++ sourceChecks q dec ++ [(0x38, decide (h = 0) || s.onItsRing q h)])) s s₁ →
    s₁.unitsOff = false →
    h ≠ 0 →
    s₁.sessionOf h = some (k, x) →
    x.broken = false →
    s₁.job.queue.length < 256 →
      (exec (.jobSubmit q) s) = .next (({ s₁ with job := { s₁.job with jobs := tput s₁.job.nextJob { req := q, kind := 0, session := some k, pieces := 1, next := 1, dict := x.dict, bufs := if parBit q 0x10 7 then [] else [(par q 0x28 8, par q 0x30 8)] } s₁.job.jobs, nextJob := s₁.job.nextJob + 1, queue := s₁.job.queue ++ [(s₁.job.nextJob, 0)] } } : State).feed 8)) ∧
  (∀ (q : Req) (s s₁ : State) (a : Fin 8) (b : Fin 64) (k : Nat) (x : Session),
    let fmt := parBits q 0x10 1 3
    Served { op := 0x0602, priv := 1, mbox := false, ctx := 1, fields := [fbits 0x10 0 5, fbits 0x11 0 4, fbits 0x12 0 5, fld 0x13 1, fld 0x14 4] } q (firstBad (s.formatChecks q 26 true)) s s₁ →
    s₁.unitsOff = false →
    q.origin = .ring a b →
    (List.range 64).find? (fun k => (tget k s₁.job.sessions).isNone) = some k →
    x = { seq := s₁.job.sessSeq + 1, ring := (a.val, b.val), tc := q.tc.val, dir := parBits q 0x10 0 1, fmt := fmt, csum := parBit q 0x10 4, level := parBits q 0x11 0 4, wlog2 := parBits q 0x12 0 5, blk := par q 0x13 1, dict := s₁.dictSlot q.tc.val (par q 0x14 4) } →
    s₁.histBytes + x.hist ≤ 480 * 2 ^ 20 →
      Completes (exec (.jobSessionOpen q) s) { s₁ with job := { s₁.job with sessions := tput k x s₁.job.sessions, sessSeq := s₁.job.sessSeq + 1 } } q (k + 64 * x.seq)) ∧
  (∀ (q : Req) (s s₁ : State) (k : Nat) (x : Session),
    let h := par q 0x38 8
    Served { op := 0x0604, priv := 1, mbox := false, ctx := 1, fields := flushFields } q (firstBad (outChecks q ++ [(0x38, s.onItsRing q h)])) s s₁ →
    s₁.unitsOff = false →
    s₁.sessionOf h = some (k, x) →
    x.broken = false →
    s₁.job.queue.length < 256 →
      (exec (.jobFlush q) s) = .next (({ s₁ with job := { s₁.job with jobs := tput s₁.job.nextJob { req := q, kind := 1, session := some k, pieces := 1, next := 1, dict := x.dict, bufs := if parBit q 0x10 7 then [] else [(par q 0x28 8, par q 0x30 8)] } s₁.job.jobs, nextJob := s₁.job.nextJob + 1, queue := s₁.job.queue ++ [(s₁.job.nextJob, 0)] } } : State).feed 8)) ∧
  (∀ (q : Req) (s s₁ : State) (k : Nat) (x : Session),
    let h := par q 0x38 8
    Served { op := 0x0603, priv := 1, mbox := false, ctx := 1, fields := flushFields } q (firstBad (outChecks q ++ [(0x38, s.onItsRing q h)])) s s₁ →
    s₁.unitsOff = false →
    s₁.sessionOf h = some (k, x) →
    x.broken = false →
    s₁.job.queue.length < 256 →
      (exec (.jobSessionClose q) s) = .next (({ s₁ with job := { s₁.job with jobs := tput s₁.job.nextJob { req := q, kind := 2, session := some k, pieces := 1, next := 1, dict := x.dict, bufs := if parBit q 0x10 7 then [] else [(par q 0x28 8, par q 0x30 8)] } s₁.job.jobs, nextJob := s₁.job.nextJob + 1, queue := s₁.job.queue ++ [(s₁.job.nextJob, 0)] } } : State).feed 8)) ∧
  (∀ (q : Req) (s s₁ : State) (k : Nat) (x : Session),
    let h := par q 0x38 8
    Served { op := 0x0603, priv := 1, mbox := false, ctx := 1, fields := flushFields } q (firstBad (outChecks q ++ [(0x38, s.onItsRing q h)])) s s₁ →
    s₁.unitsOff = false →
    s₁.sessionOf h = some (k, x) →
    x.broken = true →
      Completes (exec (.jobSessionClose q) s) { s₁ with job := { s₁.job with sessions := tdel k s₁.job.sessions } } q) ∧
  (∀ (q : Req) (s s₁ : State) (d : DictRead) (k : Nat) (l : List Byte),
    let raw := parBit q 0x10 0
    let id := par q 0x14 4
    let len := par q 0x20 8
    let own := (match d with | .bytes l => raw || (ownDictId l == id && (zDict false (l.take len)).isSome) | .poison => true : Bool)
    Served { op := 0x0605, priv := 1, ctx := 1, fields := [fbits 0x10 0 1, fbits 0x10 5 1, fld 0x14 4, fld 0x18 8, fld 0x20 8] } q (firstBad [(0x14, decide (id ≠ 0) && (s.dictSlot q.tc.val id).isNone && own), (0x20, decide (256 ≤ len ∧ len ≤ 2 ^ 21))]) s s₁ →
    s₁.unitsOff = false →
    (List.range 16).find? (fun k => (tget k s₁.job.dicts).isNone) = some k →
    d = .bytes l →
      Completes (exec (.jobDictLoad q d) s) { s₁ with job := { s₁.job with dicts := tput k { tc := q.tc.val, raw := raw, id := id, bytes := l.take len } s₁.job.dicts } } q k) ∧
  (∀ (q : Req) (s s₁ : State) (k : Nat),
    let slot := s.dictSlot q.tc.val (par q 0x14 4)
    Served { op := 0x0606, priv := 1, ctx := 1, fields := [fld 0x14 4] } q (firstBad [(0x14, slot.isSome)]) s s₁ →
    s₁.unitsOff = false →
    slot = some k →
    s₁.dictUsers k = 0 →
      Completes (exec (.jobDictUnload q) s) { s₁ with job := { s₁.job with dicts := tdel k s₁.job.dicts } } q)

/-- Jobs start, pend, end and hang as R361 to R377 say (R361, R364, R366, R368, R377). -/
def Obligations.JobEvents : Prop :=
  (∀ (s : State) (n : Fin 4) (e : Nat × Nat) (j : Job) (chain : List (Nat × Nat × Nat)), s.unitOn n.val = true → tget n.val s.job.units = none →
      s.nextEntry = some e → tget e.1 s.job.jobs = some j → j.session = none → parBit j.req 0x10 7 = false → headOf j.req.origin = none →
      exec (.jobStart n chain) s = .next (({ s with job := { s.job with queue := s.job.queue.erase e, units := tput n.val e s.job.units, jobs := tput e.1 { j with bufs := j.bufs } s.job.jobs } } : State).feed 8)) ∧
  (∀ (s : State) (n : Fin 4) (id piece k : Nat) (j : Job), tget n.val s.job.units = some (id, piece) → tget id s.job.jobs = some j → j.slot = none →
      s.freeSlot = some k →
      exec (.jobPendingTimeout n) s = .next (((({ s with job := { s.job with jobs := tput id { j with slot := some k } s.job.jobs } } : State).openOp k j.req
        (.job id) none).reply j.req stPending s.nextHandle 0 0 []))) ∧
  (∀ (s u : State) (n : Fin 4) (id piece : Nat) (j : Job) (acc : List (Nat × Bool)) (src : List Byte) (offers : List (List Byte)), tget n.val s.job.units = some (id, piece) → tget id s.job.jobs = some j → s.jobAccesses n.val j acc = (u, some true) → j.pieces = 1 → src.length = j.srcLen → (u.jobPar j).dir = 0 → j.session = none →
      exec (.jobEnd n acc (.coded src offers)) s = .next (u.jobCompressed n.val id j (u.jobPar j) {} (u.compress (u.jobPar j) 1 0 src offers))) ∧
  (∀ (s u : State) (n : Fin 4) (id piece k : Nat) (j : Job) (x : Session) (acc : List (Nat × Bool)) (src : List Byte) (offers : List (List Byte)), tget n.val s.job.units = some (id, piece) → tget id s.job.jobs = some j → s.jobAccesses n.val j acc = (u, some true) → j.pieces = 1 → src.length = j.srcLen → j.session = some k → tget k u.job.sessions = some x → x.dir = 0 →
      exec (.jobEnd n acc (.coded src offers)) s = .next (u.jobCompressed n.val id j (u.jobPar j) x.coder (u.compressOn (u.jobPar j) x.coder j.kind src offers))) ∧
  (∀ (s u : State) (n : Fin 4) (id piece : Nat) (j : Job) (acc : List (Nat × Bool)) (src : List Byte) (offers : List (List Byte)), tget n.val s.job.units = some (id, piece) → tget id s.job.jobs = some j → s.jobAccesses n.val j acc = (u, some true) → src.length = pieceLen j piece → (u.jobPar j).dir = 0 → j.pieces ≠ 1 →
      exec (.jobEnd n acc (.coded src offers)) s = .next (u.pieceDone n.val id piece j (u.jobPar j) src (u.compress (u.jobPar j) j.pieces piece src offers))) ∧
  (∀ (s u : State) (n : Fin 4) (id piece : Nat) (j : Job) (acc : List (Nat × Bool)) (src : List Byte) (offers : List (List Byte)), tget n.val s.job.units = some (id, piece) → tget id s.job.jobs = some j → s.jobAccesses n.val j acc = (u, some true) → src.length = pieceLen j piece → (u.jobPar j).dir = 1 →
      exec (.jobEnd n acc (.coded src offers)) s = .next (u.jobDecoded n.val id j (u.jobPar j) src)) ∧
  (∀ (s : State) (n : Fin 4) (id : Nat) (j : Job) (p : JobPar) (c : Coder) (e : Emit) (u : State), u = (s.put .JOB_UNIT_CNT_RAW_BLK (satAdd 0xFFFF (s.get .JOB_UNIT_CNT_RAW_BLK n.val) e.raw) n.val).sessionAfter j e.c e.bytes.length e.c.part.length → e.bytes.length ≤ j.room → j.kind = 0 →
      s.jobCompressed n.val id j p c e = (((u.writeOut n.val j 0 e.bytes).count .global 0x04 j.srcLen none).count .global 0x05 e.bytes.length none).jobEnds id j stOk e.bytes.length
        (contentSum p.fmt (e.c.part.reverse ++ e.c.plain).reverse)) ∧
  (∀ (s : State) (n : Nat) (id : Nat) (j : Job) (reason at' : Nat),
      s.jobBad n id j reason at' = ((s.bump .JOB_UNIT_CNT_DATA_ERR 0xFFFF n).report (msg1 bJob n 0 at' reason)).jobEnds id j stFaulted at'
        ((s.bump .JOB_UNIT_CNT_DATA_ERR 0xFFFF n).report (msg1 bJob n 0 at' reason)).lastSeq) ∧
  (∀ (s u v w : State) (n : Fin 4) (id piece at' : Nat) (j : Job) (acc : List (Nat × Bool)), tget n.val s.job.units = some (id, piece) → tget id s.job.jobs = some j → s.jobAccesses n.val j acc = (u, some true) → v = u.report (msg2 bJob n.val 1) → w = u.report (msg2 bCoh (22 + n.val) 5) →
      exec (.jobEnd n acc (.staging at')) s = .next (v.jobEnds id j stFaulted (at' % (j.srcLen + 1)) v.lastSeq) ∧
      exec (.jobEnd n acc (.dirtyLine at')) s = .next (w.jobEnds id j stFaulted (at' % (j.srcLen + 1)) w.lastSeq)) ∧
  (∀ (s u : State) (n : Fin 4) (id piece at' : Nat) (j : Job), tget n.val s.job.units = some (id, piece) → tget id s.job.jobs = some j → u = (s.bump .JOB_UNIT_CNT_HANGS 0x7F n.val).report (msg2 bJob n.val 3) →
      exec (.jobHang n at') s = .next (u.jobEnds id j stFaulted (at' % (j.srcLen + 1)) u.lastSeq))

/-- The sec and key commands complete with their effects (R268, R273, R274, R283, R295, R296, R298, R302, R303, R306, R310, R311). -/
def Obligations.KeyAndSecurityCommands : Prop :=
  (∀ (q : Req) (s s₁ : State),
    Served { op := 0x0700, priv := 0, mctp := true, output := true } q none s s₁ →
      ∃ out res det, Completes (exec (.secQuery q) s) s₁ q res 576 out det ∧ (∀ n < 32, (8 * n, 8, s₁.word .SEC_KS_STS_STATE n) ∈ out) ∧
        (∀ k < 4, (0x100 + 32 * k, 8, s₁.word .SEC_SWEEP_CTL_OLD k) ∈ out ∧ (0x108 + 32 * k, 8, s₁.get .SEC_SWEEP_FIRST_LPN k) ∈ out ∧ (0x110 + 32 * k, 8, s₁.get .SEC_SWEEP_LIMIT_LPN k) ∈ out ∧
          (0x118 + 32 * k, 8, s₁.get .SEC_SWEEP_WAY_LPN k) ∈ out) ∧
        ∀ r < 8, (0x180 + 16 * r, 8, s₁.word .SEC_ANS_BASE_LPN r) ∈ out ∧ (0x188 + 16 * r, 8, s₁.word .SEC_ANS_LIMIT_LPN r) ∈ out) ∧
  (∀ (q : Req) (s s₁ : State),
    let ks := par q 0x10 1
    Served { op := 0x0701, priv := 2, ctx := 2, fields := keyFields } q (firstBad [(0x10, slotOk ks)]) s s₁ →
    s₁.keysOpen q opW →
    s₁.get .SEC_KS_STS_REF ks = 0 →
    s₁.swept ks = false →
    s₁.isSet .SEC_STS_ENTROPY_FAIL = false →
      Completes (exec (.keyGenerate q) s) (((s₁.drbgBytes 96).1.loadKey ks 0 (keyMatOf (natBytes 96 s₁.draw))).bindKs q (parBit q 0x11 0) ks) q ((s₁.get .SEC_KS_STS_GEN ks + 1) % 65536)) ∧
  (∀ (q : Req) (s s₁ : State),
    let ks := par q 0x10 1
    Served { op := 0x0701, priv := 2, ctx := 2, fields := keyFields } q (firstBad [(0x10, slotOk ks)]) s s₁ →
    s₁.keysOpen q opW →
    s₁.get .SEC_KS_STS_REF ks = 0 →
    s₁.swept ks = false →
    s₁.isSet .SEC_STS_ENTROPY_FAIL = true →
      Refused (exec (.keyGenerate q) s) s₁ q stFaulted (s₁.entropySeq % 2 ^ 32)) ∧
  (∀ (q : Req) (s s₁ : State),
    let ks := par q 0x10 1
    let sid := par q 0x14 4
    let mine := match headOf q.origin with | some h => s.sec.sessions.contains (h, sid) | none => false
    Served { op := 0x0702, priv := 2, ctx := 2, payload := 104, fields := keyFields ++ [fld 0x14 4] } q (firstBad [(0x08, decide (q.plen = 104)), (0x10, slotOk ks), (0x14, mine)]) s s₁ →
    s₁.keysOpen q opW →
    s₁.get .SEC_KS_STS_REF ks = 0 →
    s₁.swept ks = false →
      if s₁.importOk ((headOf q.origin).getD 0) sid q.payload = true then
        Completes (exec (.keyImport q) s) ((s₁.loadKey ks 1 (keyMatOf ((s₁.importKeys ((headOf q.origin).getD 0) sid q.payload).getD []))).bindKs q (parBit q 0x11 0) ks) q ((s₁.get .SEC_KS_STS_GEN ks + 1) % 65536)
      else Refused (exec (.keyImport q) s) s₁ q stBadParam 0x40) ∧
  (∀ (s : State) (ks origin : Nat) (m : KeyMat), ks < 32 →
      (s.loadKey ks origin m).get .SEC_KS_STS_STATE ks = 1 ∧ (s.loadKey ks origin m).get .SEC_KS_STS_ORIGIN ks = origin ∧
      (s.loadKey ks origin m).get .SEC_KS_FLOOR_VALUE ks = 0 ∧ (s.loadKey ks origin m).get .SEC_KS_HIGH_VALUE ks = 0 ∧
      (s.loadKey ks origin m).get .SEC_KS_STS_GEN ks = (s.get .SEC_KS_STS_GEN ks + 1) % 65536 ∧ tget ks (s.loadKey ks origin m).sec.keysA = some m ∧ tget ks (s.loadKey ks origin m).sec.keysB = some m) ∧
  (∀ (q : Req) (s s₁ : State),
    let ks := par q 0x10 1
    Served { op := 0x0704, priv := 2, fields := keyFields } q (firstBad [(0x10, slotOk ks)]) s s₁ →
    s₁.keysOpen q opW →
    s₁.get .SEC_KS_STS_REF ks = 0 →
    s₁.swept ks = false →
    s₁.get .SEC_CTL_EXHAUST_KS ≠ ks →
      Completes (exec (.keyZeroise q) s) (s₁.zeroise ks) q) ∧
  (∀ (q : Req) (s s₁ : State),
    let ks := par q 0x10 1
    let force := parBit q 0x11 0
    Served { op := 0x0704, priv := 2, fields := keyFields } q (firstBad [(0x10, slotOk ks)]) s s₁ →
    s₁.keysOpen q opW →
    0 < s₁.get .SEC_KS_STS_REF ks →
    force = true →
    s₁.swept ks = false →
    s₁.get .SEC_CTL_EXHAUST_KS ≠ ks →
    (s₁.freeSlot).isSome = true →
      Starts (exec (.keyZeroise q) s) s₁ (s₁.zeroise ks) q (.zeroise ks 0)) ∧
  (∀ (s : State) (ks : Nat),
      (s.zeroise ks).get .SEC_KS_STS_STATE ks = 0 ∧ tget ks (s.zeroise ks).sec.keysA = none ∧ tget ks (s.zeroise ks).sec.keysB = none) ∧
  (∀ (q : Req) (s s₁ : State) (k : Nat),
    let old := par q 0x10 1
    let new := par q 0x11 1
    let bind := parBits q 0x12 0 1
    let first := par q 0x18 8
    let count := par q 0x20 8
    Served { op := 0x0703, priv := 2, ctx := 2, fields := [fld 0x10 2, fbits 0x12 0 2, fbits 0x18 0 33, fld 0x20 8] } q (firstBad [(0x0C, bind == 0 || q.ctxv), (0x10, slotOk old && s.slotActive old), (0x11, slotOk new && s.slotActive new && new != old), (0x18, decide (first < devWindow)), (0x20, decide (1 ≤ count ∧ count ≤ 2 ^ 33 ∧ first + count ≤ devWindow))]) s s₁ →
    s₁.keysOpen q opW →
    (List.range 4).find? (fun k => !s₁.sweeping k) = some k →
    (∀ j < 4, s₁.sweeping j = true → ¬ (first < s₁.get .SEC_SWEEP_LIMIT_LPN j ∧ s₁.get .SEC_SWEEP_FIRST_LPN j < first + count)) →
    (s₁.freeSlot).isSome = true →
      ∃ u : State, Starts (exec (.keyRotate q) s) s₁ u q (.rotate k) ∧ u.get .SEC_SWEEP_CTL_STATE k = 1 ∧ u.get .SEC_SWEEP_CTL_OLD k = old ∧ u.get .SEC_SWEEP_CTL_NEW k = new ∧ u.get .SEC_SWEEP_CTL_BIND k = bind ∧
        u.get .SEC_SWEEP_FIRST_LPN k = first ∧ u.get .SEC_SWEEP_LIMIT_LPN k = first + count ∧ u.get .SEC_SWEEP_WAY_LPN k = first ∧ u.pg = s₁.pg ∧
        u.get .SEC_KS_STS_SWEEP old = 1 ∧ u.get .SEC_KS_STS_SWEEP new = 1) ∧
  (∀ (q : Req) (s s₁ : State),
    let r := par q 0x10 1
    let en := parBits q 0x11 0 1
    let base := par q 0x18 8
    let lim := par q 0x20 8
    Served { op := 0x0705, priv := 2, fields := [fld 0x10 1, fbits 0x11 0 1, fbits 0x18 0 33, fbits 0x20 0 33] } q (firstBad [(0x10, decide (r < 8)), (0x20, decide (en = 0 ∨ (base < lim ∧ lim ≤ devWindow)))]) s s₁ →
      Completes (exec (.secSetRange q) s) (((s₁.put .SEC_ANS_BASE_LPN base r).put .SEC_ANS_BASE_EN en r).put .SEC_ANS_LIMIT_LPN lim r) q) ∧
  (∀ (q : Req) (s s₁ : State) (u : State) (hit : List Nat),
    Served { op := 0x0707, priv := 1, ctx := 2, fields := rangeFields } q (firstBad (s.rangeChecks q ++ [(0x10, (pagesOf q).all (fun p => s.tier p != 5))])) s s₁ (s.lpnDeny q (firstLpn q) (pageCount q)) →
    u = s₁.allRecalled q →
    (∀ p ∈ pagesOf q, u.notMine p = false ∧ u.tier p ≠ 5) →
    hit = (pagesOf q).filter (fun p => u.tier p != 0) →
      Completes (exec (.secZeroPages q) s) ((hit.foldl (fun (s : State) p => s.zeroPage p) u).settleUnver.settleOps) q hit.length) ∧
  (∀ (q : Req) (s s₁ : State) (hit : List Nat),
    Served { op := 0x0706, priv := 1, ctx := 2, fields := rangeFields } q (firstBad (s.rangeChecks q)) s s₁ (s.lpnDeny q (firstLpn q) (pageCount q)) →
    (∀ p ∈ pagesOf q, s₁.inMove p = false) →
    (hit = (pagesOf q).filter (fun p => s₁.unverif p && hasImage (s₁.tier p) && s₁.slotActive (s₁.page p).pl.ks && decide (s₁.get .SEC_KS_HIGH_VALUE (s₁.page p).pl.ks < 0xFFFFFFFFFFFFFFFE))) →
      Completes (exec (.secRebase q) s) ((hit.foldl (fun (s : State) p => s.rebasePage p) s₁).settleUnver) q hit.length) ∧
  (∀ (q : Req) (s s₁ : State),
    let seq := par q 0x10 8
    Served { op := 0x0708, priv := 2, fields := [fld 0x10 8] } q none s s₁ →
    s₁.sec.alarms.contains seq = false →
    s₁.isSet .SEC_STS_HALT_REC = true →
    s₁.sec.haltRec.map (·.seq) = some seq →
      Completes (exec (.secAlarmAck q) s) (s₁.put .SEC_STS_HALT_REC 0) q) ∧
  (∀ (q : Req) (s s₁ : State),
    let seq := par q 0x10 8
    Served { op := 0x0708, priv := 2, fields := [fld 0x10 8] } q none s s₁ →
    s₁.sec.alarms.contains seq = true →
      Completes (exec (.secAlarmAck q) s) ({ s₁ with sec := { s₁.sec with alarms := s₁.sec.alarms.erase seq } }.put .SEC_STS_ALARM_PEND (min 255 (s₁.sec.alarms.erase seq).length)) q)

/-- The ecc commands complete with their effects (R331, R332, R333). -/
def Obligations.ProtectionCommands : Prop :=
  (∀ (q : Req) (s s₁ : State),
    let c := par q 0x10 1
    Served { op := 0x0800, priv := 0, mctp := true, output := true, fields := [fld 0x10 1] } q (firstBad [(0x10, decide (c < 16))]) s s₁ →
      Completes (exec (.eccQuery q) s) s₁ q (s₁.word .ECC_CH_CNT_CORR c) 64
        [(0, 8, s₁.word .ECC_MARK_GROUP c), (8, 8, s₁.word .ECC_SCRUB_STS_PCT c), (0x10, 8, s₁.word .ECC_INJ_STS_ARMED c),
         (0x18, 8, s₁.word .ECC_SELFTEST_SLICE_FAIL), (0x20, 8, s₁.word .ECC_SCRUB_CFG_PERIOD_H), (0x28, 8, s₁.word .ECC_MARK_CFG_MARK_THR), (0x30, 8, s₁.word .ECC_CODE_CLASS_JOB)]) ∧
  (∀ (q : Req) (s s₁ : State),
    Served { op := 0x0801, priv := 2, fields := [fld 0x10 2] } q (firstBad [(0x10, decide (par q 0x10 1 ≤ 1)), (0x11, decide (par q 0x11 1 ≤ 1))]) s s₁ →
      Completes (exec (.eccSetCode q) s) (if par q 0x10 1 = 0 then s₁.put .ECC_CODE_CLASS_JOB (par q 0x11 1) else s₁.put .ECC_CODE_CLASS_SAMPLE (par q 0x11 1)) q) ∧
  (∀ (q : Req) (s s₁ : State),
    let h := par q 0x10 2
    Served { op := 0x0802, priv := 2, fields := [fld 0x10 4, fbits 0x14 0 1] } q (firstBad [(0x10, decide (h ≤ 168))]) s s₁ →
    parBit q 0x14 0 = false →
      Completes (exec (.eccScrubCfg q) s) ((if h = 0 then s₁ else s₁.put .ECC_SCRUB_CFG_PERIOD_H h).put .ECC_SCRUB_CFG_EN (par q 0x12 2)) q) ∧
  (∀ (q : Req) (s s₁ : State),
    let h := par q 0x10 2
    Served { op := 0x0802, priv := 2, fields := [fld 0x10 4, fbits 0x14 0 1] } q (firstBad [(0x10, decide (h ≤ 168))]) s s₁ →
    parBit q 0x14 0 = true →
      Completes (exec (.eccScrubCfg q) s) (((if h = 0 then s₁ else s₁.put .ECC_SCRUB_CFG_PERIOD_H h).put .ECC_SCRUB_CFG_EN (par q 0x12 2)).restartScrub 16) q) ∧
  (∀ (q : Req) (s s₁ : State),
    let k := par q 0x10 1
    let ma := par q 0x18 8
    let la := 4 * ma + par q 0x20 1
    Served { op := 0x0803, priv := 2, fields := injectFields k } q (s.injectBad q) s s₁ →
    k < 2 →
    s₁.get .ECC_INJ_STS_ARMED (s₁.chanOf ma) < 8 →
      Completes (exec (.eccInject q) s) ({ s₁ with ecc := { s₁.ecc with nextInj := s₁.ecc.nextInj + 1, inj := s₁.ecc.inj ++ [Inj.mk (s₁.ecc.nextInj % 256) k la (par q 0x22 10) (par q 0x2C 1)] } }.put .ECC_INJ_STS_ARMED
        (s₁.get .ECC_INJ_STS_ARMED (s₁.chanOf ma) + 1) (s₁.chanOf ma)) q (s₁.ecc.nextInj % 256)) ∧
  (∀ (q : Req) (s s₁ : State) (o : Own),
    let k := par q 0x10 1
    let ma := par q 0x18 8
    let la := 4 * ma + par q 0x20 1
    Served { op := 0x0803, priv := 2, fields := injectFields k } q (s.injectBad q) s s₁ →
    k = 2 →
    s₁.ownAt ma = some o →
    tget ma s₁.pg.own = some o →
    o.role = 1 →
    s₁.get .ECC_INJ_STS_ARMED (s₁.chanOf ma) < 8 →
      Completes (exec (.eccInject q) s) (((({ s₁ with ecc := { s₁.ecc with nextInj := s₁.ecc.nextInj + 1 } } : State).poisonAt o.lpn la 7).bump .ECC_INJ_STS_FIRED 0xFFFF (s₁.chanOf ma)).report { msg1 bEcc (s₁.chanOf ma) 9 la with inj := true }) q (s₁.ecc.nextInj % 256)) ∧
  (∀ (q : Req) (s s₁ : State),
    let k := par q 0x10 1
    Served { op := 0x0803, priv := 2, fields := injectFields k } q (s.injectBad q) s s₁ →
    k = 3 →
    (s₁.ecc.inj.filter (fun x => decide (x.kind = 3 ∧ x.la / 1024 = par q 0x18 2 / 1024))).length < 4 →
      Completes (exec (.eccInject q) s) { s₁ with ecc := { s₁.ecc with nextInj := s₁.ecc.nextInj + 1, inj := s₁.ecc.inj ++ [Inj.mk (s₁.ecc.nextInj % 256) 3 (par q 0x18 2) (par q 0x1C 4) (par q 0x20 2)] } } q (s₁.ecc.nextInj % 256)) ∧
  (∀ (q : Req) (s s₁ : State) (m : Nat),
    let i0 := par q 0x10 4
    let n := par q 0x14 2
    Served { op := 0x0804, priv := 0, output := true, fields := [fld 0x10 6] } q (firstBad [(0x14, decide (1 ≤ n ∧ n ≤ 4096))]) s s₁ →
    m = min n (s₁.ecc.pcount - i0) →
      Completes (exec (.eccPoisonList q) s) s₁ q m (16 * m) ((List.range m).flatMap (fun k => s₁.poisonOut (16 * k) (i0 + k))))

/-- The mem commands complete with their effects (R261, R349, R350, R353, R354, R355, R356, R357). -/
def Obligations.DramCommands : Prop :=
  (∀ (q : Req) (s s₁ : State),
    let c := par q 0x10 1
    Served { op := 0x0900, priv := 0, mctp := true, output := true, fields := [fld 0x10 1] } q (firstBad [(0x10, decide (c < 16))]) s s₁ →
      Completes (exec (.memQuery q) s) s₁ q (s₁.word .MEM_CH_STS_STATE c) 128 ([(0, 8, s₁.word .MEM_FRZ_STS_FROZEN c), (8, 8, s₁.word .MEM_TRN_STS_LAST c), (0x10, 8, s₁.word .MEM_CNT_RFM c)]
        ++ (List.range 4).map (fun p => (0x18 + 8 * p, 8, s₁.word .MEM_FP_RATE c p)) ++ s₁.dimmOut c 0 ++ s₁.dimmOut c 1)) ∧
  (∀ (q : Req) (s s₁ : State),
    let mask := par q 0x10 2
    let p := par q 0x12 1
    Served { op := 0x0901, priv := 2, fields := [fld 0x10 2, fld 0x12 1] } q (firstBad [(0x10, decide (mask ≠ 0)), (0x12, decide (p < 4)), (0x12, (maskList mask).all (fun c => s.isSet .MEM_FP_VALID c p && s.isSet .MEM_FP_TRAINED c p))]) s s₁ →
    (∀ c ∈ maskList mask, s₁.inService c = true) →
    (s₁.freeSlot).isSome = true →
      Starts (exec (.memSetFreq q) s) s₁ ((maskList mask).foldl (fun s c => s.setChan c { s.chan c with changeTo := some (s.allowed c p) }) s₁) q (.setFreq (maskList mask) p)) ∧
  (∀ (q : Req) (s s₁ : State),
    let c := par q 0x10 1
    Served { op := 0x0902, priv := 2, fields := [fld 0x10 1] } q (firstBad [(0x10, decide (c < 16))]) s s₁ →
    s₁.inService c = true →
    (s₁.freeSlot).isSome = true →
      Starts (exec (.memRetrain q) s) s₁ (s₁.setChan c { s₁.chan c with retrainDue := true }) q (.retrain c)) ∧
  (∀ (q : Req) (s s₁ : State),
    let c := par q 0x10 1
    let d := par q 0x14 4
    Served { op := 0x0903, priv := 2, fields := [fld 0x10 1, fld 0x14 4] } q (firstBad [(0x10, decide (c < 16)), (0x14, decide (d ≤ 10000))]) s s₁ →
    0 < d →
    (s₁.chState c = 3 ∨ s₁.chState c = 4) →
      Completes (exec (.memFreezeExtend q) s) (s₁.setChan c { s₁.chan c with hold := some (.ms d) }) q) ∧
  (∀ (q : Req) (s s₁ : State),
    let c := par q 0x10 1
    let d := par q 0x14 4
    Served { op := 0x0903, priv := 2, fields := [fld 0x10 1, fld 0x14 4] } q (firstBad [(0x10, decide (c < 16)), (0x14, decide (d ≤ 10000))]) s s₁ →
    d = 0 →
    s₁.chState c ≠ 4 →
      Completes (exec (.memFreezeExtend q) s) (s₁.setChan c { s₁.chan c with hold := none }) q) ∧
  (∀ (q : Req) (s s₁ : State),
    let c := par q 0x10 1
    let d := par q 0x14 4
    Served { op := 0x0903, priv := 2, fields := [fld 0x10 1, fld 0x14 4] } q (firstBad [(0x10, decide (c < 16)), (0x14, decide (d ≤ 10000))]) s s₁ →
    d = 0 →
    s₁.chState c = 4 →
      Completes (exec (.memFreezeExtend q) s) (s₁.endHold c) q) ∧
  (∀ (q : Req) (s s₁ : State) (sn : Snapshot),
    let c := par q 0x10 1
    let ix := par q 0x11 1
    Served { op := 0x0904, priv := 2, output := true, fields := [fld 0x10 2] } q (firstBad [(0x10, decide (c < 16)), (0x11, decide (ix < 8 ∨ ix = 0xFF))]) s s₁ →
    (tget (if ix = 0xFF then s₁.get .MEM_FRZ_STS_SNAP c else ix) (s₁.chan c).snaps = some sn) →
      Completes (exec (.memSnapshotRead q) s) { s₁ with fresh := s₁.fresh + 128 } q 0 1152 (snapOut c sn s₁.fresh)) ∧
  (∀ (q : Req) (s s₁ : State),
    let c := par q 0x10 1
    Served { op := 0x0905, priv := 2, fields := [fld 0x10 1, fbits 0x11 0 1] } q (firstBad [(0x10, decide (c < 16))]) s s₁ →
    (parBit q 0x11 0 = true ∨ s₁.holdsPages c = false) →
    (s₁.freeSlot).isSome = true →
      Starts (exec (.memChannelOffline q) s) s₁ (s₁.takeOffline c) q (.offline c) (some (stOk, 0, 0))) ∧
  (∀ (s : State) (c : Fin 16),
      (s.takeOffline c.val).chState c.val = 6 ∧ ((s.takeOffline c.val).chan c.val).hold = none)

/-- Freezes, thaws and holds of a channel (R343, R344, R346, R351, R352, R353, R354, R358). -/
def Obligations.FreezesAndHolds : Prop :=
  (∀ (s : State) (c : Fin 16),
      exec (.caAlert c false false) s = .next ((s.bump .MEM_CNT_CAPAR 0x7FFF c.val).freeze c.val 2 (some (msg2 bMem c.val 0)) []) ∧
      exec (.mcLockLoss c) s = .next (s.freeze c.val 4 (some (msg2 bMem c.val 0xA)) [])) ∧
  (∀ (s : State) (c : Fin 16) (cause : Nat) (errs : List (Nat × Nat)), s.chState c.val = 2 → s.isSet .MEM_FRZ_STS_FROZEN c.val = false → s.storm c.val = false →
      (s.freeze c.val cause none errs).chState c.val = 3 ∧ (s.freeze c.val cause none errs).get .MEM_FRZ_STS_FROZEN c.val = 1 ∧
      (s.freeze c.val cause none errs).get .MEM_FRZ_STS_CAUSE c.val = cause ∧ (cause = 4 → ((s.freeze c.val cause none errs).chan c.val).retrainDue = true) ∧
      (s.freeze c.val cause none errs).get .MEM_FRZ_STS_FREEZES c.val = satAdd 0xFFFF (s.get .MEM_FRZ_STS_FREEZES c.val) 1 ∧
      (∃ x, tget ((s.freeze c.val cause none errs).get .MEM_FRZ_STS_SNAP c.val) ((s.freeze c.val cause none errs).chan c.val).snaps = some x ∧ x.cause = cause ∧
        x.errs = errs.take 8 ∧ x.cmds = (s.chan c.val).hist) ∧ (s.freeze c.val cause none errs).pg.mem = s.pg.mem) ∧
  (∀ (s : State) (c : Fin 16) (cause : Nat) (errs : List (Nat × Nat)), s.isSet .MEM_FRZ_STS_FROZEN c.val = true →
      s.freeze c.val cause none errs = s) ∧
  (∀ (s u : State) (c : Fin 16), u = (((s.bump .MEM_CNT_ABO 0xFFFF c.val).bump .MEM_CNT_RFM 0xFFFFFFFF c.val).maint c.val 7).emit (.dram c.val 3 0) →
      exec (.caAlert c true true) s = .next (u) ∧ exec (.caAlert c true false) s = .next (u.report (msg2 bMem c.val 5))) ∧
  (∀ (s : State) (c : Fin 16), s.chState c.val = 3 → (s.chan c.val).hold = none →
      exec (.freezeThaw c) s = .next ((s.put .MEM_FRZ_STS_FROZEN 0 c.val).setChState c.val 2)) ∧
  (∀ (s : State) (c : Fin 16), s.chState c.val = 3 → (s.chan c.val).hold.isSome = true → s.get .MEM_FRZ_STS_CAUSE c.val ≠ 3 →
      exec (.freezeThaw c) s = .next ((((s.put .MEM_FRZ_STS_FROZEN 0 c.val).setChan c.val { s.chan c.val with wasHeld := false }).put .MEM_FRZ_STS_HELD 1 c.val).setChState c.val 4)) ∧
  (∀ (s u : State) (c : Fin 16), s.chState c.val = 3 → (s.chan c.val).hold.isSome = true → s.get .MEM_FRZ_STS_CAUSE c.val = 3 → u = ((s.put .MEM_FRZ_STS_FROZEN 0 c.val).markEvac c.val).afterSteps →
      exec (.freezeThaw c) s = .next (((u.setChan c.val { s.chan c.val with wasHeld := false }).put .MEM_FRZ_STS_HELD 1 c.val).setChState c.val 4)) ∧
  (∀ (s : State) (c : Fin 16) (d : Nat), s.chState c.val = 4 → (s.chan c.val).hold = some (.ms d) →
      exec (.holdExpire c) s = .next (s.endHold c.val) ∧ exec (.holdEnd c) s = .next (s.endHold c.val)) ∧
  (∀ (s : State) (c : Fin 16), s.chState c.val = 4 → (s.chan c.val).owed = [] →
      (s.endHold c.val).chState c.val = 2 ∧ ((s.endHold c.val).chan c.val).hold = none ∧ (s.endHold c.val).get .MEM_FRZ_STS_HELD c.val = 0)

/-- Refresh, calibration, retraining, changes of point, sensors, training and initialisation of a channel (R324, R340, R342, R343, R345, R346, R348, R349, R350, R351, R356, R31). -/
def Obligations.ChannelUpkeep : Prop :=
  (∀ (s : State) (c : Fin 16), (s.chan c.val).postponed < s.get .MEM_REF_CTL_MAXPOST c.val →
      exec (.refreshDue c true) s = .next (s.setChan c.val { s.chan c.val with postponed := (s.chan c.val).postponed + 1 })) ∧
  (∀ (s : State) (c : Fin 16), s.get .MEM_REF_CTL_MAXPOST c.val ≤ (s.chan c.val).postponed →
      exec (.refreshDue c true) s = .next ((s.refresh c.val).report (msg1 bMem c.val 8))) ∧
  (∀ (s u : State) (c : Fin 16), u = (List.range ((s.chan c.val).postponed + 1)).foldl (fun (s : State) _ => s.refresh c.val) s →
      exec (.refreshDue c false) s = .next (u.setChan c.val { u.chan c.val with postponed := 0 })) ∧
  (∀ (s : State) (c : Nat),
      (s.refresh c).out = s.out ++ [.dram c 2 0] ∧ (s.refresh c).regs = s.regs ∧ (s.refresh c).pg = s.pg) ∧
  (∀ (s : State) (c : Fin 16), s.inService c.val = true →
      exec (.zqCalibration c) s = .next ((s.maint c.val 10).emit (.dram c.val 4 0))) ∧
  (∀ (s : State) (c : Fin 16) (d : Nat), s.inService c.val = true → (s.get .MEM_TRN_CTL_DRIFT_PS c.val < d ∨ s.get .MEM_TRN_CTL_RETRAIN_S c.val * 1000000000 ≤ s.now - (s.chan c.val).lastRetrain) →
      exec (.oscillatorRead c d) s = .next ((s.maint c.val 9).setChan c.val { (s.maint c.val 9).chan c.val with retrainDue := true })) ∧
  (∀ (s : State) (c : Fin 16), (s.chan c.val).retrainDue = true → s.chState c.val = 2 → s.get .MEM_GLB_FCHG = 31 →
      exec (.liveRetrainStart c) s = .next ((s.put .MEM_GLB_FCHG c.val).setChState c.val 5)) ∧
  (∀ (s u v : State) (c : Fin 16) (ns : Nat), s.chState c.val = 5 → s.get .MEM_GLB_FCHG = c.val → (s.chan c.val).retrainDue = true → (s.chan c.val).pauseHit = none → u = ((s.bump .MEM_TRN_STS_RETRAINS 0xFFFF c.val).pauseTime c.val ns).put .MEM_TRN_STS_LAST 1 c.val → v = (u.setChan c.val { u.chan c.val with retrainDue := false, lastRetrain := u.now }).endPause c.val →
      exec (.liveRetrainDone c true ns) s = .next (v.endKind (fun k => k == .retrain c.val) stOk 0 (v.get .MEM_TRN_STS_LAST c.val))) ∧
  (∀ (s u v : State) (c : Fin 16) (ns : Nat), s.chState c.val = 5 → s.get .MEM_GLB_FCHG = c.val → (s.chan c.val).retrainDue = true → u = ((((s.bump .MEM_TRN_STS_RETRAINS 0xFFFF c.val).pauseTime c.val ns).put .MEM_TRN_STS_LAST 2 c.val).bump .MEM_TRN_STS_FAILS 0xFF c.val).report (msg2 bMem c.val 3) → v = (u.setChan c.val { u.chan c.val with retrainDue := false, lastRetrain := u.now }).endPause c.val →
      exec (.liveRetrainDone c false ns) s = .next (v.endKind (fun k => k == .retrain c.val) stOk 0 (v.get .MEM_TRN_STS_LAST c.val))) ∧
  (∀ (s : State) (c : Fin 16), (s.chan c.val).pauseHit = none →
      (s.endPause c.val).chState c.val = 2 ∧ (s.endPause c.val).get .MEM_GLB_FCHG = 31) ∧
  (∀ (s u v : State) (c : Fin 16) (p : Nat), (s.chan c.val).changeTo = some p → (s.chan c.val).retrainDue = false → s.chState c.val = 2 → s.get .MEM_GLB_FCHG = 31 → u = (List.range (s.chan c.val).postponed).foldl (fun (s : State) _ => s.refresh c.val) s → v = ((u.setChan c.val { u.chan c.val with postponed := 0 }).maint c.val 4).maint c.val 11 →
      exec (.freqChangeStart c) s = .next (((v.setTiming c.val p (1 - v.get .MEM_TIM_SEL_ACT c.val)).put .MEM_GLB_FCHG c.val).setChState c.val 5)) ∧
  (∀ (s u v w : State) (c : Fin 16) (p ns : Nat), (s.chan c.val).changeTo = some p → (s.chan c.val).retrainDue = false → (s.chan c.val).pauseHit = none → s.chState c.val = 5 → s.get .MEM_GLB_FCHG = c.val → u = (((s.maint c.val 12).maint c.val 8).closeRows c.val).pauseTime c.val ns → v = ((u.put .MEM_CH_STS_FP p c.val).put .MEM_CH_STS_RATE (u.get .MEM_FP_RATE c.val p) c.val).put .MEM_TIM_SEL_ACT (1 - u.get .MEM_TIM_SEL_ACT c.val) c.val → w = ((u.put .MEM_FP_TRAINED 0 c.val p).bump .MEM_TRN_STS_FAILS 0xFF c.val).report (msg2 bMem c.val 4) →
      exec (.freqChangeDone c true ns) s = .next (((v.setChan c.val { v.chan c.val with changeTo := none }).endPause c.val).freqResult) ∧
      exec (.freqChangeDone c false ns) s = .next (((w.setChan c.val { w.chan c.val with changeTo := none }).endPause c.val).freqResult)) ∧
  (∀ (s : State) (slot : Fin 32) (i : Fin 4) (t : Option Nat), s.isSet .SLT_SG_STS_GATE slot.val = true → (s.chan (slot.val / 2)).failed.contains (4 * (slot.val % 2) + i.val) = false →
      exec (.sensorPoll slot i t false) s = .next (s.sensor slot.val i.val t) ∧
      exec (.sensorPoll slot i t true) s = .next ((s.sensor slot.val i.val t).logAll 0 { handle := 0, kind := 1, a := slot.val } (s.sensor slot.val i.val t).stewards)) ∧
  (∀ (s : State) (slot : Fin 32) (i : Fin 4) (v : Nat), s.isSet .SLT_SG_STS_GATE slot.val = true → (s.chan (slot.val / 2)).failed.contains (4 * (slot.val % 2) + i.val) = true →
      exec (.sensorRepoll slot i (some v)) s = .next (s.sensor slot.val i.val (some v)) ∧ exec (.sensorRepoll slot i none) s = .next (s)) ∧
  (∀ (s : State) (slot i : Nat), (s.chan (slot / 2)).failed.contains (4 * (slot % 2) + i) = false →
      s.sensor slot i none = (((s.setChan (slot / 2) { s.chan (slot / 2) with failed := linsert (4 * (slot % 2) + i) (s.chan (slot / 2)).failed }).put
      .MEM_CH_STS_SENSOR_FAIL 1 (slot / 2)).report { msg1 bMem (slot / 2) 7 with active := true }).setHot (slot / 2)) ∧
  (∀ (s : State) (slot i v : Nat), v < s.get .MEM_REF_CTL_CRIT_C (slot / 2) + 128 → (s.chan (slot / 2)).failed = [] →
      tget (4 * (slot % 2) + i) ((s.sensor slot i (some v)).chan (slot / 2)).temps = some v ∧ (s.sensor slot i (some v)).pg = s.pg ∧
      (s.sensor slot i (some v)).get .MEM_CH_STS_SENSOR_FAIL (slot / 2) = 0) ∧
  (∀ (s : State) (c : Fin 16), s.chState c.val = 7 → s.mem.disabledSlices.contains c.val = false → (∀ p < 4, s.isSet .MEM_FP_VALID c.val p = false) →
      exec (.trainingDone c []) s = .next ((((List.range 4).foldl (fun (s : State) p => s.put .MEM_FP_TRAINED 0 c.val p) s).report (msg2 bMem c.val 3)).setChState c.val 6)) ∧
  (∀ (s u v : State) (c : Fin 16) (l : List (Fin 4)) (p : Nat) (rest : List Nat), s.chState c.val = 7 → s.mem.disabledSlices.contains c.val = false → (∀ k < 4, s.isSet .MEM_FP_VALID c.val k = true → l.any (fun x => x.val == k) = true) → u = (List.range 4).foldl (fun (s : State) k => s.put .MEM_FP_TRAINED (b2n (s.isSet .MEM_FP_VALID c.val k && l.any (fun x => x.val == k))) c.val k) s → u.trained c.val = p :: rest → v = (u.put .MEM_CH_STS_FP p c.val).put .MEM_CH_STS_RATE (u.get .MEM_FP_RATE c.val p) c.val → v.mapCheck c.val = true →
      exec (.trainingDone c l) s = .next (((v.setChan c.val { v.chan c.val with lastRetrain := v.now }).setTiming c.val p (v.get .MEM_TIM_SEL_ACT c.val)).setChState c.val 1)) ∧
  (∀ (s u : State) (c : Fin 16), s.chState c.val = 1 → s.mapCheck c.val = true → s.mem.disabledSlices.contains c.val = false → u = (List.range 8).foldl (fun (s : State) i => (s.put .ECC_MARK_V 0 c.val i).put .ECC_MARK_GROUP 0 c.val i) s →
      exec (.mediaInitDone c) s = .next ((((u.cancelInj c.val).clearOwner c.val).setChState c.val 2).recap))

/-- Host reads and writes at an open head (R28, R61, R63, R69, R156, R168, R177, R180, R189, R425). -/
def Obligations.HostMemoryAccesses : Prop :=
  (∀ (s u : State) (m : HostMem) (dpa line val tc : Nat) (kind : Bool) (q : CohReq) (h : Held) (x : State × Resolved) (y : State × Bool) (z : State × Nat × Nat), s.memOpen m.h.val = true → s.hdm m.h.val m.hpa.val = some dpa → s.wakeMem.coh.parked = [] → x = s.wakeMem.resolve (hostAcc m dpa none) false → x.2 = .line line val tc kind → y = x.1.memAccess m.h.val (line / 64) opR false (.toHead m.h.val) → y.2 = true → z = y.1.labels tc val → u = z.1.count (.head m.h.val) 0x01 1 (some (headAttr m.h.val (line / 64) z.2.1)) → q = portReq (hostAcc m dpa none) line z.2.1 z.2.2 (entS val) (entQ val) kind → u.portHit q = some h →
      exec (.memrd m) s = .next ((u.count (.head m.h.val) 0x03 1 (some (headAttr m.h.val (line / 64) z.2.1))).emit (.memData m.h.val m.tag h.data h.poison))) ∧
  (∀ (s u : State) (m : HostMem) (dpa line val tc : Nat) (kind : Bool) (q : CohReq) (x : State × Resolved) (y : State × Bool) (z : State × Nat × Nat), s.memOpen m.h.val = true → s.hdm m.h.val m.hpa.val = some dpa → s.wakeMem.coh.parked = [] → x = s.wakeMem.resolve (hostAcc m dpa none) false → x.2 = .line line val tc kind → y = x.1.memAccess m.h.val (line / 64) opR false (.toHead m.h.val) → y.2 = true → z = y.1.labels tc val → u = z.1.count (.head m.h.val) 0x01 1 (some (headAttr m.h.val (line / 64) z.2.1)) → q = portReq (hostAcc m dpa none) line z.2.1 z.2.2 (entS val) (entQ val) kind → u.portHit q = none → u.admissible q = true → u.coh.quotaQ = [] →
      exec (.memrd m) s = .next (u.admitReq q)) ∧
  (∀ (s u : State) (m : HostMem) (dpa line val tc : Nat) (kind : Bool) (q : CohReq) (x : State × Resolved) (y : State × Bool) (z : State × Nat × Nat), s.memOpen m.h.val = true → s.hdm m.h.val m.hpa.val = some dpa → s.wakeMem.coh.parked = [] → x = s.wakeMem.resolve (hostAcc m dpa none) false → x.2 = .line line val tc kind → y = x.1.memAccess m.h.val (line / 64) opR false (.toHead m.h.val) → y.2 = true → z = y.1.labels tc val → u = z.1.count (.head m.h.val) 0x01 1 (some (headAttr m.h.val (line / 64) z.2.1)) → q = portReq (hostAcc m dpa none) line z.2.1 z.2.2 (entS val) (entQ val) kind → u.portHit q = none → u.admissible q = false →
      exec (.memrd m) s = .next (u.coh' (fun c => { c with quotaQ := c.quotaQ ++ [q] }))) ∧
  (∀ (s u : State) (m : HostMem) (d : Line) (mask : Fin (2 ^ 64)) (poison : Bool) (dpa line val tc : Nat) (kind : Bool) (q : CohReq) (x : State × Resolved) (y : State × Bool) (z : State × Nat × Nat), s.memOpen m.h.val = true → s.hdm m.h.val m.hpa.val = some dpa → s.wakeMem.coh.parked = [] → x = s.wakeMem.resolve (hostAcc m dpa (some (d, mask.val, poison))) true → x.2 = .line line val tc kind → y = x.1.memAccess m.h.val (line / 64) opW false (.toHead m.h.val) → y.2 = true → z = y.1.labels tc val → u = z.1.count (.head m.h.val) 0x02 1 (some (headAttr m.h.val (line / 64) z.2.1)) → q = portReq (hostAcc m dpa (some (d, mask.val, poison))) line z.2.1 z.2.2 (entS val) (entQ val) kind → u.coh.bi = [] → u.admissible q = true → u.coh.quotaQ = [] →
      exec (.memwr m d mask poison) s = .next (u.admitReq q)) ∧
  (∀ (s u : State) (m : HostMem) (d : Line) (mask : Fin (2 ^ 64)) (poison : Bool) (dpa line val tc k : Nat) (kind : Bool) (q : CohReq) (x : State × Resolved) (y : State × Bool) (z : State × Nat × Nat), s.memOpen m.h.val = true → s.hdm m.h.val m.hpa.val = some dpa → s.wakeMem.coh.parked = [] → x = s.wakeMem.resolve (hostAcc m dpa (some (d, mask.val, poison))) true → x.2 = .line line val tc kind → y = x.1.memAccess m.h.val (line / 64) opW false (.toHead m.h.val) → y.2 = true → z = y.1.labels tc val → u = z.1.count (.head m.h.val) 0x02 1 (some (headAttr m.h.val (line / 64) z.2.1)) → q = portReq (hostAcc m dpa (some (d, mask.val, poison))) line z.2.1 z.2.2 (entS val) (entQ val) kind → (m.h.val, line, k) ∈ u.coh.bi →
      exec (.memwr m d mask poison) s = .next (u.recallData q (d, mask.val, poison))) ∧
  (∀ (s u : State) (m : HostMem) (d : Line) (mask : Fin (2 ^ 64)) (poison : Bool) (dpa line val tc : Nat) (kind : Bool) (q : CohReq) (x : State × Resolved) (y : State × Bool) (z : State × Nat × Nat), s.memOpen m.h.val = true → s.hdm m.h.val m.hpa.val = some dpa → s.wakeMem.coh.parked = [] → x = s.wakeMem.resolve (hostAcc m dpa (some (d, mask.val, poison))) true → x.2 = .line line val tc kind → y = x.1.memAccess m.h.val (line / 64) opW false (.toHead m.h.val) → y.2 = true → z = y.1.labels tc val → u = z.1.count (.head m.h.val) 0x02 1 (some (headAttr m.h.val (line / 64) z.2.1)) → q = portReq (hostAcc m dpa (some (d, mask.val, poison))) line z.2.1 z.2.2 (entS val) (entQ val) kind → u.coh.bi = [] → u.admissible q = false →
      exec (.memwr m d mask poison) s = .next (u.coh' (fun c => { c with quotaQ := c.quotaQ ++ [q] }))) ∧
  (∀ (s u v : State) (m : HostMem) (d : Line) (mask : Fin (2 ^ 64)) (poison : Bool) (dpa : Nat), s.memOpen m.h.val = true → s.hdm m.h.val m.hpa.val = some dpa → s.wakeMem.coh.parked = [] → s.bindOf m.h.val dpa = none → u = ((s.wakeMem.reportTo (msg1 bHpt m.h.val 3 0 (xlExtra 1 0 false false 0 m.h.val) 1) (.xlat m.h.val dpa 16)).count (.head m.h.val) 0x05 1 (some (headAttr m.h.val lpnEnd 0))).count (.head m.h.val) 0x01 1 (some (headAttr m.h.val lpnEnd 0)) → v = ((s.wakeMem.reportTo (msg1 bHpt m.h.val 3 0 (xlExtra 1 0 true false 0 m.h.val) 1) (.xlat m.h.val dpa 16)).count (.head m.h.val) 0x05 1 (some (headAttr m.h.val lpnEnd 0))).count (.head m.h.val) 0x02 1 (some (headAttr m.h.val lpnEnd 0)) →
      exec (.memrd m) s = .next (((u.listPoison m.h.val dpa).count (.head m.h.val) 0x06 1 none).emit (.memData m.h.val m.tag 0 true)) ∧
      exec (.memwr m d mask poison) s = .next (v.emit (.memCmp m.h.val m.tag))) ∧
  (∀ (s : State) (m : HostMem) (d : Line) (mask : Fin (2 ^ 64)) (poison : Bool), s.memOpen m.h.val = true → s.wakeMem.hdm m.h.val m.hpa.val = none → (s.wakeMem.head m.h.val).decodePoison = false →
      exec (.memrd m) s = .next (s.wakeMem.emit (.memData m.h.val m.tag (BitVec.allOnes 512) false)) ∧
      exec (.memwr m d mask poison) s = .next (s.wakeMem.emit (.memCmp m.h.val m.tag))) ∧
  (∀ (s : State) (m : HostMem) (dpa line val tc : Nat) (kind : Bool) (x : State × Resolved), s.memOpen m.h.val = true → s.hdm m.h.val m.hpa.val = some dpa → x = s.wakeMem.resolve (hostAcc m dpa none) false → x.2 = .line line val tc kind →
      exec (.memclnevct m) s = .next ((x.1.clearPresence line m.h.val).emit (.memCmp m.h.val m.tag))) ∧
  (∀ (s : State) (h : Fin 8) (q : CohReq), firstFree (fun q => q.agent == h.val && s.admissible q) [] s.coh.quotaQ = some q →
      exec (.quotaAdmit h) s = .next ((s.coh' (fun c => { c with quotaQ := c.quotaQ.erase q })).admitReq q))

/-- Answers to back-invalidate snoops, their timeouts and the loss of back-invalidation (R67, R168, R169, R170, R172). -/
def Obligations.BackInvalidation : Prop :=
  (∀ (s : State) (h : Fin 8) (line : LineNo) (kind : Nat), s.get .HPT_HEAD_STS_IDE h.val ≠ 3 → s.coh.bi.find? (fun b => b.1 == h.val && b.2.1 == line.val) = some (h.val, line.val, kind) →
      exec (.birsp h line false) s = .next (((s.clearPresence line.val h.val).biDel h.val line.val).recallEnds h.val line.val)) ∧
  (∀ (s : State) (h : Fin 8) (line : LineNo), s.get .HPT_HEAD_STS_IDE h.val ≠ 3 → s.coh.bi.find? (fun b => b.1 == h.val && b.2.1 == line.val) = some (h.val, line.val, 1) →
      exec (.birsp h line true) s = .next (((s.setPresence line.val (s.presence line.val).1 false).biDel h.val line.val).recallEnds h.val line.val)) ∧
  (∀ (s : State) (h : Fin 8) (line : LineNo) (keepS : Bool), s.get .HPT_HEAD_STS_IDE h.val ≠ 3 → s.coh.bi.find? (fun b => b.1 == h.val && b.2.1 == line.val) = none →
      exec (.birsp h line keepS) s = .next ((s.coh' (fun c => { c with biLate := c.biLate.filter (fun b => b != (h.val, line.val)) })).bump .COH_BI_CNT_LATE_BIRSP 0xFFFF h.val)) ∧
  (∀ (s u : State) (h : Fin 8) (line : LineNo) (kind : Nat), (h.val, line.val, kind) ∈ s.coh.bi → (u = (if (s.present line.val h.val && ((s.presence line.val).2 || s.coh.rebuild.contains (line.val / 64))) = true then (s.clearPresence line.val h.val).poisonLine line.val 3 else s.clearPresence line.val h.val)) →
      exec (.bisnpTimeout h line) s = .next (((((u.bump .COH_BI_CNT_TIMEOUTS 0xFFFF h.val).report (msg2 bCoh (u.home (line.val / 64)) 3 (line.val * 64))).coh'
        (fun c => { c with biLate := c.biLate ++ [(h.val, line.val)] })).biDel h.val line.val).recallEnds h.val line.val)) ∧
  (∀ (s : State) (h : Fin 8) (line : LineNo), s.get .HPT_HEAD_STS_IDE h.val ≠ 3 →
      exec (.biconflict h line) s = .next (s.emit (.biConflictAck h.val line.val))) ∧
  (∀ (s : State) (h : Fin 8) (line : LineNo) (keepS : Bool), s.get .HPT_HEAD_STS_IDE h.val = 3 →
      exec (.biconflict h line) s = .next (s) ∧ exec (.birsp h line keepS) s = .next (s)) ∧
  (∀ (s : State) (h : Fin 8), s.coh.dir = [] → s.coh.bi = [] →
      exec (.biEnCleared h) s = .next (s.setHead h.val { s.head h.val with biDec := false })) ∧
  (∀ (s u : State) (h : Fin 8) (line kind : Nat) (l : List Nat), (h.val, line, kind) ∈ s.coh.bi → (s.setHead h.val { s.head h.val with biDec := false }).losePresence h.val = (u, l) →
      exec (.biEnCleared h) s = .next (u.recallsGone h.val l) ∧ u.epochOf h.val = (s.epochOf h.val + 1) % 65536)

/-- Requests of agents reach their home, and what is refused or held there (R108, R147, R149, R150, R154, R155, R158, R159, R174, R426). -/
def Obligations.CoherenceRequests : Prop :=
  (∀ (s : State) (q : Ask),
      exec (.reads q false) s = .next (s.agentAsk (askReq q .readS) q.via) ∧ exec (.reads q true) s = .next (s.agentAsk (askReq q .readSnc) q.via) ∧
      exec (.reado q false false none) s = .next (s.agentAsk (askReq q .readO) q.via) ∧ exec (.reado q true false none) s = .next (s.agentAsk (askReq q .readOFull) q.via) ∧
      exec (.upgrade q) s = .next (s.agentAsk (askReq q .upgrade) q.via)) ∧
  (∀ (s : State) (q : Ask) (full : Bool) (d : Line), s.writeHit q.agent.val q.line.val d = none →
      exec (.reado q full false (some d)) s = .next (s.agentAsk (askReq q (if full then .readOFull else .readO)) q.via)) ∧
  (∀ (s : State) (q : Ask) (full : Bool) (d : Line) (h : Held), s.heldAt q.agent.val q.line.val = some h → 3 ≤ h.st →
      exec (.reado q full false (some d)) s = .next (s.hold q.agent.val q.line.val (some { st := 4, data := d }))) ∧
  (∀ (s u v : State) (p r : CohReq) (via : Option Via) (x : State × Option CohReq) (y : State × Bool), (x = (match via with | some w => s.wakeMem.viaReq p w | none => (s.wakeMem, if ownLpn p then some p else none))) → x.2 = some r → x.1.halt = none → tget (agKey r.agent r.line) x.1.coh.reqs = none → x.1.outstanding r.agent < 64 → x.1.agentRoom r.agent r.line = true → (y = (if r.master = 0x7F then (x.1, true) else x.1.memAccess r.master r.lpn (if r.owns then opW else opR) (x.1.jobExcepted r.master r.lpn) .std)) → y.2 = true → (u = (if 8 ≤ r.agent ∧ r.agent < 0x0E then y.1.count (.cluster (r.agent - 8)) 0x03 1 (some (reqAttr (y.1.numbered r) 6)) else y.1)) → v = (u.coh' (fun c => { c with reqs := tput (agKey r.agent r.line) { req := y.1.numbered r } c.reqs })).say ((y.1.numbered r).msg (u.homeAg r.line)) →
      s.agentAsk p via = (v.homeReq (y.1.numbered r)).settled (v.home r.lpn)) ∧
  (∀ (s u : State) (q : Ask) (full : Bool) (w : Option Line) (m : MoveSt), tget (q.line.val / 64) s.pg.moves = some m → m.step = 1 → s.halt = none → m.req.ver = (s.page (q.line.val / 64)).pl.ver → s.meets m.req = true → u = s.say { cls := cREQ, code := 1, line := 64 * (q.line.val / 64), src := 0x12 + s.home (q.line.val / 64), dst := s.homeAg (64 * (q.line.val / 64)), page := true, master := mMig } →
      exec (.reado q full true w) s = .next ({ u with pg := { u.pg with moves := tput (q.line.val / 64) { m with step := 2 } u.pg.moves } }.takePage (q.line.val / 64))) ∧
  (∀ (s : State) (q : Ask) (full : Bool) (w : Option Line) (m : MoveSt), tget (q.line.val / 64) s.pg.moves = some m → m.step = 1 → s.halt = none → m.req.ver ≠ (s.page (q.line.val / 64)).pl.ver →
      exec (.reado q full true w) s = .next (s.staleMove m)) ∧
  (∀ (s : State) (q : CohReq), (s.page q.lpn).pl.lock = true → (s.holdOf (s.home q.lpn)).length < 64 →
      s.homeReq q = s.setHold (s.home q.lpn) (s.holdOf (s.home q.lpn) ++ [q])) ∧
  (∀ (s : State) (q : CohReq), (s.page q.lpn).pl.lock = false → (s.trkOf q.line).isSome = true → q.att < 8 →
      s.homeReq q = s.nackReq q 1 false) ∧
  (∀ (s : State) (q : CohReq), (s.page q.lpn).pl.lock = false → (s.trkOf q.line).isSome = false → (s.starvOf (s.home q.lpn)).any (fun x => x.line == q.line) = false → s.atQuota (s.home q.lpn) q.cls = true → q.att < 8 →
      s.homeReq q = s.nackReq q 0 true) ∧
  (∀ (s : State) (q : CohReq), (s.page q.lpn).pl.lock = false → (s.trkOf q.line).isSome = false → s.starvOf (s.home q.lpn) = [] → s.atQuota (s.home q.lpn) q.cls = false → s.trkUsed (s.home q.lpn) < 256 →
      s.homeReq q = s.openTrk q) ∧
  (∀ (s : State) (a : Fin 18) (line : LineNo) (r : AgReq), tget (agKey a.val line.val) s.coh.reqs = some r → r.backoff = false →
      exec (.nack a line) s = .next (s.coh' (fun c => { c with reqs := tput (agKey a.val line.val) { r with nacks := min 8 (r.nacks + 1), backoff := true, req := { r.req with att := min 8 (r.nacks + 1) } } c.reqs }))) ∧
  (∀ (s u : State) (a : Fin 18) (line : LineNo) (r : AgReq), tget (agKey a.val line.val) s.coh.reqs = some r → r.backoff = true → u = (s.coh' (fun c => { c with reqs := tput (agKey a.val line.val) { r with backoff := false } c.reqs })).say (r.req.msg (s.homeAg line.val)) →
      exec (.nackBackoffExpire a line) s = .next ((u.homeReq r.req).settled (u.home r.req.lpn)))

/-- A ReadS of a line that only the home has is granted in E from the line cache (R151, R152, R154, R155, R177). -/
def Obligations.CachedLineIsGrantedExclusive : Prop :=
  ∀ (s : State) (q : Ask) (l : LcLine), s.get .PWR_STATE_PS = 0 → s.halt = none → s.coh.reqs = [] → s.coh.evs = [] → s.coh.parked = [] → s.coh.sf = [] → s.coh.trk = [] → s.coh.held = [] → s.xlt.waiting = [] → s.acc.tapMem = none → q.via = none → q.master = none → 8 ≤ q.agent.val → devWindow ≤ q.line.val / 64 → (s.page (q.line.val / 64)).pl.lock = false → s.starvOf (s.home (q.line.val / 64)) = [] → s.atQuota (s.home (q.line.val / 64)) q.cls.val = false → tget (q.line.val / 64) s.coh.dir = none → s.coh.rebuild = [] → s.lcOf q.line.val = some l → l.prov = false →
      ∃ t : State, exec (.reads q false) s = .next t ∧
        .coh ({ cls := cDAT, code := 0, line := q.line.val, src := s.homeAg q.line.val, dst := q.agent.val, gs := 2, poison := l.poison, cl := q.cls.val } : CohMsg).header
          (some (if l.poison then 0 else l.data)) ∈ t.out ∧
        t.sfOf q.line.val = some { st := 3, holders := [q.agent.val], f := none } ∧ t.pg.mem = s.pg.mem ∧
        (t.lcOf q.line.val).map (fun x => (x.data, x.dirty, x.poison)) = some (l.data, l.dirty, l.poison)

/-- Agents answer snoops and take grants, and homes take the answers and write-backs (R149, R151, R153, R154, R155, R157, R162, R163, R164, R176). -/
def Obligations.CoherenceAnswers : Prop :=
  (∀ (s : State) (a : Fin 18) (line : LineNo), s.heldAt a.val line.val = none →
      exec (.agentEviction a line) s = .next (s)) ∧
  (∀ (s : State) (a : Fin 18) (line : LineNo), s.snoopAt a.val line.val = some 0 → s.heldAt a.val line.val = none →
      exec (.snpinv a line) s = .next (s.missAnswer a.val line.val 0)) ∧
  (∀ (s : State) (a : Fin 18) (line : LineNo), s.snoopAt a.val line.val = some 3 → s.heldAt a.val line.val = none →
      exec (.snpdata a line) s = .next (s.missAnswer a.val line.val 3)) ∧
  (∀ (s : State) (a rid : Fin 18) (line : LineNo) (t : Trk), s.snoopAt a.val line.val = some 1 → s.trkOf line.val = some t → t.req.agent = rid.val → s.heldAt a.val line.val = none →
      exec (.snpfwd a line false rid) s = .next (s.missAnswer a.val line.val 1)) ∧
  (∀ (s : State) (a rid : Fin 18) (line : LineNo) (t : Trk), s.snoopAt a.val line.val = some 2 → s.trkOf line.val = some t → t.req.agent = rid.val → s.heldAt a.val line.val = none →
      exec (.snpfwd a line true rid) s = .next (s.missAnswer a.val line.val 2)) ∧
  (∀ (s : State) (a : Fin 18) (line : LineNo) (h : Held), s.snoopAt a.val line.val = some 0 → s.heldAt a.val line.val = some h → h.st ≠ 4 →
      exec (.snpinv a line) s = .next ((s.hold a.val line.val none).answerSnoop a.val line.val 0 2)) ∧
  (∀ (s : State) (a : Fin 18) (line : LineNo) (h : Held), s.snoopAt a.val line.val = some 0 → s.heldAt a.val line.val = some h → h.st = 4 →
      exec (.snpinv a line) s = .next (((s.hold a.val line.val none).sendWb a.val line.val h.data h.poison).answerSnoop a.val line.val 0 6)) ∧
  (∀ (s u : State) (a rid : Fin 18) (line : LineNo) (h : Held) (t : Trk), s.snoopAt a.val line.val = some 2 → s.trkOf line.val = some t → t.req.agent = rid.val → s.heldAt a.val line.val = some h → 2 ≤ h.st → u = s.sendDat a.val rid.val line.val 3 h →
      exec (.snpfwd a line true rid) s = .next ((u.hold a.val line.val none).answerSnoop a.val line.val 2 5)) ∧
  (∀ (s u : State) (a rid : Fin 18) (line : LineNo) (h : Held) (t : Trk), s.snoopAt a.val line.val = some 1 → s.trkOf line.val = some t → t.req.agent = rid.val → s.heldAt a.val line.val = some h → (h.st = 2 ∨ h.st = 3) → u = (s.sendDat a.val rid.val line.val 1 h).hold a.val line.val (some { h with st := 1 }) →
      exec (.snpfwd a line false rid) s = .next (u.answerSnoop a.val line.val 1 4)) ∧
  (∀ (s u : State) (a rid : Fin 18) (line : LineNo) (h : Held) (t : Trk), s.snoopAt a.val line.val = some 1 → s.trkOf line.val = some t → t.req.agent = rid.val → s.heldAt a.val line.val = some h → h.st = 4 → u = (s.sendDat a.val rid.val line.val 1 h).hold a.val line.val (some { h with st := 1 }) →
      exec (.snpfwd a line false rid) s = .next ((u.sendWb a.val line.val h.data h.poison).answerSnoop a.val line.val 1 7)) ∧
  (∀ (s : State) (a : Fin 18) (line : LineNo) (h : Held), s.snoopAt a.val line.val = some 3 → s.heldAt a.val line.val = some h → h.st = 3 →
      exec (.snpdata a line) s = .next (((s.hold a.val line.val (some { h with st := 2 })).sendDat a.val (s.homeAg line.val) line.val 0 { h with st := 2 }).answerSnoop a.val line.val 3 3)) ∧
  (∀ (s : State) (a : Fin 18) (line : LineNo) (h : Held), s.snoopAt a.val line.val = some 3 → s.heldAt a.val line.val = some h → h.st = 4 →
      exec (.snpdata a line) s = .next (((s.hold a.val line.val (some { h with st := 2 })).sendWb a.val line.val h.data h.poison).answerSnoop a.val line.val 3 6)) ∧
  (∀ (s : State) (a : Fin 18) (line : LineNo) (h : Held), s.heldAt a.val line.val = some h → (h.st = 1 ∨ h.st = 3) →
      exec (.agentEviction a line) s = .next (s.hold a.val line.val none)) ∧
  (∀ (s u : State) (a : Fin 18) (line : LineNo) (h : Held), s.heldAt a.val line.val = some h → h.st = 2 → s.outstanding a.val < 64 → u = (s.hold a.val line.val none).coh' (fun c => { c with evs := tput (agKey a.val line.val) 0 c.evs }) →
      exec (.agentEviction a line) s = .next (u.say { cls := cREQ, code := 4, line := line.val, src := a.val, dst := s.homeAg line.val })) ∧
  (∀ (s u : State) (a : Fin 18) (line : LineNo) (h : Held), 8 ≤ a.val → s.heldAt a.val line.val = some h → h.st = 4 → s.outstanding a.val < 64 → s.wbmOut a.val (s.home (line.val / 64)) < 8 → u = (s.hold a.val line.val none).coh' (fun c => { c with evs := tput (agKey a.val line.val) 1 c.evs }) →
      exec (.agentEviction a line) s = .next ((u.say { cls := cREQ, code := 3, line := line.val, src := a.val, dst := s.homeAg line.val }).sendWb a.val line.val h.data h.poison)) ∧
  (∀ (s u : State) (a : Fin 18) (line : LineNo) (gs : Nat) (d : Line) (r : AgReq), tget (agKey a.val line.val) s.coh.reqs = some r → tget (agKey a.val line.val) s.coh.dat = some (gs, d, false) → 8 ≤ a.val → u = s.coh' (fun c => { c with dat := tdel (agKey a.val line.val) c.dat }) → r.req.kind ≠ .readSnc →
      exec (.data a line) s = .next (((u.hold a.val line.val (some { st := gs + 1, data := d, poison := false })).reqDone a.val line.val).fromAgent 0 a.val line.val)) ∧
  (∀ (s u : State) (a : Fin 18) (line : LineNo) (gs : Nat) (d : Line) (r : AgReq), tget (agKey a.val line.val) s.coh.reqs = some r → tget (agKey a.val line.val) s.coh.dat = some (gs, d, false) → 8 ≤ a.val → u = s.coh' (fun c => { c with dat := tdel (agKey a.val line.val) c.dat }) → r.req.kind = .readSnc →
      exec (.data a line) s = .next ((u.reqDone a.val line.val).fromAgent 0 a.val line.val)) ∧
  (∀ (s : State) (a : Fin 18) (line : LineNo) (w : Line) (t : Trk), s.trkOf line.val = some t → t.req.agent = a.val → tget (agKey a.val line.val) s.coh.reqs = none → t.granted = true →
      exec (.ack true a line w) s = .next ((s.closeTrk line.val).settled (s.home (line.val / 64)))) ∧
  (∀ (s : State) (a : Fin 18) (line : LineNo) (w : Line) (t : Trk), s.trkOf line.val = some t → t.req.agent = a.val → tget (agKey a.val line.val) s.coh.reqs = none → t.granted = false → t.acked = false →
      exec (.ack true a line w) s = .next (s.putTrk line.val { t with acked := true })) ∧
  (∀ (s : State) (a : Fin 18) (line : LineNo) (w : Line), tget (agKey a.val line.val) s.coh.evs = some 3 →
      exec (.ack false a line w) s = .next (s.coh' (fun c => { c with evs := tdel (agKey a.val line.val) c.evs }))) ∧
  (∀ (s : State) (a : Fin 18) (line : LineNo) (w : Line) (t : Trk) (r : AgReq) (h : Held), tget (agKey a.val line.val) s.coh.evs = none → s.trkOf line.val = some t → t.req.agent = a.val → tget (agKey a.val line.val) s.coh.reqs = some r → t.granted = true → t.noData = true → s.heldAt a.val line.val = some h → r.req.kind = .upgrade →
      exec (.ack false a line w) s = .next (((s.hold a.val line.val (some { h with st := 4 })).reqDone a.val line.val).fromAgent 0 a.val line.val)) ∧
  (∀ (s : State) (a : Fin 18) (line : LineNo) (m : WbMsg), s.halt = none → tget (agKey a.val line.val) s.coh.evs = some 1 → tget (agKey a.val line.val) s.coh.wbData = some m →
      exec (.wbm a line) s = .next ((s.acceptWb m).settled (s.home (line.val / 64)))) ∧
  (∀ (s : State) (a : Fin 18) (line : LineNo), s.halt = none → tget (agKey a.val line.val) s.coh.evs = some 1 → tget (agKey a.val line.val) s.coh.wbData = none →
      exec (.wbm a line) s = .next (s.coh' (fun c => { c with evs := tput (agKey a.val line.val) 2 c.evs }))) ∧
  (∀ (s : State) (a : Fin 18) (line : LineNo), s.halt = none → tget (agKey a.val line.val) s.coh.evs = none →
      exec (.wbm a line) s = .next (s.report (msgFatal bCoh (s.home (line.val / 64)) 0 (line.val * 64)))) ∧
  (∀ (s u : State) (m n : WbMsg) (d : Line) (po : Bool), s.halt = none → tget (agKey m.agent.val m.line.val) s.coh.wbOut = some (d, po) → n = { m with data := d, poison := po } → u = s.coh' (fun c => { c with wbOut := tdel (agKey m.agent.val m.line.val) c.wbOut, wbData := tput (agKey m.agent.val m.line.val) n c.wbData }) → tget (agKey m.agent.val m.line.val) u.coh.evs ≠ some 2 → u.trkOf m.line.val = none →
      exec (.wbdata m) s = .next (u)) ∧
  (∀ (s u : State) (m n : WbMsg) (d : Line) (po : Bool), s.halt = none → tget (agKey m.agent.val m.line.val) s.coh.wbOut = some (d, po) → n = { m with data := d, poison := po } → u = s.coh' (fun c => { c with wbOut := tdel (agKey m.agent.val m.line.val) c.wbOut, wbData := tput (agKey m.agent.val m.line.val) n c.wbData }) → tget (agKey m.agent.val m.line.val) u.coh.evs = some 2 →
      exec (.wbdata m) s = .next ((u.acceptWb n).settled (s.home (m.line.val / 64)))) ∧
  (∀ (s : State) (a : Fin 18) (line : LineNo) (e : SfEnt), s.sfOf line.val = some e → e.f = some a.val → s.heldAt a.val line.val = none → tget (agKey a.val line.val) s.coh.evs = some 0 →
      exec (.evf a line) s = .next ((s.coh' (fun c => { c with evs := tdel (agKey a.val line.val) c.evs })).sfDrop line.val a.val)) ∧
  (∀ (s : State) (a : Fin 18) (line : LineNo) (t : Trk) (code : Fin 16) (kind : Nat), s.trkOf line.val = some t → kind < 4 → t.snoops.find? (fun p => p.1 == a.val && decide (64 ≤ p.2 ∧ p.2 % 16 = code.val)) = some (a.val, 64 + 16 * kind + code.val) → (code.val < 6 ∨ code.val = 8 ∨ code.val = 9) →
      exec (.snoopResponse a line code) s = .next ((s.snoopDone a.val line.val kind code.val).settled (s.home (line.val / 64)))) ∧
  (∀ (s : State) (a : Fin 18) (line : LineNo) (code : Fin 16), s.trkOf line.val = none →
      exec (.snoopResponse a line code) s = .next (s.report (msgFatal bCoh (s.home (line.val / 64)) 0 (line.val * 64))))
end

