-- ==== Sys2Proof/Laws/Count.lean ====
section
/-!
SUPPORT. What counting can do, said once: an occurrence that the performance counters see changes register fields, and nothing else.
-/
namespace Sys2Proof.Machine
open Sys2Proof

/-- The states that differ in register fields alone. -/
def OnlyRegs (s t : State) : Prop := { t with regs := s.regs } = s

theorem OnlyRegs.refl (s : State) : OnlyRegs s s := rfl

theorem OnlyRegs.trans {s t u : State} (h : OnlyRegs s t) (k : OnlyRegs t u) : OnlyRegs s u := by
  unfold OnlyRegs at *
  rw [← h, ← k]

theorem put_onlyRegs (s : State) (r : Reg) (v i j : Nat) : OnlyRegs s (s.put r v i j) := rfl

theorem OnlyRegs.ite {s t u : State} {c : Prop} [Decidable c] (h : OnlyRegs s t) (k : OnlyRegs s u) : OnlyRegs s (if c then t else u) := by
  split <;> assumption

theorem pmuAdd_onlyRegs (s : State) (n k : Nat) : OnlyRegs s (s.pmuAdd n k) :=
  .ite (put_onlyRegs ..) ((put_onlyRegs ..).trans (put_onlyRegs ..))

theorem pmuSee_onlyRegs (s : State) (n code k : Nat) (a : Option Attr) : OnlyRegs s (s.pmuSee n code k a) :=
  .ite (pmuAdd_onlyRegs ..) (.refl s)

theorem pmuRange_onlyRegs (lo n code k : Nat) (a : Option Attr) (s : State) : OnlyRegs s (s.pmuRange lo n code k a) := by
  induction n generalizing s with
  | zero => exact .refl s
  | succ n ih => exact (pmuSee_onlyRegs ..).trans (ih _)

/-- An occurrence changes register fields only. -/
theorem count_onlyRegs (s : State) (u : PmuUnit) (code k : Nat) (a : Option Attr) : OnlyRegs s (s.count u code k a) := by
  refine .ite (.refl s) ?_
  have h := pmuRange_onlyRegs (unitCounters u).1 (unitCounters u).2 code k a s
  cases u with
  | slice n => exact h.trans (pmuRange_onlyRegs 232 24 (0x80 + code) k a _)
  | head n => exact h.trans (pmuRange_onlyRegs 232 24 (0xC0 + code) k a _)
  | cluster n => exact h
  | port n => exact h
  | global => exact h

/-- A counter that saturates changes register fields only. -/
theorem bump_onlyRegs (s : State) (r : Reg) (cap i j : Nat) : OnlyRegs s (s.bump r cap i j) := put_onlyRegs ..

end Sys2Proof.Machine
end

