-- ==== Sys2Proof/Laws/Tables.lean ====
section
/-!
SUPPORT. Tables and register fields: what is read after a write, and the canonical forms that writes keep.
-/
namespace Sys2Proof.Machine
open Sys2Proof

variable {α : Type}

/-! ### Reading after writing -/

@[simp] theorem tget_tdel_same (k : Nat) (t : Tab α) : tget k (tdel k t) = none := by
  induction t with
  | nil => rfl
  | cons p t ih => obtain ⟨k', v⟩ := p; by_cases h : k' = k <;> simp [tdel, tget, h, ih]

theorem tget_tdel_ne {k k' : Nat} (h : k ≠ k') (t : Tab α) : tget k' (tdel k t) = tget k' t := by
  induction t with
  | nil => rfl
  | cons p t ih =>
    obtain ⟨x, v⟩ := p
    by_cases hx : x = k
    · subst hx; simp [tdel, tget, h, ih]
    · by_cases hk : x = k' <;> simp [tdel, tget, hx, hk, h.symm, ih]

@[simp] theorem tget_tput_same (k : Nat) (v : α) (t : Tab α) : tget k (tput k v t) = some v := by
  have h : ∀ t : Tab α, tget k t = none → tget k (tins k v t) = some v := by
    intro t
    induction t with
    | nil => simp [tins, tget]
    | cons p t ih =>
      obtain ⟨x, w⟩ := p
      intro hx
      by_cases e : x = k
      · simp [tget, e] at hx
      · have hx' : tget k t = none := by simpa [tget, e] using hx
        simp only [tins]
        split <;> simp [tget, e, ih hx']
  exact h _ (tget_tdel_same k t)

theorem tget_tput_ne {k k' : Nat} (h : k ≠ k') (v : α) (t : Tab α) : tget k' (tput k v t) = tget k' t := by
  have hi : ∀ t : Tab α, tget k' (tins k v t) = tget k' t := by
    intro t
    induction t with
    | nil => simp [tins, tget, h]
    | cons p t ih =>
      obtain ⟨x, w⟩ := p
      simp only [tins]
      split <;> simp [tget, h, ih]
  rw [tput, hi, tget_tdel_ne h]

@[simp] theorem tgetD_tput_same (d : α) (k : Nat) (v : α) (t : Tab α) : tgetD d k (tput k v t) = v := by simp [tgetD]

theorem tgetD_tput_ne (d : α) {k k' : Nat} (h : k ≠ k') (v : α) (t : Tab α) : tgetD d k' (tput k v t) = tgetD d k' t := by
  simp [tgetD, tget_tput_ne h]

@[simp] theorem tgetD_tputD_same [DecidableEq α] (d : α) (k : Nat) (v : α) (t : Tab α) : tgetD d k (tputD d k v t) = v := by
  by_cases h : v = d <;> simp [tputD, tgetD, h]

theorem tgetD_tputD_ne [DecidableEq α] (d : α) {k k' : Nat} (h : k ≠ k') (v : α) (t : Tab α) : tgetD d k' (tputD d k v t) = tgetD d k' t := by
  unfold tputD
  split
  · simp [tgetD, tget_tdel_ne h]
  · exact tgetD_tput_ne d h v t

/-! ### Register fields -/

@[simp] theorem rget_rdel_same (k : RegKey) (t : List (RegKey × Nat)) : rget k (rdel k t) = none := by
  induction t with
  | nil => rfl
  | cons p t ih => obtain ⟨k', v⟩ := p; by_cases h : k' = k <;> simp [rdel, rget, h, ih]

theorem rget_rdel_ne {k k' : RegKey} (h : k ≠ k') (t : List (RegKey × Nat)) : rget k' (rdel k t) = rget k' t := by
  induction t with
  | nil => rfl
  | cons p t ih =>
    obtain ⟨x, v⟩ := p
    by_cases hx : x = k
    · subst hx; simp [rdel, rget, h, ih]
    · by_cases hk : x = k' <;> simp [rdel, rget, hx, hk, h.symm, ih]

theorem rget_rins_same (k : RegKey) (v : Nat) (t : List (RegKey × Nat)) (h : rget k t = none) : rget k (rins k v t) = some v := by
  induction t with
  | nil => simp [rins, rget]
  | cons p t ih =>
    obtain ⟨x, w⟩ := p
    by_cases e : x = k
    · simp [rget, e] at h
    · have h' : rget k t = none := by simpa [rget, e] using h
      simp only [rins]
      split <;> simp [rget, e, ih h']

theorem rget_rins_ne {k k' : RegKey} (h : k ≠ k') (v : Nat) (t : List (RegKey × Nat)) : rget k' (rins k v t) = rget k' t := by
  induction t with
  | nil => simp [rins, rget, h]
  | cons p t ih =>
    obtain ⟨x, w⟩ := p
    simp only [rins]
    split <;> simp [rget, h, ih]

/-- A register field reads what was put. -/
@[simp] theorem State.get_put_same (s : State) (r : Reg) (v i j : Nat) : (s.put r v i j).get r i j = v := by
  simp [State.get, State.put, rget_rins_same _ _ _ (rget_rdel_same _ _)]

/-- Every other field of the registers reads as before. -/
theorem State.get_put_ne (s : State) {r r' : Reg} {i i' j j' : Nat} (v : Nat) (h : (⟨r, i, j⟩ : RegKey) ≠ ⟨r', i', j'⟩) :
    (s.put r v i j).get r' i' j' = s.get r' i' j' := by
  simp [State.get, State.put, rget_rins_ne h, rget_rdel_ne h]

/-- A field of another register reads as before. -/
theorem State.get_put_other (s : State) {r r' : Reg} (v i i' j j' : Nat) (h : r ≠ r') : (s.put r v i j).get r' i' j' = s.get r' i' j' :=
  s.get_put_ne v (fun e => h (by injection e))

/-- A field that is dropped reads its reset value. -/
@[simp] theorem State.get_unput_same (s : State) (r : Reg) (i j : Nat) : (s.unput r i j).get r i j = dflt r i j := by
  simp [State.get, State.unput]

/-! ### Numbers that rise -/

theorem mem_linsert (k x : Nat) (l : List Nat) : x ∈ linsert k l ↔ x = k ∨ x ∈ l := by
  induction l with
  | nil => simp [linsert]
  | cons y l ih =>
    simp only [linsert]
    split
    · simp
    · split
      · subst_vars; simp
      · simp [ih, or_left_comm]

/-- Adding a number keeps a list of numbers rising. -/
theorem linsert_rises (k : Nat) (l : List Nat) (h : l.Pairwise (· < ·)) : (linsert k l).Pairwise (· < ·) := by
  induction l with
  | nil => simp [linsert]
  | cons y l ih =>
    have hy := List.pairwise_cons.mp h
    simp only [linsert]
    split
    · refine List.pairwise_cons.mpr ⟨?_, h⟩
      intro a ha
      rcases List.mem_cons.mp ha with rfl | ha
      · assumption
      · have := hy.1 a ha; omega
    · split
      · exact h
      · refine List.pairwise_cons.mpr ⟨?_, ih hy.2⟩
        intro a ha
        rcases (mem_linsert k a l).mp ha with rfl | ha
        · omega
        · exact hy.1 a ha

end Sys2Proof.Machine
end

