-- ==== Sys2Proof/Laws/Memory.lean ====
section
/-!
SUPPORT. The canonical forms: every operation over the memory, the register file and the list of disabled parts keeps its form.
-/
namespace Sys2Proof.Machine
open Sys2Proof

variable {α : Type}

/-! ### The memory -/

theorem Tab.sorted_iff (t : Tab α) : t.sorted = true ↔ t.Pairwise (fun a b => a.1 < b.1) := by
  induction t with
  | nil => simp [Tab.sorted]
  | cons p t ih =>
    obtain ⟨k, v⟩ := p
    cases t with
    | nil => simp [Tab.sorted]
    | cons q t =>
      obtain ⟨k', v'⟩ := q
      rw [List.pairwise_cons, ← ih]
      simp only [Tab.sorted, Bool.and_eq_true, decide_eq_true_eq]
      constructor
      · intro h
        refine ⟨?_, h.2⟩
        intro a ha
        rcases List.mem_cons.mp ha with rfl | ha
        · exact h.1
        · exact Nat.lt_trans h.1 ((List.pairwise_cons.mp (ih.mp h.2)).1 a ha)
      · exact fun h => ⟨h.1 (k', v') (List.mem_cons_self ..), h.2⟩

theorem tdel_eq_filter (k : Nat) (t : Tab α) : tdel k t = t.filter (fun p => decide (p.1 ≠ k)) := by
  induction t with
  | nil => rfl
  | cons p t ih => obtain ⟨x, v⟩ := p; by_cases h : x = k <;> simp [tdel, h, ih]

theorem mem_tins (k : Nat) (v : α) (t : Tab α) (p : Nat × α) : p ∈ tins k v t ↔ p = (k, v) ∨ p ∈ t := by
  induction t with
  | nil => simp [tins]
  | cons q t ih =>
    obtain ⟨x, w⟩ := q
    simp only [tins]
    split
    · simp
    · simp [ih, or_left_comm]

theorem tins_sorted (k : Nat) (v : α) (t : Tab α) (h : t.Pairwise (fun a b => a.1 < b.1)) (hk : ∀ p ∈ t, p.1 ≠ k) :
    (tins k v t).Pairwise (fun a b => a.1 < b.1) := by
  induction t with
  | nil => simp [tins]
  | cons q t ih =>
    obtain ⟨x, w⟩ := q
    have hq := List.pairwise_cons.mp h
    simp only [tins]
    split
    · refine List.pairwise_cons.mpr ⟨?_, h⟩
      intro a ha
      rcases List.mem_cons.mp ha with rfl | ha
      · assumption
      · have := hq.1 a ha; simp only at this ⊢; omega
    · refine List.pairwise_cons.mpr ⟨?_, ih hq.2 (fun p hp => hk p (List.mem_cons_of_mem _ hp))⟩
      intro a ha
      rcases (mem_tins k v t a).mp ha with rfl | ha
      · have := hk (x, w) (List.mem_cons_self ..); simp only at this ⊢; omega
      · exact hq.1 a ha

theorem Memory.wf_iff (m : Tab Line) : Memory.wf m = true ↔ m.Pairwise (fun a b => a.1 < b.1) ∧ ∀ p ∈ m, p.2 ≠ 0 := by
  simp [Memory.wf, Tab.sorted_iff]

/-- Dropping lines keeps the form. -/
theorem Memory.wf_filter (m : Tab Line) (f : Nat × Line → Bool) (h : Memory.wf m = true) : Memory.wf (m.filter f) = true := by
  rw [Memory.wf_iff] at *
  exact ⟨h.1.sublist List.filter_sublist, fun p hp => h.2 p (List.mem_filter.mp hp).1⟩

/-- Writing a line keeps the form: zeros are not listed. -/
theorem Memory.wf_write (m : Tab Line) (line : Nat) (v : Line) (h : Memory.wf m = true) : Memory.wf (tputD 0 line v m) = true := by
  have hd : Memory.wf (tdel line m) = true := by rw [tdel_eq_filter]; exact Memory.wf_filter m _ h
  unfold tputD
  split
  · exact hd
  · rw [Memory.wf_iff] at *
    refine ⟨tins_sorted _ _ _ hd.1 ?_, ?_⟩
    · intro p hp
      rw [tdel_eq_filter] at hp
      simpa using (List.mem_filter.mp hp).2
    · intro p hp
      rcases (mem_tins line v _ p).mp hp with rfl | hp
      · assumption
      · exact hd.2 p hp

/-- A line that is written reads as the value written. -/
theorem Memory.read_write_same (m : Tab Line) (line : Nat) (v : Line) : tgetD 0 line (tputD 0 line v m) = v := tgetD_tputD_same 0 line v m

/-- Every other line reads as before. -/
theorem Memory.read_write_ne (m : Tab Line) {line line' : Nat} (v : Line) (h : line ≠ line') :
    tgetD 0 line' (tputD 0 line v m) = tgetD 0 line' m := tgetD_tputD_ne 0 h v m

/-- The content of a page goes, and the form stays. -/
theorem State.dropContent_wf (s : State) (lpn : Nat) (h : Memory.wf s.pg.mem = true) : Memory.wf (s.dropContent lpn).pg.mem = true :=
  Memory.wf_filter _ _ h

/-! ### The register file -/

theorem Reg.ctorIdx_inj {a b : Reg} (h : a.ctorIdx = b.ctorIdx) : a = b := by
  have := congrArg Reg.ofNat h
  rwa [Reg.ofNat_ctorIdx, Reg.ofNat_ctorIdx] at this

theorem regKeyLt_trans {a b c : RegKey} (h : regKeyLt a b = true) (h' : regKeyLt b c = true) : regKeyLt a c = true := by
  simp only [regKeyLt, Bool.or_eq_true, Bool.and_eq_true, decide_eq_true_eq, beq_iff_eq] at *
  omega

theorem regKeyLt_total {a b : RegKey} (h : regKeyLt a b = false) (hne : b ≠ a) : regKeyLt b a = true := by
  have hn : ¬(a.r.ctorIdx = b.r.ctorIdx ∧ a.i = b.i ∧ a.j = b.j) := by
    rintro ⟨h1, h2, h3⟩
    obtain ⟨r, i, j⟩ := a; obtain ⟨r', i', j'⟩ := b
    have := Reg.ctorIdx_inj h1
    simp_all
  simp only [regKeyLt, Bool.or_eq_false_iff, Bool.and_eq_false_iff, decide_eq_false_iff_not, beq_eq_false_iff_ne, Bool.or_eq_true,
    Bool.and_eq_true, decide_eq_true_eq, beq_iff_eq] at *
  omega

theorem regsSorted_iff (t : List (RegKey × Nat)) : regsSorted t = true ↔ t.Pairwise (fun a b => regKeyLt a.1 b.1 = true) := by
  induction t with
  | nil => simp [regsSorted]
  | cons p t ih =>
    cases t with
    | nil => simp [regsSorted]
    | cons q t =>
      rw [List.pairwise_cons, ← ih]
      simp only [regsSorted, Bool.and_eq_true]
      constructor
      · intro h
        refine ⟨?_, h.2⟩
        intro a ha
        rcases List.mem_cons.mp ha with rfl | ha
        · exact h.1
        · exact regKeyLt_trans h.1 ((List.pairwise_cons.mp (ih.mp h.2)).1 a ha)
      · exact fun h => ⟨h.1 q (List.mem_cons_self ..), h.2⟩

theorem rdel_eq_filter (k : RegKey) (t : List (RegKey × Nat)) : rdel k t = t.filter (fun p => decide (p.1 ≠ k)) := by
  induction t with
  | nil => rfl
  | cons p t ih => obtain ⟨x, v⟩ := p; by_cases h : x = k <;> simp [rdel, h, ih]

theorem mem_rins (k : RegKey) (v : Nat) (t : List (RegKey × Nat)) (p : RegKey × Nat) : p ∈ rins k v t ↔ p = (k, v) ∨ p ∈ t := by
  induction t with
  | nil => simp [rins]
  | cons q t ih =>
    obtain ⟨x, w⟩ := q
    simp only [rins]
    split
    · simp
    · simp [ih, or_left_comm]

theorem rins_sorted (k : RegKey) (v : Nat) (t : List (RegKey × Nat)) (h : t.Pairwise (fun a b => regKeyLt a.1 b.1 = true))
    (hk : ∀ p ∈ t, p.1 ≠ k) : (rins k v t).Pairwise (fun a b => regKeyLt a.1 b.1 = true) := by
  induction t with
  | nil => simp [rins]
  | cons q t ih =>
    obtain ⟨x, w⟩ := q
    have hq := List.pairwise_cons.mp h
    simp only [rins]
    split
    · rename_i hlt
      refine List.pairwise_cons.mpr ⟨?_, h⟩
      intro a ha
      rcases List.mem_cons.mp ha with rfl | ha
      · exact hlt
      · exact regKeyLt_trans hlt (hq.1 a ha)
    · rename_i hlt
      refine List.pairwise_cons.mpr ⟨?_, ih hq.2 (fun p hp => hk p (List.mem_cons_of_mem _ hp))⟩
      intro a ha
      rcases (mem_rins k v t a).mp ha with rfl | ha
      · exact regKeyLt_total (by simpa using hlt) (hk (x, w) (List.mem_cons_self ..))
      · exact hq.1 a ha

theorem regsSorted_filter (t : List (RegKey × Nat)) (f : RegKey × Nat → Bool) (h : regsSorted t = true) : regsSorted (t.filter f) = true := by
  rw [regsSorted_iff] at *
  exact h.sublist List.filter_sublist

/-- Setting a field keeps the form of the register file. -/
theorem State.put_sorted (s : State) (r : Reg) (v i j : Nat) (h : regsSorted s.regs = true) : regsSorted (s.put r v i j).regs = true := by
  have hd := regsSorted_filter s.regs (fun p => decide (p.1 ≠ ⟨r, i, j⟩)) h
  rw [← rdel_eq_filter, regsSorted_iff] at hd
  show regsSorted (rins _ _ _) = true
  rw [regsSorted_iff]
  refine rins_sorted _ _ _ hd ?_
  intro p hp
  rw [rdel_eq_filter] at hp
  simpa using (List.mem_filter.mp hp).2

/-- Dropping a field keeps it. -/
theorem State.unput_sorted (s : State) (r : Reg) (i j : Nat) (h : regsSorted s.regs = true) : regsSorted (s.unput r i j).regs = true := by
  show regsSorted (rdel _ _) = true
  rw [rdel_eq_filter]
  exact regsSorted_filter _ _ h

/-- Keeping some fields keeps it. -/
theorem State.keepRegs_sorted (s : State) (f : RegKey → Bool) (h : regsSorted s.regs = true) : regsSorted (s.keepRegs f).regs = true :=
  regsSorted_filter _ _ h

/-- A part that is disabled keeps the list of disabled parts rising. -/
theorem State.disable_rises (s : State) (src : Nat) (h : s.disabled.Pairwise (· < ·)) : (s.disable src).disabled.Pairwise (· < ·) :=
  linsert_rises src s.disabled h

end Sys2Proof.Machine
end

