-- ==== Sys2Proof/Laws/Serve.lean ====
section
/-!
SUPPORT. What serving a Pyryx request can do, said once: the device does not take it, a check refuses it, it is its EID's fifth, or its body runs.
-/
namespace Sys2Proof.Machine
open Sys2Proof

/-- Every outcome of `serve` is a next state of one of four kinds. -/
theorem serve_cases (info : CmdInfo) (q : Req) (bad : Option Nat) (body : State → Ans) (s : State) (deny : Option (Nat × Nat)) :
    (s.takes q = false ∧ serve info q bad body s deny = .next s) ∨
    (s.takes q = true ∧ ∃ t, t = s.asked info q ∧
      ((∃ st d, t.check info q bad deny = some (st, d) ∧ serve info q bad body s deny = .next (t.reply q st 0 d 0 [])) ∨
       (t.check info q bad deny = none ∧ t.fifth q = true ∧
          serve info q bad body s deny = .next (t.drawn.reply q stBusy 0 (t.draw % 10000 + 1) 0 [])) ∨
       (t.check info q bad deny = none ∧ t.fifth q = false ∧ serve info q bad body s deny = .next ((body t).finish t q)))) := by
  cases hk : s.takes q
  · exact .inl ⟨rfl, by simp [serve, hk]⟩
  · refine .inr ⟨rfl, _, rfl, ?_⟩
    cases hc : (s.asked info q).check info q bad deny with
    | some e => exact .inl ⟨e.1, e.2, rfl, by simp only [State.asked] at hc; simp [serve, hk, answer, hc, State.asked]⟩
    | none =>
      simp only [State.asked] at hc ⊢
      cases hf : State.fifth (((s.begin q).touch info.op).count (.cluster (q.engine.val / 8)) 0x01 1 none) q
      · exact .inr (.inr ⟨trivial, rfl, by simp [serve, hk, answer, hc, hf]⟩)
      · exact .inr (.inl ⟨trivial, rfl, by simp [serve, hk, answer, hc, hf]⟩)

/-- A request that is served is answered by its body. -/
theorem serve_of_served {info : CmdInfo} {q : Req} {bad : Option Nat} {s t : State} {deny : Option (Nat × Nat)}
    (h : Served info q bad s t deny) (body : State → Ans) : serve info q bad body s deny = .next ((body t).finish t q) := by
  obtain ⟨hk, rfl, hc, hf⟩ := h
  simp only [State.asked] at hc hf ⊢
  simp [serve, hk, answer, hc, hf]

/-- What a body answers, on a served request: a completion. -/
theorem finish_ok (s : State) (q : Req) (u : State) (res len det : Nat) (out : Output) :
    (okOut u res len out det).finish s q = u.reply q stOk res det len out := rfl

/-- A refusal of the body leaves only its reply. -/
theorem finish_refuse (s : State) (q : Req) (u : State) (st det : Nat) : (refuse u st det).finish s q = u.reply q st 0 det 0 [] := rfl

/-- An operation takes the slot that the state in which the request was answered offers. -/
theorem finish_pend (s : State) (q : Req) (u : State) (k : OpKind) (slot : Nat) (h : s.freeSlot = some slot) :
    (pend u k).finish s q = (u.openOp slot q k none).reply q stPending s.nextHandle 0 0 [] := by
  simp [pend, Ans.finish, h]

end Sys2Proof.Machine
end

