-- ==== Sys2Proof/Laws/State.lean ====
section
/-!
SUPPORT. What each plain update of the state leaves as it was: one lemma for each field, true by unfolding, so that no later proof opens a record
update.
-/
namespace Sys2Proof.Machine
open Sys2Proof

/-! `regs` -/
@[simp] theorem State.setPort_regs (s : State) (p : Nat) (v : CvnPort) : State.regs (s.setPort p v) = s.regs := rfl
@[simp] theorem State.setCfg_regs (s : State) (c : Nat) (bs : List Byte) : State.regs (s.setCfg c bs) = s.regs := rfl
@[simp] theorem State.coh'_regs (s : State) (f : CohSt → CohSt) : State.regs (s.coh' f) = s.regs := rfl
@[simp] theorem State.setFw_regs (s : State) (c : Nat) (bs : List Byte) : State.regs (s.setFw c bs) = s.regs := rfl
@[simp] theorem State.job'_regs (s : State) (f : JobSt → JobSt) : State.regs (s.job' f) = s.regs := rfl
@[simp] theorem State.toReload_regs (s : State) (m : Msg) (l : List RegKey) : State.regs (s.toReload m l) = s.regs := rfl
@[simp] theorem State.dropWaiters_regs (s : State) (p : Req → Bool) : State.regs (s.dropWaiters p) = s.regs := rfl
@[simp] theorem State.clearOwner_regs (s : State) (c : Nat) : State.regs (s.clearOwner c) = s.regs := rfl
@[simp] theorem State.setBuilt_regs (s : State) (f : Option Frit) : State.regs (s.setBuilt f) = s.regs := rfl
@[simp] theorem State.spend_regs (s : State) (n kind bytes : Nat) : State.regs (s.spend n kind bytes) = s.regs := rfl
@[simp] theorem State.drawn_regs (s : State) : State.regs (s.drawn) = s.regs := rfl
@[simp] theorem State.emit_regs (s : State) (o : Out) : State.regs (s.emit o) = s.regs := rfl
@[simp] theorem State.setHead_regs (s : State) (h : Nat) (v : HeadSt) : State.regs (s.setHead h v) = s.regs := rfl
@[simp] theorem State.setRing_regs (s : State) (h r : Nat) (v : RingSt) : State.regs (s.setRing h r v) = s.regs := rfl
@[simp] theorem State.disable_regs (s : State) (src : Nat) : State.regs (s.disable src) = s.regs := rfl
@[simp] theorem State.setChan_regs (s : State) (c : Nat) (v : ChanSt) : State.regs (s.setChan c v) = s.regs := rfl
@[simp] theorem State.setRecs_regs (s : State) (t : Tab FltRec) : State.regs (s.setRecs t) = s.regs := rfl
@[simp] theorem State.putPage_regs (s : State) (lpn : Nat) (p : Page) : State.regs (s.putPage lpn p) = s.regs := rfl
@[simp] theorem State.treeDirty_regs (s : State) (lvl lpn : Nat) : State.regs (s.treeDirty lvl lpn) = s.regs := rfl
@[simp] theorem State.dropContent_regs (s : State) (lpn : Nat) : State.regs (s.dropContent lpn) = s.regs := rfl
@[simp] theorem State.under_regs (s : State) (cls src : Nat) (who : Option Attr := none) : State.regs (s.under cls src who) = s.regs := rfl
@[simp] theorem State.takeBytes_regs (s : State) (line : Nat) (bs : List Byte) : State.regs (s.takeBytes line bs) = s.regs := rfl
@[simp] theorem State.clearTree_regs (s : State) : State.regs (s.clearTree) = s.regs := rfl
@[simp] theorem State.closeSpdm_regs (s : State) (holder id : Nat) : State.regs (s.closeSpdm holder id) = s.regs := rfl
@[simp] theorem State.setTlb_regs (s : State) (l : List TlbEnt) : State.regs (s.setTlb l) = s.regs := rfl

/-! `now` -/
@[simp] theorem State.setPort_now (s : State) (p : Nat) (v : CvnPort) : State.now (s.setPort p v) = s.now := rfl
@[simp] theorem State.setCfg_now (s : State) (c : Nat) (bs : List Byte) : State.now (s.setCfg c bs) = s.now := rfl
@[simp] theorem State.coh'_now (s : State) (f : CohSt → CohSt) : State.now (s.coh' f) = s.now := rfl
@[simp] theorem State.setFw_now (s : State) (c : Nat) (bs : List Byte) : State.now (s.setFw c bs) = s.now := rfl
@[simp] theorem State.job'_now (s : State) (f : JobSt → JobSt) : State.now (s.job' f) = s.now := rfl
@[simp] theorem State.toReload_now (s : State) (m : Msg) (l : List RegKey) : State.now (s.toReload m l) = s.now := rfl
@[simp] theorem State.dropWaiters_now (s : State) (p : Req → Bool) : State.now (s.dropWaiters p) = s.now := rfl
@[simp] theorem State.clearOwner_now (s : State) (c : Nat) : State.now (s.clearOwner c) = s.now := rfl
@[simp] theorem State.setBuilt_now (s : State) (f : Option Frit) : State.now (s.setBuilt f) = s.now := rfl
@[simp] theorem State.spend_now (s : State) (n kind bytes : Nat) : State.now (s.spend n kind bytes) = s.now := rfl
@[simp] theorem State.put_now (s : State) (r : Reg) (v : Nat) (i j : Nat) : State.now (s.put r v i j) = s.now := rfl
@[simp] theorem State.unput_now (s : State) (r : Reg) (i j : Nat) : State.now (s.unput r i j) = s.now := rfl
@[simp] theorem State.keepRegs_now (s : State) (keep : RegKey → Bool) : State.now (s.keepRegs keep) = s.now := rfl
@[simp] theorem State.drawn_now (s : State) : State.now (s.drawn) = s.now := rfl
@[simp] theorem State.emit_now (s : State) (o : Out) : State.now (s.emit o) = s.now := rfl
@[simp] theorem State.setHead_now (s : State) (h : Nat) (v : HeadSt) : State.now (s.setHead h v) = s.now := rfl
@[simp] theorem State.setRing_now (s : State) (h r : Nat) (v : RingSt) : State.now (s.setRing h r v) = s.now := rfl
@[simp] theorem State.disable_now (s : State) (src : Nat) : State.now (s.disable src) = s.now := rfl
@[simp] theorem State.setChan_now (s : State) (c : Nat) (v : ChanSt) : State.now (s.setChan c v) = s.now := rfl
@[simp] theorem State.setRecs_now (s : State) (t : Tab FltRec) : State.now (s.setRecs t) = s.now := rfl
@[simp] theorem State.putPage_now (s : State) (lpn : Nat) (p : Page) : State.now (s.putPage lpn p) = s.now := rfl
@[simp] theorem State.treeDirty_now (s : State) (lvl lpn : Nat) : State.now (s.treeDirty lvl lpn) = s.now := rfl
@[simp] theorem State.dropContent_now (s : State) (lpn : Nat) : State.now (s.dropContent lpn) = s.now := rfl
@[simp] theorem State.under_now (s : State) (cls src : Nat) (who : Option Attr := none) : State.now (s.under cls src who) = s.now := rfl
@[simp] theorem State.takeBytes_now (s : State) (line : Nat) (bs : List Byte) : State.now (s.takeBytes line bs) = s.now := rfl
@[simp] theorem State.clearTree_now (s : State) : State.now (s.clearTree) = s.now := rfl
@[simp] theorem State.closeSpdm_now (s : State) (holder id : Nat) : State.now (s.closeSpdm holder id) = s.now := rfl
@[simp] theorem State.setTlb_now (s : State) (l : List TlbEnt) : State.now (s.setTlb l) = s.now := rfl

/-! `fresh` -/
@[simp] theorem State.setPort_fresh (s : State) (p : Nat) (v : CvnPort) : State.fresh (s.setPort p v) = s.fresh := rfl
@[simp] theorem State.setCfg_fresh (s : State) (c : Nat) (bs : List Byte) : State.fresh (s.setCfg c bs) = s.fresh := rfl
@[simp] theorem State.coh'_fresh (s : State) (f : CohSt → CohSt) : State.fresh (s.coh' f) = s.fresh := rfl
@[simp] theorem State.setFw_fresh (s : State) (c : Nat) (bs : List Byte) : State.fresh (s.setFw c bs) = s.fresh := rfl
@[simp] theorem State.job'_fresh (s : State) (f : JobSt → JobSt) : State.fresh (s.job' f) = s.fresh := rfl
@[simp] theorem State.toReload_fresh (s : State) (m : Msg) (l : List RegKey) : State.fresh (s.toReload m l) = s.fresh := rfl
@[simp] theorem State.dropWaiters_fresh (s : State) (p : Req → Bool) : State.fresh (s.dropWaiters p) = s.fresh := rfl
@[simp] theorem State.clearOwner_fresh (s : State) (c : Nat) : State.fresh (s.clearOwner c) = s.fresh := rfl
@[simp] theorem State.setBuilt_fresh (s : State) (f : Option Frit) : State.fresh (s.setBuilt f) = s.fresh := rfl
@[simp] theorem State.spend_fresh (s : State) (n kind bytes : Nat) : State.fresh (s.spend n kind bytes) = s.fresh := rfl
@[simp] theorem State.put_fresh (s : State) (r : Reg) (v : Nat) (i j : Nat) : State.fresh (s.put r v i j) = s.fresh := rfl
@[simp] theorem State.unput_fresh (s : State) (r : Reg) (i j : Nat) : State.fresh (s.unput r i j) = s.fresh := rfl
@[simp] theorem State.keepRegs_fresh (s : State) (keep : RegKey → Bool) : State.fresh (s.keepRegs keep) = s.fresh := rfl
@[simp] theorem State.emit_fresh (s : State) (o : Out) : State.fresh (s.emit o) = s.fresh := rfl
@[simp] theorem State.setHead_fresh (s : State) (h : Nat) (v : HeadSt) : State.fresh (s.setHead h v) = s.fresh := rfl
@[simp] theorem State.setRing_fresh (s : State) (h r : Nat) (v : RingSt) : State.fresh (s.setRing h r v) = s.fresh := rfl
@[simp] theorem State.disable_fresh (s : State) (src : Nat) : State.fresh (s.disable src) = s.fresh := rfl
@[simp] theorem State.setChan_fresh (s : State) (c : Nat) (v : ChanSt) : State.fresh (s.setChan c v) = s.fresh := rfl
@[simp] theorem State.setRecs_fresh (s : State) (t : Tab FltRec) : State.fresh (s.setRecs t) = s.fresh := rfl
@[simp] theorem State.putPage_fresh (s : State) (lpn : Nat) (p : Page) : State.fresh (s.putPage lpn p) = s.fresh := rfl
@[simp] theorem State.treeDirty_fresh (s : State) (lvl lpn : Nat) : State.fresh (s.treeDirty lvl lpn) = s.fresh := rfl
@[simp] theorem State.dropContent_fresh (s : State) (lpn : Nat) : State.fresh (s.dropContent lpn) = s.fresh := rfl
@[simp] theorem State.under_fresh (s : State) (cls src : Nat) (who : Option Attr := none) : State.fresh (s.under cls src who) = s.fresh := rfl
@[simp] theorem State.takeBytes_fresh (s : State) (line : Nat) (bs : List Byte) : State.fresh (s.takeBytes line bs) = s.fresh := rfl
@[simp] theorem State.clearTree_fresh (s : State) : State.fresh (s.clearTree) = s.fresh := rfl
@[simp] theorem State.closeSpdm_fresh (s : State) (holder id : Nat) : State.fresh (s.closeSpdm holder id) = s.fresh := rfl
@[simp] theorem State.setTlb_fresh (s : State) (l : List TlbEnt) : State.fresh (s.setTlb l) = s.fresh := rfl

/-! `out` -/
@[simp] theorem State.setPort_out (s : State) (p : Nat) (v : CvnPort) : State.out (s.setPort p v) = s.out := rfl
@[simp] theorem State.setCfg_out (s : State) (c : Nat) (bs : List Byte) : State.out (s.setCfg c bs) = s.out := rfl
@[simp] theorem State.coh'_out (s : State) (f : CohSt → CohSt) : State.out (s.coh' f) = s.out := rfl
@[simp] theorem State.setFw_out (s : State) (c : Nat) (bs : List Byte) : State.out (s.setFw c bs) = s.out := rfl
@[simp] theorem State.job'_out (s : State) (f : JobSt → JobSt) : State.out (s.job' f) = s.out := rfl
@[simp] theorem State.toReload_out (s : State) (m : Msg) (l : List RegKey) : State.out (s.toReload m l) = s.out := rfl
@[simp] theorem State.dropWaiters_out (s : State) (p : Req → Bool) : State.out (s.dropWaiters p) = s.out := rfl
@[simp] theorem State.clearOwner_out (s : State) (c : Nat) : State.out (s.clearOwner c) = s.out := rfl
@[simp] theorem State.setBuilt_out (s : State) (f : Option Frit) : State.out (s.setBuilt f) = s.out := rfl
@[simp] theorem State.spend_out (s : State) (n kind bytes : Nat) : State.out (s.spend n kind bytes) = s.out := rfl
@[simp] theorem State.put_out (s : State) (r : Reg) (v : Nat) (i j : Nat) : State.out (s.put r v i j) = s.out := rfl
@[simp] theorem State.unput_out (s : State) (r : Reg) (i j : Nat) : State.out (s.unput r i j) = s.out := rfl
@[simp] theorem State.keepRegs_out (s : State) (keep : RegKey → Bool) : State.out (s.keepRegs keep) = s.out := rfl
@[simp] theorem State.drawn_out (s : State) : State.out (s.drawn) = s.out := rfl
@[simp] theorem State.setHead_out (s : State) (h : Nat) (v : HeadSt) : State.out (s.setHead h v) = s.out := rfl
@[simp] theorem State.setRing_out (s : State) (h r : Nat) (v : RingSt) : State.out (s.setRing h r v) = s.out := rfl
@[simp] theorem State.disable_out (s : State) (src : Nat) : State.out (s.disable src) = s.out := rfl
@[simp] theorem State.setChan_out (s : State) (c : Nat) (v : ChanSt) : State.out (s.setChan c v) = s.out := rfl
@[simp] theorem State.setRecs_out (s : State) (t : Tab FltRec) : State.out (s.setRecs t) = s.out := rfl
@[simp] theorem State.putPage_out (s : State) (lpn : Nat) (p : Page) : State.out (s.putPage lpn p) = s.out := rfl
@[simp] theorem State.treeDirty_out (s : State) (lvl lpn : Nat) : State.out (s.treeDirty lvl lpn) = s.out := rfl
@[simp] theorem State.dropContent_out (s : State) (lpn : Nat) : State.out (s.dropContent lpn) = s.out := rfl
@[simp] theorem State.under_out (s : State) (cls src : Nat) (who : Option Attr := none) : State.out (s.under cls src who) = s.out := rfl
@[simp] theorem State.takeBytes_out (s : State) (line : Nat) (bs : List Byte) : State.out (s.takeBytes line bs) = s.out := rfl
@[simp] theorem State.clearTree_out (s : State) : State.out (s.clearTree) = s.out := rfl
@[simp] theorem State.closeSpdm_out (s : State) (holder id : Nat) : State.out (s.closeSpdm holder id) = s.out := rfl
@[simp] theorem State.setTlb_out (s : State) (l : List TlbEnt) : State.out (s.setTlb l) = s.out := rfl

/-! `pending` -/
@[simp] theorem State.setPort_pending (s : State) (p : Nat) (v : CvnPort) : State.pending (s.setPort p v) = s.pending := rfl
@[simp] theorem State.setCfg_pending (s : State) (c : Nat) (bs : List Byte) : State.pending (s.setCfg c bs) = s.pending := rfl
@[simp] theorem State.coh'_pending (s : State) (f : CohSt → CohSt) : State.pending (s.coh' f) = s.pending := rfl
@[simp] theorem State.setFw_pending (s : State) (c : Nat) (bs : List Byte) : State.pending (s.setFw c bs) = s.pending := rfl
@[simp] theorem State.job'_pending (s : State) (f : JobSt → JobSt) : State.pending (s.job' f) = s.pending := rfl
@[simp] theorem State.toReload_pending (s : State) (m : Msg) (l : List RegKey) : State.pending (s.toReload m l) = s.pending := rfl
@[simp] theorem State.dropWaiters_pending (s : State) (p : Req → Bool) : State.pending (s.dropWaiters p) = s.pending := rfl
@[simp] theorem State.clearOwner_pending (s : State) (c : Nat) : State.pending (s.clearOwner c) = s.pending := rfl
@[simp] theorem State.setBuilt_pending (s : State) (f : Option Frit) : State.pending (s.setBuilt f) = s.pending := rfl
@[simp] theorem State.spend_pending (s : State) (n kind bytes : Nat) : State.pending (s.spend n kind bytes) = s.pending := rfl
@[simp] theorem State.put_pending (s : State) (r : Reg) (v : Nat) (i j : Nat) : State.pending (s.put r v i j) = s.pending := rfl
@[simp] theorem State.unput_pending (s : State) (r : Reg) (i j : Nat) : State.pending (s.unput r i j) = s.pending := rfl
@[simp] theorem State.keepRegs_pending (s : State) (keep : RegKey → Bool) : State.pending (s.keepRegs keep) = s.pending := rfl
@[simp] theorem State.drawn_pending (s : State) : State.pending (s.drawn) = s.pending := rfl
@[simp] theorem State.emit_pending (s : State) (o : Out) : State.pending (s.emit o) = s.pending := rfl
@[simp] theorem State.setHead_pending (s : State) (h : Nat) (v : HeadSt) : State.pending (s.setHead h v) = s.pending := rfl
@[simp] theorem State.setRing_pending (s : State) (h r : Nat) (v : RingSt) : State.pending (s.setRing h r v) = s.pending := rfl
@[simp] theorem State.disable_pending (s : State) (src : Nat) : State.pending (s.disable src) = s.pending := rfl
@[simp] theorem State.setChan_pending (s : State) (c : Nat) (v : ChanSt) : State.pending (s.setChan c v) = s.pending := rfl
@[simp] theorem State.setRecs_pending (s : State) (t : Tab FltRec) : State.pending (s.setRecs t) = s.pending := rfl
@[simp] theorem State.putPage_pending (s : State) (lpn : Nat) (p : Page) : State.pending (s.putPage lpn p) = s.pending := rfl
@[simp] theorem State.treeDirty_pending (s : State) (lvl lpn : Nat) : State.pending (s.treeDirty lvl lpn) = s.pending := rfl
@[simp] theorem State.dropContent_pending (s : State) (lpn : Nat) : State.pending (s.dropContent lpn) = s.pending := rfl
@[simp] theorem State.under_pending (s : State) (cls src : Nat) (who : Option Attr := none) : State.pending (s.under cls src who) = s.pending := rfl
@[simp] theorem State.takeBytes_pending (s : State) (line : Nat) (bs : List Byte) : State.pending (s.takeBytes line bs) = s.pending := rfl
@[simp] theorem State.clearTree_pending (s : State) : State.pending (s.clearTree) = s.pending := rfl
@[simp] theorem State.closeSpdm_pending (s : State) (holder id : Nat) : State.pending (s.closeSpdm holder id) = s.pending := rfl
@[simp] theorem State.setTlb_pending (s : State) (l : List TlbEnt) : State.pending (s.setTlb l) = s.pending := rfl

/-! `disabled` -/
@[simp] theorem State.setPort_disabled (s : State) (p : Nat) (v : CvnPort) : State.disabled (s.setPort p v) = s.disabled := rfl
@[simp] theorem State.setCfg_disabled (s : State) (c : Nat) (bs : List Byte) : State.disabled (s.setCfg c bs) = s.disabled := rfl
@[simp] theorem State.coh'_disabled (s : State) (f : CohSt → CohSt) : State.disabled (s.coh' f) = s.disabled := rfl
@[simp] theorem State.setFw_disabled (s : State) (c : Nat) (bs : List Byte) : State.disabled (s.setFw c bs) = s.disabled := rfl
@[simp] theorem State.job'_disabled (s : State) (f : JobSt → JobSt) : State.disabled (s.job' f) = s.disabled := rfl
@[simp] theorem State.toReload_disabled (s : State) (m : Msg) (l : List RegKey) : State.disabled (s.toReload m l) = s.disabled := rfl
@[simp] theorem State.dropWaiters_disabled (s : State) (p : Req → Bool) : State.disabled (s.dropWaiters p) = s.disabled := rfl
@[simp] theorem State.clearOwner_disabled (s : State) (c : Nat) : State.disabled (s.clearOwner c) = s.disabled := rfl
@[simp] theorem State.setBuilt_disabled (s : State) (f : Option Frit) : State.disabled (s.setBuilt f) = s.disabled := rfl
@[simp] theorem State.spend_disabled (s : State) (n kind bytes : Nat) : State.disabled (s.spend n kind bytes) = s.disabled := rfl
@[simp] theorem State.put_disabled (s : State) (r : Reg) (v : Nat) (i j : Nat) : State.disabled (s.put r v i j) = s.disabled := rfl
@[simp] theorem State.unput_disabled (s : State) (r : Reg) (i j : Nat) : State.disabled (s.unput r i j) = s.disabled := rfl
@[simp] theorem State.keepRegs_disabled (s : State) (keep : RegKey → Bool) : State.disabled (s.keepRegs keep) = s.disabled := rfl
@[simp] theorem State.drawn_disabled (s : State) : State.disabled (s.drawn) = s.disabled := rfl
@[simp] theorem State.emit_disabled (s : State) (o : Out) : State.disabled (s.emit o) = s.disabled := rfl
@[simp] theorem State.setHead_disabled (s : State) (h : Nat) (v : HeadSt) : State.disabled (s.setHead h v) = s.disabled := rfl
@[simp] theorem State.setRing_disabled (s : State) (h r : Nat) (v : RingSt) : State.disabled (s.setRing h r v) = s.disabled := rfl
@[simp] theorem State.setChan_disabled (s : State) (c : Nat) (v : ChanSt) : State.disabled (s.setChan c v) = s.disabled := rfl
@[simp] theorem State.setRecs_disabled (s : State) (t : Tab FltRec) : State.disabled (s.setRecs t) = s.disabled := rfl
@[simp] theorem State.putPage_disabled (s : State) (lpn : Nat) (p : Page) : State.disabled (s.putPage lpn p) = s.disabled := rfl
@[simp] theorem State.treeDirty_disabled (s : State) (lvl lpn : Nat) : State.disabled (s.treeDirty lvl lpn) = s.disabled := rfl
@[simp] theorem State.dropContent_disabled (s : State) (lpn : Nat) : State.disabled (s.dropContent lpn) = s.disabled := rfl
@[simp] theorem State.under_disabled (s : State) (cls src : Nat) (who : Option Attr := none) : State.disabled (s.under cls src who) = s.disabled := rfl
@[simp] theorem State.takeBytes_disabled (s : State) (line : Nat) (bs : List Byte) : State.disabled (s.takeBytes line bs) = s.disabled := rfl
@[simp] theorem State.clearTree_disabled (s : State) : State.disabled (s.clearTree) = s.disabled := rfl
@[simp] theorem State.closeSpdm_disabled (s : State) (holder id : Nat) : State.disabled (s.closeSpdm holder id) = s.disabled := rfl
@[simp] theorem State.setTlb_disabled (s : State) (l : List TlbEnt) : State.disabled (s.setTlb l) = s.disabled := rfl

/-! `due` -/
@[simp] theorem State.setPort_due (s : State) (p : Nat) (v : CvnPort) : State.due (s.setPort p v) = s.due := rfl
@[simp] theorem State.setCfg_due (s : State) (c : Nat) (bs : List Byte) : State.due (s.setCfg c bs) = s.due := rfl
@[simp] theorem State.coh'_due (s : State) (f : CohSt → CohSt) : State.due (s.coh' f) = s.due := rfl
@[simp] theorem State.setFw_due (s : State) (c : Nat) (bs : List Byte) : State.due (s.setFw c bs) = s.due := rfl
@[simp] theorem State.job'_due (s : State) (f : JobSt → JobSt) : State.due (s.job' f) = s.due := rfl
@[simp] theorem State.toReload_due (s : State) (m : Msg) (l : List RegKey) : State.due (s.toReload m l) = s.due := rfl
@[simp] theorem State.dropWaiters_due (s : State) (p : Req → Bool) : State.due (s.dropWaiters p) = s.due := rfl
@[simp] theorem State.clearOwner_due (s : State) (c : Nat) : State.due (s.clearOwner c) = s.due := rfl
@[simp] theorem State.setBuilt_due (s : State) (f : Option Frit) : State.due (s.setBuilt f) = s.due := rfl
@[simp] theorem State.spend_due (s : State) (n kind bytes : Nat) : State.due (s.spend n kind bytes) = s.due := rfl
@[simp] theorem State.put_due (s : State) (r : Reg) (v : Nat) (i j : Nat) : State.due (s.put r v i j) = s.due := rfl
@[simp] theorem State.unput_due (s : State) (r : Reg) (i j : Nat) : State.due (s.unput r i j) = s.due := rfl
@[simp] theorem State.keepRegs_due (s : State) (keep : RegKey → Bool) : State.due (s.keepRegs keep) = s.due := rfl
@[simp] theorem State.drawn_due (s : State) : State.due (s.drawn) = s.due := rfl
@[simp] theorem State.emit_due (s : State) (o : Out) : State.due (s.emit o) = s.due := rfl
@[simp] theorem State.setHead_due (s : State) (h : Nat) (v : HeadSt) : State.due (s.setHead h v) = s.due := rfl
@[simp] theorem State.setRing_due (s : State) (h r : Nat) (v : RingSt) : State.due (s.setRing h r v) = s.due := rfl
@[simp] theorem State.disable_due (s : State) (src : Nat) : State.due (s.disable src) = s.due := rfl
@[simp] theorem State.setChan_due (s : State) (c : Nat) (v : ChanSt) : State.due (s.setChan c v) = s.due := rfl
@[simp] theorem State.setRecs_due (s : State) (t : Tab FltRec) : State.due (s.setRecs t) = s.due := rfl
@[simp] theorem State.putPage_due (s : State) (lpn : Nat) (p : Page) : State.due (s.putPage lpn p) = s.due := rfl
@[simp] theorem State.treeDirty_due (s : State) (lvl lpn : Nat) : State.due (s.treeDirty lvl lpn) = s.due := rfl
@[simp] theorem State.dropContent_due (s : State) (lpn : Nat) : State.due (s.dropContent lpn) = s.due := rfl
@[simp] theorem State.under_due (s : State) (cls src : Nat) (who : Option Attr := none) : State.due (s.under cls src who) = s.due := rfl
@[simp] theorem State.takeBytes_due (s : State) (line : Nat) (bs : List Byte) : State.due (s.takeBytes line bs) = s.due := rfl
@[simp] theorem State.clearTree_due (s : State) : State.due (s.clearTree) = s.due := rfl
@[simp] theorem State.closeSpdm_due (s : State) (holder id : Nat) : State.due (s.closeSpdm holder id) = s.due := rfl
@[simp] theorem State.setTlb_due (s : State) (l : List TlbEnt) : State.due (s.setTlb l) = s.due := rfl

/-! `flt` -/
@[simp] theorem State.setPort_flt (s : State) (p : Nat) (v : CvnPort) : State.flt (s.setPort p v) = s.flt := rfl
@[simp] theorem State.setCfg_flt (s : State) (c : Nat) (bs : List Byte) : State.flt (s.setCfg c bs) = s.flt := rfl
@[simp] theorem State.coh'_flt (s : State) (f : CohSt → CohSt) : State.flt (s.coh' f) = s.flt := rfl
@[simp] theorem State.setFw_flt (s : State) (c : Nat) (bs : List Byte) : State.flt (s.setFw c bs) = s.flt := rfl
@[simp] theorem State.job'_flt (s : State) (f : JobSt → JobSt) : State.flt (s.job' f) = s.flt := rfl
@[simp] theorem State.dropWaiters_flt (s : State) (p : Req → Bool) : State.flt (s.dropWaiters p) = s.flt := rfl
@[simp] theorem State.clearOwner_flt (s : State) (c : Nat) : State.flt (s.clearOwner c) = s.flt := rfl
@[simp] theorem State.setBuilt_flt (s : State) (f : Option Frit) : State.flt (s.setBuilt f) = s.flt := rfl
@[simp] theorem State.spend_flt (s : State) (n kind bytes : Nat) : State.flt (s.spend n kind bytes) = s.flt := rfl
@[simp] theorem State.put_flt (s : State) (r : Reg) (v : Nat) (i j : Nat) : State.flt (s.put r v i j) = s.flt := rfl
@[simp] theorem State.unput_flt (s : State) (r : Reg) (i j : Nat) : State.flt (s.unput r i j) = s.flt := rfl
@[simp] theorem State.keepRegs_flt (s : State) (keep : RegKey → Bool) : State.flt (s.keepRegs keep) = s.flt := rfl
@[simp] theorem State.drawn_flt (s : State) : State.flt (s.drawn) = s.flt := rfl
@[simp] theorem State.emit_flt (s : State) (o : Out) : State.flt (s.emit o) = s.flt := rfl
@[simp] theorem State.setHead_flt (s : State) (h : Nat) (v : HeadSt) : State.flt (s.setHead h v) = s.flt := rfl
@[simp] theorem State.setRing_flt (s : State) (h r : Nat) (v : RingSt) : State.flt (s.setRing h r v) = s.flt := rfl
@[simp] theorem State.disable_flt (s : State) (src : Nat) : State.flt (s.disable src) = s.flt := rfl
@[simp] theorem State.setChan_flt (s : State) (c : Nat) (v : ChanSt) : State.flt (s.setChan c v) = s.flt := rfl
@[simp] theorem State.putPage_flt (s : State) (lpn : Nat) (p : Page) : State.flt (s.putPage lpn p) = s.flt := rfl
@[simp] theorem State.treeDirty_flt (s : State) (lvl lpn : Nat) : State.flt (s.treeDirty lvl lpn) = s.flt := rfl
@[simp] theorem State.dropContent_flt (s : State) (lpn : Nat) : State.flt (s.dropContent lpn) = s.flt := rfl
@[simp] theorem State.under_flt (s : State) (cls src : Nat) (who : Option Attr := none) : State.flt (s.under cls src who) = s.flt := rfl
@[simp] theorem State.takeBytes_flt (s : State) (line : Nat) (bs : List Byte) : State.flt (s.takeBytes line bs) = s.flt := rfl
@[simp] theorem State.clearTree_flt (s : State) : State.flt (s.clearTree) = s.flt := rfl
@[simp] theorem State.closeSpdm_flt (s : State) (holder id : Nat) : State.flt (s.closeSpdm holder id) = s.flt := rfl
@[simp] theorem State.setTlb_flt (s : State) (l : List TlbEnt) : State.flt (s.setTlb l) = s.flt := rfl

/-! `host` -/
@[simp] theorem State.setPort_host (s : State) (p : Nat) (v : CvnPort) : State.host (s.setPort p v) = s.host := rfl
@[simp] theorem State.setCfg_host (s : State) (c : Nat) (bs : List Byte) : State.host (s.setCfg c bs) = s.host := rfl
@[simp] theorem State.coh'_host (s : State) (f : CohSt → CohSt) : State.host (s.coh' f) = s.host := rfl
@[simp] theorem State.setFw_host (s : State) (c : Nat) (bs : List Byte) : State.host (s.setFw c bs) = s.host := rfl
@[simp] theorem State.job'_host (s : State) (f : JobSt → JobSt) : State.host (s.job' f) = s.host := rfl
@[simp] theorem State.toReload_host (s : State) (m : Msg) (l : List RegKey) : State.host (s.toReload m l) = s.host := rfl
@[simp] theorem State.dropWaiters_host (s : State) (p : Req → Bool) : State.host (s.dropWaiters p) = s.host := rfl
@[simp] theorem State.clearOwner_host (s : State) (c : Nat) : State.host (s.clearOwner c) = s.host := rfl
@[simp] theorem State.setBuilt_host (s : State) (f : Option Frit) : State.host (s.setBuilt f) = s.host := rfl
@[simp] theorem State.spend_host (s : State) (n kind bytes : Nat) : State.host (s.spend n kind bytes) = s.host := rfl
@[simp] theorem State.put_host (s : State) (r : Reg) (v : Nat) (i j : Nat) : State.host (s.put r v i j) = s.host := rfl
@[simp] theorem State.unput_host (s : State) (r : Reg) (i j : Nat) : State.host (s.unput r i j) = s.host := rfl
@[simp] theorem State.keepRegs_host (s : State) (keep : RegKey → Bool) : State.host (s.keepRegs keep) = s.host := rfl
@[simp] theorem State.drawn_host (s : State) : State.host (s.drawn) = s.host := rfl
@[simp] theorem State.emit_host (s : State) (o : Out) : State.host (s.emit o) = s.host := rfl
@[simp] theorem State.disable_host (s : State) (src : Nat) : State.host (s.disable src) = s.host := rfl
@[simp] theorem State.setChan_host (s : State) (c : Nat) (v : ChanSt) : State.host (s.setChan c v) = s.host := rfl
@[simp] theorem State.setRecs_host (s : State) (t : Tab FltRec) : State.host (s.setRecs t) = s.host := rfl
@[simp] theorem State.putPage_host (s : State) (lpn : Nat) (p : Page) : State.host (s.putPage lpn p) = s.host := rfl
@[simp] theorem State.treeDirty_host (s : State) (lvl lpn : Nat) : State.host (s.treeDirty lvl lpn) = s.host := rfl
@[simp] theorem State.dropContent_host (s : State) (lpn : Nat) : State.host (s.dropContent lpn) = s.host := rfl
@[simp] theorem State.under_host (s : State) (cls src : Nat) (who : Option Attr := none) : State.host (s.under cls src who) = s.host := rfl
@[simp] theorem State.takeBytes_host (s : State) (line : Nat) (bs : List Byte) : State.host (s.takeBytes line bs) = s.host := rfl
@[simp] theorem State.clearTree_host (s : State) : State.host (s.clearTree) = s.host := rfl
@[simp] theorem State.closeSpdm_host (s : State) (holder id : Nat) : State.host (s.closeSpdm holder id) = s.host := rfl
@[simp] theorem State.setTlb_host (s : State) (l : List TlbEnt) : State.host (s.setTlb l) = s.host := rfl

/-! `pyx` -/
@[simp] theorem State.setPort_pyx (s : State) (p : Nat) (v : CvnPort) : State.pyx (s.setPort p v) = s.pyx := rfl
@[simp] theorem State.setCfg_pyx (s : State) (c : Nat) (bs : List Byte) : State.pyx (s.setCfg c bs) = s.pyx := rfl
@[simp] theorem State.coh'_pyx (s : State) (f : CohSt → CohSt) : State.pyx (s.coh' f) = s.pyx := rfl
@[simp] theorem State.setFw_pyx (s : State) (c : Nat) (bs : List Byte) : State.pyx (s.setFw c bs) = s.pyx := rfl
@[simp] theorem State.job'_pyx (s : State) (f : JobSt → JobSt) : State.pyx (s.job' f) = s.pyx := rfl
@[simp] theorem State.toReload_pyx (s : State) (m : Msg) (l : List RegKey) : State.pyx (s.toReload m l) = s.pyx := rfl
@[simp] theorem State.dropWaiters_pyx (s : State) (p : Req → Bool) : State.pyx (s.dropWaiters p) = s.pyx := rfl
@[simp] theorem State.clearOwner_pyx (s : State) (c : Nat) : State.pyx (s.clearOwner c) = s.pyx := rfl
@[simp] theorem State.setBuilt_pyx (s : State) (f : Option Frit) : State.pyx (s.setBuilt f) = s.pyx := rfl
@[simp] theorem State.spend_pyx (s : State) (n kind bytes : Nat) : State.pyx (s.spend n kind bytes) = s.pyx := rfl
@[simp] theorem State.put_pyx (s : State) (r : Reg) (v : Nat) (i j : Nat) : State.pyx (s.put r v i j) = s.pyx := rfl
@[simp] theorem State.unput_pyx (s : State) (r : Reg) (i j : Nat) : State.pyx (s.unput r i j) = s.pyx := rfl
@[simp] theorem State.keepRegs_pyx (s : State) (keep : RegKey → Bool) : State.pyx (s.keepRegs keep) = s.pyx := rfl
@[simp] theorem State.drawn_pyx (s : State) : State.pyx (s.drawn) = s.pyx := rfl
@[simp] theorem State.emit_pyx (s : State) (o : Out) : State.pyx (s.emit o) = s.pyx := rfl
@[simp] theorem State.setHead_pyx (s : State) (h : Nat) (v : HeadSt) : State.pyx (s.setHead h v) = s.pyx := rfl
@[simp] theorem State.setRing_pyx (s : State) (h r : Nat) (v : RingSt) : State.pyx (s.setRing h r v) = s.pyx := rfl
@[simp] theorem State.disable_pyx (s : State) (src : Nat) : State.pyx (s.disable src) = s.pyx := rfl
@[simp] theorem State.setChan_pyx (s : State) (c : Nat) (v : ChanSt) : State.pyx (s.setChan c v) = s.pyx := rfl
@[simp] theorem State.setRecs_pyx (s : State) (t : Tab FltRec) : State.pyx (s.setRecs t) = s.pyx := rfl
@[simp] theorem State.putPage_pyx (s : State) (lpn : Nat) (p : Page) : State.pyx (s.putPage lpn p) = s.pyx := rfl
@[simp] theorem State.treeDirty_pyx (s : State) (lvl lpn : Nat) : State.pyx (s.treeDirty lvl lpn) = s.pyx := rfl
@[simp] theorem State.dropContent_pyx (s : State) (lpn : Nat) : State.pyx (s.dropContent lpn) = s.pyx := rfl
@[simp] theorem State.under_pyx (s : State) (cls src : Nat) (who : Option Attr := none) : State.pyx (s.under cls src who) = s.pyx := rfl
@[simp] theorem State.takeBytes_pyx (s : State) (line : Nat) (bs : List Byte) : State.pyx (s.takeBytes line bs) = s.pyx := rfl
@[simp] theorem State.clearTree_pyx (s : State) : State.pyx (s.clearTree) = s.pyx := rfl
@[simp] theorem State.closeSpdm_pyx (s : State) (holder id : Nat) : State.pyx (s.closeSpdm holder id) = s.pyx := rfl
@[simp] theorem State.setTlb_pyx (s : State) (l : List TlbEnt) : State.pyx (s.setTlb l) = s.pyx := rfl

/-! `halt` -/
@[simp] theorem State.setPort_halt (s : State) (p : Nat) (v : CvnPort) : State.halt (s.setPort p v) = s.halt := rfl
@[simp] theorem State.setCfg_halt (s : State) (c : Nat) (bs : List Byte) : State.halt (s.setCfg c bs) = s.halt := rfl
@[simp] theorem State.coh'_halt (s : State) (f : CohSt → CohSt) : State.halt (s.coh' f) = s.halt := rfl
@[simp] theorem State.setFw_halt (s : State) (c : Nat) (bs : List Byte) : State.halt (s.setFw c bs) = s.halt := rfl
@[simp] theorem State.job'_halt (s : State) (f : JobSt → JobSt) : State.halt (s.job' f) = s.halt := rfl
@[simp] theorem State.toReload_halt (s : State) (m : Msg) (l : List RegKey) : State.halt (s.toReload m l) = s.halt := rfl
@[simp] theorem State.dropWaiters_halt (s : State) (p : Req → Bool) : State.halt (s.dropWaiters p) = s.halt := rfl
@[simp] theorem State.clearOwner_halt (s : State) (c : Nat) : State.halt (s.clearOwner c) = s.halt := rfl
@[simp] theorem State.setBuilt_halt (s : State) (f : Option Frit) : State.halt (s.setBuilt f) = s.halt := rfl
@[simp] theorem State.spend_halt (s : State) (n kind bytes : Nat) : State.halt (s.spend n kind bytes) = s.halt := rfl
@[simp] theorem State.put_halt (s : State) (r : Reg) (v : Nat) (i j : Nat) : State.halt (s.put r v i j) = s.halt := rfl
@[simp] theorem State.unput_halt (s : State) (r : Reg) (i j : Nat) : State.halt (s.unput r i j) = s.halt := rfl
@[simp] theorem State.keepRegs_halt (s : State) (keep : RegKey → Bool) : State.halt (s.keepRegs keep) = s.halt := rfl
@[simp] theorem State.drawn_halt (s : State) : State.halt (s.drawn) = s.halt := rfl
@[simp] theorem State.emit_halt (s : State) (o : Out) : State.halt (s.emit o) = s.halt := rfl
@[simp] theorem State.setHead_halt (s : State) (h : Nat) (v : HeadSt) : State.halt (s.setHead h v) = s.halt := rfl
@[simp] theorem State.setRing_halt (s : State) (h r : Nat) (v : RingSt) : State.halt (s.setRing h r v) = s.halt := rfl
@[simp] theorem State.disable_halt (s : State) (src : Nat) : State.halt (s.disable src) = s.halt := rfl
@[simp] theorem State.setChan_halt (s : State) (c : Nat) (v : ChanSt) : State.halt (s.setChan c v) = s.halt := rfl
@[simp] theorem State.setRecs_halt (s : State) (t : Tab FltRec) : State.halt (s.setRecs t) = s.halt := rfl
@[simp] theorem State.putPage_halt (s : State) (lpn : Nat) (p : Page) : State.halt (s.putPage lpn p) = s.halt := rfl
@[simp] theorem State.treeDirty_halt (s : State) (lvl lpn : Nat) : State.halt (s.treeDirty lvl lpn) = s.halt := rfl
@[simp] theorem State.dropContent_halt (s : State) (lpn : Nat) : State.halt (s.dropContent lpn) = s.halt := rfl
@[simp] theorem State.under_halt (s : State) (cls src : Nat) (who : Option Attr := none) : State.halt (s.under cls src who) = s.halt := rfl
@[simp] theorem State.takeBytes_halt (s : State) (line : Nat) (bs : List Byte) : State.halt (s.takeBytes line bs) = s.halt := rfl
@[simp] theorem State.clearTree_halt (s : State) : State.halt (s.clearTree) = s.halt := rfl
@[simp] theorem State.closeSpdm_halt (s : State) (holder id : Nat) : State.halt (s.closeSpdm holder id) = s.halt := rfl
@[simp] theorem State.setTlb_halt (s : State) (l : List TlbEnt) : State.halt (s.setTlb l) = s.halt := rfl

/-! `cause` -/
@[simp] theorem State.setPort_cause (s : State) (p : Nat) (v : CvnPort) : State.cause (s.setPort p v) = s.cause := rfl
@[simp] theorem State.setCfg_cause (s : State) (c : Nat) (bs : List Byte) : State.cause (s.setCfg c bs) = s.cause := rfl
@[simp] theorem State.coh'_cause (s : State) (f : CohSt → CohSt) : State.cause (s.coh' f) = s.cause := rfl
@[simp] theorem State.setFw_cause (s : State) (c : Nat) (bs : List Byte) : State.cause (s.setFw c bs) = s.cause := rfl
@[simp] theorem State.job'_cause (s : State) (f : JobSt → JobSt) : State.cause (s.job' f) = s.cause := rfl
@[simp] theorem State.toReload_cause (s : State) (m : Msg) (l : List RegKey) : State.cause (s.toReload m l) = s.cause := rfl
@[simp] theorem State.dropWaiters_cause (s : State) (p : Req → Bool) : State.cause (s.dropWaiters p) = s.cause := rfl
@[simp] theorem State.clearOwner_cause (s : State) (c : Nat) : State.cause (s.clearOwner c) = s.cause := rfl
@[simp] theorem State.setBuilt_cause (s : State) (f : Option Frit) : State.cause (s.setBuilt f) = s.cause := rfl
@[simp] theorem State.spend_cause (s : State) (n kind bytes : Nat) : State.cause (s.spend n kind bytes) = s.cause := rfl
@[simp] theorem State.put_cause (s : State) (r : Reg) (v : Nat) (i j : Nat) : State.cause (s.put r v i j) = s.cause := rfl
@[simp] theorem State.unput_cause (s : State) (r : Reg) (i j : Nat) : State.cause (s.unput r i j) = s.cause := rfl
@[simp] theorem State.keepRegs_cause (s : State) (keep : RegKey → Bool) : State.cause (s.keepRegs keep) = s.cause := rfl
@[simp] theorem State.drawn_cause (s : State) : State.cause (s.drawn) = s.cause := rfl
@[simp] theorem State.emit_cause (s : State) (o : Out) : State.cause (s.emit o) = s.cause := rfl
@[simp] theorem State.setHead_cause (s : State) (h : Nat) (v : HeadSt) : State.cause (s.setHead h v) = s.cause := rfl
@[simp] theorem State.setRing_cause (s : State) (h r : Nat) (v : RingSt) : State.cause (s.setRing h r v) = s.cause := rfl
@[simp] theorem State.disable_cause (s : State) (src : Nat) : State.cause (s.disable src) = s.cause := rfl
@[simp] theorem State.setChan_cause (s : State) (c : Nat) (v : ChanSt) : State.cause (s.setChan c v) = s.cause := rfl
@[simp] theorem State.setRecs_cause (s : State) (t : Tab FltRec) : State.cause (s.setRecs t) = s.cause := rfl
@[simp] theorem State.putPage_cause (s : State) (lpn : Nat) (p : Page) : State.cause (s.putPage lpn p) = s.cause := rfl
@[simp] theorem State.treeDirty_cause (s : State) (lvl lpn : Nat) : State.cause (s.treeDirty lvl lpn) = s.cause := rfl
@[simp] theorem State.dropContent_cause (s : State) (lpn : Nat) : State.cause (s.dropContent lpn) = s.cause := rfl
@[simp] theorem State.under_cause (s : State) (cls src : Nat) (who : Option Attr := none) : State.cause (s.under cls src who) = s.cause := rfl
@[simp] theorem State.takeBytes_cause (s : State) (line : Nat) (bs : List Byte) : State.cause (s.takeBytes line bs) = s.cause := rfl
@[simp] theorem State.clearTree_cause (s : State) : State.cause (s.clearTree) = s.cause := rfl
@[simp] theorem State.closeSpdm_cause (s : State) (holder id : Nat) : State.cause (s.closeSpdm holder id) = s.cause := rfl
@[simp] theorem State.setTlb_cause (s : State) (l : List TlbEnt) : State.cause (s.setTlb l) = s.cause := rfl

/-! `pg` -/
@[simp] theorem State.setPort_pg (s : State) (p : Nat) (v : CvnPort) : State.pg (s.setPort p v) = s.pg := rfl
@[simp] theorem State.setCfg_pg (s : State) (c : Nat) (bs : List Byte) : State.pg (s.setCfg c bs) = s.pg := rfl
@[simp] theorem State.coh'_pg (s : State) (f : CohSt → CohSt) : State.pg (s.coh' f) = s.pg := rfl
@[simp] theorem State.setFw_pg (s : State) (c : Nat) (bs : List Byte) : State.pg (s.setFw c bs) = s.pg := rfl
@[simp] theorem State.job'_pg (s : State) (f : JobSt → JobSt) : State.pg (s.job' f) = s.pg := rfl
@[simp] theorem State.toReload_pg (s : State) (m : Msg) (l : List RegKey) : State.pg (s.toReload m l) = s.pg := rfl
@[simp] theorem State.dropWaiters_pg (s : State) (p : Req → Bool) : State.pg (s.dropWaiters p) = s.pg := rfl
@[simp] theorem State.setBuilt_pg (s : State) (f : Option Frit) : State.pg (s.setBuilt f) = s.pg := rfl
@[simp] theorem State.put_pg (s : State) (r : Reg) (v : Nat) (i j : Nat) : State.pg (s.put r v i j) = s.pg := rfl
@[simp] theorem State.unput_pg (s : State) (r : Reg) (i j : Nat) : State.pg (s.unput r i j) = s.pg := rfl
@[simp] theorem State.keepRegs_pg (s : State) (keep : RegKey → Bool) : State.pg (s.keepRegs keep) = s.pg := rfl
@[simp] theorem State.drawn_pg (s : State) : State.pg (s.drawn) = s.pg := rfl
@[simp] theorem State.emit_pg (s : State) (o : Out) : State.pg (s.emit o) = s.pg := rfl
@[simp] theorem State.setHead_pg (s : State) (h : Nat) (v : HeadSt) : State.pg (s.setHead h v) = s.pg := rfl
@[simp] theorem State.setRing_pg (s : State) (h r : Nat) (v : RingSt) : State.pg (s.setRing h r v) = s.pg := rfl
@[simp] theorem State.disable_pg (s : State) (src : Nat) : State.pg (s.disable src) = s.pg := rfl
@[simp] theorem State.setChan_pg (s : State) (c : Nat) (v : ChanSt) : State.pg (s.setChan c v) = s.pg := rfl
@[simp] theorem State.setRecs_pg (s : State) (t : Tab FltRec) : State.pg (s.setRecs t) = s.pg := rfl
@[simp] theorem State.treeDirty_pg (s : State) (lvl lpn : Nat) : State.pg (s.treeDirty lvl lpn) = s.pg := rfl
@[simp] theorem State.under_pg (s : State) (cls src : Nat) (who : Option Attr := none) : State.pg (s.under cls src who) = s.pg := rfl
@[simp] theorem State.clearTree_pg (s : State) : State.pg (s.clearTree) = s.pg := rfl
@[simp] theorem State.closeSpdm_pg (s : State) (holder id : Nat) : State.pg (s.closeSpdm holder id) = s.pg := rfl
@[simp] theorem State.setTlb_pg (s : State) (l : List TlbEnt) : State.pg (s.setTlb l) = s.pg := rfl

/-! `coh` -/
@[simp] theorem State.setPort_coh (s : State) (p : Nat) (v : CvnPort) : State.coh (s.setPort p v) = s.coh := rfl
@[simp] theorem State.setCfg_coh (s : State) (c : Nat) (bs : List Byte) : State.coh (s.setCfg c bs) = s.coh := rfl
@[simp] theorem State.setFw_coh (s : State) (c : Nat) (bs : List Byte) : State.coh (s.setFw c bs) = s.coh := rfl
@[simp] theorem State.job'_coh (s : State) (f : JobSt → JobSt) : State.coh (s.job' f) = s.coh := rfl
@[simp] theorem State.toReload_coh (s : State) (m : Msg) (l : List RegKey) : State.coh (s.toReload m l) = s.coh := rfl
@[simp] theorem State.dropWaiters_coh (s : State) (p : Req → Bool) : State.coh (s.dropWaiters p) = s.coh := rfl
@[simp] theorem State.clearOwner_coh (s : State) (c : Nat) : State.coh (s.clearOwner c) = s.coh := rfl
@[simp] theorem State.setBuilt_coh (s : State) (f : Option Frit) : State.coh (s.setBuilt f) = s.coh := rfl
@[simp] theorem State.spend_coh (s : State) (n kind bytes : Nat) : State.coh (s.spend n kind bytes) = s.coh := rfl
@[simp] theorem State.put_coh (s : State) (r : Reg) (v : Nat) (i j : Nat) : State.coh (s.put r v i j) = s.coh := rfl
@[simp] theorem State.unput_coh (s : State) (r : Reg) (i j : Nat) : State.coh (s.unput r i j) = s.coh := rfl
@[simp] theorem State.keepRegs_coh (s : State) (keep : RegKey → Bool) : State.coh (s.keepRegs keep) = s.coh := rfl
@[simp] theorem State.drawn_coh (s : State) : State.coh (s.drawn) = s.coh := rfl
@[simp] theorem State.emit_coh (s : State) (o : Out) : State.coh (s.emit o) = s.coh := rfl
@[simp] theorem State.setHead_coh (s : State) (h : Nat) (v : HeadSt) : State.coh (s.setHead h v) = s.coh := rfl
@[simp] theorem State.setRing_coh (s : State) (h r : Nat) (v : RingSt) : State.coh (s.setRing h r v) = s.coh := rfl
@[simp] theorem State.disable_coh (s : State) (src : Nat) : State.coh (s.disable src) = s.coh := rfl
@[simp] theorem State.setChan_coh (s : State) (c : Nat) (v : ChanSt) : State.coh (s.setChan c v) = s.coh := rfl
@[simp] theorem State.setRecs_coh (s : State) (t : Tab FltRec) : State.coh (s.setRecs t) = s.coh := rfl
@[simp] theorem State.putPage_coh (s : State) (lpn : Nat) (p : Page) : State.coh (s.putPage lpn p) = s.coh := rfl
@[simp] theorem State.treeDirty_coh (s : State) (lvl lpn : Nat) : State.coh (s.treeDirty lvl lpn) = s.coh := rfl
@[simp] theorem State.dropContent_coh (s : State) (lpn : Nat) : State.coh (s.dropContent lpn) = s.coh := rfl
@[simp] theorem State.under_coh (s : State) (cls src : Nat) (who : Option Attr := none) : State.coh (s.under cls src who) = s.coh := rfl
@[simp] theorem State.takeBytes_coh (s : State) (line : Nat) (bs : List Byte) : State.coh (s.takeBytes line bs) = s.coh := rfl
@[simp] theorem State.clearTree_coh (s : State) : State.coh (s.clearTree) = s.coh := rfl
@[simp] theorem State.closeSpdm_coh (s : State) (holder id : Nat) : State.coh (s.closeSpdm holder id) = s.coh := rfl
@[simp] theorem State.setTlb_coh (s : State) (l : List TlbEnt) : State.coh (s.setTlb l) = s.coh := rfl

/-! `sec` -/
@[simp] theorem State.setPort_sec (s : State) (p : Nat) (v : CvnPort) : State.sec (s.setPort p v) = s.sec := rfl
@[simp] theorem State.setCfg_sec (s : State) (c : Nat) (bs : List Byte) : State.sec (s.setCfg c bs) = s.sec := rfl
@[simp] theorem State.coh'_sec (s : State) (f : CohSt → CohSt) : State.sec (s.coh' f) = s.sec := rfl
@[simp] theorem State.setFw_sec (s : State) (c : Nat) (bs : List Byte) : State.sec (s.setFw c bs) = s.sec := rfl
@[simp] theorem State.job'_sec (s : State) (f : JobSt → JobSt) : State.sec (s.job' f) = s.sec := rfl
@[simp] theorem State.toReload_sec (s : State) (m : Msg) (l : List RegKey) : State.sec (s.toReload m l) = s.sec := rfl
@[simp] theorem State.dropWaiters_sec (s : State) (p : Req → Bool) : State.sec (s.dropWaiters p) = s.sec := rfl
@[simp] theorem State.clearOwner_sec (s : State) (c : Nat) : State.sec (s.clearOwner c) = s.sec := rfl
@[simp] theorem State.setBuilt_sec (s : State) (f : Option Frit) : State.sec (s.setBuilt f) = s.sec := rfl
@[simp] theorem State.spend_sec (s : State) (n kind bytes : Nat) : State.sec (s.spend n kind bytes) = s.sec := rfl
@[simp] theorem State.put_sec (s : State) (r : Reg) (v : Nat) (i j : Nat) : State.sec (s.put r v i j) = s.sec := rfl
@[simp] theorem State.unput_sec (s : State) (r : Reg) (i j : Nat) : State.sec (s.unput r i j) = s.sec := rfl
@[simp] theorem State.keepRegs_sec (s : State) (keep : RegKey → Bool) : State.sec (s.keepRegs keep) = s.sec := rfl
@[simp] theorem State.drawn_sec (s : State) : State.sec (s.drawn) = s.sec := rfl
@[simp] theorem State.emit_sec (s : State) (o : Out) : State.sec (s.emit o) = s.sec := rfl
@[simp] theorem State.setHead_sec (s : State) (h : Nat) (v : HeadSt) : State.sec (s.setHead h v) = s.sec := rfl
@[simp] theorem State.setRing_sec (s : State) (h r : Nat) (v : RingSt) : State.sec (s.setRing h r v) = s.sec := rfl
@[simp] theorem State.disable_sec (s : State) (src : Nat) : State.sec (s.disable src) = s.sec := rfl
@[simp] theorem State.setChan_sec (s : State) (c : Nat) (v : ChanSt) : State.sec (s.setChan c v) = s.sec := rfl
@[simp] theorem State.setRecs_sec (s : State) (t : Tab FltRec) : State.sec (s.setRecs t) = s.sec := rfl
@[simp] theorem State.putPage_sec (s : State) (lpn : Nat) (p : Page) : State.sec (s.putPage lpn p) = s.sec := rfl
@[simp] theorem State.dropContent_sec (s : State) (lpn : Nat) : State.sec (s.dropContent lpn) = s.sec := rfl
@[simp] theorem State.under_sec (s : State) (cls src : Nat) (who : Option Attr := none) : State.sec (s.under cls src who) = s.sec := rfl
@[simp] theorem State.takeBytes_sec (s : State) (line : Nat) (bs : List Byte) : State.sec (s.takeBytes line bs) = s.sec := rfl
@[simp] theorem State.setTlb_sec (s : State) (l : List TlbEnt) : State.sec (s.setTlb l) = s.sec := rfl

/-! `ecc` -/
@[simp] theorem State.setPort_ecc (s : State) (p : Nat) (v : CvnPort) : State.ecc (s.setPort p v) = s.ecc := rfl
@[simp] theorem State.setCfg_ecc (s : State) (c : Nat) (bs : List Byte) : State.ecc (s.setCfg c bs) = s.ecc := rfl
@[simp] theorem State.coh'_ecc (s : State) (f : CohSt → CohSt) : State.ecc (s.coh' f) = s.ecc := rfl
@[simp] theorem State.setFw_ecc (s : State) (c : Nat) (bs : List Byte) : State.ecc (s.setFw c bs) = s.ecc := rfl
@[simp] theorem State.job'_ecc (s : State) (f : JobSt → JobSt) : State.ecc (s.job' f) = s.ecc := rfl
@[simp] theorem State.toReload_ecc (s : State) (m : Msg) (l : List RegKey) : State.ecc (s.toReload m l) = s.ecc := rfl
@[simp] theorem State.dropWaiters_ecc (s : State) (p : Req → Bool) : State.ecc (s.dropWaiters p) = s.ecc := rfl
@[simp] theorem State.clearOwner_ecc (s : State) (c : Nat) : State.ecc (s.clearOwner c) = s.ecc := rfl
@[simp] theorem State.setBuilt_ecc (s : State) (f : Option Frit) : State.ecc (s.setBuilt f) = s.ecc := rfl
@[simp] theorem State.spend_ecc (s : State) (n kind bytes : Nat) : State.ecc (s.spend n kind bytes) = s.ecc := rfl
@[simp] theorem State.put_ecc (s : State) (r : Reg) (v : Nat) (i j : Nat) : State.ecc (s.put r v i j) = s.ecc := rfl
@[simp] theorem State.unput_ecc (s : State) (r : Reg) (i j : Nat) : State.ecc (s.unput r i j) = s.ecc := rfl
@[simp] theorem State.keepRegs_ecc (s : State) (keep : RegKey → Bool) : State.ecc (s.keepRegs keep) = s.ecc := rfl
@[simp] theorem State.drawn_ecc (s : State) : State.ecc (s.drawn) = s.ecc := rfl
@[simp] theorem State.emit_ecc (s : State) (o : Out) : State.ecc (s.emit o) = s.ecc := rfl
@[simp] theorem State.setHead_ecc (s : State) (h : Nat) (v : HeadSt) : State.ecc (s.setHead h v) = s.ecc := rfl
@[simp] theorem State.setRing_ecc (s : State) (h r : Nat) (v : RingSt) : State.ecc (s.setRing h r v) = s.ecc := rfl
@[simp] theorem State.disable_ecc (s : State) (src : Nat) : State.ecc (s.disable src) = s.ecc := rfl
@[simp] theorem State.setChan_ecc (s : State) (c : Nat) (v : ChanSt) : State.ecc (s.setChan c v) = s.ecc := rfl
@[simp] theorem State.setRecs_ecc (s : State) (t : Tab FltRec) : State.ecc (s.setRecs t) = s.ecc := rfl
@[simp] theorem State.putPage_ecc (s : State) (lpn : Nat) (p : Page) : State.ecc (s.putPage lpn p) = s.ecc := rfl
@[simp] theorem State.treeDirty_ecc (s : State) (lvl lpn : Nat) : State.ecc (s.treeDirty lvl lpn) = s.ecc := rfl
@[simp] theorem State.dropContent_ecc (s : State) (lpn : Nat) : State.ecc (s.dropContent lpn) = s.ecc := rfl
@[simp] theorem State.under_ecc (s : State) (cls src : Nat) (who : Option Attr := none) : State.ecc (s.under cls src who) = s.ecc := rfl
@[simp] theorem State.takeBytes_ecc (s : State) (line : Nat) (bs : List Byte) : State.ecc (s.takeBytes line bs) = s.ecc := rfl
@[simp] theorem State.clearTree_ecc (s : State) : State.ecc (s.clearTree) = s.ecc := rfl
@[simp] theorem State.closeSpdm_ecc (s : State) (holder id : Nat) : State.ecc (s.closeSpdm holder id) = s.ecc := rfl
@[simp] theorem State.setTlb_ecc (s : State) (l : List TlbEnt) : State.ecc (s.setTlb l) = s.ecc := rfl

/-! `cdc` -/
@[simp] theorem State.setPort_cdc (s : State) (p : Nat) (v : CvnPort) : State.cdc (s.setPort p v) = s.cdc := rfl
@[simp] theorem State.setCfg_cdc (s : State) (c : Nat) (bs : List Byte) : State.cdc (s.setCfg c bs) = s.cdc := rfl
@[simp] theorem State.coh'_cdc (s : State) (f : CohSt → CohSt) : State.cdc (s.coh' f) = s.cdc := rfl
@[simp] theorem State.setFw_cdc (s : State) (c : Nat) (bs : List Byte) : State.cdc (s.setFw c bs) = s.cdc := rfl
@[simp] theorem State.job'_cdc (s : State) (f : JobSt → JobSt) : State.cdc (s.job' f) = s.cdc := rfl
@[simp] theorem State.toReload_cdc (s : State) (m : Msg) (l : List RegKey) : State.cdc (s.toReload m l) = s.cdc := rfl
@[simp] theorem State.dropWaiters_cdc (s : State) (p : Req → Bool) : State.cdc (s.dropWaiters p) = s.cdc := rfl
@[simp] theorem State.clearOwner_cdc (s : State) (c : Nat) : State.cdc (s.clearOwner c) = s.cdc := rfl
@[simp] theorem State.spend_cdc (s : State) (n kind bytes : Nat) : State.cdc (s.spend n kind bytes) = s.cdc := rfl
@[simp] theorem State.put_cdc (s : State) (r : Reg) (v : Nat) (i j : Nat) : State.cdc (s.put r v i j) = s.cdc := rfl
@[simp] theorem State.unput_cdc (s : State) (r : Reg) (i j : Nat) : State.cdc (s.unput r i j) = s.cdc := rfl
@[simp] theorem State.keepRegs_cdc (s : State) (keep : RegKey → Bool) : State.cdc (s.keepRegs keep) = s.cdc := rfl
@[simp] theorem State.drawn_cdc (s : State) : State.cdc (s.drawn) = s.cdc := rfl
@[simp] theorem State.emit_cdc (s : State) (o : Out) : State.cdc (s.emit o) = s.cdc := rfl
@[simp] theorem State.setHead_cdc (s : State) (h : Nat) (v : HeadSt) : State.cdc (s.setHead h v) = s.cdc := rfl
@[simp] theorem State.setRing_cdc (s : State) (h r : Nat) (v : RingSt) : State.cdc (s.setRing h r v) = s.cdc := rfl
@[simp] theorem State.disable_cdc (s : State) (src : Nat) : State.cdc (s.disable src) = s.cdc := rfl
@[simp] theorem State.setChan_cdc (s : State) (c : Nat) (v : ChanSt) : State.cdc (s.setChan c v) = s.cdc := rfl
@[simp] theorem State.setRecs_cdc (s : State) (t : Tab FltRec) : State.cdc (s.setRecs t) = s.cdc := rfl
@[simp] theorem State.putPage_cdc (s : State) (lpn : Nat) (p : Page) : State.cdc (s.putPage lpn p) = s.cdc := rfl
@[simp] theorem State.treeDirty_cdc (s : State) (lvl lpn : Nat) : State.cdc (s.treeDirty lvl lpn) = s.cdc := rfl
@[simp] theorem State.dropContent_cdc (s : State) (lpn : Nat) : State.cdc (s.dropContent lpn) = s.cdc := rfl
@[simp] theorem State.under_cdc (s : State) (cls src : Nat) (who : Option Attr := none) : State.cdc (s.under cls src who) = s.cdc := rfl
@[simp] theorem State.takeBytes_cdc (s : State) (line : Nat) (bs : List Byte) : State.cdc (s.takeBytes line bs) = s.cdc := rfl
@[simp] theorem State.clearTree_cdc (s : State) : State.cdc (s.clearTree) = s.cdc := rfl
@[simp] theorem State.closeSpdm_cdc (s : State) (holder id : Nat) : State.cdc (s.closeSpdm holder id) = s.cdc := rfl
@[simp] theorem State.setTlb_cdc (s : State) (l : List TlbEnt) : State.cdc (s.setTlb l) = s.cdc := rfl

/-! `xlt` -/
@[simp] theorem State.setPort_xlt (s : State) (p : Nat) (v : CvnPort) : State.xlt (s.setPort p v) = s.xlt := rfl
@[simp] theorem State.setCfg_xlt (s : State) (c : Nat) (bs : List Byte) : State.xlt (s.setCfg c bs) = s.xlt := rfl
@[simp] theorem State.coh'_xlt (s : State) (f : CohSt → CohSt) : State.xlt (s.coh' f) = s.xlt := rfl
@[simp] theorem State.setFw_xlt (s : State) (c : Nat) (bs : List Byte) : State.xlt (s.setFw c bs) = s.xlt := rfl
@[simp] theorem State.job'_xlt (s : State) (f : JobSt → JobSt) : State.xlt (s.job' f) = s.xlt := rfl
@[simp] theorem State.toReload_xlt (s : State) (m : Msg) (l : List RegKey) : State.xlt (s.toReload m l) = s.xlt := rfl
@[simp] theorem State.dropWaiters_xlt (s : State) (p : Req → Bool) : State.xlt (s.dropWaiters p) = s.xlt := rfl
@[simp] theorem State.clearOwner_xlt (s : State) (c : Nat) : State.xlt (s.clearOwner c) = s.xlt := rfl
@[simp] theorem State.setBuilt_xlt (s : State) (f : Option Frit) : State.xlt (s.setBuilt f) = s.xlt := rfl
@[simp] theorem State.spend_xlt (s : State) (n kind bytes : Nat) : State.xlt (s.spend n kind bytes) = s.xlt := rfl
@[simp] theorem State.put_xlt (s : State) (r : Reg) (v : Nat) (i j : Nat) : State.xlt (s.put r v i j) = s.xlt := rfl
@[simp] theorem State.unput_xlt (s : State) (r : Reg) (i j : Nat) : State.xlt (s.unput r i j) = s.xlt := rfl
@[simp] theorem State.keepRegs_xlt (s : State) (keep : RegKey → Bool) : State.xlt (s.keepRegs keep) = s.xlt := rfl
@[simp] theorem State.drawn_xlt (s : State) : State.xlt (s.drawn) = s.xlt := rfl
@[simp] theorem State.emit_xlt (s : State) (o : Out) : State.xlt (s.emit o) = s.xlt := rfl
@[simp] theorem State.setHead_xlt (s : State) (h : Nat) (v : HeadSt) : State.xlt (s.setHead h v) = s.xlt := rfl
@[simp] theorem State.setRing_xlt (s : State) (h r : Nat) (v : RingSt) : State.xlt (s.setRing h r v) = s.xlt := rfl
@[simp] theorem State.disable_xlt (s : State) (src : Nat) : State.xlt (s.disable src) = s.xlt := rfl
@[simp] theorem State.setChan_xlt (s : State) (c : Nat) (v : ChanSt) : State.xlt (s.setChan c v) = s.xlt := rfl
@[simp] theorem State.setRecs_xlt (s : State) (t : Tab FltRec) : State.xlt (s.setRecs t) = s.xlt := rfl
@[simp] theorem State.putPage_xlt (s : State) (lpn : Nat) (p : Page) : State.xlt (s.putPage lpn p) = s.xlt := rfl
@[simp] theorem State.treeDirty_xlt (s : State) (lvl lpn : Nat) : State.xlt (s.treeDirty lvl lpn) = s.xlt := rfl
@[simp] theorem State.dropContent_xlt (s : State) (lpn : Nat) : State.xlt (s.dropContent lpn) = s.xlt := rfl
@[simp] theorem State.under_xlt (s : State) (cls src : Nat) (who : Option Attr := none) : State.xlt (s.under cls src who) = s.xlt := rfl
@[simp] theorem State.takeBytes_xlt (s : State) (line : Nat) (bs : List Byte) : State.xlt (s.takeBytes line bs) = s.xlt := rfl
@[simp] theorem State.clearTree_xlt (s : State) : State.xlt (s.clearTree) = s.xlt := rfl
@[simp] theorem State.closeSpdm_xlt (s : State) (holder id : Nat) : State.xlt (s.closeSpdm holder id) = s.xlt := rfl

/-! `mem` -/
@[simp] theorem State.setPort_mem (s : State) (p : Nat) (v : CvnPort) : State.mem (s.setPort p v) = s.mem := rfl
@[simp] theorem State.setCfg_mem (s : State) (c : Nat) (bs : List Byte) : State.mem (s.setCfg c bs) = s.mem := rfl
@[simp] theorem State.coh'_mem (s : State) (f : CohSt → CohSt) : State.mem (s.coh' f) = s.mem := rfl
@[simp] theorem State.setFw_mem (s : State) (c : Nat) (bs : List Byte) : State.mem (s.setFw c bs) = s.mem := rfl
@[simp] theorem State.job'_mem (s : State) (f : JobSt → JobSt) : State.mem (s.job' f) = s.mem := rfl
@[simp] theorem State.toReload_mem (s : State) (m : Msg) (l : List RegKey) : State.mem (s.toReload m l) = s.mem := rfl
@[simp] theorem State.dropWaiters_mem (s : State) (p : Req → Bool) : State.mem (s.dropWaiters p) = s.mem := rfl
@[simp] theorem State.clearOwner_mem (s : State) (c : Nat) : State.mem (s.clearOwner c) = s.mem := rfl
@[simp] theorem State.setBuilt_mem (s : State) (f : Option Frit) : State.mem (s.setBuilt f) = s.mem := rfl
@[simp] theorem State.spend_mem (s : State) (n kind bytes : Nat) : State.mem (s.spend n kind bytes) = s.mem := rfl
@[simp] theorem State.put_mem (s : State) (r : Reg) (v : Nat) (i j : Nat) : State.mem (s.put r v i j) = s.mem := rfl
@[simp] theorem State.unput_mem (s : State) (r : Reg) (i j : Nat) : State.mem (s.unput r i j) = s.mem := rfl
@[simp] theorem State.keepRegs_mem (s : State) (keep : RegKey → Bool) : State.mem (s.keepRegs keep) = s.mem := rfl
@[simp] theorem State.drawn_mem (s : State) : State.mem (s.drawn) = s.mem := rfl
@[simp] theorem State.emit_mem (s : State) (o : Out) : State.mem (s.emit o) = s.mem := rfl
@[simp] theorem State.setHead_mem (s : State) (h : Nat) (v : HeadSt) : State.mem (s.setHead h v) = s.mem := rfl
@[simp] theorem State.setRing_mem (s : State) (h r : Nat) (v : RingSt) : State.mem (s.setRing h r v) = s.mem := rfl
@[simp] theorem State.disable_mem (s : State) (src : Nat) : State.mem (s.disable src) = s.mem := rfl
@[simp] theorem State.setRecs_mem (s : State) (t : Tab FltRec) : State.mem (s.setRecs t) = s.mem := rfl
@[simp] theorem State.putPage_mem (s : State) (lpn : Nat) (p : Page) : State.mem (s.putPage lpn p) = s.mem := rfl
@[simp] theorem State.treeDirty_mem (s : State) (lvl lpn : Nat) : State.mem (s.treeDirty lvl lpn) = s.mem := rfl
@[simp] theorem State.dropContent_mem (s : State) (lpn : Nat) : State.mem (s.dropContent lpn) = s.mem := rfl
@[simp] theorem State.takeBytes_mem (s : State) (line : Nat) (bs : List Byte) : State.mem (s.takeBytes line bs) = s.mem := rfl
@[simp] theorem State.clearTree_mem (s : State) : State.mem (s.clearTree) = s.mem := rfl
@[simp] theorem State.closeSpdm_mem (s : State) (holder id : Nat) : State.mem (s.closeSpdm holder id) = s.mem := rfl
@[simp] theorem State.setTlb_mem (s : State) (l : List TlbEnt) : State.mem (s.setTlb l) = s.mem := rfl

/-! `job` -/
@[simp] theorem State.setPort_job (s : State) (p : Nat) (v : CvnPort) : State.job (s.setPort p v) = s.job := rfl
@[simp] theorem State.setCfg_job (s : State) (c : Nat) (bs : List Byte) : State.job (s.setCfg c bs) = s.job := rfl
@[simp] theorem State.coh'_job (s : State) (f : CohSt → CohSt) : State.job (s.coh' f) = s.job := rfl
@[simp] theorem State.setFw_job (s : State) (c : Nat) (bs : List Byte) : State.job (s.setFw c bs) = s.job := rfl
@[simp] theorem State.toReload_job (s : State) (m : Msg) (l : List RegKey) : State.job (s.toReload m l) = s.job := rfl
@[simp] theorem State.dropWaiters_job (s : State) (p : Req → Bool) : State.job (s.dropWaiters p) = s.job := rfl
@[simp] theorem State.clearOwner_job (s : State) (c : Nat) : State.job (s.clearOwner c) = s.job := rfl
@[simp] theorem State.setBuilt_job (s : State) (f : Option Frit) : State.job (s.setBuilt f) = s.job := rfl
@[simp] theorem State.spend_job (s : State) (n kind bytes : Nat) : State.job (s.spend n kind bytes) = s.job := rfl
@[simp] theorem State.put_job (s : State) (r : Reg) (v : Nat) (i j : Nat) : State.job (s.put r v i j) = s.job := rfl
@[simp] theorem State.unput_job (s : State) (r : Reg) (i j : Nat) : State.job (s.unput r i j) = s.job := rfl
@[simp] theorem State.keepRegs_job (s : State) (keep : RegKey → Bool) : State.job (s.keepRegs keep) = s.job := rfl
@[simp] theorem State.drawn_job (s : State) : State.job (s.drawn) = s.job := rfl
@[simp] theorem State.emit_job (s : State) (o : Out) : State.job (s.emit o) = s.job := rfl
@[simp] theorem State.setHead_job (s : State) (h : Nat) (v : HeadSt) : State.job (s.setHead h v) = s.job := rfl
@[simp] theorem State.setRing_job (s : State) (h r : Nat) (v : RingSt) : State.job (s.setRing h r v) = s.job := rfl
@[simp] theorem State.disable_job (s : State) (src : Nat) : State.job (s.disable src) = s.job := rfl
@[simp] theorem State.setChan_job (s : State) (c : Nat) (v : ChanSt) : State.job (s.setChan c v) = s.job := rfl
@[simp] theorem State.setRecs_job (s : State) (t : Tab FltRec) : State.job (s.setRecs t) = s.job := rfl
@[simp] theorem State.putPage_job (s : State) (lpn : Nat) (p : Page) : State.job (s.putPage lpn p) = s.job := rfl
@[simp] theorem State.treeDirty_job (s : State) (lvl lpn : Nat) : State.job (s.treeDirty lvl lpn) = s.job := rfl
@[simp] theorem State.dropContent_job (s : State) (lpn : Nat) : State.job (s.dropContent lpn) = s.job := rfl
@[simp] theorem State.under_job (s : State) (cls src : Nat) (who : Option Attr := none) : State.job (s.under cls src who) = s.job := rfl
@[simp] theorem State.takeBytes_job (s : State) (line : Nat) (bs : List Byte) : State.job (s.takeBytes line bs) = s.job := rfl
@[simp] theorem State.clearTree_job (s : State) : State.job (s.clearTree) = s.job := rfl
@[simp] theorem State.closeSpdm_job (s : State) (holder id : Nat) : State.job (s.closeSpdm holder id) = s.job := rfl
@[simp] theorem State.setTlb_job (s : State) (l : List TlbEnt) : State.job (s.setTlb l) = s.job := rfl

/-! `cvn` -/
@[simp] theorem State.setCfg_cvn (s : State) (c : Nat) (bs : List Byte) : State.cvn (s.setCfg c bs) = s.cvn := rfl
@[simp] theorem State.coh'_cvn (s : State) (f : CohSt → CohSt) : State.cvn (s.coh' f) = s.cvn := rfl
@[simp] theorem State.setFw_cvn (s : State) (c : Nat) (bs : List Byte) : State.cvn (s.setFw c bs) = s.cvn := rfl
@[simp] theorem State.job'_cvn (s : State) (f : JobSt → JobSt) : State.cvn (s.job' f) = s.cvn := rfl
@[simp] theorem State.toReload_cvn (s : State) (m : Msg) (l : List RegKey) : State.cvn (s.toReload m l) = s.cvn := rfl
@[simp] theorem State.dropWaiters_cvn (s : State) (p : Req → Bool) : State.cvn (s.dropWaiters p) = s.cvn := rfl
@[simp] theorem State.clearOwner_cvn (s : State) (c : Nat) : State.cvn (s.clearOwner c) = s.cvn := rfl
@[simp] theorem State.setBuilt_cvn (s : State) (f : Option Frit) : State.cvn (s.setBuilt f) = s.cvn := rfl
@[simp] theorem State.spend_cvn (s : State) (n kind bytes : Nat) : State.cvn (s.spend n kind bytes) = s.cvn := rfl
@[simp] theorem State.put_cvn (s : State) (r : Reg) (v : Nat) (i j : Nat) : State.cvn (s.put r v i j) = s.cvn := rfl
@[simp] theorem State.unput_cvn (s : State) (r : Reg) (i j : Nat) : State.cvn (s.unput r i j) = s.cvn := rfl
@[simp] theorem State.keepRegs_cvn (s : State) (keep : RegKey → Bool) : State.cvn (s.keepRegs keep) = s.cvn := rfl
@[simp] theorem State.drawn_cvn (s : State) : State.cvn (s.drawn) = s.cvn := rfl
@[simp] theorem State.emit_cvn (s : State) (o : Out) : State.cvn (s.emit o) = s.cvn := rfl
@[simp] theorem State.setHead_cvn (s : State) (h : Nat) (v : HeadSt) : State.cvn (s.setHead h v) = s.cvn := rfl
@[simp] theorem State.setRing_cvn (s : State) (h r : Nat) (v : RingSt) : State.cvn (s.setRing h r v) = s.cvn := rfl
@[simp] theorem State.disable_cvn (s : State) (src : Nat) : State.cvn (s.disable src) = s.cvn := rfl
@[simp] theorem State.setChan_cvn (s : State) (c : Nat) (v : ChanSt) : State.cvn (s.setChan c v) = s.cvn := rfl
@[simp] theorem State.setRecs_cvn (s : State) (t : Tab FltRec) : State.cvn (s.setRecs t) = s.cvn := rfl
@[simp] theorem State.putPage_cvn (s : State) (lpn : Nat) (p : Page) : State.cvn (s.putPage lpn p) = s.cvn := rfl
@[simp] theorem State.treeDirty_cvn (s : State) (lvl lpn : Nat) : State.cvn (s.treeDirty lvl lpn) = s.cvn := rfl
@[simp] theorem State.dropContent_cvn (s : State) (lpn : Nat) : State.cvn (s.dropContent lpn) = s.cvn := rfl
@[simp] theorem State.under_cvn (s : State) (cls src : Nat) (who : Option Attr := none) : State.cvn (s.under cls src who) = s.cvn := rfl
@[simp] theorem State.takeBytes_cvn (s : State) (line : Nat) (bs : List Byte) : State.cvn (s.takeBytes line bs) = s.cvn := rfl
@[simp] theorem State.clearTree_cvn (s : State) : State.cvn (s.clearTree) = s.cvn := rfl
@[simp] theorem State.closeSpdm_cvn (s : State) (holder id : Nat) : State.cvn (s.closeSpdm holder id) = s.cvn := rfl
@[simp] theorem State.setTlb_cvn (s : State) (l : List TlbEnt) : State.cvn (s.setTlb l) = s.cvn := rfl

/-! `slt` -/
@[simp] theorem State.setPort_slt (s : State) (p : Nat) (v : CvnPort) : State.slt (s.setPort p v) = s.slt := rfl
@[simp] theorem State.setCfg_slt (s : State) (c : Nat) (bs : List Byte) : State.slt (s.setCfg c bs) = s.slt := rfl
@[simp] theorem State.coh'_slt (s : State) (f : CohSt → CohSt) : State.slt (s.coh' f) = s.slt := rfl
@[simp] theorem State.setFw_slt (s : State) (c : Nat) (bs : List Byte) : State.slt (s.setFw c bs) = s.slt := rfl
@[simp] theorem State.job'_slt (s : State) (f : JobSt → JobSt) : State.slt (s.job' f) = s.slt := rfl
@[simp] theorem State.toReload_slt (s : State) (m : Msg) (l : List RegKey) : State.slt (s.toReload m l) = s.slt := rfl
@[simp] theorem State.dropWaiters_slt (s : State) (p : Req → Bool) : State.slt (s.dropWaiters p) = s.slt := rfl
@[simp] theorem State.clearOwner_slt (s : State) (c : Nat) : State.slt (s.clearOwner c) = s.slt := rfl
@[simp] theorem State.setBuilt_slt (s : State) (f : Option Frit) : State.slt (s.setBuilt f) = s.slt := rfl
@[simp] theorem State.spend_slt (s : State) (n kind bytes : Nat) : State.slt (s.spend n kind bytes) = s.slt := rfl
@[simp] theorem State.put_slt (s : State) (r : Reg) (v : Nat) (i j : Nat) : State.slt (s.put r v i j) = s.slt := rfl
@[simp] theorem State.unput_slt (s : State) (r : Reg) (i j : Nat) : State.slt (s.unput r i j) = s.slt := rfl
@[simp] theorem State.keepRegs_slt (s : State) (keep : RegKey → Bool) : State.slt (s.keepRegs keep) = s.slt := rfl
@[simp] theorem State.drawn_slt (s : State) : State.slt (s.drawn) = s.slt := rfl
@[simp] theorem State.emit_slt (s : State) (o : Out) : State.slt (s.emit o) = s.slt := rfl
@[simp] theorem State.setHead_slt (s : State) (h : Nat) (v : HeadSt) : State.slt (s.setHead h v) = s.slt := rfl
@[simp] theorem State.setRing_slt (s : State) (h r : Nat) (v : RingSt) : State.slt (s.setRing h r v) = s.slt := rfl
@[simp] theorem State.disable_slt (s : State) (src : Nat) : State.slt (s.disable src) = s.slt := rfl
@[simp] theorem State.setChan_slt (s : State) (c : Nat) (v : ChanSt) : State.slt (s.setChan c v) = s.slt := rfl
@[simp] theorem State.setRecs_slt (s : State) (t : Tab FltRec) : State.slt (s.setRecs t) = s.slt := rfl
@[simp] theorem State.putPage_slt (s : State) (lpn : Nat) (p : Page) : State.slt (s.putPage lpn p) = s.slt := rfl
@[simp] theorem State.treeDirty_slt (s : State) (lvl lpn : Nat) : State.slt (s.treeDirty lvl lpn) = s.slt := rfl
@[simp] theorem State.dropContent_slt (s : State) (lpn : Nat) : State.slt (s.dropContent lpn) = s.slt := rfl
@[simp] theorem State.under_slt (s : State) (cls src : Nat) (who : Option Attr := none) : State.slt (s.under cls src who) = s.slt := rfl
@[simp] theorem State.takeBytes_slt (s : State) (line : Nat) (bs : List Byte) : State.slt (s.takeBytes line bs) = s.slt := rfl
@[simp] theorem State.clearTree_slt (s : State) : State.slt (s.clearTree) = s.slt := rfl
@[simp] theorem State.closeSpdm_slt (s : State) (holder id : Nat) : State.slt (s.closeSpdm holder id) = s.slt := rfl
@[simp] theorem State.setTlb_slt (s : State) (l : List TlbEnt) : State.slt (s.setTlb l) = s.slt := rfl

/-! `pwr` -/
@[simp] theorem State.setPort_pwr (s : State) (p : Nat) (v : CvnPort) : State.pwr (s.setPort p v) = s.pwr := rfl
@[simp] theorem State.setCfg_pwr (s : State) (c : Nat) (bs : List Byte) : State.pwr (s.setCfg c bs) = s.pwr := rfl
@[simp] theorem State.coh'_pwr (s : State) (f : CohSt → CohSt) : State.pwr (s.coh' f) = s.pwr := rfl
@[simp] theorem State.setFw_pwr (s : State) (c : Nat) (bs : List Byte) : State.pwr (s.setFw c bs) = s.pwr := rfl
@[simp] theorem State.job'_pwr (s : State) (f : JobSt → JobSt) : State.pwr (s.job' f) = s.pwr := rfl
@[simp] theorem State.toReload_pwr (s : State) (m : Msg) (l : List RegKey) : State.pwr (s.toReload m l) = s.pwr := rfl
@[simp] theorem State.clearOwner_pwr (s : State) (c : Nat) : State.pwr (s.clearOwner c) = s.pwr := rfl
@[simp] theorem State.setBuilt_pwr (s : State) (f : Option Frit) : State.pwr (s.setBuilt f) = s.pwr := rfl
@[simp] theorem State.spend_pwr (s : State) (n kind bytes : Nat) : State.pwr (s.spend n kind bytes) = s.pwr := rfl
@[simp] theorem State.put_pwr (s : State) (r : Reg) (v : Nat) (i j : Nat) : State.pwr (s.put r v i j) = s.pwr := rfl
@[simp] theorem State.unput_pwr (s : State) (r : Reg) (i j : Nat) : State.pwr (s.unput r i j) = s.pwr := rfl
@[simp] theorem State.keepRegs_pwr (s : State) (keep : RegKey → Bool) : State.pwr (s.keepRegs keep) = s.pwr := rfl
@[simp] theorem State.drawn_pwr (s : State) : State.pwr (s.drawn) = s.pwr := rfl
@[simp] theorem State.emit_pwr (s : State) (o : Out) : State.pwr (s.emit o) = s.pwr := rfl
@[simp] theorem State.setHead_pwr (s : State) (h : Nat) (v : HeadSt) : State.pwr (s.setHead h v) = s.pwr := rfl
@[simp] theorem State.setRing_pwr (s : State) (h r : Nat) (v : RingSt) : State.pwr (s.setRing h r v) = s.pwr := rfl
@[simp] theorem State.disable_pwr (s : State) (src : Nat) : State.pwr (s.disable src) = s.pwr := rfl
@[simp] theorem State.setChan_pwr (s : State) (c : Nat) (v : ChanSt) : State.pwr (s.setChan c v) = s.pwr := rfl
@[simp] theorem State.setRecs_pwr (s : State) (t : Tab FltRec) : State.pwr (s.setRecs t) = s.pwr := rfl
@[simp] theorem State.putPage_pwr (s : State) (lpn : Nat) (p : Page) : State.pwr (s.putPage lpn p) = s.pwr := rfl
@[simp] theorem State.treeDirty_pwr (s : State) (lvl lpn : Nat) : State.pwr (s.treeDirty lvl lpn) = s.pwr := rfl
@[simp] theorem State.dropContent_pwr (s : State) (lpn : Nat) : State.pwr (s.dropContent lpn) = s.pwr := rfl
@[simp] theorem State.under_pwr (s : State) (cls src : Nat) (who : Option Attr := none) : State.pwr (s.under cls src who) = s.pwr := rfl
@[simp] theorem State.takeBytes_pwr (s : State) (line : Nat) (bs : List Byte) : State.pwr (s.takeBytes line bs) = s.pwr := rfl
@[simp] theorem State.clearTree_pwr (s : State) : State.pwr (s.clearTree) = s.pwr := rfl
@[simp] theorem State.closeSpdm_pwr (s : State) (holder id : Nat) : State.pwr (s.closeSpdm holder id) = s.pwr := rfl
@[simp] theorem State.setTlb_pwr (s : State) (l : List TlbEnt) : State.pwr (s.setTlb l) = s.pwr := rfl

/-! `boot` -/
@[simp] theorem State.setPort_boot (s : State) (p : Nat) (v : CvnPort) : State.boot (s.setPort p v) = s.boot := rfl
@[simp] theorem State.coh'_boot (s : State) (f : CohSt → CohSt) : State.boot (s.coh' f) = s.boot := rfl
@[simp] theorem State.job'_boot (s : State) (f : JobSt → JobSt) : State.boot (s.job' f) = s.boot := rfl
@[simp] theorem State.toReload_boot (s : State) (m : Msg) (l : List RegKey) : State.boot (s.toReload m l) = s.boot := rfl
@[simp] theorem State.dropWaiters_boot (s : State) (p : Req → Bool) : State.boot (s.dropWaiters p) = s.boot := rfl
@[simp] theorem State.clearOwner_boot (s : State) (c : Nat) : State.boot (s.clearOwner c) = s.boot := rfl
@[simp] theorem State.setBuilt_boot (s : State) (f : Option Frit) : State.boot (s.setBuilt f) = s.boot := rfl
@[simp] theorem State.spend_boot (s : State) (n kind bytes : Nat) : State.boot (s.spend n kind bytes) = s.boot := rfl
@[simp] theorem State.put_boot (s : State) (r : Reg) (v : Nat) (i j : Nat) : State.boot (s.put r v i j) = s.boot := rfl
@[simp] theorem State.unput_boot (s : State) (r : Reg) (i j : Nat) : State.boot (s.unput r i j) = s.boot := rfl
@[simp] theorem State.keepRegs_boot (s : State) (keep : RegKey → Bool) : State.boot (s.keepRegs keep) = s.boot := rfl
@[simp] theorem State.drawn_boot (s : State) : State.boot (s.drawn) = s.boot := rfl
@[simp] theorem State.emit_boot (s : State) (o : Out) : State.boot (s.emit o) = s.boot := rfl
@[simp] theorem State.setHead_boot (s : State) (h : Nat) (v : HeadSt) : State.boot (s.setHead h v) = s.boot := rfl
@[simp] theorem State.setRing_boot (s : State) (h r : Nat) (v : RingSt) : State.boot (s.setRing h r v) = s.boot := rfl
@[simp] theorem State.disable_boot (s : State) (src : Nat) : State.boot (s.disable src) = s.boot := rfl
@[simp] theorem State.setChan_boot (s : State) (c : Nat) (v : ChanSt) : State.boot (s.setChan c v) = s.boot := rfl
@[simp] theorem State.setRecs_boot (s : State) (t : Tab FltRec) : State.boot (s.setRecs t) = s.boot := rfl
@[simp] theorem State.putPage_boot (s : State) (lpn : Nat) (p : Page) : State.boot (s.putPage lpn p) = s.boot := rfl
@[simp] theorem State.treeDirty_boot (s : State) (lvl lpn : Nat) : State.boot (s.treeDirty lvl lpn) = s.boot := rfl
@[simp] theorem State.dropContent_boot (s : State) (lpn : Nat) : State.boot (s.dropContent lpn) = s.boot := rfl
@[simp] theorem State.under_boot (s : State) (cls src : Nat) (who : Option Attr := none) : State.boot (s.under cls src who) = s.boot := rfl
@[simp] theorem State.takeBytes_boot (s : State) (line : Nat) (bs : List Byte) : State.boot (s.takeBytes line bs) = s.boot := rfl
@[simp] theorem State.clearTree_boot (s : State) : State.boot (s.clearTree) = s.boot := rfl
@[simp] theorem State.closeSpdm_boot (s : State) (holder id : Nat) : State.boot (s.closeSpdm holder id) = s.boot := rfl
@[simp] theorem State.setTlb_boot (s : State) (l : List TlbEnt) : State.boot (s.setTlb l) = s.boot := rfl

/-! `acc` -/
@[simp] theorem State.setPort_acc (s : State) (p : Nat) (v : CvnPort) : State.acc (s.setPort p v) = s.acc := rfl
@[simp] theorem State.setCfg_acc (s : State) (c : Nat) (bs : List Byte) : State.acc (s.setCfg c bs) = s.acc := rfl
@[simp] theorem State.coh'_acc (s : State) (f : CohSt → CohSt) : State.acc (s.coh' f) = s.acc := rfl
@[simp] theorem State.setFw_acc (s : State) (c : Nat) (bs : List Byte) : State.acc (s.setFw c bs) = s.acc := rfl
@[simp] theorem State.job'_acc (s : State) (f : JobSt → JobSt) : State.acc (s.job' f) = s.acc := rfl
@[simp] theorem State.toReload_acc (s : State) (m : Msg) (l : List RegKey) : State.acc (s.toReload m l) = s.acc := rfl
@[simp] theorem State.dropWaiters_acc (s : State) (p : Req → Bool) : State.acc (s.dropWaiters p) = s.acc := rfl
@[simp] theorem State.clearOwner_acc (s : State) (c : Nat) : State.acc (s.clearOwner c) = s.acc := rfl
@[simp] theorem State.setBuilt_acc (s : State) (f : Option Frit) : State.acc (s.setBuilt f) = s.acc := rfl
@[simp] theorem State.spend_acc (s : State) (n kind bytes : Nat) : State.acc (s.spend n kind bytes) = s.acc := rfl
@[simp] theorem State.put_acc (s : State) (r : Reg) (v : Nat) (i j : Nat) : State.acc (s.put r v i j) = s.acc := rfl
@[simp] theorem State.unput_acc (s : State) (r : Reg) (i j : Nat) : State.acc (s.unput r i j) = s.acc := rfl
@[simp] theorem State.keepRegs_acc (s : State) (keep : RegKey → Bool) : State.acc (s.keepRegs keep) = s.acc := rfl
@[simp] theorem State.drawn_acc (s : State) : State.acc (s.drawn) = s.acc := rfl
@[simp] theorem State.emit_acc (s : State) (o : Out) : State.acc (s.emit o) = s.acc := rfl
@[simp] theorem State.setHead_acc (s : State) (h : Nat) (v : HeadSt) : State.acc (s.setHead h v) = s.acc := rfl
@[simp] theorem State.setRing_acc (s : State) (h r : Nat) (v : RingSt) : State.acc (s.setRing h r v) = s.acc := rfl
@[simp] theorem State.disable_acc (s : State) (src : Nat) : State.acc (s.disable src) = s.acc := rfl
@[simp] theorem State.setChan_acc (s : State) (c : Nat) (v : ChanSt) : State.acc (s.setChan c v) = s.acc := rfl
@[simp] theorem State.setRecs_acc (s : State) (t : Tab FltRec) : State.acc (s.setRecs t) = s.acc := rfl
@[simp] theorem State.putPage_acc (s : State) (lpn : Nat) (p : Page) : State.acc (s.putPage lpn p) = s.acc := rfl
@[simp] theorem State.treeDirty_acc (s : State) (lvl lpn : Nat) : State.acc (s.treeDirty lvl lpn) = s.acc := rfl
@[simp] theorem State.dropContent_acc (s : State) (lpn : Nat) : State.acc (s.dropContent lpn) = s.acc := rfl
@[simp] theorem State.under_acc (s : State) (cls src : Nat) (who : Option Attr := none) : State.acc (s.under cls src who) = s.acc := rfl
@[simp] theorem State.takeBytes_acc (s : State) (line : Nat) (bs : List Byte) : State.acc (s.takeBytes line bs) = s.acc := rfl
@[simp] theorem State.clearTree_acc (s : State) : State.acc (s.clearTree) = s.acc := rfl
@[simp] theorem State.closeSpdm_acc (s : State) (holder id : Nat) : State.acc (s.closeSpdm holder id) = s.acc := rfl
@[simp] theorem State.setTlb_acc (s : State) (l : List TlbEnt) : State.acc (s.setTlb l) = s.acc := rfl

/-! `get` -/
@[simp] theorem State.setPort_get (s : State) (p : Nat) (v : CvnPort) (r' : Reg) (i' j' : Nat) : State.get (s.setPort p v) r' i' j' = s.get r' i' j' := rfl
@[simp] theorem State.setCfg_get (s : State) (c : Nat) (bs : List Byte) (r' : Reg) (i' j' : Nat) : State.get (s.setCfg c bs) r' i' j' = s.get r' i' j' := rfl
@[simp] theorem State.coh'_get (s : State) (f : CohSt → CohSt) (r' : Reg) (i' j' : Nat) : State.get (s.coh' f) r' i' j' = s.get r' i' j' := rfl
@[simp] theorem State.setFw_get (s : State) (c : Nat) (bs : List Byte) (r' : Reg) (i' j' : Nat) : State.get (s.setFw c bs) r' i' j' = s.get r' i' j' := rfl
@[simp] theorem State.job'_get (s : State) (f : JobSt → JobSt) (r' : Reg) (i' j' : Nat) : State.get (s.job' f) r' i' j' = s.get r' i' j' := rfl
@[simp] theorem State.toReload_get (s : State) (m : Msg) (l : List RegKey) (r' : Reg) (i' j' : Nat) : State.get (s.toReload m l) r' i' j' = s.get r' i' j' := rfl
@[simp] theorem State.dropWaiters_get (s : State) (p : Req → Bool) (r' : Reg) (i' j' : Nat) : State.get (s.dropWaiters p) r' i' j' = s.get r' i' j' := rfl
@[simp] theorem State.clearOwner_get (s : State) (c : Nat) (r' : Reg) (i' j' : Nat) : State.get (s.clearOwner c) r' i' j' = s.get r' i' j' := rfl
@[simp] theorem State.setBuilt_get (s : State) (f : Option Frit) (r' : Reg) (i' j' : Nat) : State.get (s.setBuilt f) r' i' j' = s.get r' i' j' := rfl
@[simp] theorem State.spend_get (s : State) (n kind bytes : Nat) (r' : Reg) (i' j' : Nat) : State.get (s.spend n kind bytes) r' i' j' = s.get r' i' j' := rfl
@[simp] theorem State.drawn_get (s : State) (r' : Reg) (i' j' : Nat) : State.get (s.drawn) r' i' j' = s.get r' i' j' := rfl
@[simp] theorem State.emit_get (s : State) (o : Out) (r' : Reg) (i' j' : Nat) : State.get (s.emit o) r' i' j' = s.get r' i' j' := rfl
@[simp] theorem State.setHead_get (s : State) (h : Nat) (v : HeadSt) (r' : Reg) (i' j' : Nat) : State.get (s.setHead h v) r' i' j' = s.get r' i' j' := rfl
@[simp] theorem State.setRing_get (s : State) (h r : Nat) (v : RingSt) (r' : Reg) (i' j' : Nat) : State.get (s.setRing h r v) r' i' j' = s.get r' i' j' := rfl
@[simp] theorem State.disable_get (s : State) (src : Nat) (r' : Reg) (i' j' : Nat) : State.get (s.disable src) r' i' j' = s.get r' i' j' := rfl
@[simp] theorem State.setChan_get (s : State) (c : Nat) (v : ChanSt) (r' : Reg) (i' j' : Nat) : State.get (s.setChan c v) r' i' j' = s.get r' i' j' := rfl
@[simp] theorem State.setRecs_get (s : State) (t : Tab FltRec) (r' : Reg) (i' j' : Nat) : State.get (s.setRecs t) r' i' j' = s.get r' i' j' := rfl
@[simp] theorem State.putPage_get (s : State) (lpn : Nat) (p : Page) (r' : Reg) (i' j' : Nat) : State.get (s.putPage lpn p) r' i' j' = s.get r' i' j' := rfl
@[simp] theorem State.treeDirty_get (s : State) (lvl lpn : Nat) (r' : Reg) (i' j' : Nat) : State.get (s.treeDirty lvl lpn) r' i' j' = s.get r' i' j' := rfl
@[simp] theorem State.dropContent_get (s : State) (lpn : Nat) (r' : Reg) (i' j' : Nat) : State.get (s.dropContent lpn) r' i' j' = s.get r' i' j' := rfl
@[simp] theorem State.under_get (s : State) (cls src : Nat) (who : Option Attr := none) (r' : Reg) (i' j' : Nat) : State.get (s.under cls src who) r' i' j' = s.get r' i' j' := rfl
@[simp] theorem State.takeBytes_get (s : State) (line : Nat) (bs : List Byte) (r' : Reg) (i' j' : Nat) : State.get (s.takeBytes line bs) r' i' j' = s.get r' i' j' := rfl
@[simp] theorem State.clearTree_get (s : State) (r' : Reg) (i' j' : Nat) : State.get (s.clearTree) r' i' j' = s.get r' i' j' := rfl
@[simp] theorem State.closeSpdm_get (s : State) (holder id : Nat) (r' : Reg) (i' j' : Nat) : State.get (s.closeSpdm holder id) r' i' j' = s.get r' i' j' := rfl
@[simp] theorem State.setTlb_get (s : State) (l : List TlbEnt) (r' : Reg) (i' j' : Nat) : State.get (s.setTlb l) r' i' j' = s.get r' i' j' := rfl

end Sys2Proof.Machine
end

