-- ==== Sys2Proof/Tests/Slice0.lean ====
section
/-!
SUPPORT. Tests: well-formedness refuses what it should, the checks of the spec's examples, and for every statement a state and operands that meet its
hypotheses.
-/
set_option Elab.async false

namespace Sys2Proof.Tests
open Sys2Proof Sys2Proof.Machine

/-- A device that has booted with head 0 a Steward. -/
def awake : State := { State.reset with boot := { phase := 3 }, regs := [(⟨.HPT_DEV_STS_STATUS, 0, 0⟩, 0), (⟨.HPT_DEV_STS_STEWARD, 0, 0⟩, 1)] }

/-- A Steward's mailbox request. -/
def ask (op : Nat) (param : Nat := 0) : Req := { origin := .mailbox 0, opcode := op, param := param }

/-- An operation of a kind, issued first and still running, and a device where it stands in slot 3. -/
def opOf (k : OpKind) : OpSlot :=
  { seq := 1, running := true, status := 1, detail := 0, result := 0, progress := 0, origin := .mailbox 0, tag := 0, pass := 0, kind := k, endedAt := 0 }

def opAwake (k : OpKind) : State := { awake with pyx := { awake.pyx with slots := [(3, opOf k)], seq := 1 } }

/-- A device whose fault collector (target 19) lets host master 0 and engine 0 read and write its registers. -/
def openAwake : State := (awake.put .ACC_TBL_RC 0x3F 19 0).put .ACC_TBL_RC 0x3F 19 0x13

/-- A record with a running timer, and a device whose queue holds it in entry 40. -/
def rec1 : FltRec :=
  { msg := msg2 bMem 0 3, seq := 1, time := 0, count := 0, sev := 2, fallbk := true, tmr := true, ack := false, esc := false, active := false, direct := false }

def recAwake : State := { awake with flt := { awake.flt with recs := [(40, rec1)] } }

/-- A device whose key store (target 34) and flash (target 36) let engine 0 read and write. -/
def portAwake : State := (awake.put .ACC_TBL_RC (2 ^ 48 - 1) 34 0x13).put .ACC_TBL_RC (2 ^ 48 - 1) 36 0x13

/-- A firmware image of one byte, VERSION 2, and the key its signature was made for: a key chosen after the signature. -/
def fwKey0 : List Byte :=
  beBytes 48 0x9e2bbaa79be65eb177009da066e720eeb439d047168194a780c7612593f890975393a1533939e72b8e835f91b54377ef ++
  beBytes 48 0x787ef52f5f0ae6bd74df5aff9791e83439ba93ac2a56bf0eecf7a571d749471e1864a95bd3fd927ad8376c7cda55a24

def fwImage0 : List Byte :=
  natBytes 4 0x56584657 ++ natBytes 2 1 ++ natBytes 2 0x960 ++ natBytes 8 2 ++ natBytes 8 0 ++ natBytes 4 0 ++ natBytes 4 1 ++
  beBytes 48 0x8d2ce87d86f55fcfab770a047b090da23270fa206832dfea7e0c946fff451f819add242374be551b0d6318ed6c7d41d8 ++
  beBytes 48 0xe9c8599e7805f0e07dd3bb5b41fe95b607e1fdf6b001fa4fcb4e257fcd88213d61198807546c52c42d6a5c60408d8c2e ++
  beBytes 48 0xe9c8599e7805f0e07dd3bb5b41fe95b607e1fdf6b001fa4fcb4e257fcd88213d61198807546c52c42d6a5c60408d8c2e ++
  List.replicate 3920 0 ++ [1]

/-- A device that has staged that image beside a running copy A. -/
def stagedAwake : State :=
  { portAwake.put .GLB_FW_STS_ROLL 1 with boot := { phase := 3, fwKey := fwKey0, sels := [(0, selBytes 0 1)], fw := [(0, fwImage0), (1, fwImage0)] } }

/-- A device with secured session 5 on the mailbox of head 0 and its nonce 7, and the debug authority key that a token of level 1 was signed under. -/
def nonceAwake : State :=
  let s := awake.put .GLB_DEVID_ID 1
  { s with sec := { s.sec with sessions := [(0, 5)] }, acc := { s.acc with nonce := some (7, 5, 0), dbgKey := (beBytes 48 0x86e0384126ebd16c84e32fee058a4cbb5185f8b56ba71ec7b5f96c8aa001d7f9d1d67cd38f5be6e5a7dbbace615c8ecc ++
      beBytes 48 0x35aafe3375fd3cc1f358005407b468c4f58d5a84812e0e715ca29581118620e994d37488c9e7a9b9e76622b6645c8c3d) } }

def token0 : List Byte :=
  natBytes 2 0xDB60 ++ [1, 0] ++ natBytes 4 62 ++ natBytes 8 1 ++ natBytes 32 7 ++
  beBytes 48 0x9b12431f4040a892ec90f9d959c22ffb72b65116d4967b402f870fec0e74ecd092ce3a48a8f4cb61d7d91de07e5ff508 ++
  beBytes 48 0x9b12431f4040a892ec90f9d959c22ffb72b65116d4967b402f870fec0e74ecd092ce3a48a8f4cb61d7d91de07e5ff508

/-- A device whose head 0 has a Dynamic Capacity region 0 of 1 GiB. -/
def dcAwake : State := ((awake.put .HPT_BIND_CTL_EN 1 0 0).put .HPT_BIND_CTL_DC 1 0 0).put .HPT_BIND_SIZE_SIZE 512 0 0

/-- Whatever the block size of the region is, 1 GiB is whole blocks. -/
theorem block_divides : 2 ^ 30 % dcBlock 0 0 = 0 := by
  unfold dcBlock
  have all : ∀ k < 10, 2 ^ 30 % 2 ^ (21 + k) = 0 := by decide
  exact all _ (Nat.mod_lt _ (by decide))

theorem dc_request_good (op : Nat) (add : Bool) : dcAwake.dcBad (ask op (2 ^ 30 * 2 ^ 128)) add = none := by
  have e1 : par (ask op (2 ^ 30 * 2 ^ 128)) 0x10 1 = 0 := (by decide +kernel : par (ask 0 (2 ^ 30 * 2 ^ 128)) 0x10 1 = 0)
  have e2 : par (ask op (2 ^ 30 * 2 ^ 128)) 0x11 1 = 0 := (by decide +kernel : par (ask 0 (2 ^ 30 * 2 ^ 128)) 0x11 1 = 0)
  have e3 : par (ask op (2 ^ 30 * 2 ^ 128)) 0x18 8 = 0 := (by decide +kernel : par (ask 0 (2 ^ 30 * 2 ^ 128)) 0x18 8 = 0)
  have e4 : par (ask op (2 ^ 30 * 2 ^ 128)) 0x20 8 = 2 ^ 30 := (by decide +kernel : par (ask 0 (2 ^ 30 * 2 ^ 128)) 0x20 8 = 2 ^ 30)
  have e5 : dcAwake.dcExtent (ask op (2 ^ 30 * 2 ^ 128)) = some { region := 0, base := 0, len := 2 ^ 30 } :=
    (by decide +kernel : dcAwake.dcExtent (ask 0 (2 ^ 30 * 2 ^ 128)) = some { region := 0, base := 0, len := 2 ^ 30 })
  have e6 : (dcAwake.regionOf 0 0).isSome = true := by decide +kernel
  have e7 : (dcAwake.head 0).extents = [] := by decide +kernel
  unfold State.dcBad
  simp only [e1, e2, e3, e4, e5, e6, e7, block_divides]
  simp [firstBad]

/-- A device with page 5 in Furnace with a local twin. -/
def pageAwake : State := { awake with pg := { awake.pg with pages := [(5, { pl := { tier := 1, code := 1, twk := 1 }, want := 1 })] } }

/-- A Table page with a twin, at a media address. -/
def tablePage (ma : Nat) : Page := { pl := { tier := 5, code := 1, twk := 1, ma := ma }, want := 1 }

/-- A device whose head 0 maps DPA 0 on, in context 0, to the host range from LPN 0 on: tables in pages 7 and 8, a leaf with R and W of 2^18
pages; tree leaves of pages 5, 7 and 8 are cached. -/
def mapAwake : State :=
  let s := ((((awake.put .XLT_CTX_CFG_EN 1).put .XLT_CTX_CFG_ROOTV 1).put .XLT_CTX_CFG_ROOT 7).put .XLT_WIN_LIMIT_LPN (2 ^ 18)).put .SEC_KS_STS_STATE 1
  let s := (List.range 16).foldl (fun (s : State) c => s.put .MEM_CH_STS_STATE 2 c) s
  let s := ((s.put .HPT_BIND_CTL_EN 1).put .HPT_BIND_SIZE_SIZE 512).put .HPT_HEAD_STS_LINK_UP 1
  { s with pg := { s.pg with pages := [(7, tablePage 0), (8, tablePage 64)], chCap := (List.range 16).map (fun c => (c, 4096)),
                             mem := [(448, BitVec.ofNat 512 (3 + 8 * 2 ^ 20)), (512, 13)],
                             nodes := (List.range 3).map (fun k => (nodeKey (k + 1) 0, { a := 30000, b := 30016 })) }
           sec := { s.sec with tcache := [5, 7, 8].map (fun p => (treeIx 0 p, false)) } }

/-- The same with HDM decoder 0 of head 0 committed over the first GiB of host addresses. -/
def memAwake : State := mapAwake.setHead 0 { decoders := [(0, { size := 2 ^ 30, committed := true })] }

/-- The first line of the device window. -/
def line0 : LineNo := ⟨64 * devWindow, by decide⟩

/-- A device on which agent 14 has the snoop of a code before it, for line 70 that agent 15 asks for, and holds the line. -/
def snoopAwake (kind : Nat) (h : Option Held := none) : State :=
  (mapAwake.putTrk 70 { req := { agent := 15, line := 70, kind := .readS }, snoops := [(14, kind)] }).hold 14 70 h

/-- A device whose ring 0 of head 0 runs, with 8 entries, one fetched, one not released, and a fetch under tag 9. -/
def ringAwake : State :=
  let s := (awake.put .HPT_RING_STS_STATE 1).setHead 0 { tags := [(9, .entries 0)] }
  ((s.put .HPT_RING_CFG_SQLOG2 3).put .HPT_RING_CFG_CQLOG2 3).setRing 0 0 { fetched := [0], unreleased := 1 }

/-- The same request on ring 0 of head 0. -/
def onRing0 (q : Req) : Req := { q with origin := .ring 0 0 }

/-- A device with every codec unit enabled and ring 0 of head 0 of Steward privilege, with a command started. -/
def jobAwake : State :=
  ((awake.put .JOB_CTL_UNIT_EN 15).put .HPT_RING_CFG_PRIV 2).setRing 0 0 { started := [{ ix := 0, fence := false, wait := false }] }

/-- A session of ring 0 of head 0, and a device where it stands. -/
def session0 (broken : Bool) : Session := { seq := 1, ring := (0, 0), tc := 0, dir := 0, fmt := 0, csum := false, level := 1, wlog2 := 16, blk := 16, broken := broken }

def sessAwake (broken : Bool) : State := { jobAwake with job := { jobAwake.job with sessions := [(0, session0 broken)] } }

/-- A job by MCTP, and a device where unit 1 runs it. -/
def job5 : Job := { req := { ask 0x0601 with origin := .mctp 9 true 0 }, kind := 0 }

def unitAwake : State := { jobAwake with job := { jobAwake.job with jobs := [(5, job5)], units := [(1, (5, 0))] } }

/-- A device whose channel 3 has one DIMM of 16 GiB in its first slot, has been trained and waits for its media to be initialised. -/
def initAwake : State := ({ awake with mem := { awake.mem with dimms := [(6, { granules := 2 ^ 26 })] } } : State).populate 3 |>.put .MEM_CH_STS_STATE 1 3

/-- A host's access to HPA 0 of head 0. -/
def hostRd : HostMem := { h := 0, tag := 3, hpa := 0 }

/-- The page of `pageAwake` without a twin, in Furnace, with its channels in service and its key slot active, and the same with a dirty line. -/
def furnAwake : State := { mapAwake with pg := { mapAwake.pg with pages := [(5, { pl := { tier := 1, code := 1, ma := 16 } })] } }

def dirtyAwake : State := furnAwake.lcPut 323 { data := 77, dirty := true }

/-- A read of line 320 that has failed its tag once. -/
def suspAwake : State := (pageAwake.putTrk 320 { req := { agent := 14, line := 320, kind := .readS }, media := true }).coh' (fun c => { c with suspects := [(320, 0)] })

/-- A promotion of page 5 that was queued under an older VER, and a device where it is queued. -/
def staleReq : MoveReq := { lpn := 5, ver := 9, cls := 7, target := 1 }

def staleAwake : State := furnAwake.enqueue 0 staleReq

/-- A move of page 5 to new granules at a step, and a device where it is under way. -/
def move5 (step : Nat) : MoveSt :=
  { req := { lpn := 5, ver := 0, cls := 5, target := 1 }, step := step, tier := 1, copy := true, twinOnly := false, ks := 0, code := 1, ma := 64, room := 16, tma := 0,
    troom := 0, tkind := 0 }

def moveAwake (step : Nat) : State := { furnAwake with pg := { furnAwake.pg with moves := [(5, move5 step)] } }

/-- A move of page 5 whose line 330 agent 14 still holds. -/
def heldMove : State := ((moveAwake 2).hold 14 330 (some { st := 3, data := 5 })).setSf 330 3 [14] none

/-- A device whose channel 3 is scrubbed. -/
def scrubAwake : State := { mapAwake.put .ECC_SCRUB_CFG_EN 0xFFFF with ecc := { mapAwake.ecc with scrubFrom := [(3, 0)] } }

/-- A pinned page whose move to another tier is queued. -/
def pinReq : MoveReq := { lpn := 5, ver := 0, cls := 4, target := 2 }

def pinAwake : State :=
  ({ furnAwake with pg := { furnAwake.pg with pages := [(5, { pl := { tier := 1, code := 1, ma := 16, pin := true } })] } } : State).recap.enqueue 2 pinReq

/-- A device whose account 0 has room for 100 pages with twins, under the active key slots 0 and 1. -/
def roomAwake : State := ((mapAwake.put .SEC_KS_STS_STATE 1 1).put .XLT_ACCT_VALUE 100 0 0).put .XLT_ACCT_TWL 1 0

/-- The same with one block of 16 granules on every channel: which free block an allocation takes is then no choice. -/
def oneAwake : State :=
  { roomAwake with pg := { roomAwake.pg with chCap := [(0, 16), (1, 16), (2, 16), (3, 16), (4, 16), (5, 16), (6, 16), (7, 16), (8, 16), (9, 16), (10, 16), (11, 16), (12, 16), (13, 16), (14, 16), (15, 16)] } }

/-- Key slot sweep 0 under way at page 5 of `furnAwake`. -/
def sweepAwake : State :=
  { (((roomAwake.put .SEC_SWEEP_CTL_STATE 1 0).put .SEC_SWEEP_CTL_OLD 0 0).put .SEC_SWEEP_LIMIT_LPN 9 0).put .SEC_SWEEP_WAY_LPN 5 0 with pg := furnAwake.pg }

/-- A device whose slot 6 (channel 3) is powered; and one where it is seated and off. -/
def slotAwake : State :=
  let s := (((mapAwake.put .SLT_SG_STS_STATE 4 6).put .SLT_SG_STS_GATE 1 6).put .SLT_SG_STS_PG 1 6).put .SLT_SG_STS_PRSNT 1 6
  { s with slt := { s.slt with rampDone := [6] } }

/-- The same, with a transistor 300 K above the ambient. -/
def hotSlot : State := { slotAwake with slt := { slotAwake.slt with d1 := [(6, 30000000000000000)] } }

def slotSafe : State := ((mapAwake.put .SLT_SG_STS_STATE 1 6).put .SLT_SG_STS_PRSNT 1 6).put .MEM_CH_STS_STATE 6 3

/-- What a guard measures: 12 V, and a current in mA. -/
def meas (i : Fin 65536) (vout : Fin 65536 := 12000) (steps : Nat := 0) (vin : Fin 65536 := 12000) : SgMeas := ⟨vin, vout, i, steps⟩

/-- A device whose Caravan port 0 is UP, with what the port holds. -/
def cvnUp (c : CvnPort := {}) : State := (awake.put .CVN_LINK_STS_STATE 5 0).setPort 0 c

/-- The 256 bytes of a bale whose CRC and FEC bytes are written out (R383). -/
def bale (front tail : List Byte) : List Byte := front ++ List.replicate (240 - front.length) 0 ++ tail
/-- A DATA bale of a void message, VC 3. -/
def dataBale : List Byte := bale [61, 20, 0, 0, 0, 0, 0, 0, 0, 0, 0, 0, 7, 0, 0, 0, 4, 0, 0, 0, 0, 0, 0, 0, 0, 0, 0, 0, 1, 2, 3, 4] [190, 217, 88, 124, 188, 105, 52, 21, 204, 221, 142, 110, 230, 142, 246, 246]
def replayBale : List Byte := bale [2] [143, 200, 198, 253, 188, 107, 246, 88, 160, 222, 19, 12, 70, 76, 244, 152]
def idleBale : List Byte := bale [] [48, 185, 125, 100, 226, 134, 122, 199, 59, 86, 104, 112, 50, 43, 180, 145]
/-- A LINKCTL bale of operation 3, argument 5. -/
def linkBale : List Byte := bale [3, 0, 0, 0, 0, 0, 0, 192, 64, 1] [154, 161, 98, 218, 39, 250, 187, 66, 128, 52, 109, 5, 185, 135, 115, 180]
/-- A LINKCTL bale of operation 2 with the sender's identifier 77. -/
def identBale : List Byte := bale [3, 0, 0, 0, 0, 0, 0, 128, 0, 0, 0, 0, 77] [14, 28, 108, 78, 6, 137, 56, 165, 12, 162, 110, 136, 3, 170, 115, 126]

/-- A request that port 0 has sent under number 9. -/
def cvnWait (op use : Nat) (nums : List Nat := []) (arg : Nat := 0) : CvnWait := { tid := 9, use := use, arg := arg, msg := { op := op, tid := 9 }, nums := nums, sent := true }

/-- A state whose port 0 has received a message. -/
def withMsg (s : State) (m : CvnMsg) : State := s.setPort 0 { s.port 0 with inbox := [(vcOf m.op, { bytes := m.bytes, own := 1 })] }

/-- A lender with block 2 on granules 64 to 79, in media that can be read and written. -/
def lender : State := (mapAwake.put .CVN_LINK_STS_STATE 5 0).setPort 0 { loanL := some (7, 8), lent := [{ block := 2, ma := 64 }] }

/-- Two healthy diodes, or none; and what a calibration leaves. -/
def hotAwake : State := (List.range 22).foldl (fun (s : State) d => s.put .THM_DIODE_HEALTHY 0 (d + 2)) awake

def coldAwake : State := (List.range 24).foldl (fun (s : State) d => s.put .THM_DIODE_HEALTHY 0 d) awake

def calib (s : State) (t : List Int) : State := match exec (.diodeCalibration t) s with | .next u => u | _ => s

/-! ### A seg.alloc that finds room -/

/-- With one block on a channel every start of the search finds the same. -/
theorem freshBlock_one (s : State) (c n : Nat) (h : tgetD 0 c s.pg.chCap / 16 = 1) : ∀ d, s.freshBlock c d n = s.freshBlock c 0 n := by
  induction n with
  | zero => intro d; rfl
  | succ n ih =>
    intro d
    simp only [State.freshBlock, h, Nat.mod_one]
    rw [ih (d + 1), ih (0 + 1)]

theorem findRun_one (s : State) (c n d : Nat) (h : tgetD 0 c s.pg.chCap / 16 = 1)
    (hc : (s.usedBlocks c).filter (fun b => decide (n ≤ longestRun (s.busyMap b))) = []) : s.findRun c n d = s.findRun c n 0 := by
  simp only [State.findRun, hc, freshBlock_one s c _ h d]
  simp

theorem placePrimary_one (s : State) (lpn n d : Nat) (ma : Nat) (hp : s.canPlace (s.home lpn) = true) (h : tgetD 0 (s.home lpn) s.pg.chCap / 16 = 1)
    (hc : (s.usedBlocks (s.home lpn)).filter (fun b => decide (n ≤ longestRun (s.busyMap b))) = []) (hr : s.findRun (s.home lpn) n 0 = some ma) :
    s.placePrimary lpn n d [] = some ma := by
  simp [State.placePrimary, hp, findRun_one s _ n d h hc, hr]

theorem placeTwin_one (s : State) (prim c n d : Nat) (ma : Nat) (he : c = (s.chanOf prim + 8) % 16)
    (hp : (s.canPlace c && !((List.range 16).map (fun k => s.chanOf (prim + k))).contains c && !([] : List Nat).contains c) = true) (h : tgetD 0 c s.pg.chCap / 16 = 1)
    (hc : (s.usedBlocks c).filter (fun b => decide (n ≤ longestRun (s.busyMap b))) = []) (hr : s.findRun c n 0 = some ma) :
    s.placeTwin prim n d [] = some ma := by
  subst he
  simp only [State.placeTwin, hp, findRun_one s _ n d h hc, hr]
  simp


theorem tagRoom_one (s : State) (prim d tg : Nat) (h : ∀ c < 16, tgetD 0 c s.pg.chCap / 16 = 1) (hp : s.chanOf prim < 16) (hr : s.tagRoom prim 0 [] = some tg) :
    s.tagRoom prim d [] = some tg := by
  have key : ∀ c < 16, s.tagRoomOn c d = s.tagRoomOn c 0 := by
    intro c hc; simp only [State.tagRoomOn, freshBlock_one s c _ (h c hc) d]
  have hf : ∀ l : List Nat, (∀ c ∈ l, c < 16) → l.findSome? (fun c => if s.canPlace c && !([] : List Nat).contains c then s.tagRoomOn c d else none) =
      l.findSome? (fun c => if s.canPlace c && !([] : List Nat).contains c then s.tagRoomOn c 0 else none) := by
    intro l
    induction l with
    | nil => intro _; rfl
    | cons c l ih => intro hl; simp only [List.findSome?_cons, key c (hl c (by simp)), ih (fun x hx => hl x (by simp [hx]))]
  rw [← hr]
  simp only [State.tagRoom, key _ hp, hf (List.range 16) (fun c hc => List.mem_range.mp hc)]

/-- The one way `seg.alloc` of page 20 goes there, whatever the free value of the choice is. -/
def segReq : Req := { ask 0x0306 (20 + 2 ^ 64) with ctxv := true }
def segS : State := oneAwake.asked { op := 0x0306, priv := 1, ctx := 1, fields := rangeFields } segReq
def segPl : Place := { tier := 5, code := 1, ks := segS.slotFor 20, ver := (segS.page 20).pl.ver, obj := (segS.page 20).pl.obj }
def segMa : Nat := (segS.drawn.placePrimary 20 16 0 []).getD 0
def segS1 : State := (segS.drawn.ownRun segMa 20 1 1 16).writeLines (4 * segMa) 64
def segTw : Nat := (segS1.placeTwin segMa 16 0 []).getD 0
def segS2 : State := (((segS1.ownRun segTw 20 2 0 16).writeLines (4 * segTw) 64).setPage 20
  { pl := { segPl with twk := 1, ma := segMa }, tw := TwinEnt.mk segTw 0 true, want := (segS.drawn.page 20).want, segs := [], fritVer := 0, laid := segPl.ver })
def segTg : Nat := (segS2.tagRoom segMa 0 []).getD 0
set_option maxRecDepth 20000 in
theorem seg_gives (d : Nat) : segS.drawn.giveImage 20 segPl [] 0 1 (segS.drawn.page 20).want d [] =
    some ((segS2.ownRun segTg 20 3 1 2).putPage 20 { segS2.page 20 with tag := some segTg }) := by
  have h1 : segS.drawn.placePrimary 20 16 d [] = some segMa :=
    placePrimary_one _ _ _ _ _ (by decide +kernel) (by decide +kernel) (by decide +kernel) (by decide +kernel)
  have h2 : segS1.placeTwin segMa 16 d [] = some segTw :=
    placeTwin_one _ _ ((segS1.chanOf segMa + 8) % 16) _ _ _ rfl (by decide +kernel) (by decide +kernel) (by decide +kernel) (by decide +kernel)
  have h3 : segS2.tagRoom segMa d [] = some segTg :=
    tagRoom_one _ _ _ _ (by decide +kernel) (by decide +kernel) (by decide +kernel)
  have hm : (segS2.page 20).pl.ma = segMa := by decide +kernel
  have hn : needsTags (segS2.page 20).pl = true := by decide +kernel
  have g : segS2.giveTags 20 d [] = some ((segS2.ownRun segTg 20 3 1 2).putPage 20 { segS2.page 20 with tag := some segTg }) := by
    simp only [State.giveTags, hn, hm, h3]; rfl
  have hl : imageLen segPl = 16 := by decide +kernel
  have hw : isRaw segPl = true := by decide +kernel
  unfold State.giveImage
  rw [hl, h1]
  dsimp only
  rw [show (segS.drawn.ownRun segMa 20 1 segPl.code 16).writeLines (4 * segMa) (4 * 16) = segS1 from rfl, h2, hw]
  dsimp only
  rw [if_neg (by simp)]
  show Option.map _ (segS2.giveTags 20 d []) = _
  rw [g]; rfl

set_option maxRecDepth 20000 in
theorem seg_table : ∃ u, segS.tablePage 20 = some u ∧ (u.page 20).pl.twk = 1 := by
  have hn : segS.needNode 20 = (segS, true) := by simp only [State.needNode]; rw [if_pos (by decide +kernel)]
  unfold State.tablePage
  dsimp only
  rw [if_neg (by decide +kernel), hn]
  dsimp only
  rw [if_neg (by decide)]
  have g : segS.drawn.giveImage 20 segPl [] 0 1 (segS.page 20).want segS.draw [] = _ := seg_gives segS.draw
  unfold segPl at g
  rw [g]
  dsimp only
  rw [if_pos (by decide +kernel)]
  exact ⟨_, rfl, by decide +kernel⟩
theorem seg_tables : ∃ u, segS.tablePages [20] = some u := by
  obtain ⟨u, h, _⟩ := seg_table
  exact ⟨u, by simp only [State.tablePages, h, Option.bind_some]⟩

/-! ### Well-formedness refuses (R82, R335, R409, R439) -/

theorem test_wf_ask : (Instr.sysNop (ask 0x0101)).wf = true := by decide +kernel
theorem test_ill_opcode : (Instr.sysNop { ask 0x0101 with opcode := 0x10000 }).wf = false := by decide +kernel
theorem test_ill_flags : (Instr.sysNop { ask 0x0101 with rsvFlags := 16 }).wf = false := by decide +kernel
theorem test_ill_hver : (Instr.sysNop { ask 0x0101 with hver := 256 }).wf = false := by decide +kernel
theorem test_ill_tag : (Instr.sysNop { ask 0x0101 with tag := 2 ^ 32 }).wf = false := by decide +kernel
theorem test_ill_plen : (Instr.sysNop { ask 0x0101 with plen := 2 ^ 32 }).wf = false := by decide +kernel
theorem test_ill_reserved_tc : (Instr.sysNop { ask 0x0101 with rsvTc := 2 ^ 23 }).wf = false := by decide +kernel
theorem test_ill_params : (Instr.sysNop (ask 0x0101 (2 ^ 192 * 2 ^ 192))).wf = false := by decide +kernel
theorem test_ill_host_tag : (Instr.memclnevct { hostRd with tag := 65536 }).wf = false := by decide +kernel
theorem test_ill_message_class : (Instr.faultMessage { msg2 bMem 0 3 with fclass := 0 } 0 false).wf = false := by decide +kernel
theorem test_ill_message_source : (Instr.faultMessage { msg2 bMem 0 3 with sub := 16 } 0 false).wf = false := by decide +kernel
theorem test_ill_bale : (Instr.baleDataRx 0 [1] none).wf = false := by decide +kernel
theorem test_ill_dimm : (Instr.bringupStepDone 3 (some { granules := 1, ranks := 3 }) none).wf = false := by decide +kernel
theorem test_ill_frit_length : (Instr.fritBuildDone [256] [] [] 0 0 false).wf = false := by decide +kernel
theorem test_ill_cxl_opcode : (Instr.cxlMandatoryCommand 0 65536 0).wf = false := by decide +kernel
theorem test_ill_vector : (Instr.msixVectorUnmask 0 0 (2 ^ 64) 0).wf = false := by decide +kernel

/-! ### The worked examples of the spec -/

/-- 00_scope.md: MEM, instance 5, sub-unit 1; 15_faults.md: MEM, instance 9, sub-unit 0. -/
theorem test_source_id : srcId (msg2 bMem 5 1) = 0x1051 ∧ srcId (msg2 bMem 9 0) = 0x1090 := by decide

/-- 01_architecture.md and 04_translation.md: the homes of LPN 0x3A5C_91E7 and of the Table page 0x3AFF_F1A0. -/
theorem test_home : awake.home 0x3A5C91E7 = 1 ∧ awake.home 0x3AFFF1A0 = 13 := by decide

/-- 11_dram_controller.md: granule 0x3_8C05_72A5 under the 4 KiB grain. -/
theorem test_interleave : awake.chanOf 0x38C0572A5 = 13 ∧ awake.localOf 0x38C0572A5 = 0x38C05725 := by decide

/-- 06_access_paths.md: the predictor entry of LPN 0x3A5C_91E7. -/
theorem test_predictor : predIx 0x3A5C91E7 = 0x3895 ∧ predTag 0x3A5C91E7 = 0x1D2 := by decide

/-- 07_inline_compression.md: the frame of sector 1 of LPN 0x0B27_4C19. -/
theorem test_frame : frameWord 1 3 18 0x0B274C19 = 0x0B274C1900012031 := by decide

/-- 07_inline_compression.md: where R203 places the eight records of that page, and HINT. -/
theorem test_layout :
    layout [176, 48, 0, 400, 208, 48, 0, 32] = ([some 32, some 208, none, some 256, some 768, some 976, none, some 1024], 5) ∧
      hintOf (layout [176, 48, 0, 400, 208, 48, 0, 32]).1 = 0x4F331F0 := by decide

/-- 07_inline_compression.md: the I32D body of w[i] = 1,000 + 3 i decodes to those integers. -/
theorem test_i32d : decodeBody none [6, 0x01, 0xD0, 0x06, 0xBF, 0, 0, 0xFA, 0x01, 0x07, 0x00, 0xFF, 0xFF, 0xFF, 0xFF, 0xFF, 0xF7, 0xC0] =
    some ((List.range 128).flatMap (fun i => natBytes 4 (1000 + 3 * i))) := by decide +kernel

/-- 08_tiering.md: a hot pass after an epoch that held a write takes HEAT from 3 to 5. -/
theorem test_hot_step : (({ awake with pg := { awake.pg with pages := [(5, { pl := { tier := 2, heat := 3, a := true, d := true } })] } } : State).hotStep 5).page 5 =
    { pl := { tier := 2, heat := 5 } } := by decide +kernel

/-- 19_access_control.md: the word of master 0x03 in the table of S1 stands at 0x110_0418. -/
theorem test_table_word : (regAt4 0x1100418).map (fun x => (x.1.fields.map (fun f => f.reg), x.2)) = some ([.ACC_TBL_RC], 1, 3) := by decide +kernel

/-- States and operands that meet the hypotheses of `Obligations.SysCommandsComplete`, clause by clause. -/
theorem witness_SysCommandsComplete :
  (∃ (q : Req) (s s₁ : State),
    Served { op := 0x0100, priv := 0, mctp := true, output := true } q none s s₁) ∧
  (∃ (q : Req) (s s₁ : State),
    Served { op := 0x0101, priv := 0, mctp := true } q none s s₁) ∧
  (∃ (q : Req) (s s₁ : State) (slot : Nat) (o : OpSlot),
    Served { op := 0x0104, priv := 0, mctp := true, fields := [fld 0x10 8] } q (s.handleBad q) s s₁ (s.outOfScope q) ∧ (s₁.lookOp (par q 0x10 8) = .found slot o)) ∧
  (∃ (q : Req) (s s₁ : State) (slot : Nat) (o : OpSlot),
    Served { op := 0x0105, priv := 1, mctp := true, fields := [fld 0x10 8] } q (s.handleBad q) s s₁ (s.outOfScope q) ∧ (s₁.lookOp (par q 0x10 8) = .found slot o)) ∧
  ((∃ (o : OpSlot), o.running = true ∧ o.ready = none ∧ (o.kind = .tierTwin ∨ ∃ k f, o.kind = .zeroise k f))) ∧
  ((∃ (k : Nat) (o : OpSlot), o.running = true ∧ o.ready = none ∧ o.kind = .rotate k)) ∧
  ((∃ (o : OpSlot), (o.running = false ∨ o.ready.isSome = true))) ∧
  (∃ (q : Req) (s s₁ : State),
    Served { op := 0x0106, priv := 2, mctp := true, fields := [fld 0x10 8] } q none s s₁) ∧
  (∃ (q : Req) (s s₁ : State),
    Served { op := 0x0107, priv := 2, mctp := true, fields := [fld 0x10 2] } q (firstBad [(0x11, decide (par q 0x11 1 ≤ 2))]) s s₁) :=
  ⟨⟨ask 0x0100, awake, _, ⟨by decide +kernel, rfl, by decide +kernel⟩⟩,
   ⟨ask 0x0101, awake, _, ⟨by decide +kernel, rfl, by decide +kernel⟩⟩,
   ⟨ask 0x0104 (64 + 3), opAwake .tierPin, _, 3, opOf .tierPin, ⟨by decide +kernel, rfl, by decide +kernel⟩, rfl⟩,
   ⟨ask 0x0105 (64 + 3), opAwake .tierPin, _, 3, opOf .tierPin, ⟨by decide +kernel, rfl, by decide +kernel⟩, rfl⟩,
   ⟨opOf .tierTwin, rfl, rfl, Or.inl rfl⟩,
   ⟨1, opOf (.rotate 1), rfl, rfl, rfl⟩,
   ⟨{ opOf .tierPin with running := false }, Or.inl rfl⟩,
   ⟨ask 0x0106 1000, awake, _, ⟨by decide +kernel, rfl, by decide +kernel⟩⟩,
   ⟨ask 0x0107 0x0109, awake, _, ⟨by decide +kernel, rfl, by decide +kernel⟩⟩⟩

/-- States and operands that meet the hypotheses of `Obligations.RegisterAccessCommands`, clause by clause. -/
theorem witness_RegisterAccessCommands :
  (∃ (q : Req) (s s₁ : State),
    Served { op := 0x0102, priv := 2, mctp := true, fields := [fld 0x10 8, fld 0x18 8] } q (regBad q 0x18) s s₁ ∧ (goodAccess (.bar4 (mEng q.engine.val)) (par q 0x10 8) (par q 0x18 8) = true) ∧ (s₁.decideAccess (regTarget (par q 0x10 8)) (mEng q.engine.val) (s₁.rangeClass (regTarget (par q 0x10 8)) (par q 0x10 8 % 0x100000)) opR false = true)) ∧
  (∃ (q : Req) (s s₁ : State),
    Served { op := 0x0103, priv := 2, mctp := true, fields := [fld 0x10 8, fld 0x18 8, fld 0x20 8] } q (regBad q 0x20) s s₁ ∧ (goodAccess (.bar4 (mEng q.engine.val)) (par q 0x10 8) (par q 0x20 8) = true) ∧ (s₁.decideAccess (regTarget (par q 0x10 8)) (mEng q.engine.val) (s₁.rangeClass (regTarget (par q 0x10 8)) (par q 0x10 8 % 0x100000)) opW false = true)) ∧
  ((∃ (s : State) (m : Master) (off : Fin (2 ^ 26)) (wide : Bool), s.regsUp = true ∧ s.claims m.val = true ∧ goodAccess (.bar4 m.val) off.val (if wide then 8 else 4) = true ∧ s.decideAccess (regTarget off.val) m.val (s.rangeClass (regTarget off.val) (off.val % 0x100000)) opW false = true)) ∧
  ((∃ (s : State) (m : Master) (off : Fin (2 ^ 26)) (wide : Bool), s.regsUp = true ∧ m.val < 8 ∧ goodAccess (.bar2 m.val) off.val (if wide then 8 else 4) = true)) ∧
  ((∃ (s : State) (m : Master), s.regsUp = true ∧ m.val < 8)) ∧
  ((∃ (s : State) (m : Master), m.val < 8 ∧ s.isSet .HPT_DEV_STS_STEWARD m.val = false)) ∧
  ((∃ (s : State) (m : Master) (off : Fin (2 ^ 26)), s.regsUp = true ∧ s.claims m.val = true ∧ goodAccess (.bar4 m.val) off.val 8 = true ∧ s.decideAccess (regTarget off.val) m.val (s.rangeClass (regTarget off.val) (off.val % 0x100000)) opW false = true)) ∧
  ((∃ (s : State) (m : Master) (off : Fin (2 ^ 26)) (size : Fin 129), s.regsUp = true ∧ m.val < 8 ∧ goodAccess (.bar2 m.val) off.val size.val = false)) ∧
  ((∃ (s : State) (m : Master) (off : Fin (2 ^ 26)) (size : Fin 129), s.regsUp = true ∧ s.claims m.val = true ∧ goodAccess (.bar4 m.val) off.val size.val = false)) ∧
  ((∃ (s : State) (m : Master) (off : Fin (2 ^ 26)) (l : Reg), s.regsUp = true ∧ s.claims m.val = true ∧ lockOf off.val = some l ∧ off.val / 0x100000 ≠ 0x0C ∧ s.decideAccess (regTarget (off.val / 0x100000 * 0x100000 + 0xF0000)) m.val
        (s.rangeClass (regTarget (off.val / 0x100000 * 0x100000 + 0xF0000)) ((off.val / 0x100000 * 0x100000 + 0xF0000) % 0x100000)) opW false = true)) :=
  ⟨⟨ask 0x0102 (0x300000 + 8 * 2 ^ 64), openAwake, _, ⟨by decide +kernel, rfl, by decide +kernel⟩, by decide +kernel⟩,
   ⟨ask 0x0103 (0x300000 + 8 * 2 ^ 128), openAwake, _, ⟨by decide +kernel, rfl, by decide +kernel⟩, by decide +kernel⟩,
   ⟨openAwake, 0, 0x300000, true, by decide +kernel⟩,
   ⟨awake, 0, 0, true, by decide +kernel⟩,
   ⟨awake, 0, by decide +kernel⟩,
   ⟨awake, 1, by decide +kernel⟩,
   ⟨openAwake, 0, 0x300000, by decide +kernel⟩,
   ⟨awake, 0, 1, 8, by decide +kernel⟩,
   ⟨awake, 0, 1, 8, by decide +kernel⟩,
   ⟨openAwake, 0, 0x300000, .FLT_LOCK_LOCK, by decide +kernel, by decide +kernel, rfl, by decide +kernel⟩⟩

/-- States and operands that meet the hypotheses of `Obligations.AccessPathEvents`, clause by clause. -/
theorem witness_AccessPathEvents :
  ((∃ (s : State) (u : State) (line : LineNo), s.coh.spec.filter (fun x => x.line == line.val) ≠ [] ∧ u = (s.coh.spec.filter (fun x => x.line == line.val)).foldl (fun (s : State) x => s.fetchLine (s.specLa line.val x.pl)) s)) ∧
  ((∃ (s : State) (u : State) (line : LineNo) (t : Trk), s.trkOf line.val = some t ∧ t.walk = true ∧ t.req.quiet = false ∧ u = [1, 2, 3].foldl (fun (s : State) l => s.nodeRead t.req.lpn l false false) s ∧ u.coh.spec = [])) ∧
  ((∃ (s : State) (u : State) (line : LineNo) (t : Trk), s.trkOf line.val = some t ∧ t.walk = true ∧ t.req.quiet = true ∧ u = [1, 2, 3].foldl (fun (s : State) l => s.nodeRead t.req.lpn l false false) s ∧ u.coh.spec = [])) ∧
  ((∃ (s : State) (line : LineNo) (t : Trk) (f : Fetch) (vs : List LineNo) (x : State × RdOut), s.trkOf line.val = some t ∧ t.media = true ∧ s.coh.suspects = [] ∧ hasImage (s.tier (line.val / 64)) = true ∧ s.tier (line.val / 64) ≠ 4 ∧ s.chState (s.chanOf (s.page (line.val / 64)).pl.ma) ≠ 3 ∧ s.chState (s.chanOf (s.page (line.val / 64)).pl.ma) ≠ 5 ∧ x = ((s.evictClean vs).underFor (reqAttr t.req (s.tier (line.val / 64))) 0).readCopy line.val f t.req.master false ∧ x.2 = .data)) ∧
  ((∃ (s : State) (line : LineNo) (t : Trk) (f : Fetch) (vs : List LineNo) (x : State × RdOut), s.trkOf line.val = some t ∧ t.media = true ∧ s.coh.suspects = [] ∧ hasImage (s.tier (line.val / 64)) = true ∧ s.tier (line.val / 64) ≠ 4 ∧ s.chState (s.chanOf (s.page (line.val / 64)).pl.ma) ≠ 3 ∧ s.chState (s.chanOf (s.page (line.val / 64)).pl.ma) ≠ 5 ∧ x = ((s.evictClean vs).underFor (reqAttr t.req (s.tier (line.val / 64))) 0).readCopy line.val f t.req.master false ∧ x.2 ≠ .data)) ∧
  ((∃ (s : State) (line : LineNo) (t : Trk) (f : Fetch) (vs : List LineNo) (p : Page) (u : State) (x : State × RdOut), s.trkOf line.val = some t ∧ t.media = true ∧ s.coh.suspects = [] ∧ p = s.page (line.val / 64) ∧ hasImage p.pl.tier = true ∧ p.pl.tier ≠ 4 ∧ s.chState (s.chanOf p.pl.ma) = 3 ∧ s.twinReadable p = true ∧ u = (s.evictClean vs).underFor (reqAttr t.req p.pl.tier) 0 ∧ x = (u.withdraw (u.laOf p p.pl.ma line.val (isRaw p.pl))).fromTwin line.val f t.req.master 0 .serve ∧ x.2 = .data)) ∧
  ((∃ (s : State) (u : State) (line : LineNo) (t : Trk) (f : Fetch) (cp : Nat) (x : State × RdOut), s.trkOf line.val = some t ∧ s.coh.suspects.find? (fun x => x.1 == line.val) = some (line.val, cp) ∧ t.lender = none ∧ u = s.coh' (fun c => { c with suspects := c.suspects.filter (fun x => x.1 != line.val) }) ∧ x = (u.underFor (reqAttr t.req (u.tier (line.val / 64))) 0).reread line.val f t.req.master cp)) ∧
  ((∃ (s : State) (u : State) (lpn : Lpn) (k : Fin 8) (body : List Byte) (hint : Nat) (f : Fetch) (f2 : Fetch) (l : Nat) (r : List Nat) (c : LcLine) (x : State × Option (List (Nat × Nat))) (lost : List (Nat × Nat)), s.halt = none ∧ s.dirtyLines lpn.val k.val = l :: r ∧ s.lcOf l = some c ∧ x = (s.underFor (s.ownAttr none lpn.val c.cls) 4).wbReads lpn.val k.val f f2 ∧ x.2 = some lost ∧ u = x.1.sectorWriteback lpn.val k.val { body := body, hint := hint, lost := lost })) ∧
  ((∃ (s : State) (lpn : Lpn) (k : Fin 8), s.halt = none ∧ s.coh.twins = [] ∧ s.dirtyLines lpn.val k.val = [])) ∧
  ((∃ (s : State) (lpn : Lpn), s.halt = none ∧ s.coh.twins = [] ∧ s.wbWaits (s.page lpn.val) = true)) ∧
  ((∃ (s : State) (lpn : Lpn) (k : Fin 8) (w : WbIn) (u : State), s.halt = none ∧ s.coh.twins = [] ∧ s.dirtyLines lpn.val k.val ≠ [] ∧ u = s.writeBack lpn.val k.val w ∧ (u.page lpn.val).pl.twk ≠ 2 ∧ u.coh.twins = [])) ∧
  ((∃ (s : State) (lpn : Lpn) (k : Fin 8) (t : TwinWr) (tid : Nat), s.coh.twins = [t] ∧ t.sector = 8 * lpn.val + k.val ∧ t.sent = some tid)) ∧
  ((∃ (s : State) (k : Nat) (tid : Nat) (t : TwinWr), s.coh.twins = [t] ∧ t.sector = k ∧ t.sent = some tid ∧ t.next = [])) ∧
  ((∃ (s : State) (u : State), s.coh.dir = [] ∧ u = s.coh' (fun c => { c with swept := (List.range 8).foldl (fun t h => tputD 0 h (s.epochOf h) t) c.swept }))) ∧
  ((∃ (s : State) (u : State) (l : Nat) (r : List Nat), s.coh.dir.map (·.1) = l :: r ∧ u = (l :: r).foldl (fun (s : State) x => s.dirFix x) s)) :=
  ⟨⟨pageAwake.coh' (fun c => { c with spec := [{ line := 320, pl := {}, at' := 0 }] }), _, 320, by decide +kernel, rfl⟩,
   ⟨pageAwake.putTrk 320 { req := { agent := 14, line := 320, kind := .readS }, walk := true }, _, 320, { req := { agent := 14, line := 320, kind := .readS }, walk := true }, by decide +kernel, rfl, rfl, rfl, by decide +kernel⟩,
   ⟨pageAwake.putTrk 320 { req := { agent := 14, line := 320, kind := .readS, quiet := true }, walk := true }, _, 320, { req := { agent := 14, line := 320, kind := .readS, quiet := true }, walk := true }, by decide +kernel, rfl, rfl, rfl, by decide +kernel⟩,
   ⟨mapAwake.putTrk 512 { req := { agent := 14, line := 512, kind := .readS }, media := true }, 512, { req := { agent := 14, line := 512, kind := .readS }, media := true }, {}, [], _, by decide +kernel, by decide +kernel, (by decide +kernel), by decide +kernel, by decide +kernel, (by decide +kernel), by decide +kernel, rfl, by decide +kernel⟩,
   ⟨pageAwake.putTrk 320 { req := { agent := 14, line := 320, kind := .readS }, media := true }, 320, { req := { agent := 14, line := 320, kind := .readS }, media := true }, {}, [], _, by decide +kernel, by decide +kernel, (by decide +kernel), by decide +kernel, by decide +kernel, (by decide +kernel), by decide +kernel, rfl, by decide +kernel⟩,
   ⟨(mapAwake.put .MEM_CH_STS_STATE 3 (mapAwake.chanOf 64)).putTrk 512 { req := { agent := 14, line := 512, kind := .readS }, media := true }, 512, { req := { agent := 14, line := 512, kind := .readS }, media := true }, {}, [], _, _, _, by decide +kernel, by decide +kernel, by decide +kernel, rfl, by decide +kernel, by decide +kernel, (by decide +kernel), by decide +kernel, rfl, rfl, by decide +kernel⟩,
   ⟨suspAwake, _, 320, { req := { agent := 14, line := 320, kind := .readS }, media := true }, {}, 0, _, by decide +kernel, by decide +kernel, by decide +kernel, rfl, rfl⟩,
   ⟨dirtyAwake, _, 5, 0, [], 0, {}, {}, 323, [], { data := 77, dirty := true }, _, [], by decide +kernel, by decide +kernel, by decide +kernel, rfl, by decide +kernel, rfl⟩,
   ⟨mapAwake, 5, 0, by decide +kernel⟩,
   ⟨{ dirtyAwake with pg := { dirtyAwake.pg with pages := [(5, { pl := { tier := 1, code := 1, ma := 16, lock := true } })] } }, 5, by decide +kernel⟩,
   ⟨dirtyAwake, 5, 0, { body := [], hint := 0, lost := [] }, _, by decide +kernel, by decide +kernel, by decide +kernel, rfl, by decide +kernel⟩,
   ⟨pageAwake.coh' (fun c => { c with twins := [{ sector := 41, sent := some 3 }] }), 5, 1, { sector := 41, sent := some 3 }, 3, rfl, by decide, rfl⟩,
   ⟨pageAwake.coh' (fun c => { c with twins := [{ sector := 41, sent := some 3 }] }), 41, 3, { sector := 41, sent := some 3 }, rfl, by decide, rfl, rfl⟩,
   ⟨awake, _, by decide +kernel, rfl⟩,
   ⟨mapAwake.coh' (fun c => { c with dir := [(5, {})] }), _, 5, [], by decide +kernel, rfl⟩⟩

/-- States and operands that meet the hypotheses of `Obligations.WriteBackTouchesOnlyItsPage`, clause by clause. -/
theorem witness_WriteBackTouchesOnlyItsPage :
  ((∃ (s : State) (t : State) (lpn : Lpn) (k : Fin 8) (body : List Byte) (hint : Nat) (f : Fetch) (f2 : Fetch), exec (.sectorWriteback lpn k body hint f f2) s = .next t)) :=
  ⟨dirtyAwake, _, 5, 0, [], 0, {}, {}, rfl⟩

/-- States and operands that meet the hypotheses of `Obligations.RawWriteBackStoresTheLine`, clause by clause. -/
theorem witness_RawWriteBackStoresTheLine :
  ((∃ (s : State) (u : State) (lpn : Lpn) (k : Fin 8) (i : Fin 8) (l : LcLine) (f : Fetch) (f2 : Fetch) (d : Nat) (r : List Nat) (c : LcLine) (x : State × Option (List (Nat × Nat))) (lost : List (Nat × Nat)), s.halt = none ∧ s.dirtyLines lpn.val k.val = d :: r ∧ s.lcOf d = some c ∧ x = (s.underFor (s.ownAttr none lpn.val c.cls) 4).wbReads lpn.val k.val f f2 ∧ x.2 = some lost ∧ u = x.1 ∧ u.halt = none ∧ u.coh.twins = [] ∧ (u.page lpn.val).pl.tier = 1 ∧ (u.page lpn.val).pl.twk = 0 ∧ (u.page lpn.val).pl.lock = false ∧ (∀ c < 16, u.chState c = 2) ∧ u.slotActive (u.page lpn.val).pl.ks = true ∧ u.unverif lpn.val = false ∧ (∀ j < 8, u.ctr lpn.val j < 0xFFFFFFFFFFFFFF00) ∧ u.lcOf (64 * lpn.val + 8 * k.val + i.val) = some l ∧ l.dirty = true ∧ l.prov = false ∧ l.poison = false)) :=
  ⟨dirtyAwake, _, 5, 0, 3, { data := 77, dirty := true }, {}, {}, 323, [], { data := 77, dirty := true }, _, [], by decide +kernel, by decide +kernel, by decide +kernel, rfl, by decide +kernel, rfl, by decide +kernel⟩

/-- States and operands that meet the hypotheses of `Obligations.MovesRun`, clause by clause. -/
theorem witness_MovesRun :
  ((∃ (s : State) (w : State) (n : Fin 16) (hint : Nat) (x : State × Option (MoveReq × State × MoveSt)) (y : MoveReq × State × MoveSt) (b : Nat), s.halt = none ∧ 40 ≤ s.healthy ∧ x = s.pickMove n.val hint (s.dispatchOrder n.val) ∧ x.2 = some y ∧ x.1.meets y.1 = true ∧ y.1.ver = (x.1.page y.1.lpn).pl.ver ∧ bucketOf y.1.cls = some b ∧ w = (y.2.1.unqueue n.val y.1).spend n.val b ((y.2.1.unqueue n.val y.1).moveBytes y.2.2))) ∧
  ((∃ (s : State) (n : Fin 16) (hint : Nat) (x : State × Option (MoveReq × State × MoveSt)) (y : MoveReq × State × MoveSt), s.halt = none ∧ 40 ≤ s.healthy ∧ x = s.pickMove n.val hint (s.dispatchOrder n.val) ∧ x.2 = some y ∧ y.1.ver ≠ (x.1.page y.1.lpn).pl.ver)) ∧
  ((∃ (s : State) (n : Fin 16) (hint : Nat) (x : State × Option (MoveReq × State × MoveSt)), s.halt = none ∧ 40 ≤ s.healthy ∧ x = s.pickMove n.val hint (s.dispatchOrder n.val) ∧ x.2 = none)) ∧
  ((∃ (s : State) (u : State) (lpn : Lpn) (m : MoveSt) (reads : List (Fin 64 × Fetch × Fetch)) (x : State × Bool) (y : State × Option (List (Nat × Nat))) (lost : List (Nat × Nat)), tget lpn.val s.pg.moves = some m ∧ m.step = 2 ∧ s.halt = none ∧ s.pageQuiet lpn.val = true ∧ hasImage (s.tier lpn.val) = true ∧ x = s.memAccess mMig lpn.val opR true .std ∧ x.2 = true ∧ u = x.1.say { cls := cRSP, code := 0, line := 64 * lpn.val, src := homeId (s.home lpn.val), dst := 0x12 + s.home lpn.val, page := true, gs := 3, master := mMig } ∧ y = (u.underFor (u.ownAttr (some mMig) lpn.val 0) 5).moveReads lpn.val reads ∧ y.2 = some lost)) ∧
  ((∃ (s : State) (lpn : Lpn) (m : MoveSt), tget lpn.val s.pg.moves = some m ∧ m.step = 2 ∧ s.halt = none ∧ s.pageQuiet lpn.val = false)) ∧
  ((∃ (s : State) (u : State) (lpn : Lpn) (m : MoveSt) (x : State × Bool), tget lpn.val s.pg.moves = some m ∧ m.step = 4 ∧ s.halt = none ∧ s.moveBlocked lpn.val m = false ∧ hasImage (s.tier lpn.val) = true ∧ x = s.memAccess mMig lpn.val opW true .std ∧ x.2 = true ∧ m.twinOnly = false ∧ m.copy = true ∧ u = (x.1.underFor (x.1.ownAttr (some mMig) lpn.val 0) 5).landCopy lpn.val m)) ∧
  ((∃ (s : State) (u : State) (lpn : Lpn) (m : MoveSt) (x : State × Bool), tget lpn.val s.pg.moves = some m ∧ m.step = 4 ∧ s.halt = none ∧ s.moveBlocked lpn.val m = false ∧ hasImage (s.tier lpn.val) = true ∧ x = s.memAccess mMig lpn.val opW true .std ∧ x.2 = true ∧ m.twinOnly = false ∧ m.copy = false ∧ u = (x.1.underFor (x.1.ownAttr (some mMig) lpn.val 0) 5).landNew lpn.val m)) ∧
  ((∃ (s : State) (lpn : Lpn) (m : MoveSt), tget lpn.val s.pg.moves = some m ∧ m.step = 4 ∧ s.halt = none ∧ s.moveBlocked lpn.val m = true)) ∧
  ((∃ (s : State) (lpn : Lpn) (m : MoveSt), tget lpn.val s.pg.moves = some m ∧ m.step = 2 ∧ s.pageQuiet lpn.val = false)) ∧
  ((∃ (s : State), s.halt = none ∧ s.red = false ∧ s.pg.pages = [])) ∧
  ((∃ (s : State), s.halt = none ∧ s.get .XLT_TIER_CTL_COLD_EPOCHS ≤ s.pg.epochs ∧ s.pg.coldDue = false ∧ s.pg.cold = false)) ∧
  ((∃ (s : State) (u : State), s.halt = none ∧ s.get .XLT_TIER_CTL_COLD_EPOCHS ≤ s.pg.epochs ∧ s.pg.coldDue = false ∧ s.pg.cold = true ∧ u = { s with pg := { s.pg with coldDue := true } })) ∧
  ((∃ (s : State) (u : State) (v : State), s.pg.cold = true ∧ u = ({ s with pg := { s.pg with cold := false, hist := s.pg.histNew } } : State).recountAll ∧ v = ((u.pg.nodes.map (·.1)).filter (fun k => decide (k / 2 ^ 24 = 3))).foldl (fun (s : State) k => s.releaseNode k) u ∧ v.pg.coldDue = false)) ∧
  ((∃ (s : State) (u : State) (v : State), s.pg.cold = true ∧ u = ({ s with pg := { s.pg with cold := false, hist := s.pg.histNew } } : State).recountAll ∧ v = ((u.pg.nodes.map (·.1)).filter (fun k => decide (k / 2 ^ 24 = 3))).foldl (fun (s : State) k => s.releaseNode k) u ∧ v.pg.coldDue = true)) :=
  ⟨⟨pinAwake, _, 5, 0, _, _, 0, by decide +kernel, by decide +kernel, rfl, (Option.some_get (by decide +kernel)).symm, by decide +kernel, by decide +kernel, by decide +kernel, rfl⟩,
   ⟨staleAwake, 5, 0, _, _, by decide +kernel, by decide +kernel, rfl, (Option.some_get (by decide +kernel)).symm, by decide +kernel⟩,
   ⟨mapAwake, 5, 0, _, by decide +kernel, by decide +kernel, rfl, by decide +kernel⟩,
   ⟨moveAwake 2, _, 5, move5 2, [], _, _, [], by decide +kernel, by decide +kernel, (by decide +kernel), by decide +kernel, by decide +kernel, rfl, by decide +kernel, rfl, rfl, by decide +kernel⟩,
   ⟨heldMove, 5, move5 2, by decide +kernel⟩,
   ⟨moveAwake 4, _, 5, move5 4, _, by decide +kernel, by decide +kernel, (by decide +kernel), by decide +kernel, by decide +kernel, rfl, by decide +kernel, rfl, rfl, rfl⟩,
   ⟨{ furnAwake with pg := { furnAwake.pg with moves := [(5, { move5 4 with copy := false })] } }, _, 5, { move5 4 with copy := false }, _, by decide +kernel, by decide +kernel, (by decide +kernel), by decide +kernel, by decide +kernel, rfl, by decide +kernel, rfl, rfl, rfl⟩,
   ⟨(moveAwake 4).put .MEM_CH_STS_STATE 3 1, 5, move5 4, by decide +kernel⟩,
   ⟨heldMove, 5, move5 2, by decide +kernel⟩,
   ⟨awake, by decide +kernel⟩,
   ⟨awake.put .XLT_TIER_CTL_COLD_EPOCHS 0, by decide +kernel⟩,
   ⟨{ (awake.put .XLT_TIER_CTL_COLD_EPOCHS 0) with pg := { awake.pg with cold := true } }, _, by decide +kernel, by decide +kernel, (by decide +kernel), by decide +kernel, rfl⟩,
   ⟨{ awake with pg := { awake.pg with cold := true } }, _, _, by decide +kernel, rfl, rfl, by decide +kernel⟩,
   ⟨{ awake with pg := { awake.pg with cold := true, coldDue := true } }, _, _, by decide +kernel, rfl, rfl, by decide +kernel⟩⟩

/-- States and operands that meet the hypotheses of `Obligations.SweepsRun`, clause by clause. -/
theorem witness_SweepsRun :
  ((∃ (s : State) (k : Fin 4) (w : Nat), s.halt = none ∧ 40 ≤ s.healthy ∧ s.sweeping k.val = true ∧ s.isSet .SEC_SWEEP_CTL_NOSPACE k.val = false ∧ s.get .THM_STS_STEP = 0 ∧ w = s.get .SEC_SWEEP_WAY_LPN k.val ∧ (tget (nodeKey 3 w) s.pg.nodes).isSome = true ∧ (s.page w).pl.ks ≠ s.get .SEC_SWEEP_CTL_OLD k.val)) ∧
  ((∃ (s : State) (k : Fin 4) (w : Nat), s.halt = none ∧ 40 ≤ s.healthy ∧ s.sweeping k.val = true ∧ s.isSet .SEC_SWEEP_CTL_NOSPACE k.val = false ∧ s.get .THM_STS_STEP = 0 ∧ w = s.get .SEC_SWEEP_WAY_LPN k.val ∧ (tget (nodeKey 3 w) s.pg.nodes).isSome = false)) ∧
  ((∃ (s : State) (u : State) (k : Fin 4) (hint : Nat) (w : Nat) (reads : List (Fin 64 × Fetch × Fetch)) (v : State × MoveSt) (y : State × Option (List (Nat × Nat))) (lost : List (Nat × Nat)) (z : State), s.halt = none ∧ 40 ≤ s.healthy ∧ s.sweeping k.val = true ∧ s.isSet .SEC_SWEEP_CTL_NOSPACE k.val = false ∧ s.get .THM_STS_STEP = 0 ∧ w = s.get .SEC_SWEEP_WAY_LPN k.val ∧ (tget (nodeKey 3 w) s.pg.nodes).isSome = true ∧ hasImage (s.page w).pl.tier = true ∧ (s.page w).pl.ks = s.get .SEC_SWEEP_CTL_OLD k.val ∧ s.unverif w = false ∧ (s.primChs (s.page w) ++ s.twinChs (s.page w)).any (fun c => s.chState c == 3) = false ∧ u = (s.put .SEC_SWEEP_CTL_STATE 1 k.val).recallPage w ∧ u.notMine w = false ∧ u.pageQuiet w = true ∧ u.affords (u.home w) 2 (u.moveBytes (u.rekeyPlan w (u.get .SEC_SWEEP_CTL_NEW k.val))) = true ∧ u.holdRoom (u.rekeyPlan w (u.get .SEC_SWEEP_CTL_NEW k.val)) hint = some v ∧ y = (((v.1.spend (v.1.home w) 2 (u.moveBytes (u.rekeyPlan w (u.get .SEC_SWEEP_CTL_NEW k.val)))).takePage w).underFor (((v.1.spend (v.1.home w) 2 (u.moveBytes (u.rekeyPlan w (u.get .SEC_SWEEP_CTL_NEW k.val)))).takePage w).ownAttr (some mMig) w 0) 5).moveReads w reads ∧ y.2 = some lost ∧ z = ((y.1.landCopy w { v.2 with lost := lost }).uncharged).mdcLeave w)) ∧
  ((∃ (s : State) (u : State) (k : Fin 4) (hint : Nat) (w : Nat), s.halt = none ∧ 40 ≤ s.healthy ∧ s.sweeping k.val = true ∧ s.isSet .SEC_SWEEP_CTL_NOSPACE k.val = false ∧ s.get .THM_STS_STEP = 0 ∧ w = s.get .SEC_SWEEP_WAY_LPN k.val ∧ (tget (nodeKey 3 w) s.pg.nodes).isSome = true ∧ hasImage (s.page w).pl.tier = true ∧ (s.page w).pl.ks = s.get .SEC_SWEEP_CTL_OLD k.val ∧ s.unverif w = false ∧ (s.primChs (s.page w) ++ s.twinChs (s.page w)).any (fun c => s.chState c == 3) = false ∧ u = (s.put .SEC_SWEEP_CTL_STATE 1 k.val).recallPage w ∧ u.notMine w = false ∧ u.pageQuiet w = true ∧ u.affords (u.home w) 2 (u.moveBytes (u.rekeyPlan w (u.get .SEC_SWEEP_CTL_NEW k.val))) = true ∧ u.holdRoom (u.rekeyPlan w (u.get .SEC_SWEEP_CTL_NEW k.val)) hint = none)) ∧
  ((∃ (s : State) (k : Fin 4), s.halt = none ∧ 40 ≤ s.healthy ∧ s.sweeping k.val = true ∧ s.isSet .SEC_SWEEP_CTL_NOSPACE k.val = false ∧ s.get .THM_STS_STEP ≠ 0)) ∧
  ((∃ (s : State) (k : Fin 4), s.get .SEC_SWEEP_CTL_STATE k.val = 2 ∧ s.isSet .SEC_SWEEP_CTL_NOSPACE k.val = true)) :=
  ⟨⟨{ (((mapAwake.put .SEC_SWEEP_CTL_STATE 1 0).put .SEC_SWEEP_CTL_OLD 3 0).put .SEC_SWEEP_LIMIT_LPN 9 0).put .SEC_SWEEP_WAY_LPN 5 0 with pg := { furnAwake.pg with nodes := mapAwake.pg.nodes } }, 0, 5, by decide +kernel, by decide +kernel, (by decide +kernel), by decide +kernel, by decide +kernel, rfl, by decide +kernel⟩,
   ⟨{ (((mapAwake.put .SEC_SWEEP_CTL_STATE 1 0).put .SEC_SWEEP_CTL_OLD 0 0).put .SEC_SWEEP_LIMIT_LPN 9 0).put .SEC_SWEEP_WAY_LPN 5 0 with pg := { furnAwake.pg with nodes := [] } }, 0, 5, by decide +kernel, by decide +kernel, (by decide +kernel), by decide +kernel, by decide +kernel, rfl, by decide +kernel⟩,
   ⟨sweepAwake, _, 0, 0, 5, [], _, _, [], _, by decide +kernel, by decide +kernel, (by decide +kernel), by decide +kernel, by decide +kernel, rfl, by decide +kernel, by decide +kernel, (by decide +kernel), by decide +kernel, by decide +kernel, rfl, by decide +kernel, by decide +kernel, by decide +kernel, (Option.some_get (by decide +kernel)).symm, rfl, by decide +kernel, rfl⟩,
   ⟨{ (((mapAwake.put .SEC_SWEEP_CTL_STATE 1 0).put .SEC_SWEEP_CTL_OLD 0 0).put .SEC_SWEEP_LIMIT_LPN 9 0).put .SEC_SWEEP_WAY_LPN 5 0 with pg := { furnAwake.pg with chCap := [], nodes := mapAwake.pg.nodes } }, _, 0, 0, 5, by decide +kernel, by decide +kernel, (by decide +kernel), by decide +kernel, by decide +kernel, rfl, by decide +kernel, by decide +kernel, (by decide +kernel), by decide +kernel, by decide +kernel, rfl, by decide +kernel⟩,
   ⟨sweepAwake.put .THM_STS_STEP 2, 0, by decide +kernel⟩,
   ⟨(awake.put .SEC_SWEEP_CTL_STATE 2 1).put .SEC_SWEEP_CTL_NOSPACE 1 1, 1, by decide +kernel⟩⟩

/-- States and operands that meet the hypotheses of `Obligations.FritsAndScrub`, clause by clause. -/
theorem witness_FritsAndScrub :
  ((∃ (s : State) (n : Nat), (s.trainState = 0 ∨ s.trainState = 3) ∧ legal .CDC_TRAIN_CTL_SAMPLES n = true)) ∧
  ((∃ (s : State), s.trainState = 1 ∧ 40 ≤ s.healthy)) ∧
  ((∃ (s : State) (lit : List Nat) (ctl : List Nat) (d : List Byte) (any : Bool), s.trainState = 2 ∧ 40 ≤ s.healthy ∧ validTable lit = true ∧ validTable ctl = true ∧ d.length = 4096 ∧ any = (s.isSet .CDC_TRAIN_CTL_ANY && s.isSet .CDC_CTL_XSCOPE))) ∧
  ((∃ (s : State), s.trainState = 2 ∧ 40 ≤ s.healthy)) ∧
  ((∃ (s : State) (u : State) (v : State) (x : Frit) (f : Nat) (cur : Nat), s.halt = none ∧ s.trainState = 3 ∧ s.cdc.built = some x ∧ f = s.get .CDC_TRAIN_CTL_FRIT ∧ cur = s.get .CDC_FRIT_STS_CUR f ∧ s.get (refReg (1 - cur)) f = 0 ∧ s.isSet .CDC_FRIT_STS_REBUILD f = false ∧ u = { s with cdc := { s.cdc with store := tput (2 * f + (1 - cur)) { x with ver := nextVer (s.fritVerAt f cur) } s.cdc.store, built := none } } ∧ v = (((((u.put (verReg (1 - cur)) (nextVer (s.fritVerAt f cur)) f).put .CDC_FRIT_STS_CUR (1 - cur) f).put .CDC_FRIT_STS_SCOPED (b2n x.oneTc) f).put .CDC_FRIT_STS_SCOPE x.scope f).put .CDC_TRAIN_STS_REFUSED 0).put .CDC_TRAIN_STS_STATE 0)) ∧
  ((∃ (s : State) (x : Frit), s.halt = none ∧ s.trainState = 3 ∧ s.cdc.built = some x ∧ s.get (refReg (1 - s.get .CDC_FRIT_STS_CUR (s.get .CDC_TRAIN_CTL_FRIT))) (s.get .CDC_TRAIN_CTL_FRIT) ≠ 0)) ∧
  ((∃ (s : State), s.halt = none)) ∧
  ((∃ (s : State), s.isSet .CDC_FRIT_STS_REBUILD 0 = true ∧ s.pg.pages.any (fun x => x.2.pl.tier == 4 && !s.portUp (locPort x.2.pl.ma)) = false)) ∧
  ((∃ (s : State) (c : Fin 16) (e : ReadErr) (x : State × LineOut), s.halt = none ∧ s.inService c.val = true ∧ s.scrubPaused c.val = false ∧ bit (s.get .ECC_SCRUB_CFG_EN) c.val = true ∧ tgetD 0 c.val s.pg.chCap ≠ 0 ∧ (tget c.val s.ecc.scrubFrom).isSome = true ∧ x = (s.underFor { master := some 0x10, priv := 3, lpn := lpnEnd, cls := 0, tier := 6 } 3).readLine (4 * s.maOf c.val (tgetD 0 c.val s.ecc.scrubAt / 4) + tgetD 0 c.val s.ecc.scrubAt % 4) e (s.markedLa (4 * s.maOf c.val (tgetD 0 c.val s.ecc.scrubAt / 4) + tgetD 0 c.val s.ecc.scrubAt % 4)))) :=
  ⟨⟨awake, 1024, by decide +kernel⟩,
   ⟨awake.put .CDC_TRAIN_STS_STATE 1, by decide +kernel⟩,
   ⟨awake.put .CDC_TRAIN_STS_STATE 2, List.replicate 256 8, List.replicate 256 8, List.replicate 4096 0, _, by decide +kernel, by decide +kernel, (by decide +kernel), by decide +kernel, by decide +kernel, rfl⟩,
   ⟨awake.put .CDC_TRAIN_STS_STATE 2, by decide +kernel⟩,
   ⟨{ (awake.put .CDC_TRAIN_STS_STATE 3) with cdc := { awake.cdc with built := some { ver := 0, oneTc := false, scope := 0, lit := [], ctl := [], dict := [] } } }, _, _, { ver := 0, oneTc := false, scope := 0, lit := [], ctl := [], dict := [] }, _, _, by decide +kernel, by decide +kernel, rfl, rfl, rfl, by decide +kernel, by decide +kernel, rfl, rfl⟩,
   ⟨{ ((awake.put .CDC_TRAIN_STS_STATE 3).put .CDC_FRIT_REF1_REF 7 0) with cdc := { awake.cdc with built := some { ver := 0, oneTc := false, scope := 0, lit := [], ctl := [], dict := [] } } }, { ver := 0, oneTc := false, scope := 0, lit := [], ctl := [], dict := [] }, by decide +kernel⟩,
   ⟨awake, by decide +kernel⟩,
   ⟨awake.put .CDC_FRIT_STS_REBUILD 1, by decide +kernel⟩,
   ⟨scrubAwake, 3, {}, _, by decide +kernel, by decide +kernel, (by decide +kernel), by decide +kernel, by decide +kernel, by decide +kernel, rfl⟩⟩

/-- States and operands that meet the hypotheses of `Obligations.SegmentAllocation`, clause by clause. -/
theorem witness_SegmentAllocation :
  (∃ (q : Req) (s s₁ : State) (u : State),
    let l := pagesOf q
    Served { op := 0x0306, priv := 1, ctx := 1, fields := rangeFields } q (firstBad (s.rangeChecks q)) s s₁ (s.lpnDeny q (firstLpn q) (pageCount q)) ∧ (∀ p ∈ l, s₁.tier p = 0 ∧ s₁.slotActive (s₁.slotFor p) = true) ∧ (s₁.tablePages l = some u)) ∧
  (∃ (q : Req) (s s₁ : State),
    let l := pagesOf q
    Served { op := 0x0306, priv := 1, ctx := 1, fields := rangeFields } q (firstBad (s.rangeChecks q)) s s₁ (s.lpnDeny q (firstLpn q) (pageCount q)) ∧ (∀ p ∈ l, s₁.tier p = 0 ∧ s₁.slotActive (s₁.slotFor p) = true) ∧ (s₁.tablePages l = none)) ∧
  (∃ (q : Req) (s s₁ : State) (i : Nat),
    let l := pagesOf q
    Served { op := 0x0306, priv := 1, ctx := 1, fields := rangeFields } q (firstBad (s.rangeChecks q)) s s₁ (s.lpnDeny q (firstLpn q) (pageCount q)) ∧ (l.findIdx? (fun p => s₁.tier p != 0) = some i)) ∧
  ((∃ (s : State) (t : State) (lpn : Nat), s.tablePage lpn = some t)) ∧
  (∃ (q : Req) (s s₁ : State),
    let l := pagesOf q
    Served { op := 0x0307, priv := 1, ctx := 2, fields := rangeFields } q (firstBad (s.rangeChecks q ++ [(0x10, l.all (fun p => s.tier p == 5 || s.tier p == 7))])) s s₁ (s.lpnDeny q (firstLpn q) (pageCount q)) ∧ (∀ c < 256, s₁.isSet .XLT_CTX_CFG_EN c = true → s₁.isSet .XLT_CTX_CFG_ROOTV c = true → s₁.get .XLT_CTX_CFG_ROOT c ∉ l) ∧ (∀ p ∈ l, (s₁.allRecalled q).notMine p = false)) ∧
  (∃ (q : Req) (s s₁ : State),
    let l := pagesOf q
    Served { op := 0x0307, priv := 1, ctx := 2, fields := rangeFields } q (firstBad (s.rangeChecks q ++ [(0x10, l.all (fun p => s.tier p == 5 || s.tier p == 7))])) s s₁ (s.lpnDeny q (firstLpn q) (pageCount q)) ∧ (∀ c < 256, s₁.isSet .XLT_CTX_CFG_EN c = true → s₁.isSet .XLT_CTX_CFG_ROOTV c = true → s₁.get .XLT_CTX_CFG_ROOT c ∉ l) ∧ (∃ p ∈ l, (s₁.allRecalled q).notMine p = true)) :=
  ⟨⟨segReq, oneAwake, _, seg_tables.choose, ⟨by decide +kernel, rfl, by decide +kernel⟩, by decide +kernel, seg_tables.choose_spec⟩,
   ⟨{ ask 0x0306 (20 + 2 ^ 64) with ctxv := true }, mapAwake.put .SEC_KS_STS_STATE 1 1, _, ⟨by decide +kernel, rfl, by decide +kernel⟩, by decide +kernel⟩,
   ⟨{ ask 0x0306 (7 + 2 ^ 64) with ctxv := true }, mapAwake, _, 0, ⟨by decide +kernel, rfl, by decide +kernel⟩, by decide +kernel⟩,
   ⟨segS, seg_table.choose, 20, seg_table.choose_spec.1⟩,
   ⟨{ ask 0x0307 (8 + 2 ^ 64) with ctxv := true }, mapAwake, _, ⟨by decide +kernel, rfl, by decide +kernel⟩, by decide +kernel⟩,
   ⟨{ ask 0x0307 (8 + 2 ^ 64) with ctxv := true }, { mapAwake with pg := { mapAwake.pg with moves := [(8, move5 1)] } }, _, ⟨by decide +kernel, rfl, by decide +kernel⟩, by decide +kernel⟩⟩

/-- States and operands that meet the hypotheses of `Obligations.SlotCommands`, clause by clause. -/
theorem witness_SlotCommands :
  (∃ (q : Req) (s s₁ : State),
    let n := par q 0x10 1
    Served { op := 0x0A00, priv := 0, mctp := true, output := true, fields := [fld 0x10 1] } q (firstBad [(0x10, decide (n < 32))]) s s₁) ∧
  (∃ (q : Req) (s s₁ : State),
    let n := par q 0x10 1
    Served { op := 0x0A01, priv := 2, mctp := true, fields := [fld 0x10 1] } q (firstBad [(0x10, decide (n < 32))]) s s₁ ∧ (s₁.sg n = 1 ∨ s₁.sg n = 2 ∨ s₁.sg n = 7) ∧ (s₁.canBringUp (n / 2) = true) ∧ ((s₁.freeSlot).isSome = true)) ∧
  (∃ (q : Req) (s s₁ : State),
    let n := par q 0x10 1
    Served { op := 0x0A02, priv := 2, mctp := true, fields := [fld 0x10 1, fbits 0x11 0 1] } q (firstBad [(0x10, decide (n < 32))]) s s₁ ∧ (s₁.chState (n / 2) = 6) ∧ (parBit q 0x11 0 = false) ∧ (s₁.sg n ≠ 0) ∧ (s₁.sg n ≠ 6)) ∧
  (∃ (q : Req) (s s₁ : State),
    let n := par q 0x10 1
    Served { op := 0x0A02, priv := 2, mctp := true, fields := [fld 0x10 1, fbits 0x11 0 1] } q (firstBad [(0x10, decide (n < 32))]) s s₁ ∧ (parBit q 0x11 0 = true) ∧ (s₁.sg n ≠ 0) ∧ (s₁.sg n ≠ 6) ∧ (s₁.isSet .SLT_SG_STS_GATE n = true)) ∧
  (∃ (q : Req) (s s₁ : State),
    let n := par q 0x10 1
    Served { op := 0x0A02, priv := 2, mctp := true, fields := [fld 0x10 1, fbits 0x11 0 1] } q (firstBad [(0x10, decide (n < 32))]) s s₁ ∧ (s₁.chState (n / 2) = 6) ∧ (s₁.sg n = 0 ∨ s₁.sg n = 6)) ∧
  (∃ (q : Req) (s s₁ : State),
    let c := par q 0x10 1
    Served { op := 0x0A03, priv := 2, mctp := true, fields := [fld 0x10 1] } q (firstBad [(0x10, decide (c < 16))]) s s₁ ∧ (s₁.svcRefusal c = none) ∧ ((s₁.freeSlot).isSome = true)) ∧
  (∃ (q : Req) (s s₁ : State),
    let c := par q 0x10 1
    Served { op := 0x0A04, priv := 2, mctp := true, fields := [fld 0x10 1] } q (firstBad [(0x10, decide (c < 16))]) s s₁ ∧ (s₁.svc c = 1)) ∧
  (∃ (q : Req) (s s₁ : State),
    let mask := par q 0x10 4
    let slots := (List.range 32).filter (fun n => bit mask n)
    let ilim := par q 0x14 1
    Served { op := 0x0A05, priv := 2, mctp := true, fields := fld 0x10 4 :: limitRows.map (fun r => fld r.2.1 r.2.2.1) } q (firstBad ([(0x10, decide (mask ≠ 0))] ++ limitRows.map (fun r => (r.2.1, let v := par q r.2.1 r.2.2.1; decide (v = 0 ∨ (r.2.2.2.1 ≤ v ∧ v ≤ r.2.2.2.2.1)))) ++ [(0x14, decide (ilim = 0) || slots.all (fun n => let p := ilim * s.get .SLT_SG_MODEL_RSH n; decide (16000 ≤ p ∧ p ≤ 1024000)))])) s s₁) ∧
  ((∃ (s : State) (n : Nat), s.isSet .SLT_SG_STS_GATE n = false)) ∧
  ((∃ (s : State) (q : Req) (n : Nat), s.isSet .SLT_SG_STS_GATE n = false ∧ n < 32 ∧ par q 0x14 1 ≠ 0)) ∧
  ((∃ (s : State) (q : Req) (n : Nat), s.isSet .SLT_SG_STS_GATE n = false ∧ n < 32 ∧ par q 0x19 1 ≠ 0)) ∧
  ((∃ (s : State) (q : Req) (n : Nat), s.isSet .SLT_SG_STS_GATE n = false ∧ par q 0x1A 1 = 0)) ∧
  (∃ (q : Req) (s s₁ : State),
    let n := par q 0x10 1
    Served { op := 0x0A06, priv := 2, mctp := true, fields := [fld 0x10 1] } q (firstBad [(0x10, decide (n < 32))]) s s₁ ∧ (s₁.sg n = 6) ∧ (s₁.isSet .SLT_SG_STS_FET_SHORT n = false ∨ s₁.get .SLT_SG_MEAS_VOUT n < 1000)) :=
  ⟨⟨ask 0x0A00 6, awake, _, ⟨by decide +kernel, rfl, by decide +kernel⟩⟩,
   ⟨ask 0x0A01 6, slotSafe, _, ⟨by decide +kernel, rfl, by decide +kernel⟩, by decide +kernel⟩,
   ⟨ask 0x0A02 6, slotSafe, _, ⟨by decide +kernel, rfl, by decide +kernel⟩, by decide +kernel⟩,
   ⟨ask 0x0A02 (6 + 256), slotAwake, _, ⟨by decide +kernel, rfl, by decide +kernel⟩, by decide +kernel⟩,
   ⟨ask 0x0A02 6, (slotSafe.put .SLT_SG_STS_STATE 0 6), _, ⟨by decide +kernel, rfl, by decide +kernel⟩, by decide +kernel⟩,
   ⟨ask 0x0A03 3, mapAwake.recap, _, ⟨by decide +kernel, rfl, by decide +kernel⟩, by decide +kernel⟩,
   ⟨ask 0x0A04 3, mapAwake.put .SLT_CH_SVC_SVC 1 3, _, ⟨by decide +kernel, rfl, by decide +kernel⟩, by decide +kernel⟩,
   ⟨ask 0x0A05 (64 + 16 * 2 ^ 32 + 100 * 2 ^ 40), awake, _, ⟨by decide +kernel, rfl, by decide +kernel⟩⟩,
   ⟨slotSafe, 6, by decide +kernel⟩,
   ⟨slotSafe, ask 0x0A05 (64 + 16 * 2 ^ 32 + 100 * 2 ^ 40), 6, by decide +kernel⟩,
   ⟨slotSafe, ask 0x0A05 (64 + 3 * 2 ^ 72), 6, by decide +kernel⟩,
   ⟨slotSafe, ask 0x0A05 (64 + 16 * 2 ^ 32 + 100 * 2 ^ 40), 6, by decide +kernel⟩,
   ⟨ask 0x0A06 6, awake.put .SLT_SG_STS_STATE 6 6, _, ⟨by decide +kernel, rfl, by decide +kernel⟩, by decide +kernel⟩⟩

/-- States and operands that meet the hypotheses of `Obligations.GuardFaults`, clause by clause. -/
theorem witness_GuardFaults :
  ((∃ (s : State) (n : Fin 32) (m : SgMeas), s.isSet .SLT_SG_STS_GATE n.val = true ∧ 2000 * s.get .SLT_SG_LIM_ILIM n.val ≤ 16 * m.i.val)) ∧
  ((∃ (s : State) (n : Fin 32), s.isSet .SLT_SG_STS_GATE n.val = true ∧ s.isSet .SLT_SG_STS_TMR n.val = true)) ∧
  ((∃ (s : State) (n : Fin 32), s.isSet .SLT_SG_STS_GATE n.val = true ∧ s.sg n.val = 3 ∧ s.get .SLT_SG_STS_PG n.val = 0)) ∧
  ((∃ (s : State) (n : Fin 32), s.isSet .SLT_SG_STS_GATE n.val = true)) ∧
  ((∃ (s : State) (n : Fin 32) (m : SgMeas), s.isSet .SLT_SG_STS_GATE n.val = true ∧ m.vin.val < 10200)) ∧
  ((∃ (s : State) (n : Fin 32) (m : SgMeas), s.isSet .SLT_SG_STS_GATE n.val = true ∧ 100000000000000 * (s.get .SLT_SG_LIM_TLIM n.val : Int) ≤ (s.measure n.val m).tfet n.val)) ∧
  ((∃ (s : State) (n : Fin 32), s.isSet .SLT_SG_STS_GATE n.val = true ∧ s.isSet .SLT_SG_STS_PRSNT n.val = true)) ∧
  ((∃ (s : State) (n : Fin 32) (m : SgMeas), s.isSet .SLT_SG_STS_GATE n.val = false ∧ 1000 < m.vout.val ∧ s.isSet .SLT_SG_STS_FET_SHORT n.val = false)) :=
  ⟨⟨slotAwake.put .SLT_SG_LIM_ILIM 16 6, 6, meas 60000, by decide +kernel⟩,
   ⟨slotAwake.put .SLT_SG_STS_TMR 1 6, 6, by decide +kernel⟩,
   ⟨(slotAwake.put .SLT_SG_STS_STATE 3 6).put .SLT_SG_STS_PG 0 6, 6, by decide +kernel⟩,
   ⟨slotAwake, 6, by decide +kernel⟩,
   ⟨slotAwake, 6, meas 100 9000 0 9000, by decide +kernel⟩,
   ⟨hotSlot, 6, meas 100, by decide +kernel⟩,
   ⟨slotAwake, 6, by decide +kernel⟩,
   ⟨slotSafe, 6, meas 0, by decide +kernel⟩⟩

/-- States and operands that meet the hypotheses of `Obligations.GuardEvents`, clause by clause. -/
theorem witness_GuardEvents :
  ((∃ (s : State) (n : Fin 32) (m : SgMeas), s.isSet .SLT_SG_STS_GATE n.val = true ∧ 1000 * s.get .SLT_SG_LIM_ILIM n.val < 16 * m.i.val ∧ 16 * m.i.val < 2000 * s.get .SLT_SG_LIM_ILIM n.val ∧ s.get .SLT_SG_STS_TMR n.val = 0)) ∧
  ((∃ (s : State) (n : Fin 32) (m : SgMeas), s.isSet .SLT_SG_STS_GATE n.val = true ∧ 0 < s.get .SLT_SG_LIM_ILIM n.val ∧ 256 * m.i.val ≤ 15000 * s.get .SLT_SG_LIM_ILIM n.val ∧ s.get .SLT_SG_STS_TMR n.val = 1)) ∧
  ((∃ (s : State) (n : Fin 32) (m : SgMeas), s.isSet .SLT_SG_STS_GATE n.val = true ∧ s.sg n.val = 3 ∧ n.val ∈ s.slt.rampDone ∧ s.get .SLT_SG_STS_TMR n.val = 0 ∧ 16 * m.i.val ≤ 1000 * s.get .SLT_SG_LIM_ILIM n.val ∧ 0 < s.get .SLT_SG_LIM_ILIM n.val ∧ 92 * m.vin.val ≤ 100 * m.vout.val)) ∧
  ((∃ (s : State) (u : State) (n : Fin 32) (m : SgMeas), s.sg n.val = 3 ∧ u = s.measure n.val m)) ∧
  ((∃ (s : State) (u : State) (n : Fin 32) (m : SgMeas), s.sg n.val = 5 ∧ s.get .SLT_SG_STS_ATTEMPTS n.val < s.get .SLT_SG_LIM_RETRY_MAX n.val ∧ u = s.measure n.val m ∧ u.fetCool n.val = true ∧ (s.get .SLT_SG_STS_LAST_FAULT n.val ≠ 8 ∨ 10800 ≤ m.vin.val))) ∧
  ((∃ (n : Nat), n < 32)) ∧
  ((∃ (s : State) (u : State) (n : Fin 32) (m : SgMeas), s.sg n.val = 5 ∧ s.get .SLT_SG_LIM_RETRY_MAX n.val ≤ s.get .SLT_SG_STS_ATTEMPTS n.val ∧ u = s.measure n.val m)) ∧
  ((∃ (s : State) (n : Fin 32), s.isSet .SLT_SG_STS_PG n.val = true)) ∧
  ((∃ (s : State) (n : Fin 32), s.isSet .SLT_SG_STS_PRSNT n.val = false ∧ s.slotAbsent n.val = false ∧ s.sg n.val = 0)) ∧
  ((∃ (s : State) (n : Fin 32), s.isSet .SLT_SG_STS_PRSNT n.val = true ∧ s.isSet .SLT_SG_STS_GATE n.val = false)) ∧
  ((∃ (s : State) (n : Fin 32) (m : SgMeas), (s.measure n.val m).fetCool n.val = true)) ∧
  ((∃ (s : State) (mv : Fin 65536), s.isSet .SLT_CFG_TAMB_FITTED = true ∧ s.isSet .SLT_STS_TAMB_FAIL = false ∧ (mv.val < 100 ∨ 2000 < mv.val))) ∧
  ((∃ (s : State) (mv : Fin 65536), s.isSet .SLT_CFG_TAMB_FITTED = true ∧ 100 ≤ mv.val ∧ mv.val ≤ 2000)) ∧
  ((∃ (s : State) (u : State) (n : Fin 32), s.isSet .SLT_CFG_BTN_EN = true ∧ u = s.bump .SLT_SG_CNT_PRESSES 0x7FFF n.val ∧ u.sg n.val = 1 ∧ u.svc (n.val / 2) = 0 ∧ u.canBringUp (n.val / 2) = true)) ∧
  ((∃ (s : State) (u : State) (n : Fin 32), s.isSet .SLT_CFG_BTN_EN = true ∧ u = s.bump .SLT_SG_CNT_PRESSES 0x7FFF n.val ∧ u.sg n.val = 4 ∧ u.svc (n.val / 2) = 0 ∧ u.svcRefusal (n.val / 2) = none)) ∧
  ((∃ (s : State) (u : State) (n : Fin 32), s.isSet .SLT_CFG_BTN_EN = true ∧ u = s.bump .SLT_SG_CNT_PRESSES 0x7FFF n.val ∧ u.sg n.val = 4 ∧ u.svc (n.val / 2) = 0 ∧ (u.svcRefusal (n.val / 2)).isSome = true)) ∧
  ((∃ (s : State) (u : State) (n : Fin 32), s.isSet .SLT_CFG_BTN_EN = true ∧ u = s.bump .SLT_SG_CNT_PRESSES 0x7FFF n.val ∧ u.svc (n.val / 2) = 1 ∧ u.isSet .SLT_CH_SVC_CANCEL_OPEN (n.val / 2) = true)) :=
  ⟨⟨slotAwake.put .SLT_SG_LIM_ILIM 16 6, 6, meas 1200, by decide +kernel⟩,
   ⟨(slotAwake.put .SLT_SG_LIM_ILIM 16 6).put .SLT_SG_STS_TMR 1 6, 6, meas 100, by decide +kernel⟩,
   ⟨(slotAwake.put .SLT_SG_LIM_ILIM 16 6).put .SLT_SG_STS_STATE 3 6, 6, meas 100, by decide +kernel⟩,
   ⟨slotAwake.put .SLT_SG_STS_STATE 3 6, _, 6, meas 100, by decide +kernel, rfl⟩,
   ⟨(slotAwake.put .SLT_SG_STS_STATE 5 6).put .SLT_SG_LIM_RETRY_MAX 3 6, _, 6, meas 0, by decide +kernel, by decide +kernel, rfl, by decide +kernel⟩,
   ⟨6, by decide +kernel⟩,
   ⟨((slotAwake.put .SLT_SG_STS_STATE 5 6).put .SLT_SG_LIM_RETRY_MAX 3 6).put .SLT_SG_STS_ATTEMPTS 4 6, _, 6, meas 0, by decide +kernel, by decide +kernel, rfl⟩,
   ⟨slotAwake, 6, by decide +kernel⟩,
   ⟨awake, 6, by decide +kernel⟩,
   ⟨slotSafe, 6, by decide +kernel⟩,
   ⟨slotAwake, 6, meas 0, by decide +kernel⟩,
   ⟨awake.put .SLT_CFG_TAMB_FITTED 1, 2400, by decide +kernel⟩,
   ⟨awake.put .SLT_CFG_TAMB_FITTED 1, 400, by decide +kernel⟩,
   ⟨slotSafe.put .SLT_CFG_BTN_EN 1, _, 6, by decide +kernel, rfl, by decide +kernel⟩,
   ⟨(slotAwake.recap).put .SLT_CFG_BTN_EN 1, _, 6, by decide +kernel, rfl, by decide +kernel⟩,
   ⟨(slotAwake.put .SLT_CFG_BTN_EN 1).put .SLT_CH_SVC_SVC 1 5, _, 6, by decide +kernel, rfl, by decide +kernel⟩,
   ⟨((slotAwake.put .SLT_CFG_BTN_EN 1).put .SLT_CH_SVC_SVC 1 3).put .SLT_CH_SVC_CANCEL_OPEN 1 3, _, 6, by decide +kernel, rfl, by decide +kernel⟩⟩

/-- States and operands that meet the hypotheses of `Obligations.ServiceOfChannels`, clause by clause. -/
theorem witness_ServiceOfChannels :
  ((∃ (s : State) (u : State) (c : Fin 16), s.svc c.val = 1 ∧ s.holdsPages c.val = false ∧ s.chState c.val ≠ 6 ∧ u = ((s.takeOffline c.val).put .SLT_CH_SVC_SVC 2 c.val).put .SLT_CH_SVC_CANCEL_OPEN 0 c.val)) ∧
  ((∃ (s : State) (c : Fin 16), s.svc c.val = 1 ∧ s.holdsPages c.val = false)) ∧
  ((∃ (s : State) (c : Fin 16), s.svc c.val = 2)) ∧
  ((∃ (s : State) (c : Fin 16), s.svc c.val = 4 ∧ s.get .SLT_CH_SVC_STEP c.val = 0 ∧ c.val ∉ s.slt.stopping ∧ (s.seated c.val).any (fun n => s.sg n == 3) = false ∧ (s.seated c.val).any (fun n => s.sg n == 4) = true)) ∧
  ((∃ (s : State) (u : State) (c : Fin 16) (a : Option Dimm) (b : Option Dimm), s.svc c.val = 4 ∧ s.get .SLT_CH_SVC_STEP c.val = 1 ∧ c.val ∉ s.slt.stopping ∧ u = s.readSpds c.val (fun k => if k = 0 then a else b) ∧ u.chState c.val = 7)) ∧
  ((∃ (s : State) (u : State) (c : Fin 16), s.svc c.val = 4 ∧ s.get .SLT_CH_SVC_STEP c.val = 3 ∧ c.val ∉ s.slt.stopping ∧ s.chState c.val ≠ 1 ∧ s.inService c.val = true ∧ u = ((((s.put .SLT_CH_SVC_SVC 0 c.val).put .SLT_CH_SVC_STEP 0 c.val).put .MEM_CH_STS_EVAC_MARK 0 c.val).put .SLT_CH_SVC_BYCMD 0 c.val).put .SLT_CH_SVC_BYMARK 0 c.val)) ∧
  ((∃ (s : State) (c : Nat), s.evacuating = false ∧ s.slt.marks.find? (fun c => s.evacReady c) = some c)) :=
  ⟨⟨mapAwake.put .SLT_CH_SVC_SVC 1 3, _, 3, by decide +kernel, by decide +kernel, by decide +kernel, rfl⟩,
   ⟨mapAwake.put .SLT_CH_SVC_SVC 1 3, 3, by decide +kernel⟩,
   ⟨mapAwake.put .SLT_CH_SVC_SVC 2 3, 3, by decide +kernel⟩,
   ⟨slotAwake.put .SLT_CH_SVC_SVC 4 3, 3, by decide +kernel⟩,
   ⟨((slotAwake.put .SLT_CH_SVC_SVC 4 3).put .SLT_CH_SVC_STEP 1 3).put .MEM_CH_STS_STATE 6 3, _, 3, some { granules := 2 ^ 22 }, none, by decide +kernel, by decide +kernel, by decide +kernel, rfl, by decide +kernel⟩,
   ⟨(slotAwake.put .SLT_CH_SVC_SVC 4 3).put .SLT_CH_SVC_STEP 3 3, _, 3, by decide +kernel, by decide +kernel, (by decide +kernel), by decide +kernel, by decide +kernel, rfl⟩,
   ⟨{ mapAwake.recap with slt := { mapAwake.slt with marks := [3] } }, 3, by decide +kernel⟩⟩

/-- States and operands that meet the hypotheses of `Obligations.PowerCommands`, clause by clause. -/
theorem witness_PowerCommands :
  (∃ (q : Req) (s s₁ : State),
    Served { op := 0x0F00, priv := 0, mctp := true, output := true } q none s s₁) ∧
  (∃ (q : Req) (s s₁ : State),
    Served { op := 0x0F01, priv := 2, mctp := true, fields := [fld 0x10 1] } q (firstBad [(0x10, decide (par q 0x10 1 ≤ 3))]) s s₁ ∧ (par q 0x10 1 = 0) ∧ (s₁.get .PWR_STATE_PS = 0)) ∧
  (∃ (q : Req) (s s₁ : State),
    Served { op := 0x0F01, priv := 2, mctp := true, fields := [fld 0x10 1] } q (firstBad [(0x10, decide (par q 0x10 1 ≤ 3))]) s s₁ ∧ (2 ≤ par q 0x10 1) ∧ (2 ≤ s₁.get .GLB_FW_STS_ROLL)) ∧
  (∃ (q : Req) (s s₁ : State),
    Served { op := 0x0F01, priv := 2, mctp := true, fields := [fld 0x10 1] } q (firstBad [(0x10, decide (par q 0x10 1 ≤ 3))]) s s₁ ∧ (par q 0x10 1 = 1) ∧ (s₁.get .PWR_STATE_PS = 0)) ∧
  (∃ (q : Req) (s s₁ : State),
    Served { op := 0x0F01, priv := 2, mctp := true, fields := [fld 0x10 1] } q (firstBad [(0x10, decide (par q 0x10 1 ≤ 3))]) s s₁ ∧ (par q 0x10 1 = 2) ∧ (s₁.get .PWR_STATE_PS = 0) ∧ (s₁.get .GLB_FW_STS_ROLL < 2) ∧ (s₁.chanHeld = false) ∧ (s₁.pwr.linkWait = false) ∧ (s₁.pwr.waking = false)) ∧
  (∃ (q : Req) (s s₁ : State),
    Served { op := 0x0F01, priv := 2, mctp := true, fields := [fld 0x10 1] } q (firstBad [(0x10, decide (par q 0x10 1 ≤ 3))]) s s₁ ∧ (par q 0x10 1 = 3) ∧ (s₁.get .PWR_STATE_PS = 0) ∧ (s₁.get .GLB_FW_STS_ROLL < 2) ∧ (s₁.chanHeld = false) ∧ (s₁.pwr.linkWait = false) ∧ (∀ c < 16, s₁.get .SLT_CH_SVC_SVC c = 0) ∧ (∀ k < 4, s₁.sweeping k = false) ∧ (∀ p < 2, (s₁.port p).loanB = none ∧ (s₁.port p).loanL = none) ∧ ((s₁.freeSlot).isSome = true)) ∧
  (∃ (q : Req) (s s₁ : State),
    let m := par q 0x10 1
    Served { op := 0x0F02, priv := 2, mctp := true, fields := [fld 0x10 1, fld 0x18 4] } q (firstBad [(0x10, decide (m % 2 = 0 ∧ m < 128))]) s s₁) ∧
  (∃ (q : Req) (s s₁ : State),
    Served { op := 0x0F03, priv := 0, mctp := true, output := true } q none s s₁) ∧
  (∃ (q : Req) (s s₁ : State),
    let keep := fun (v was : Nat) => if v = 0 then was else v
    let w := keep (par q 0x10 1) (s.get .THM_LIMITS_WARN_C)
    let t := keep (par q 0x11 1) (s.get .THM_LIMITS_THROT_C)
    let m := keep (par q 0x12 1) (s.get .THM_LIMITS_STEP_MS)
    Served { op := 0x0F04, priv := 2, mctp := true, fields := [fld 0x10 3] } q (firstBad [(0x10, decide (85 ≤ w ∧ w ≤ 135)), (0x11, decide (w + 5 ≤ t ∧ t ≤ 145)), (0x12, decide (1 ≤ m ∧ m ≤ 100))]) s s₁) :=
  ⟨⟨ask 0x0F00, awake, _, ⟨by decide +kernel, rfl, by decide +kernel⟩⟩,
   ⟨ask 0x0F01 0, awake, _, ⟨by decide +kernel, rfl, by decide +kernel⟩, by decide +kernel⟩,
   ⟨ask 0x0F01 2, awake.put .GLB_FW_STS_ROLL 2, _, ⟨by decide +kernel, rfl, by decide +kernel⟩, by decide +kernel⟩,
   ⟨ask 0x0F01 1, awake, _, ⟨by decide +kernel, rfl, by decide +kernel⟩, by decide +kernel⟩,
   ⟨ask 0x0F01 2, awake, _, ⟨by decide +kernel, rfl, by decide +kernel⟩, by decide +kernel⟩,
   ⟨ask 0x0F01 3, awake, _, ⟨by decide +kernel, rfl, by decide +kernel⟩, by decide +kernel⟩,
   ⟨ask 0x0F02 (6 + 9 * 2 ^ 64), awake, _, ⟨by decide +kernel, rfl, by decide +kernel⟩⟩,
   ⟨ask 0x0F03, awake, _, ⟨by decide +kernel, rfl, by decide +kernel⟩⟩,
   ⟨ask 0x0F04 (100 + 120 * 2 ^ 8), awake, _, ⟨by decide +kernel, rfl, by decide +kernel⟩⟩⟩

/-- States and operands that meet the hypotheses of `Obligations.PowerStates`, clause by clause. -/
theorem witness_PowerStates :
  ((∃ (s : State), s.alive = true ∧ s.idle (fun _ => false) = true ∧ s.get .PWR_STATE_ENTERING = 0 ∧ s.get .PWR_STATE_PS = 0 ∧ s.isSet .PWR_CTL_AUTO_PS1 = true)) ∧
  ((∃ (s : State), s.alive = true ∧ s.idle (fun _ => false) = true ∧ s.get .PWR_STATE_ENTERING = 0 ∧ s.get .PWR_STATE_PS = 1 ∧ s.isSet .PWR_CTL_AUTO_PS2 = true)) ∧
  ((∃ (s : State), s.get .PWR_STATE_PS = 1)) ∧
  ((∃ (s : State) (u : State) (d : Drain), s.alive = true ∧ s.idle (fun _ => false) = true ∧ s.isSet .PWR_STATE_ENTERING = true ∧ s.pwr.linkWait = false ∧ u = (s.drain d).coh' (fun c => { c with pred := [] }) ∧ u.pwr.waiters = [])) ∧
  ((∃ (s : State), s.alive = true ∧ s.idle (fun _ => false) = true ∧ s.isSet .PWR_STATE_ENTERING = true ∧ s.pwr.linkWait = false)) ∧
  ((∃ (s : State), s.get .PWR_STATE_PS = 2)) ∧
  ((∃ (s : State), s.pwr.waking = false)) ∧
  ((∃ (s : State), s.get .PWR_STATE_PS = 2 ∧ s.pwr.waking = true)) ∧
  ((∃ (s : State), s.pwr.linkWait = true)) ∧
  ((∃ (s : State), s.pwr.linkWait = true ∧ (∀ h < 8, s.get .HPT_HEAD_STS_LINK_UP h = 0) ∧ s.idle (fun k => k == .ps3) = true)) ∧
  ((∃ (s : State) (src : Fin 7), s.get .PWR_STATE_PS = 3 ∧ s.pwr.waking = false ∧ s.pwr.stopped = false ∧ src ≠ 0 ∧ bit (s.get .PWR_WAKE_CFG_EN) (src.val - 1) = true)) ∧
  ((∃ (s : State), s.get .PWR_STATE_PS = 3 ∧ s.pwr.waking = true ∧ s.pwr.stopped = false)) :=
  ⟨⟨awake.put .PWR_CTL_AUTO_PS1 1, by decide +kernel⟩,
   ⟨(awake.put .PWR_CTL_AUTO_PS2 1).put .PWR_STATE_PS 1, by decide +kernel⟩,
   ⟨awake.put .PWR_STATE_PS 1, by decide +kernel⟩,
   ⟨awake.put .PWR_STATE_ENTERING 1, _, {}, by decide +kernel, by decide +kernel, (by decide +kernel), by decide +kernel, rfl, by decide +kernel⟩,
   ⟨awake.put .PWR_STATE_ENTERING 1, by decide +kernel⟩,
   ⟨awake.put .PWR_STATE_PS 2, by decide +kernel⟩,
   ⟨awake.put .PWR_STATE_PS 2, by decide +kernel⟩,
   ⟨{ awake.put .PWR_STATE_PS 2 with pwr := { awake.pwr with waking := true } }, by decide +kernel⟩,
   ⟨{ awake with pwr := { awake.pwr with linkWait := true } }, by decide +kernel⟩,
   ⟨{ opAwake .ps3 with pwr := { awake.pwr with linkWait := true } }, by decide +kernel⟩,
   ⟨(awake.put .PWR_STATE_PS 3).put .PWR_WAKE_CFG_EN 1, 1, by decide +kernel⟩,
   ⟨{ awake.put .PWR_STATE_PS 3 with pwr := { awake.pwr with waking := true } }, by decide +kernel⟩⟩

/-- States and operands that meet the hypotheses of `Obligations.ThermalEvents`, clause by clause. -/
theorem witness_ThermalEvents :
  ((∃ (s : State), s.fabOn = true)) ∧
  ((∃ (s : State), s.fabOn = true)) ∧
  ((∃ (s : State), s.alive = true ∧ s.get .PWR_STATE_PS < 2)) ∧
  ((∃ (s : State), s.pwr.stopped = false ∧ s.boot.phase ≠ 0 ∧ (s.get .PWR_STATE_PS = 3 ∨ 155 ≤ s.temp s.hottest))) ∧
  ((∃ (s : State) (v : Int), s.pwr.trip = true ∧ v < 1920)) ∧
  ((∃ (v : Int), 1920 ≤ v)) :=
  ⟨⟨awake, by decide +kernel⟩,
   ⟨awake, by decide +kernel⟩,
   ⟨awake, by decide +kernel⟩,
   ⟨awake.put .PWR_STATE_PS 3, by decide +kernel⟩,
   ⟨{ awake with pwr := { awake.pwr with trip := true } }, 1000, by decide +kernel⟩,
   ⟨2000, by decide +kernel⟩⟩

/-- States and operands that meet the hypotheses of `Obligations.SupplyAndClockFailures`, clause by clause. -/
theorem witness_SupplyAndClockFailures :
  ((∃ (s : State) (rail : Fin 8), s.boot.phase ≠ 0 ∧ s.pwr.trip = false ∧ rail.val ∉ [4, 6, 7])) ∧
  ((∃ (s : State) (u : State) (c : Fin 16) (mv : Fin 8192), s.boot.phase ≠ 0 ∧ u = ((s.put .PWR_RAIL_MON_MV mv.val 4).put .PWR_RAIL_MON_TRIP 1 4).put .PWR_RAIL_MON_CHAN c.val 4 ∧ u.inService c.val = true)) ∧
  ((∃ (s : State), s.pwr.crystal = true)) :=
  ⟨⟨awake, 0, by decide +kernel⟩,
   ⟨mapAwake, _, 3, 700, by decide +kernel, rfl, by decide +kernel⟩,
   ⟨{ awake with pwr := { awake.pwr with crystal := true } }, by decide +kernel⟩⟩

/-- States and operands that meet the hypotheses of `Obligations.BootAndResets`, clause by clause. -/
theorem witness_BootAndResets :
  ((∃ (s : State), s.boot.phase = 0 ∧ s.pwr.trip = false)) ∧
  ((∃ (s : State), s.boot.phase ≠ 0)) ∧
  ((∃ (s : State), s.boot.phase = 3 ∧ s.halt = none ∧ s.pwr.stopped = false ∧ s.get .PWR_STATE_PS ≠ 3)) ∧
  ((∃ (s : State), s.boot.phase = 3 ∧ s.halt = none ∧ s.pwr.stopped = false ∧ s.get .PWR_STATE_PS = 3)) ∧
  ((∃ (s : State), s.boot.phase = 1)) ∧
  ((∃ (s : State), s.boot.phase = 2)) ∧
  ((∃ (s : State) (n : Fin 48), s.boot.phase = 3 ∧ s.get .ENG_STS_STATE n.val = 0)) ∧
  ((∃ (s : State) (n : Fin 48), s.get .ENG_STS_STATE n.val = 1)) ∧
  ((∃ (s : State), s.boot.phase = 3 ∧ s.halt = none ∧ s.get .PWR_STATE_PS < 2 ∧ s.coh.trk = [] ∧ s.coh.twins = [])) :=
  ⟨⟨State.reset, by decide +kernel⟩,
   ⟨awake, by decide +kernel⟩,
   ⟨awake, by decide +kernel⟩,
   ⟨awake.put .PWR_STATE_PS 3, by decide +kernel⟩,
   ⟨{ awake with boot := { awake.boot with phase := 1 } }, by decide +kernel⟩,
   ⟨{ awake with boot := { awake.boot with phase := 2 } }, by decide +kernel⟩,
   ⟨awake, 7, by decide +kernel⟩,
   ⟨awake.put .ENG_STS_STATE 1 7, 7, by decide +kernel⟩,
   ⟨dirtyAwake, by decide +kernel⟩⟩

/-- States and operands that meet the hypotheses of `Obligations.CaravanCommands`, clause by clause. -/
theorem witness_CaravanCommands :
  (∃ (q : Req) (s s₁ : State),
    let p := cvnPortOf q
    Served { op := 0x0B00, priv := 0, mctp := true, output := true, fields := [fld 0x10 1] } q (firstBad [(0x10, decide (p ≤ 1))]) s s₁) ∧
  (∃ (q : Req) (s s₁ : State),
    let p := cvnPortOf q
    let a := par q 0x11 1
    Served { op := 0x0B01, priv := 2, fields := [fld 0x10 2] } q (firstBad [(0x10, decide (p ≤ 1)), (0x11, decide (a ≤ 3) && !(decide (2 ≤ a) && s.isSet .CVN_PORT_CFG_COMPAT p) && !(a == 2 && decide (2 ≤ (s.port p).badLanes.length)))]) s s₁ ∧ (a = 0) ∧ (s₁.get .CVN_LINK_STS_STATE p = 0) ∧ ((s₁.freeSlot).isSome = true)) ∧
  (∃ (q : Req) (s s₁ : State),
    let p := cvnPortOf q
    let a := par q 0x11 1
    Served { op := 0x0B01, priv := 2, fields := [fld 0x10 2] } q (firstBad [(0x10, decide (p ≤ 1)), (0x11, decide (a ≤ 3) && !(decide (2 ≤ a) && s.isSet .CVN_PORT_CFG_COMPAT p) && !(a == 2 && decide (2 ≤ (s.port p).badLanes.length)))]) s s₁ ∧ (a = 0) ∧ (s₁.get .CVN_LINK_STS_STATE p = 5) ∧ ((s₁.freeSlot).isSome = true)) ∧
  (∃ (q : Req) (s s₁ : State),
    let p := cvnPortOf q
    let a := par q 0x11 1
    Served { op := 0x0B01, priv := 2, fields := [fld 0x10 2] } q (firstBad [(0x10, decide (p ≤ 1)), (0x11, decide (a ≤ 3) && !(decide (2 ≤ a) && s.isSet .CVN_PORT_CFG_COMPAT p) && !(a == 2 && decide (2 ≤ (s.port p).badLanes.length)))]) s s₁ ∧ (a ≠ 0) ∧ (s₁.get .CVN_LINK_STS_STATE p = 5) ∧ ((s₁.freeSlot).isSome = true)) ∧
  (∃ (q : Req) (s s₁ : State),
    let p := cvnPortOf q
    Served { op := 0x0B02, priv := 2, fields := [fld 0x10 1, fbits 0x11 0 1] } q (firstBad [(0x10, decide (p ≤ 1))]) s s₁ ∧ (s₁.pg.pages.any (fun x => x.2.pl.tier == 4 && locPort x.2.pl.ma == p && x.2.pl.twk != 1) = false) ∧ (s₁.get .CVN_LINK_STS_STATE p = 1)) ∧
  (∃ (q : Req) (s s₁ : State),
    let p := cvnPortOf q
    Served { op := 0x0B02, priv := 2, fields := [fld 0x10 1, fbits 0x11 0 1] } q (firstBad [(0x10, decide (p ≤ 1))]) s s₁ ∧ (s₁.pg.pages.any (fun x => x.2.pl.tier == 4 && locPort x.2.pl.ma == p && x.2.pl.twk != 1) = false ∨ parBit q 0x11 0 = true) ∧ (s₁.get .CVN_LINK_STS_STATE p = 5)) ∧
  (∃ (q : Req) (s s₁ : State) (u : State),
    let p := cvnPortOf q
    Served { op := 0x0B03, priv := 2, fields := [fld 0x10 1, fbits 0x11 0 2, fld 0x12 1, fbits 0x14 0 31] } q (firstBad [(0x10, decide (p ≤ 1)), (0x12, decide (par q 0x12 1 ≤ 50))]) s s₁ ∧ (u = (((s₁.put .CVN_PORT_CFG_LEND_EN (b2n (parBit q 0x11 0)) p).put .CVN_PORT_CFG_BORROW_EN (b2n (parBit q 0x11 1)) p).put .CVN_PORT_CFG_LEND_PCT (par q 0x12 1) p).put .CVN_BORROW_MAX_MAX (par q 0x14 4) p)) ∧
  (∃ (q : Req) (s s₁ : State),
    let p := cvnPortOf q
    let mode := par q 0x11 1
    Served { op := 0x0B04, priv := 2, fields := [fld 0x10 2] ++ (if mode = 1 then [fld 0x18 4] else []) } q (firstBad [(0x10, decide (p ≤ 1)), (0x11, decide (mode ≤ 2))]) s s₁ ∧ (mode = 0) ∧ ((s₁.port p).loanB.isSome = true) ∧ (s₁.pg.pages = []) ∧ ((s₁.freeSlot).isSome = true)) ∧
  (∃ (q : Req) (s s₁ : State),
    let p := cvnPortOf q
    let mode := par q 0x11 1
    Served { op := 0x0B04, priv := 2, fields := [fld 0x10 2] ++ (if mode = 1 then [fld 0x18 4] else []) } q (firstBad [(0x10, decide (p ≤ 1)), (0x11, decide (mode ≤ 2))]) s s₁ ∧ (mode = 1) ∧ ((s₁.port p).loanL.isSome = true)) ∧
  (∃ (q : Req) (s s₁ : State),
    let p := cvnPortOf q
    let mode := par q 0x11 1
    Served { op := 0x0B04, priv := 2, fields := [fld 0x10 2] ++ (if mode = 1 then [fld 0x18 4] else []) } q (firstBad [(0x10, decide (p ≤ 1)), (0x11, decide (mode ≤ 2))]) s s₁ ∧ (mode = 2) ∧ ((s₁.port p).loanL.isSome = true) ∧ (s₁.portUp p = false)) ∧
  (∃ (q : Req) (s s₁ : State),
    let p := cvnPortOf q
    Served { op := 0x0B05, priv := 2, fields := [fld 0x10 1, fbits 0x11 0 1] } q (firstBad [(0x10, decide (p ≤ 1))]) s s₁ ∧ (s₁.get .CVN_LINK_STS_STATE p = 0 ∨ s₁.get .CVN_LINK_STS_STATE p = 7)) :=
  ⟨⟨ask 0x0B00 1, awake, _, ⟨by decide +kernel, rfl, by decide +kernel⟩⟩,
   ⟨ask 0x0B01 1, awake, _, ⟨by decide +kernel, rfl, by decide +kernel⟩, by decide +kernel⟩,
   ⟨ask 0x0B01 0, cvnUp, _, ⟨by decide +kernel, rfl, by decide +kernel⟩, by decide +kernel⟩,
   ⟨ask 0x0B01 0x300, cvnUp, _, ⟨by decide +kernel, rfl, by decide +kernel⟩, by decide +kernel⟩,
   ⟨ask 0x0B02 1, awake.put .CVN_LINK_STS_STATE 1 1, _, ⟨by decide +kernel, rfl, by decide +kernel⟩, by decide +kernel⟩,
   ⟨ask 0x0B02 0, cvnUp, _, ⟨by decide +kernel, rfl, by decide +kernel⟩, by decide +kernel⟩,
   ⟨ask 0x0B03 (0x0300 + 20 * 2 ^ 16 + 9 * 2 ^ 32), awake, _, _, ⟨by decide +kernel, rfl, by decide +kernel⟩, rfl⟩,
   ⟨ask 0x0B04 0, cvnUp { loanB := some 7, blocks := [3] }, _, ⟨by decide +kernel, rfl, by decide +kernel⟩, by decide +kernel⟩,
   ⟨ask 0x0B04 (0x100 + 5 * 2 ^ 64), lender, _, ⟨by decide +kernel, rfl, by decide +kernel⟩, by decide +kernel⟩,
   ⟨ask 0x0B04 0x200, lender.put .CVN_LINK_STS_STATE 7 0, _, ⟨by decide +kernel, rfl, by decide +kernel⟩, by decide +kernel⟩,
   ⟨ask 0x0B05 0x101, awake, _, ⟨by decide +kernel, rfl, by decide +kernel⟩, by decide +kernel⟩⟩

set_option maxRecDepth 100000 in
/-- States and operands that meet the hypotheses of `Obligations.ReceivedBales`, clause by clause. -/
theorem witness_ReceivedBales :
  ((∃ (s : State) (p : Fin 2) (raw : List Byte) (x : State × Option (BaleHead × List Byte)) (h : BaleHead) (payload : List Byte), s.halt = none ∧ s.lively p.val = true ∧ x = s.rxBytes p.val raw ∧ x.2 = some (h, payload) ∧ h.typ = 1)) ∧
  ((∃ (s : State) (p : Fin 2) (raw : List Byte) (x : State × Option (BaleHead × List Byte)) (h : BaleHead) (payload : List Byte), s.halt = none ∧ s.lively p.val = true ∧ x = s.rxBytes p.val raw ∧ x.2 = some (h, payload) ∧ h.typ = 2)) ∧
  ((∃ (s : State) (p : Fin 2) (raw : List Byte) (x : State × Option (BaleHead × List Byte)) (h : BaleHead) (payload : List Byte), s.halt = none ∧ s.lively p.val = true ∧ x = s.rxBytes p.val raw ∧ x.2 = some (h, payload) ∧ h.typ = 0)) ∧
  ((∃ (s : State) (p : Fin 2) (raw : List Byte) (x : State × Option (BaleHead × List Byte)) (h : BaleHead) (payload : List Byte), s.halt = none ∧ s.lively p.val = true ∧ x = s.rxBytes p.val raw ∧ x.2 = some (h, payload) ∧ h.typ = 3)) ∧
  ((∃ (s : State) (p : Fin 2) (raw : List Byte) (x : State × Option (BaleHead × List Byte)) (h : BaleHead) (payload : List Byte), s.halt = none ∧ (s.get .CVN_LINK_STS_STATE p.val = 2 ∨ s.get .CVN_LINK_STS_STATE p.val = 3) ∧ x = s.rxBytes p.val raw ∧ x.2 = some (h, payload) ∧ h.typ = 3)) ∧
  ((∃ (s : State) (p : Fin 2) (raw : List Byte) (x : State × Option (BaleHead × List Byte)), s.halt = none ∧ s.lively p.val = true ∧ x = s.rxBytes p.val raw ∧ x.2 = none)) ∧
  ((∃ (raw : List Byte), raw.length ≠ 256)) ∧
  ((∃ (s : State) (u : State) (p : Nat), s.lively p = true ∧ (s.port p).dropping = false ∧ u = (s.bump .CVN_CNT_CHK_DROP 0xFFFF p).report (msg1 bCvn p 0))) ∧
  ((∃ (s : State) (p : Nat), (s.port p).dropping = true)) ∧
  ((∃ (s : State) (u : State) (p : Nat) (h : BaleHead) (payload : List Byte), (s.port p).dropping = false ∧ (s.port p).bodyOf h payload = none ∧ u = (s.bump .CVN_CNT_AUTH_DROP 0xFFFF p).report (msg1 bCvn p 1))) ∧
  ((∃ (s : State) (p : Nat) (h : BaleHead) (payload : List Byte) (body : List Byte), (s.port p).dropping = false ∧ (s.port p).bodyOf h payload = some body ∧ h.pool = false)) ∧
  ((∃ (s : State) (u : State) (v : State) (p : Nat) (h : BaleHead) (body : List Byte) (bad : Option Nat), h.enc = false ∧ (s.port p).rxAt = (s.port p).rcvd ∧ u = ((s.setPort p { s.port p with rxAt := (s.port p).rxAt + 1, rcvd := (s.port p).rcvd + 1 }).count (.port p) 0x02 1 none).takeBody p h body ∧ u.lively p = true ∧ v = u.rxHead p h bad ∧ v.keyWorn p = false)) ∧
  ((∃ (s : State) (p : Nat) (back : Nat) (h : BaleHead), back = ((s.port p).rcvd + 4096 - h.xseq) % 4096 ∧ back ≤ 511 ∧ back ≤ (s.port p).rcvd)) ∧
  ((∃ (s : State) (p : Nat) (h : BaleHead), s.lively p = false ∧ h.lcode = 2)) ∧
  ((∃ (s : State) (p : Nat) (id : Nat), s.get .CVN_LINK_STS_STATE p = 2 ∧ id ≠ Config.deviceId)) ∧
  ((∃ (s : State) (p : Nat), s.get .CVN_LINK_STS_STATE p = 2)) ∧
  ((∃ (s : State) (p : Nat) (h : BaleHead), s.lively p = false ∧ h.lcode = 3)) ∧
  ((∃ (s : State) (u : State) (p : Nat) (h : BaleHead) (bad : Option Nat), s.lively p = true ∧ h.lcode = 0x10 ∧ u = s.rxHead p h bad ∧ u.portUp p = true ∧ (u.port p).linkOp = none)) :=
  ⟨⟨cvnUp, 0, dataBale, _, baleHeadOf dataBale, (dataBale.drop 12).take 228, by decide +kernel, by decide +kernel, rfl, by decide +kernel⟩,
   ⟨cvnUp, 0, replayBale, _, baleHeadOf replayBale, (replayBale.drop 12).take 228, by decide +kernel, by decide +kernel, rfl, by decide +kernel⟩,
   ⟨cvnUp, 0, idleBale, _, baleHeadOf idleBale, (idleBale.drop 12).take 228, by decide +kernel, by decide +kernel, rfl, by decide +kernel⟩,
   ⟨cvnUp, 0, linkBale, _, baleHeadOf linkBale, (linkBale.drop 12).take 228, by decide +kernel, by decide +kernel, rfl, by decide +kernel⟩,
   ⟨(awake.put .CVN_LINK_STS_STATE 2 0), 0, identBale, _, baleHeadOf identBale, (identBale.drop 12).take 228, by decide +kernel, by decide +kernel, rfl, by decide +kernel⟩,
   ⟨cvnUp, 0, [1, 2], _, by decide +kernel, by decide +kernel, rfl, by decide +kernel⟩,
   ⟨[1, 2], by decide +kernel⟩,
   ⟨cvnUp, _, 0, by decide +kernel, by decide +kernel, rfl⟩,
   ⟨cvnUp { dropping := true }, 0, by decide +kernel⟩,
   ⟨cvnUp, _, 0, { typ := 1, som := true, vlen := 4 }, [1, 2, 3, 4], by decide +kernel, by decide +kernel, rfl⟩,
   ⟨cvnUp, 0, { typ := 1, vc := 3, som := true, eom := true, vlen := 2 }, [7, 0, 9, 9], [7, 0], by decide +kernel⟩,
   ⟨cvnUp, _, _, 0, { typ := 1, vc := 3, som := true, eom := true, vlen := 2 }, [7, 0], none, rfl, by decide +kernel, rfl, by decide +kernel, rfl, by decide +kernel⟩,
   ⟨cvnUp { rcvd := 5 }, 0, 2, { typ := 2, xseq := 3 }, by decide +kernel⟩,
   ⟨awake, 0, { typ := 3, lcode := 2 }, by decide +kernel⟩,
   ⟨awake.put .CVN_LINK_STS_STATE 2 0, 0, Config.deviceId + 1, by decide +kernel, by simp⟩,
   ⟨awake.put .CVN_LINK_STS_STATE 2 0, 0, by decide +kernel⟩,
   ⟨awake, 0, { typ := 3, lcode := 3 }, by decide +kernel⟩,
   ⟨cvnUp, _, 0, { typ := 3, lcode := 16 }, none, by decide +kernel, rfl, rfl, by decide +kernel⟩⟩

/-- States and operands that meet the hypotheses of `Obligations.LinkEvents`, clause by clause. -/
theorem witness_LinkEvents :
  ((∃ (s : State) (p : Fin 2), s.halt = none ∧ s.get .CVN_LINK_STS_STATE p.val = 1)) ∧
  ((∃ (s : State) (p : Fin 2), s.halt = none ∧ s.get .CVN_LINK_STS_STATE p.val = 4 ∧ (s.port p.val).keyed = true ∧ (s.port p.val).peerSync.isSome = true ∧ (s.port p.val).waits = [] ∧ (s.port p.val).giving = [])) ∧
  ((∃ (s : State) (p : Fin 2), s.halt = none ∧ s.portUp p.val = true ∧ (s.port p.val).unacked ≠ [])) ∧
  ((∃ (s : State) (p : Fin 2), s.get .CVN_LINK_STS_STATE p.val = 2)) ∧
  ((∃ (s : State) (p : Fin 2), s.get .CVN_LINK_STS_STATE p.val = 3)) ∧
  ((∃ (s : State) (p : Fin 2) (code : Nat) (arg : Nat), s.get .CVN_LINK_STS_STATE p.val = 5 ∧ (s.port p.val).linkOp = some (code, arg, true))) ∧
  ((∃ (s : State) (p : Fin 2) (code : Nat) (arg : Nat) (mine : Bool), s.get .CVN_LINK_STS_STATE p.val = 6 ∧ s.halt = none ∧ (s.port p.val).linkOp = some (code, arg, mine))) ∧
  ((∃ (s : State) (p : Fin 2), s.halt = none ∧ s.portUp p.val = true ∧ (s.port p.val).badLanes = [])) ∧
  ((∃ (s : State) (p : Fin 2), s.portUp p.val = true)) ∧
  ((∃ (s : State) (p : Fin 2), s.portUp p.val = true ∧ s.isSet .CVN_LINK_STS_COMPAT_ACT p.val = true ∧ (s.port p.val).sendQ ≠ [])) :=
  ⟨⟨awake.put .CVN_LINK_STS_STATE 1 0, 0, by decide +kernel⟩,
   ⟨(awake.put .CVN_LINK_STS_STATE 4 0).setPort 0 { txKey := some { key := [], salt := [] }, peerSync := some (0, 0) }, 0, by decide +kernel⟩,
   ⟨cvnUp { unacked := [{ vc := 0, body := [], som := true, eom := true, msg := { op := 1 } }] }, 0, by decide +kernel⟩,
   ⟨awake.put .CVN_LINK_STS_STATE 2 0, 0, by decide +kernel⟩,
   ⟨awake.put .CVN_LINK_STS_STATE 3 0, 0, by decide +kernel⟩,
   ⟨cvnUp { linkOp := some (16, 0, true) }, 0, 16, 0, by decide +kernel, rfl⟩,
   ⟨(cvnUp { linkOp := some (16, 0, true) }).put .CVN_LINK_STS_STATE 6 0, 0, 16, 0, true, by decide +kernel, rfl, rfl⟩,
   ⟨cvnUp, 0, by decide +kernel⟩,
   ⟨cvnUp, 0, by decide +kernel⟩,
   ⟨(cvnUp { sendQ := [{ vc := 0, body := [], som := true, eom := true, msg := { op := 1 } }] }).put .CVN_LINK_STS_COMPAT_ACT 1 0, 0, by decide +kernel⟩⟩

/-- States and operands that meet the hypotheses of `Obligations.LenderMessages`, clause by clause. -/
theorem witness_LenderMessages :
  ((∃ (s : State) (u : State) (p : Fin 2) (y : CvnMsg × State), s.halt = none ∧ s.portUp p.val = true ∧ s.nextMsg p.val 2 = some y ∧ u = y.2.wakeMem.underFor { master := some (mCvn p.val), priv := 3, lpn := lpnEnd, cls := y.2.get .CVN_PORT_CFG_LCLASS p.val, tier := 6 } 0)) ∧
  ((∃ (s : State) (u : State) (p : Fin 2) (y : CvnMsg × State), s.halt = none ∧ s.portUp p.val = true ∧ s.nextMsg p.val 3 = some y ∧ u = y.2.wakeMem.underFor { master := some (mCvn p.val), priv := 3, lpn := lpnEnd, cls := y.2.get .CVN_PORT_CFG_LCLASS p.val, tier := 6 } 0)) ∧
  ((∃ (s : State) (u : State) (p : Fin 2) (y : CvnMsg × State), s.halt = none ∧ s.portUp p.val = true ∧ s.nextMsg p.val 1 = some y ∧ u = y.2.wakeMem.underFor { master := some (mCvn p.val), priv := 3, lpn := lpnEnd, cls := y.2.get .CVN_PORT_CFG_LCLASS p.val, tier := 6 } 0)) ∧
  ((∃ (s : State) (u : State) (p : Fin 2) (y : CvnMsg × State), s.halt = none ∧ s.portUp p.val = true ∧ s.nextMsg p.val 4 = some y ∧ u = y.2.wakeMem.underFor { master := some (mCvn p.val), priv := 3, lpn := lpnEnd, cls := y.2.get .CVN_PORT_CFG_LCLASS p.val, tier := 6 } 0)) ∧
  ((∃ (s : State) (u : State) (p : Fin 2) (y : CvnMsg × State), s.halt = none ∧ s.portUp p.val = true ∧ s.nextMsg p.val 5 = some y ∧ u = y.2.wakeMem.underFor { master := some (mCvn p.val), priv := 3, lpn := lpnEnd, cls := y.2.get .CVN_PORT_CFG_LCLASS p.val, tier := 6 } 0)) ∧
  ((∃ (s : State) (p : Nat) (pos : Nat) (m : CvnMsg) (data : List Byte) (b : LentBlock), payloadOf m (m.lloc % 16 * 256 + m.off) = some (data, []) ∧ loanRange (s.port p) m.lloc m.off data.length = some (b, pos) ∧ m.rawf = false)) ∧
  ((∃ (s : State) (p : Nat) (m : CvnMsg) (data : List Byte) (tags : List Nat), payloadOf m (m.lloc % 16 * 256 + m.off) = some (data, tags) ∧ loanRange (s.port p) m.lloc m.off data.length = none)) ∧
  ((∃ (s : State) (p : Nat) (pos : Nat) (m : CvnMsg) (b : LentBlock) (errs : List (Nat × ReadErr)) (x : State × List LineOut), loanRange (s.port p) m.lloc m.off m.arg = some (b, pos) ∧ b.rawf = false ∧ x = s.loanReads p b errs (linesAt pos m.arg) ∧ x.2.any (fun r => r.out == .uncorrectable || r.out == .address) = false)) ∧
  ((∃ (s : State) (p : Nat) (m : CvnMsg), loanRange (s.port p) m.lloc m.off m.arg = none)) ∧
  ((∃ (s : State) (p : Nat) (hint : Nat) (m : CvnMsg) (nums : List Nat) (x : State × Nat), s.keptAt p m.tid = none ∧ blocksOf m = some nums ∧ x = s.grantBlocks p hint nums 0 ∧ (x.1.port p).loanL.isSome = true ∧ 0 < x.2)) ∧
  ((∃ (s : State) (p : Nat) (st : Nat) (n : Nat) (m : CvnMsg), s.keptAt p m.tid = some (st, n))) ∧
  ((∃ (s : State) (u : State) (p : Nat) (m : CvnMsg) (b : LentBlock), s.keptAt p m.tid = none ∧ blocksOf m = some [b.block] ∧ (s.port p).lent = [b] ∧ u = (s.freeBlock p b).put .CVN_LEND_STS_ASKED ((s.freeBlock p b).get .CVN_LEND_STS_ASKED p - 1) p ∧ (u.port p).lent = [])) :=
  ⟨⟨withMsg lender { op := 2, tid := 9, lloc := 33, off := 4, data := [1, 2, 3] }, _, 0, _, by decide +kernel, by decide +kernel, (Option.some_get (by decide +kernel)).symm, rfl⟩,
   ⟨withMsg lender { op := 3, tid := 9, lloc := 33, off := 4, data := [1, 2, 3] }, _, 0, _, by decide +kernel, by decide +kernel, (Option.some_get (by decide +kernel)).symm, rfl⟩,
   ⟨withMsg lender { op := 1, tid := 9, lloc := 33, off := 4, arg := 8 }, _, 0, _, by decide +kernel, by decide +kernel, (Option.some_get (by decide +kernel)).symm, rfl⟩,
   ⟨withMsg lender { op := 4, tid := 9, arg := 1, data := blockData [2] }, _, 0, _, by decide +kernel, by decide +kernel, (Option.some_get (by decide +kernel)).symm, rfl⟩,
   ⟨withMsg lender { op := 5, tid := 9, arg := 1, data := blockData [2] }, _, 0, _, by decide +kernel, by decide +kernel, (Option.some_get (by decide +kernel)).symm, rfl⟩,
   ⟨lender, 0, 260, { op := 2, lloc := 33, off := 4, data := [1, 2, 3] }, [1, 2, 3], { block := 2, ma := 64 }, by decide +kernel⟩,
   ⟨lender, 0, { op := 2, lloc := 133, off := 4, data := [1, 2, 3] }, [1, 2, 3], [], by decide +kernel⟩,
   ⟨lender, 0, 260, { op := 1, lloc := 33, off := 4, arg := 8 }, { block := 2, ma := 64 }, [], _, by decide +kernel, by decide +kernel, rfl, by decide +kernel⟩,
   ⟨lender, 0, { op := 1, lloc := 133, off := 4, arg := 8 }, by decide +kernel⟩,
   ⟨lender, 0, 0, { op := 4, tid := 9, arg := 1, data := blockData [2] }, [2], _, by decide +kernel, by decide +kernel, rfl, by decide +kernel⟩,
   ⟨cvnUp { kept := [(9, 0, 3)] }, 0, 0, 3, { op := 4, tid := 9 }, by decide +kernel⟩,
   ⟨lender, _, 0, { op := 5, tid := 9, arg := 1, data := blockData [2] }, { block := 2, ma := 64 }, by decide +kernel, by decide +kernel, by decide +kernel, rfl, by decide +kernel⟩⟩

/-- States and operands that meet the hypotheses of `Obligations.BorrowerMessages`, clause by clause. -/
theorem witness_BorrowerMessages :
  ((∃ (s : State) (u : State) (p : Fin 2) (y : CvnMsg × State) (w : CvnWait), s.halt = none ∧ s.portUp p.val = true ∧ s.nextMsg p.val 130 = some y ∧ u = y.2.wakeMem.underFor { master := some (mCvn p.val), priv := 3, lpn := lpnEnd, cls := y.2.get .CVN_PORT_CFG_LCLASS p.val, tier := 6 } 0 ∧ u.waitOf p.val y.1.tid (fun op => op == 2 || op == 3) = some w ∧ y.1.status ≠ 3)) ∧
  ((∃ (m : CvnMsg) (w : CvnWait), w.use ≠ 2 ∧ m.status = 0)) ∧
  ((∃ (s : State) (m : CvnMsg) (w : CvnWait), w.use = 2 ∧ m.status = 0 ∧ s.coh.twins.any (fun t => t.sector == w.arg && t.sent == some w.tid) = true)) ∧
  ((∃ (s : State) (u : State) (v : State) (p : Fin 2) (y : CvnMsg × State) (w : CvnWait) (c : CvnPort), s.halt = none ∧ s.portUp p.val = true ∧ s.nextMsg p.val 132 = some y ∧ u = y.2.wakeMem.underFor { master := some (mCvn p.val), priv := 3, lpn := lpnEnd, cls := y.2.get .CVN_PORT_CFG_LCLASS p.val, tier := 6 } 0 ∧ u.waitOf p.val y.1.tid (· == 4) = some w ∧ y.1.status ≠ 3 ∧ v = u.waitDone p.val y.1.tid ∧ c = { v.port p.val with blocks := (v.port p.val).blocks ++ w.nums.take y.1.arg })) ∧
  ((∃ (s : State) (u : State) (p : Fin 2) (y : CvnMsg × State) (w : CvnWait), s.halt = none ∧ s.portUp p.val = true ∧ s.nextMsg p.val 133 = some y ∧ u = y.2.wakeMem.underFor { master := some (mCvn p.val), priv := 3, lpn := lpnEnd, cls := y.2.get .CVN_PORT_CFG_LCLASS p.val, tier := 6 } 0 ∧ u.waitOf p.val y.1.tid (· == 5) = some w ∧ y.1.status ≠ 3)) ∧
  ((∃ (s : State) (u : State) (p : Fin 2) (y : CvnMsg × State) (w : CvnWait), s.halt = none ∧ s.portUp p.val = true ∧ s.nextMsg p.val 129 = some y ∧ u = y.2.wakeMem.underFor { master := some (mCvn p.val), priv := 3, lpn := lpnEnd, cls := y.2.get .CVN_PORT_CFG_LCLASS p.val, tier := 6 } 0 ∧ u.waitOf p.val y.1.tid (· == 1) = some w ∧ y.1.status ≠ 3)) ∧
  ((∃ (s : State) (u : State) (p : Fin 2) (y : CvnMsg × State) (w : CvnWait), s.halt = none ∧ s.portUp p.val = true ∧ s.nextMsg p.val 129 = some y ∧ u = y.2.wakeMem.underFor { master := some (mCvn p.val), priv := 3, lpn := lpnEnd, cls := y.2.get .CVN_PORT_CFG_LCLASS p.val, tier := 6 } 0 ∧ u.waitOf p.val y.1.tid (· == 1) = some w ∧ y.1.status = 3)) ∧
  ((∃ (s : State) (u : State) (v : State) (p : Nat) (m : CvnMsg) (w : CvnWait) (t : Trk), u = s.waitDone p m.tid ∧ u.trkOf w.arg = some t ∧ m.poison = true ∧ v = u.coh' (fun c => { c with suspects := c.suspects.filter (fun x => x.1 != w.arg) }))) ∧
  ((∃ (s : State) (p : Fin 2) (tid : Fin 65536) (w : CvnWait), s.halt = none ∧ s.portUp p.val = true ∧ s.waitOf p.val tid.val (fun _ => true) = some w ∧ w.tries < 3)) ∧
  ((∃ (s : State) (p : Fin 2) (tid : Fin 65536) (w : CvnWait), s.halt = none ∧ s.portUp p.val = true ∧ s.waitOf p.val tid.val (fun _ => true) = some w ∧ 3 ≤ w.tries)) ∧
  ((∃ (s : State) (u : State) (p : Fin 2) (y : CvnMsg × State), s.halt = none ∧ s.portUp p.val = true ∧ s.nextMsg p.val 8 = some y ∧ u = y.2.wakeMem.underFor { master := some (mCvn p.val), priv := 3, lpn := lpnEnd, cls := y.2.get .CVN_PORT_CFG_LCLASS p.val, tier := 6 } 0)) ∧
  ((∃ (s : State) (p : Nat) (lloc : Nat) (v : Nat), tget lloc (s.port p).uses = some v ∧ (s.page (v / 2)).pl.twk = 1)) ∧
  ((∃ (s : State) (u : State) (p : Fin 2) (y : CvnMsg × State), s.halt = none ∧ s.portUp p.val = true ∧ s.nextMsg p.val 9 = some y ∧ u = y.2.wakeMem.underFor { master := some (mCvn p.val), priv := 3, lpn := lpnEnd, cls := y.2.get .CVN_PORT_CFG_LCLASS p.val, tier := 6 } 0)) ∧
  ((∃ (s : State) (p : Fin 2) (y : CvnMsg × State), (s.port p.val).keyed = true ∧ s.sessionMsg p.val 6 = some y ∧ y.1.data.length = 16)) ∧
  ((∃ (s : State) (u : State) (p : Nat) (asB : Nat) (asL : Nat), u = s.setPort p { s.port p with peerSync := some (asB, asL) } ∧ (u.port p).loanB = none ∧ (u.port p).loanL = none)) ∧
  ((∃ (s : State) (u : State) (p : Nat) (asB : Nat) (asL : Nat) (id : Nat), u = s.setPort p { s.port p with peerSync := some (asB, asL) } ∧ (u.port p).loanB = some id ∧ id ≠ asL ∧ ((u.loseLoan p).port p).loanL = none)) ∧
  ((∃ (s : State) (p : Fin 2) (y : CvnMsg × State) (reply : List Byte), s.sessionMsg p.val 7 = some y ∧ reply ≠ [])) ∧
  ((∃ (s : State) (p : Fin 2), s.halt = none ∧ s.portUp p.val = false ∧ (s.port p.val).loanB.isSome = true)) ∧
  ((∃ (s : State) (u : State) (p : Fin 2) (line : LineNo) (t : Trk), s.halt = none ∧ s.portUp p.val = false ∧ (s.port p.val).held.contains line.val = true ∧ u = s.setPort p.val { s.port p.val with held := (s.port p.val).held.filter (fun l => l != line.val), waits := (s.port p.val).waits.filter (fun w => !(w.use == 0 && w.arg == line.val)) } ∧ u.trkOf line.val = some t ∧ t.req.head.isSome = true)) :=
  ⟨⟨withMsg (cvnUp { waits := [cvnWait 2 1] }) { op := 0x82, tid := 9 }, _, 0, _, cvnWait 2 1, by decide +kernel, by decide +kernel, (Option.some_get (by decide +kernel)).symm, rfl, by decide +kernel⟩,
   ⟨{ op := 0x82, tid := 9 }, cvnWait 2 1, by decide +kernel⟩,
   ⟨(cvnUp { waits := [cvnWait 3 2] }).coh' (fun c => { c with twins := [{ sector := 0, sent := some 9 }] }), { op := 0x82, tid := 9 }, cvnWait 3 2, by decide +kernel⟩,
   ⟨withMsg (cvnUp { waits := [cvnWait 4 3 [7, 8]] }) { op := 0x84, tid := 9, arg := 1 }, _, _, 0, _, cvnWait 4 3 [7, 8], _, by decide +kernel, by decide +kernel, (Option.some_get (by decide +kernel)).symm, rfl, by decide +kernel, by decide +kernel, rfl, rfl⟩,
   ⟨withMsg (cvnUp { waits := [cvnWait 5 4 [7]] }) { op := 0x85, tid := 9 }, _, 0, _, cvnWait 5 4 [7], by decide +kernel, by decide +kernel, (Option.some_get (by decide +kernel)).symm, rfl, by decide +kernel⟩,
   ⟨withMsg (cvnUp { waits := [cvnWait 1 0] }) { op := 0x81, tid := 9 }, _, 0, _, cvnWait 1 0, by decide +kernel, by decide +kernel, (Option.some_get (by decide +kernel)).symm, rfl, by decide +kernel⟩,
   ⟨withMsg (cvnUp { waits := [cvnWait 1 0] }) { op := 0x81, tid := 9, status := 3 }, _, 0, _, cvnWait 1 0, by decide +kernel, by decide +kernel, (Option.some_get (by decide +kernel)).symm, rfl, by decide +kernel⟩,
   ⟨(cvnUp { waits := [cvnWait 1 0 [] 320] }).putTrk 320 { req := { agent := 14, line := 320, kind := .readS }, lender := some 0 }, _, _, 0, { op := 0x81, tid := 9, poison := true }, cvnWait 1 0 [] 320, { req := { agent := 14, line := 320, kind := .readS }, lender := some 0 }, rfl, by decide +kernel, by decide +kernel, rfl⟩,
   ⟨cvnUp { waits := [cvnWait 5 4 [7]] }, 0, 9, cvnWait 5 4 [7], by decide +kernel⟩,
   ⟨cvnUp { waits := [{ cvnWait 5 4 [7] with tries := 3 }] }, 0, 9, { cvnWait 5 4 [7] with tries := 3 }, by decide +kernel⟩,
   ⟨withMsg cvnUp { op := 8, lloc := 33 }, _, 0, _, by decide +kernel, by decide +kernel, (Option.some_get (by decide +kernel)).symm, rfl⟩,
   ⟨{ pageAwake.put .CVN_LINK_STS_STATE 5 0 with cvn := ⟨[(0, { uses := [(33, 10)] })]⟩ }, 0, 33, 10, by decide +kernel⟩,
   ⟨withMsg (cvnUp { blocks := [3] }) { op := 9, arg := 1 }, _, 0, _, by decide +kernel, by decide +kernel, (Option.some_get (by decide +kernel)).symm, rfl⟩,
   ⟨withMsg (cvnUp { txKey := some { key := [], salt := [] } }) { op := 6, data := List.replicate 16 0 }, 0, _, by decide +kernel, (Option.some_get (by decide +kernel)).symm, by decide +kernel⟩,
   ⟨cvnUp, _, 0, 5, 6, rfl, by decide +kernel⟩,
   ⟨cvnUp { loanB := some 7 }, _, 0, 5, 6, 7, rfl, by decide +kernel⟩,
   ⟨withMsg cvnUp { op := 7, data := [1] }, 0, _, [5], (Option.some_get (by decide +kernel)).symm, by decide⟩,
   ⟨awake.setPort 0 { loanB := some 7 }, 0, by decide +kernel⟩,
   ⟨(awake.setPort 0 { held := [320] }).putTrk 320 { req := { agent := 0, line := 320, kind := .readS, head := some (0, 3) }, lender := some 0 }, _, 0, 320, { req := { agent := 0, line := 320, kind := .readS, head := some (0, 3) }, lender := some 0 }, by decide +kernel, by decide +kernel, by decide +kernel, rfl, by decide +kernel⟩⟩

/-- States and operands that meet the hypotheses of `Obligations.StepRunsTheFrontCommand`, clause by clause. -/
theorem witness_StepRunsTheFrontCommand :
  ((∃ (s : State) (c : Instr) (rest : List Instr), s.pending = c :: rest)) :=
  ⟨{ awake with pending := [.sysNop (ask 0x0101)] }, .sysNop (ask 0x0101), [], rfl⟩

/-- States and operands that meet the hypotheses of `Obligations.AnEmptyQueueLetsTimePass`, clause by clause. -/
theorem witness_AnEmptyQueueLetsTimePass :
  ((∃ (s : State), s.pending = [])) ∧
  ((∃ (s : State), (∀ p < 2, s.get .CVN_LINK_STS_STATE p ≠ 4 ∧ s.portUp p = false))) ∧
  ((∃ (s : State), s.portUp 0 = true ∧ s.portUp 1 = true)) ∧
  ((∃ (s : State), (∀ c < 16, s.chState c ≠ 2 ∧ s.chState c ≠ 4))) ∧
  ((∃ (s : State) (c : Nat), c < 16 ∧ s.chState c = 2 ∧ (∀ d < 16, d ≠ c → s.chState d ≠ 2 ∧ s.chState d ≠ 4))) :=
  ⟨⟨awake, rfl⟩,
   ⟨awake, by decide⟩,
   ⟨(cvnUp.put .CVN_LINK_STS_STATE 5 1).setPort 1 {}, by decide +kernel⟩,
   ⟨State.reset, by decide +kernel⟩,
   ⟨State.reset.put .MEM_CH_STS_STATE 2 3, 3, by decide +kernel⟩⟩

/-- States and operands that meet the hypotheses of `Obligations.EveryStepKeepsTheInvariant`, clause by clause. -/
theorem witness_EveryStepKeepsTheInvariant :
  (∃ s t : State, s.Inv ∧ step s = .next t) :=
  ⟨awake, awake.tickLinks, ⟨by decide, by decide, by decide, by decide⟩, rfl⟩

/-- States and operands that meet the hypotheses of `Obligations.HomeSliceOfAPage`, clause by clause. -/
theorem witness_HomeSliceOfAPage :
  ((∃ (s : State), s.mem.disabledSlices = [])) ∧
  ((∃ (s : State) (t : State), s.mem.disabledSlices = t.mem.disabledSlices)) :=
  ⟨⟨awake, rfl⟩,
   ⟨awake, pageAwake, rfl⟩⟩

/-- States and operands that meet the hypotheses of `Obligations.InterleaveIsOneToOne`, clause by clause. -/
theorem witness_InterleaveIsOneToOne :
  ((∃ (s : State) (ma : Nat) (b : Nat), ma < 2 ^ 36 ∧ b = s.grainB)) ∧
  ((∃ (c : Nat) (loc : Nat), c < 16 ∧ loc < 2 ^ 32)) :=
  ⟨⟨awake, 2 ^ 36 - 1, 4, by decide +kernel⟩,
   ⟨15, 2 ^ 32 - 1, by decide +kernel⟩⟩

/-- States and operands that meet the hypotheses of `Obligations.StoredSectorsDecode`, clause by clause. -/
theorem witness_StoredSectorsDecode :
  ((∃ (sec : List Byte), sec.length = 512)) ∧
  ((∃ (mode : Nat) (sec : List Byte), (mode = 4 ∨ mode = 5 ∨ mode = 6) ∧ sec.length = 512)) ∧
  (∃ (m : Byte) (rest : List Byte), m.toNat = 0 ∧ rest.length ≠ 512) :=
  ⟨⟨List.replicate 512 7, by decide +kernel⟩,
   ⟨5, List.replicate 512 7, by decide +kernel⟩,
   ⟨0, [], by decide, by decide⟩⟩

/-- States and operands that meet the hypotheses of `Obligations.ModelWithTooFewDiodes`, clause by clause. -/
theorem witness_ModelWithTooFewDiodes :
  ((∃ (s : State), s.fabOn = true)) ∧
  ((∃ (s : State) (u : State) (t : List Int) (d : Nat) (l : List Nat), s.fabOn = true ∧ ((List.range 24).filter (fun d => u.isSet .THM_DIODE_HEALTHY d)) = d :: l ∧ l.length < 3 ∧ exec (.diodeCalibration t) s = .next u)) ∧
  ((∃ (s : State) (u : State) (t : List Int), s.fabOn = true ∧ ((List.range 24).filter (fun d => u.isSet .THM_DIODE_HEALTHY d)) = [] ∧ exec (.diodeCalibration t) s = .next u)) ∧
  ((∃ (s : State), s.alive = true ∧ s.get .PWR_STATE_PS < 2 ∧ s.get .THM_STS_MODEL = 2)) :=
  ⟨⟨awake, by decide +kernel⟩,
   ⟨hotAwake, calib hotAwake [640, 648], [640, 648], 0, [1], by decide +kernel, by decide +kernel, by decide +kernel, rfl⟩,
   ⟨coldAwake, calib coldAwake [], [], by decide +kernel, by decide +kernel, rfl⟩,
   ⟨awake.put .THM_STS_MODEL 2, by decide +kernel⟩⟩

/-- States and operands that meet the hypotheses of `Obligations.RequestChecks`, clause by clause. -/
theorem witness_RequestChecks :
  ((∃ (s : State) (u : State) (info : CmdInfo) (q : Req) (bad : Option Nat) (deny : Option (Nat × Nat)) (st : Nat) (d : Nat), s.takes q = true ∧ u = s.asked info q ∧ u.check info q bad deny = some (st, d))) ∧
  ((∃ (s : State) (q : Req), s.takes q = false)) ∧
  ((∃ (s : State) (u : State) (info : CmdInfo) (q : Req) (bad : Option Nat) (deny : Option (Nat × Nat)), s.takes q = true ∧ u = s.asked info q ∧ u.check info q bad deny = none ∧ u.fifth q = true)) ∧
  (∃ (q : Req) (q₂ : Req), onRing q = false ∧ (∃ h, q.origin = .mailbox h) ∧ (∃ e b n, q₂.origin = .mctp e b n)) ∧
  ((∃ (q : Req) (h : Fin 8) (r : Fin 64), q.origin = .ring h r ∧ q.hver ≠ 1)) ∧
  ((∃ (q : Req) (h : Fin 8) (r : Fin 64), q.origin = .ring h r ∧ q.hver = 1 ∧ opcodes.contains q.opcode = false)) ∧
  ((∃ (info : CmdInfo) (q : Req) (h : Fin 8), q.origin = .mailbox h ∧ q.opcode = info.op ∧ q.payload.length = q.plen ∧ q.hver = 1 ∧ info.mbox = false)) ∧
  ((∃ (info : CmdInfo) (q : Req) (eid : Fin 256) (st : Bool) (n : Nat), q.origin = .mctp eid st n ∧ q.payload.length = q.plen ∧ q.hver = 1 ∧ info.mctp = false)) ∧
  ((∃ (s : State) (info : CmdInfo) (q : Req) (h : Fin 8) (r : Fin 64), q.origin = .ring h r ∧ q.hver = 1 ∧ opcodes.contains q.opcode = true ∧ s.priv q.origin < info.priv ∧ info.op ≠ 0x0201)) ∧
  ((∃ (s : State) (info : CmdInfo) (q : Req) (h : Fin 8) (r : Fin 64) (seq : Nat), q.origin = .ring h r ∧ q.hver = 1 ∧ opcodes.contains q.opcode = true ∧ info.priv ≤ s.priv q.origin ∧ s.priv q.origin ≠ 1 ∧ s.halt = some seq ∧ info.op ≠ 0x0700 ∧ info.op ≠ 0x0D01 ∧ info.op ≠ 0x0100)) ∧
  ((∃ (s : State) (info : CmdInfo) (q : Req) (h : Fin 8) (r : Fin 64), q.origin = .ring h r ∧ q.hver = 1 ∧ opcodes.contains q.opcode = true ∧ info.priv ≤ s.priv q.origin ∧ s.priv q.origin ≠ 1 ∧ s.halt = none ∧ s.get .HPT_DEV_STS_STATUS 0 = stPending ∧ info.op ≠ 0x0100 ∧ info.op ≠ 0x0101)) ∧
  ((∃ (s : State) (info : CmdInfo) (q : Req) (h : Fin 8) (r : Fin 64), q.origin = .ring h r ∧ q.hver = 1 ∧ opcodes.contains q.opcode = true ∧ info.priv ≤ s.priv q.origin ∧ s.priv q.origin ≠ 1 ∧ s.halt = none ∧ s.get .HPT_DEV_STS_STATUS 0 = stCfgInvalid ∧ info.op / 256 ≠ 1 ∧ info.op / 256 ≠ 2 ∧ info.op / 256 ≠ 0x10 ∧ info.op / 256 ≠ 0x0D)) ∧
  ((∃ (s : State) (info : CmdInfo) (q : Req) (h : Fin 8) (r : Fin 64), q.origin = .ring h r ∧ q.hver = 1 ∧ opcodes.contains q.opcode = true ∧ info.priv ≤ s.priv q.origin ∧ s.priv q.origin ≠ 1 ∧ s.stateCheck info.op = none ∧ badHeader info q = none ∧ reservedAt (info.fields ++ ptrFields q) q = none)) :=
  ⟨⟨awake, _, { op := 0x0101, priv := 0 }, { ask 0x0101 with hver := 2 }, none, none, stBadParam, 3, by decide +kernel, rfl, by decide +kernel⟩,
   ⟨State.reset, ask 0x0101, by decide +kernel⟩,
   ⟨{ awake with pyx := { awake.pyx with mctp := [(9, 4)] } }, _, { op := 0x0101, priv := 0, mctp := true }, { ask 0x0101 with origin := .mctp 9 true 0 }, none, none, by decide +kernel, rfl, by decide +kernel⟩,
   ⟨ask 0x0101, { ask 0x0101 with origin := .mctp 9 true 0 }, rfl, ⟨0, rfl⟩, ⟨9, true, 0, rfl⟩⟩,
   ⟨{ onRing0 (ask 0x0101) with hver := 2 }, 0, 0, by decide +kernel⟩,
   ⟨onRing0 (ask 0x0BFF), 0, 0, by decide +kernel⟩,
   ⟨{ op := 0x0601, priv := 1, mbox := false }, ask 0x0601, 0, by decide +kernel⟩,
   ⟨{ op := 0x0102, priv := 2 }, { ask 0x0102 with origin := .mctp 9 true 0 }, 9, true, 0, by decide +kernel⟩,
   ⟨awake, { op := 0x0102, priv := 2 }, onRing0 (ask 0x0102), 0, 0, by decide +kernel⟩,
   ⟨{ jobAwake with halt := some 9 }, { op := 0x0101, priv := 0 }, onRing0 (ask 0x0101), 0, 0, 9, by decide +kernel⟩,
   ⟨jobAwake.put .HPT_DEV_STS_STATUS stPending, { op := 0x0107, priv := 0 }, onRing0 (ask 0x0107), 0, 0, by decide +kernel⟩,
   ⟨jobAwake.put .HPT_DEV_STS_STATUS stCfgInvalid, { op := 0x0A01, priv := 0 }, onRing0 (ask 0x0A01), 0, 0, by decide +kernel⟩,
   ⟨jobAwake, { op := 0x0101, priv := 0 }, onRing0 (ask 0x0101), 0, 0, by decide +kernel⟩⟩

/-- States and operands that meet the hypotheses of `Obligations.ConfigurationCommands`, clause by clause. -/
theorem witness_ConfigurationCommands :
  (∃ (q : Req) (s s₁ : State),
    Served { op := 0x0200, priv := 0, mctp := true, output := true } q none s s₁) ∧
  (∃ (q : Req) (s s₁ : State),
    let off := par q 0x10 4
    let was := if off = 0 then [] else s.received q.origin
    Served { op := 0x0201, priv := 2, mctp := true, payload := 1048576, fields := [fld 0x10 4, fbits 0x14 0 1] } q (firstBad [(0x08, decide (1 ≤ q.plen)), (0x10, decide (off = was.length ∧ off + q.plen ≤ 1048576))]) s s₁ ∧ (parBit q 0x14 0 = false) ∧ ((∀ l, s₁.boot.load = some l → sessionHolder l.caller = sessionHolder q.origin)) ∧ (s₁.running (fun k => k == .cfgLoad) = false)) ∧
  (∃ (q : Req) (s s₁ : State),
    let off := par q 0x10 4
    let was := if off = 0 then [] else s.received q.origin
    Served { op := 0x0201, priv := 2, mctp := true, payload := 1048576, fields := [fld 0x10 4, fbits 0x14 0 1] } q (firstBad [(0x08, decide (1 ≤ q.plen)), (0x10, decide (off = was.length ∧ off + q.plen ≤ 1048576))]) s s₁ ∧ (parBit q 0x14 0 = true) ∧ ((∀ l, s₁.boot.load = some l → sessionHolder l.caller = sessionHolder q.origin)) ∧ (s₁.running (fun k => k == .cfgLoad) = false) ∧ (s₁.isSet .GLB_BOOT_STS_ROMREC = false) ∧ (s₁.flashOpen q opW 0x3C10000) ∧ (s₁.flashOpen q opW 0x3D10000) ∧ ((s₁.freeSlot).isSome = true)) ∧
  ((∃ (s : State), s.running (fun k => k == .cfgLoad) = false)) ∧
  (∃ (q : Req) (s s₁ : State),
    let off := par q 0x14 4
    let n := par q 0x18 4
    Served { op := 0x0202, priv := 2, mctp := true, output := true, fields := [fld 0x10 1, fld 0x14 4, fld 0x18 4] } q (firstBad [(0x10, decide (par q 0x10 1 ≤ 1)), (0x14, decide (off + n ≤ 1048576)), (0x18, decide (1 ≤ n ∧ n ≤ 65536))]) s s₁ ∧ (s₁.flashOpen q opR (0x3C10000 + 0x100000 * par q 0x10 1 + off))) ∧
  (∃ (q : Req) (s s₁ : State),
    let h := par q 0x10 1
    Served { op := 0x0203, priv := 2, mctp := true, fields := [fld 0x10 2, fbits 0x12 0 1] } q (firstBad [(0x10, decide (h ≤ 7))]) s s₁ ∧ (parBit q 0x12 0 = true)) ∧
  (∃ (q : Req) (s s₁ : State),
    let h := par q 0x10 1
    Served { op := 0x0203, priv := 2, mctp := true, fields := [fld 0x10 2, fbits 0x12 0 1] } q (firstBad [(0x10, decide (h ≤ 7))]) s s₁ ∧ (parBit q 0x12 0 = false)) :=
  ⟨⟨ask 0x0200, awake, _, ⟨by decide +kernel, rfl, by decide +kernel⟩⟩,
   ⟨{ ask 0x0201 with plen := 2, payload := [1, 2] }, awake, _, ⟨by decide +kernel, rfl, by decide +kernel⟩, by decide +kernel, (fun l h => by cases h), by decide +kernel⟩,
   ⟨{ ask 0x0201 (2 ^ 32) with plen := 2, payload := [1, 2] }, portAwake, _, ⟨by decide +kernel, rfl, by decide +kernel⟩, by decide +kernel, (fun l h => by cases h), by decide +kernel⟩,
   ⟨awake, by decide +kernel⟩,
   ⟨ask 0x0202 (4 * 2 ^ 64), portAwake, _, ⟨by decide +kernel, rfl, by decide +kernel⟩, by decide +kernel⟩,
   ⟨ask 0x0203 0x10500, awake, _, ⟨by decide +kernel, rfl, by decide +kernel⟩, by decide +kernel⟩,
   ⟨ask 0x0203 0x00500, awake, _, ⟨by decide +kernel, rfl, by decide +kernel⟩, by decide +kernel⟩⟩

/-- States and operands that meet the hypotheses of `Obligations.FirmwareCommands`, clause by clause. -/
theorem witness_FirmwareCommands :
  (∃ (q : Req) (s s₁ : State),
    Served { op := 0x1000, priv := 0, mctp := true, output := true } q none s s₁) ∧
  (∃ (q : Req) (s s₁ : State),
    let off := par q 0x10 4
    let was := if off = 0 ∨ s.get .GLB_FW_STS_ROLL ≠ 1 then [] else s.fwCopy s.staging
    Served { op := 0x1001, priv := 2, mctp := true, payload := 1048576, fields := [fld 0x10 4] } q (firstBad [(0x08, decide (1 ≤ q.plen)), (0x10, decide (off = was.length ∧ off + q.plen ≤ 31457280))]) s s₁ ∧ (s₁.get .GLB_FW_STS_ROLL < 2) ∧ (s₁.running (fun k => k == .fwStage) = false) ∧ (s₁.flashOpen q opW (0x10000 + 0x1E00000 * s₁.staging + off)) ∧ ((s₁.freeSlot).isSome = true)) ∧
  (∃ (q : Req) (s s₁ : State),
    Served { op := 0x1002, priv := 2, mctp := true, fields := [fbits 0x10 0 1] } q none s s₁ ∧ (s₁.get .GLB_FW_STS_ROLL = 1) ∧ (s₁.running (fun k => k == .fwStage) = false) ∧ (s₁.stageFault = none) ∧ (s₁.flashOpen q opW 0) ∧ ((s₁.freeSlot).isSome = true)) ∧
  (∃ (q : Req) (s s₁ : State) (d : Nat),
    Served { op := 0x1002, priv := 2, mctp := true, fields := [fbits 0x10 0 1] } q none s s₁ ∧ (s₁.get .GLB_FW_STS_ROLL < 2) ∧ (s₁.running (fun k => k == .fwStage) = false) ∧ (s₁.stageFault = some d)) ∧
  (∃ (q : Req) (s s₁ : State),
    Served { op := 0x1003, priv := 2, mctp := true } q none s s₁ ∧ (s₁.get .GLB_FW_STS_ROLL = 1)) ∧
  (∃ (q : Req) (s s₁ : State),
    Served { op := 0x1003, priv := 2, mctp := true } q none s s₁ ∧ (s₁.get .GLB_FW_STS_ROLL = 2)) ∧
  (∃ (q : Req) (s s₁ : State),
    Served { op := 0x1003, priv := 2, mctp := true } q none s s₁ ∧ (s₁.get .GLB_FW_STS_ROLL = 3)) :=
  ⟨⟨ask 0x1000, awake, _, ⟨by decide +kernel, rfl, by decide +kernel⟩⟩,
   ⟨{ ask 0x1001 with plen := 2, payload := [1, 2] }, portAwake, _, ⟨by decide +kernel, rfl, by decide +kernel⟩, by decide +kernel⟩,
   ⟨ask 0x1002, stagedAwake, _, ⟨by decide +kernel, rfl, by decide +kernel⟩, by decide +kernel⟩,
   ⟨ask 0x1002, awake, _, 1, ⟨by decide +kernel, rfl, by decide +kernel⟩, by decide +kernel⟩,
   ⟨ask 0x1003, awake.put .GLB_FW_STS_ROLL 1, _, ⟨by decide +kernel, rfl, by decide +kernel⟩, by decide +kernel⟩,
   ⟨ask 0x1003, awake.put .GLB_FW_STS_ROLL 2, _, ⟨by decide +kernel, rfl, by decide +kernel⟩, by decide +kernel⟩,
   ⟨ask 0x1003, awake.put .GLB_FW_STS_ROLL 3, _, ⟨by decide +kernel, rfl, by decide +kernel⟩, by decide +kernel⟩⟩

/-- States and operands that meet the hypotheses of `Obligations.OperationsEnd`, clause by clause. -/
theorem witness_OperationsEnd :
  ((∃ (s : State) (k : Fin 64) (o : OpSlot) (st d res : Nat), tget k.val s.pyx.slots = some o ∧ o.running = true ∧ o.ready = some (st, d, res) ∧
      o.kind ≠ .fwActivate)) ∧
  ((∃ (s : State) (k : Fin 64) (o : OpSlot), tget k.val s.pyx.slots = some o ∧ o.running = true ∧ o.ready = none ∧ o.kind = .cfgLoad)) ∧
  ((∃ (s : State) (k : Fin 64) (o : OpSlot) (p : Nat), tget k.val s.pyx.slots = some o ∧ o.running = true ∧ o.ready = none ∧ o.kind = .linkUp p 0 ∧ o.at' + 1000000000 ≤ s.now)) ∧
  ((∃ (s : State) (k : Fin 64) (o : OpSlot) (ks : Nat) (sw : Nat), tget k.val s.pyx.slots = some o ∧ o.running = true ∧ o.ready = none ∧ o.kind = .zeroise ks sw)) ∧
  ((∃ (s : State) (k : Fin 64) (o : OpSlot) (c : Nat), tget k.val s.pyx.slots = some o ∧ o.running = true ∧ o.ready = none ∧ o.kind = .fwActivate ∧ s.isSet .GLB_BOOT_STS_ROMREC = false ∧ s.passCluster.nextCluster (s.passCluster.get .GLB_FW_STS_CLUSTER + 1) = some c)) :=
  ⟨⟨{ awake with pyx := { awake.pyx with slots := [(3, { opOf .tierPin with ready := some (0, 0, 0) })] } }, 3, _, _, _, _, rfl, rfl, rfl, by decide +kernel⟩,
   ⟨opAwake .cfgLoad, 3, _, rfl, rfl, rfl, rfl⟩,
   ⟨{ opAwake (.linkUp 1 0) with now := 1000000000 }, 3, opOf (.linkUp 1 0), 1, rfl, rfl, rfl, rfl, by decide +kernel⟩,
   ⟨opAwake (.zeroise 1 4), 3, opOf (.zeroise 1 4), 1, 4, rfl, rfl, rfl, rfl⟩,
   ⟨opAwake .fwActivate, 3, opOf .fwActivate, 1, rfl, rfl, rfl, rfl, by decide +kernel⟩⟩

/-- States and operands that meet the hypotheses of `Obligations.AccessAndDebugCommands`, clause by clause. -/
theorem witness_AccessAndDebugCommands :
  (∃ (q : Req) (s s₁ : State),
    let t := par q 0x10 1
    let m := par q 0x11 1
    Served { op := 0x1100, priv := 0, mctp := true, output := true, fields := [fld 0x10 2] } q (firstBad [(0x10, decide (t ≤ 36)), (0x11, decide (m ≤ 0x42))]) s s₁) ∧
  (∃ (q : Req) (s s₁ : State),
    let kind := par q 0x11 1
    Served { op := 0x1101, priv := 2, mctp := true, fields := accFields kind } q (accBad q) s s₁ ∧ (kind = 0) ∧ (s₁.isSet .ACC_LOCK_LOCK = false)) ∧
  (∃ (q : Req) (s s₁ : State),
    let kind := par q 0x11 1
    Served { op := 0x1101, priv := 2, mctp := true, fields := accFields kind } q (accBad q) s s₁ ∧ (kind ≠ 0) ∧ (s₁.isSet .ACC_LOCK_LOCK = false)) ∧
  (∃ (q : Req) (s s₁ : State),
    Served { op := 0x1102, priv := 2, mctp := true } q none s s₁) ∧
  (∃ (q : Req) (s s₁ : State),
    let ph := par q 0x10 1
    let sess := par q 0x14 4
    Served { op := 0x1103, priv := 2, mctp := true, output := true, payload := 144, fields := [fld 0x10 1, fld 0x14 4] } q (firstBad [(0x10, decide (ph ≤ 1)), (0x08, decide (q.plen = if ph = 1 then 144 else 0))]) s s₁ ∧ (ph = 0) ∧ (s₁.sec.sessions.contains (sessionHolder q.origin, sess) = true)) ∧
  (∃ (q : Req) (s s₁ : State) (v : Nat),
    let ph := par q 0x10 1
    let sess := par q 0x14 4
    Served { op := 0x1103, priv := 2, mctp := true, output := true, payload := 144, fields := [fld 0x10 1, fld 0x14 4] } q (firstBad [(0x10, decide (ph ≤ 1)), (0x08, decide (q.plen = if ph = 1 then 144 else 0))]) s s₁ ∧ (ph = 1) ∧ (s₁.sec.sessions.contains (sessionHolder q.origin, sess) = true) ∧ (s₁.liveNonce sess = some v) ∧ (s₁.tokenOk q.payload v = true)) ∧
  (∃ (q : Req) (s s₁ : State) (v : Nat),
    let ph := par q 0x10 1
    let sess := par q 0x14 4
    Served { op := 0x1103, priv := 2, mctp := true, output := true, payload := 144, fields := [fld 0x10 1, fld 0x14 4] } q (firstBad [(0x10, decide (ph ≤ 1)), (0x08, decide (q.plen = if ph = 1 then 144 else 0))]) s s₁ ∧ (ph = 1) ∧ (s₁.sec.sessions.contains (sessionHolder q.origin, sess) = true) ∧ (s₁.liveNonce sess = some v) ∧ (s₁.tokenOk q.payload v = false)) ∧
  (∃ (q : Req) (s s₁ : State),
    Served { op := 0x1104, priv := 2, mctp := true } q none s s₁) ∧
  ((∃ (s : State), s.tapOn = true ∧ s.get .ACC_DBG_LEVEL = 0)) ∧
  ((∃ (s : State) (t : State) (write : Bool) (addr : Fin (2 ^ 45)) (data : Fin (2 ^ 64)) (hint : Nat), s.tapOn = true ∧ s.regsUp = true ∧ s.get .ACC_DBG_LEVEL ≠ 0 ∧ t = { s with acc := { s.acc with tapInstr := 0x20, tapErr := false, tapMem := some (addr.val / 64, 64 * (addr.val / 8 % 8), if write then some data.val else none, hint) } } ∧ s.decideAccess (s.home (addr.val / 4096)) mDbg (s.rangeClass (s.home (addr.val / 4096)) (addr.val / 4096)) (if write then opW else opR) false = true)) ∧
  ((∃ (s : State) (t : State) (line : Nat) (sh : Nat) (hint : Nat) (d : Line), s.acc.tapMem = some (line, sh, none, hint) ∧ t = s.dirFix (line / 64) ∧ t.lineHome line = true ∧ hasImage (t.tier (line / 64)) = true ∧ t.homeCopy line = some d)) :=
  ⟨⟨ask 0x1100, awake, _, ⟨by decide +kernel, rfl, by decide +kernel⟩⟩,
   ⟨ask 0x1101 (0x020001 + 7 * 2 ^ 64), awake, _, ⟨by decide +kernel, rfl, by decide +kernel⟩, by decide +kernel⟩,
   ⟨ask 0x1101 (0x13020101 + 7 * 2 ^ 64 + 9 * 2 ^ 128), awake, _, ⟨by decide +kernel, rfl, by decide +kernel⟩, by decide +kernel⟩,
   ⟨ask 0x1102, awake, _, ⟨by decide +kernel, rfl, by decide +kernel⟩⟩,
   ⟨ask 0x1103 (5 * 2 ^ 32), { awake with sec := { awake.sec with sessions := [(0, 5)] } }, _, ⟨by decide +kernel, rfl, by decide +kernel⟩, by decide +kernel⟩,
   ⟨{ ask 0x1103 (1 + 5 * 2 ^ 32) with plen := 144, payload := token0 }, nonceAwake, _, 7, ⟨by decide +kernel, rfl, by decide +kernel⟩, by decide +kernel⟩,
   ⟨{ ask 0x1103 (1 + 5 * 2 ^ 32) with plen := 144, payload := List.replicate 144 0 }, nonceAwake, _, 7, ⟨by decide +kernel, rfl, by decide +kernel⟩, by decide +kernel⟩,
   ⟨ask 0x1104, awake, _, ⟨by decide +kernel, rfl, by decide +kernel⟩⟩,
   ⟨awake, by decide +kernel⟩,
   ⟨((((awake.put .ACC_DBG_LEVEL 1).put .ACC_TBL_RC 1 0 mDbg).put .SEC_ANS_BASE_EN 1).put .SEC_ANS_LIMIT_LPN 100), _, false, 0, 5, 0, by decide +kernel, by decide +kernel, by decide +kernel, rfl, by decide +kernel⟩,
   ⟨{ furnAwake with acc := { furnAwake.acc with tapMem := some (320, 64, none, 0) } }, _, 320, 64, 0, 0, rfl, rfl, by decide +kernel⟩⟩

/-- States and operands that meet the hypotheses of `Obligations.CounterCommands`, clause by clause. -/
theorem witness_CounterCommands :
  (∃ (q : Req) (s s₁ : State),
    Served { op := 0x0E00, priv := 0, mctp := true, output := true } q none s s₁) ∧
  (∃ (q : Req) (s s₁ : State),
    Served { op := 0x0E01, priv := 2, mctp := true, payload := 48, fields := pmuConfigFields (par q 0x10 1) } q (pmuConfigBad q) s s₁ ∧ (par q 0x10 1 = 0) ∧ (s₁.isSet .PMU_CTL_EN (par q 0x12 2) = false)) ∧
  (∃ (q : Req) (s s₁ : State),
    Served { op := 0x0E01, priv := 2, mctp := true, payload := 48, fields := pmuConfigFields (par q 0x10 1) } q (pmuConfigBad q) s s₁ ∧ (par q 0x10 1 = 1) ∧ (∀ n < 256, ¬ (s₁.isSet .PMU_CTL_EN n = true ∧ s₁.isSet .PMU_CTL_FILT n = true ∧ s₁.get .PMU_CTL_FSET n = par q 0x11 1))) ∧
  (∃ (q : Req) (s s₁ : State),
    Served { op := 0x0E02, priv := 0, mctp := true, output := true, fields := [fld 0x10 2, fld 0x12 2, fbits 0x14 0 1] } q (pmuRangeBad q) s s₁) ∧
  (∃ (q : Req) (s s₁ : State),
    Served { op := 0x0E03, priv := 2, mctp := true, fields := [fld 0x10 2, fld 0x12 2] } q (pmuRangeBad q) s s₁) :=
  ⟨⟨ask 0x0E00, awake, _, ⟨by decide +kernel, rfl, by decide +kernel⟩⟩,
   ⟨ask 0x0E01 0x010100050000, awake, _, ⟨by decide +kernel, rfl, by decide +kernel⟩, by decide +kernel⟩,
   ⟨{ ask 0x0E01 0x0201 with plen := 48, payload := List.replicate 48 0 }, awake, _, ⟨by decide +kernel, rfl, by decide +kernel⟩, by decide +kernel⟩,
   ⟨ask 0x0E02 0x00020000, awake, _, ⟨by decide +kernel, rfl, by decide +kernel⟩⟩,
   ⟨ask 0x0E03 0x00020000, awake, _, ⟨by decide +kernel, rfl, by decide +kernel⟩⟩⟩

/-- States and operands that meet the hypotheses of `Obligations.CountersCountTheirEvent`, clause by clause. -/
theorem witness_CountersCountTheirEvent :
  ((∃ (s : State), s.isSet .PMU_GCTL_FREEZE = true)) ∧
  ((∃ (s : State) (u : PmuUnit) (n : Nat), s.unitCounts u = true ∧ (unitCounters u).1 ≤ n ∧ n < (unitCounters u).1 + (unitCounters u).2 ∧
      s.isSet .PMU_CTL_EN n = true ∧ s.isSet .PMU_CTL_FILT n = false ∧ s.get .PMU_CTL_EVENT n = 1)) ∧
  ((∃ (s : State) (n : Nat), s.isSet .PMU_CTL_EN n = false)) :=
  ⟨⟨awake.put .PMU_GCTL_FREEZE 1, by decide +kernel⟩,
   ⟨(awake.put .PMU_CTL_EN 1 3).put .PMU_CTL_EVENT 1 3, .slice 0, 3, by decide +kernel⟩,
   ⟨awake, 255, by decide +kernel⟩⟩

/-- States and operands that meet the hypotheses of `Obligations.TollgateCommands`, clause by clause. -/
theorem witness_TollgateCommands :
  (∃ (q : Req) (s s₁ : State),
    let kind := par q 0x10 1
    let ix := par q 0x11 1
    Served { op := 0x0C00, priv := 0, mctp := true, output := true, fields := [fld 0x10 2] } q (firstBad [(0x10, decide (kind ≤ 3)), (0x11, decide (kind > 3 ∨ ix < (match kind with | 0 => 1 | 1 => 8 | _ => 16)))]) s s₁ ∧ (kind ≤ 3)) ∧
  (∃ (q : Req) (s s₁ : State),
    let point := par q 0x10 1
    Served { op := 0x0C01, priv := 2, fields := [fld 0x10 1, fld 0x12 2, fld 0x14 1, fld 0x16 2] } q (firstBad [(0x10, decide (point ≤ 1)), (0x12, decide (par q 0x12 2 ≠ 0 ∧ (point ≠ 0 ∨ par q 0x12 2 < 256))), (0x14, decide (par q 0x14 1 < 16)), (0x16, decide (par q 0x16 2 ≤ 1023))]) s s₁ ∧ (point = 0)) ∧
  (∃ (q : Req) (s s₁ : State),
    let point := par q 0x10 1
    Served { op := 0x0C01, priv := 2, fields := [fld 0x10 1, fld 0x12 2, fld 0x14 1, fld 0x16 2] } q (firstBad [(0x10, decide (point ≤ 1)), (0x12, decide (par q 0x12 2 ≠ 0 ∧ (point ≠ 0 ∨ par q 0x12 2 < 256))), (0x14, decide (par q 0x14 1 < 16)), (0x16, decide (par q 0x16 2 ≤ 1023))]) s s₁ ∧ (point = 1)) ∧
  (∃ (q : Req) (s s₁ : State),
    let k := par q 0x10 1
    let b := par q 0x12 2
    Served { op := 0x0C02, priv := 2, fields := [fld 0x10 1, fld 0x12 2] } q (firstBad [(0x10, decide (1 ≤ k ∧ k ≤ 15))]) s s₁ ∧ (b ≤ s₁.get .TLG_GUAR_BW k)) ∧
  (∃ (q : Req) (s s₁ : State),
    let k := par q 0x10 1
    let b := par q 0x12 2
    Served { op := 0x0C02, priv := 2, fields := [fld 0x10 1, fld 0x12 2] } q (firstBad [(0x10, decide (1 ≤ k ∧ k ≤ 15))]) s s₁ ∧ ((s₁.put .TLG_GUAR_BW b k).sumB * 6400000 ≤ s₁.get .TLG_CFG_CAP * s₁.delivNomNum)) ∧
  (∃ (q : Req) (s s₁ : State),
    let k := par q 0x10 1
    let b := par q 0x12 2
    Served { op := 0x0C02, priv := 2, fields := [fld 0x10 1, fld 0x12 2] } q (firstBad [(0x10, decide (1 ≤ k ∧ k ≤ 15))]) s s₁ ∧ (s₁.get .TLG_GUAR_BW k < b) ∧ (s₁.get .TLG_CFG_CAP * s₁.delivNomNum < (s₁.put .TLG_GUAR_BW b k).sumB * 6400000)) ∧
  (∃ (q : Req) (s s₁ : State),
    let cap := par q 0x10 1
    Served { op := 0x0C03, priv := 2, fields := [fld 0x10 1] } q (firstBad [(0x10, decide (50 ≤ cap ∧ cap ≤ 90))]) s s₁ ∧ (cap * s₁.delivNomNum < s₁.sumB * 6400000)) ∧
  (∃ (q : Req) (s s₁ : State),
    let cap := par q 0x10 1
    Served { op := 0x0C03, priv := 2, fields := [fld 0x10 1] } q (firstBad [(0x10, decide (50 ≤ cap ∧ cap ≤ 90))]) s s₁ ∧ (s₁.sumB * 6400000 ≤ cap * s₁.delivNomNum)) ∧
  ((∃ (s : State) (c : Fin 16), s.counted c.val = true)) :=
  ⟨⟨ask 0x0C00, awake, _, ⟨by decide +kernel, rfl, by decide +kernel⟩, by decide +kernel⟩,
   ⟨ask 0x0C01 (2 ^ 16 * 3 + 2 ^ 32 * 5 + 2 ^ 48 * 100), awake, _, ⟨by decide +kernel, rfl, by decide +kernel⟩, by decide +kernel⟩,
   ⟨ask 0x0C01 (1 + 2 ^ 16 * 3 + 2 ^ 32 * 5 + 2 ^ 48 * 100), awake, _, ⟨by decide +kernel, rfl, by decide +kernel⟩, by decide +kernel⟩,
   ⟨ask 0x0C02 1, awake, _, ⟨by decide +kernel, rfl, by decide +kernel⟩, by decide +kernel⟩,
   ⟨ask 0x0C02 1, awake, _, ⟨by decide +kernel, rfl, by decide +kernel⟩, by decide +kernel⟩,
   ⟨ask 0x0C02 (1 + 2 ^ 16 * 8), awake, _, ⟨by decide +kernel, rfl, by decide +kernel⟩, by decide +kernel⟩,
   ⟨ask 0x0C03 50, awake.put .TLG_GUAR_BW 8 1, _, ⟨by decide +kernel, rfl, by decide +kernel⟩, by decide +kernel⟩,
   ⟨ask 0x0C03 50, awake, _, ⟨by decide +kernel, rfl, by decide +kernel⟩, by decide +kernel⟩,
   ⟨mapAwake, 3, by decide +kernel⟩⟩

/-- States and operands that meet the hypotheses of `Obligations.FaultCommands`, clause by clause. -/
theorem witness_FaultCommands :
  (∃ (q : Req) (s s₁ : State),
    Served { op := 0x0D00, priv := 0, mctp := true, output := true } q none s s₁) ∧
  (∃ (q : Req) (s s₁ : State) (l : List FltRec),
    Served { op := 0x0D01, priv := 0, mctp := true, output := true, fields := [fld 0x10 8, fld 0x18 2, fbits 0x1A 0 2] } q (firstBad [(0x18, decide (1 ≤ par q 0x18 2 ∧ par q 0x18 2 ≤ 256))]) s s₁ ∧ (l = (bySeq ((if parBit q 0x1A 1 then s₁.flt.ring else s₁.flt.recs.map (·.2)).filter (fun r => decide (par q 0x10 8 ≤ r.seq)))).take (par q 0x18 2))) ∧
  (∃ (q : Req) (s s₁ : State) (k : Nat) (r : FltRec),
    Served { op := 0x0D02, priv := 2, mctp := true, fields := [fld 0x10 8] } q none s s₁ ∧ (s₁.recBySeq (par q 0x10 8) = some (k, r)) ∧ (tget k s₁.flt.recs = some r) ∧ (r.esc = false)) ∧
  (∃ (q : Req) (s s₁ : State) (k : Nat) (r : FltRec),
    Served { op := 0x0D03, priv := 2, mctp := true, fields := [fld 0x10 8, fbits 0x18 0 1] } q none s s₁ ∧ (parBit q 0x18 0 = false) ∧ (s₁.recBySeq (par q 0x10 8) = some (k, r)) ∧ (tget k s₁.flt.recs = some r) ∧ (r.active = false)) ∧
  (∃ (q : Req) (s s₁ : State),
    Served { op := 0x0D03, priv := 2, mctp := true, fields := [fld 0x10 8, fbits 0x18 0 1] } q none s s₁ ∧ (parBit q 0x18 0 = true)) ∧
  (∃ (q : Req) (s s₁ : State),
    Served { op := 0x0D04, priv := 2, mctp := true, fields := [fld 0x10 1, fld 0x11 1, fld 0x12 1, fbits 0x13 0 3] } q (firstBad [(0x10, decide (instances (par q 0x10 1) ≠ 0)), (0x11, decide (par q 0x11 1 < 16)), (0x12, decide (1 ≤ par q 0x12 1 ∧ par q 0x12 1 ≤ 3))]) s s₁) ∧
  (∃ (q : Req) (s s₁ : State),
    let m := injected q
    Served { op := 0x0D05, priv := 2, mctp := true, fields := [fld 0x10 3, fbits 0x13 0 6, fld 0x14 12] } q (firstBad [(0x10, decide (m.inst < instances m.code)), (0x13, decide (m.fclass ≠ 0)), (0x13, !(m.active && m.ended))]) s s₁) :=
  ⟨⟨ask 0x0D00, awake, _, ⟨by decide +kernel, rfl, by decide +kernel⟩⟩,
   ⟨ask 0x0D01 (2 ^ 64), recAwake, _, _, ⟨by decide +kernel, rfl, by decide +kernel⟩, rfl⟩,
   ⟨ask 0x0D02 1, recAwake, _, 40, rec1, ⟨by decide +kernel, rfl, by decide +kernel⟩, rfl, rfl, rfl⟩,
   ⟨ask 0x0D03 1, recAwake, _, 40, rec1, ⟨by decide +kernel, rfl, by decide +kernel⟩, rfl, rfl, rfl, rfl⟩,
   ⟨ask 0x0D03 (2 ^ 64), awake, _, ⟨by decide +kernel, rfl, by decide +kernel⟩, by decide +kernel⟩,
   ⟨ask 0x0D04 0x06010004, awake, _, ⟨by decide +kernel, rfl, by decide +kernel⟩⟩,
   ⟨ask 0x0D05 0x01001000, awake, _, ⟨by decide +kernel, rfl, by decide +kernel⟩⟩⟩

/-- States and operands that meet the hypotheses of `Obligations.FaultEvents`, clause by clause. -/
theorem witness_FaultEvents :
  ((∃ (s : State) (m : Msg), s.ecc.inj = [] ∧ m.inj = false ∧ m.code ∉ [bPwr, bEng, bXlt, bCoh, bSlc, bCdc, bSec, bAcc, bFab, bTlg, bPmu])) ∧
  ((∃ (s : State) (m : Msg), s.ecc.inj = [] ∧ m.inj = false)) ∧
  ((∃ (s : State) (k : Fin 256) (r : FltRec), tget k.val s.flt.recs = some r ∧ r.tmr = true)) ∧
  ((∃ (s : State) (k : Fin 256), ∀ r, tget k.val s.flt.recs = some r → r.tmr = false)) ∧
  ((∃ (s : State) (k : Fin 256) (r : FltRec), tget k.val s.flt.recs = some r ∧ r.esc = false ∧ r.active = false)) :=
  ⟨⟨awake, msg1 bMem 0 6, rfl, rfl, by decide⟩,
   ⟨awake, msg1 bMem 0 6, rfl, rfl⟩,
   ⟨recAwake, 40, rec1, rfl, rfl⟩,
   ⟨awake, 0, by intro r h; cases h⟩,
   ⟨recAwake, 40, rec1, rfl, rfl, rfl⟩⟩

/-- States and operands that meet the hypotheses of `Obligations.SegmentAndTranslationCommands`, clause by clause. -/
theorem witness_SegmentAndTranslationCommands :
  (∃ (q : Req) (s s₁ : State),
    Served { op := 0x0300, priv := 1, mctp := true, ctx := 1, output := true } q none s s₁) ∧
  (∃ (q : Req) (s s₁ : State),
    let tc := q.tc.val
    let base := fun w => payNat q.payload (16 * w) 8
    let lim := fun w => payNat q.payload (16 * w + 8) 8
    Served { op := 0x0301, priv := 2, ctx := 1, payload := 64, fields := [fld 0x10 3, fbits 0x13 0 7] } q (firstBad ([(0x08, decide (q.plen = 64)), (0x0C, !s.isSet .XLT_CTX_CFG_EN tc)] ++ (List.range 4).flatMap (fun w => [(0x40 + 16 * w, decide (base w ≤ lim w)), (0x48 + 16 * w, decide (lim w ≤ devWindow))]))) s s₁) ∧
  (∃ (q : Req) (s s₁ : State),
    let tc := q.tc.val
    Served { op := 0x0302, priv := 2, ctx := 1 } q none s s₁ ∧ (s₁.bound tc = false) ∧ (s₁.ctxBusy tc = false) ∧ (s₁.flushesOn < 16) ∧ (s₁.unaccepted = [])) ∧
  (∃ (q : Req) (s s₁ : State),
    let tc := q.tc.val
    let root := par q 0x10 8
    let clear := parBit q 0x18 0
    Served { op := 0x0303, priv := 1, ctx := 1, fields := [fld 0x10 8, fbits 0x18 0 1] } q (firstBad [(0x10, clear || (s.windowed tc root 1 && s.tier root == 5))]) s s₁ (if clear then none else s.lpnDeny q root 1) ∧ (clear = true) ∧ (s₁.flushesOn < 16) ∧ (s₁.unaccepted = [])) ∧
  (∃ (q : Req) (s s₁ : State),
    let tc := q.tc.val
    let root := par q 0x10 8
    let clear := parBit q 0x18 0
    Served { op := 0x0303, priv := 1, ctx := 1, fields := [fld 0x10 8, fbits 0x18 0 1] } q (firstBad [(0x10, clear || (s.windowed tc root 1 && s.tier root == 5))]) s s₁ (if clear then none else s.lpnDeny q root 1) ∧ (clear = false) ∧ (s₁.flushesOn < 16) ∧ (s₁.unaccepted = [])) ∧
  (∃ (q : Req) (s s₁ : State) (e : Extent),
    Served { op := 0x0304, priv := 2, fields := dcFields } q (s.dcBad q true) s s₁ ∧ (s₁.dcExtent q = some e) ∧ ((s₁.freeSlot).isSome = true)) ∧
  (∃ (q : Req) (s s₁ : State) (e : Extent),
    Served { op := 0x0305, priv := 2, fields := dcFields } q (s.dcBad q false) s s₁ ∧ (s₁.dcExtent q = some e) ∧ ((s₁.freeSlot).isSome = true)) ∧
  ((∃ (s : State) (h : Fin 8) (p : DcPending) (parts : List (Nat × Nat)), s.mboxOpen h.val = true ∧ (s.head h.val).dcPending.find? (fun p => p.release == false) = some p ∧ partsOk p.ext parts = true)) ∧
  (∃ (q : Req) (s s₁ : State),
    Served { op := 0x0400, priv := 1, mctp := true, ctx := 1, fields := [fld 0x10 8], output := true } q none s s₁ ∧ (2 ^ 48 ≤ par q 0x10 8)) ∧
  (∃ (q : Req) (s s₁ : State) (val lvl lpn addr : Nat),
    Served { op := 0x0400, priv := 1, mctp := true, ctx := 1, fields := [fld 0x10 8], output := true } q none s s₁ ∧ (par q 0x10 8 < 2 ^ 48) ∧ ((s₁.walk { holder := 8 + q.engine.val, tc := q.tc.val, ta := par q 0x10 8, master := mEng q.engine.val } false).2.1 = .leaf val lvl lpn addr)) ∧
  (∃ (q : Req) (s s₁ : State) (k lvl val : Nat) (a0 : Bool),
    Served { op := 0x0400, priv := 1, mctp := true, ctx := 1, fields := [fld 0x10 8], output := true } q none s s₁ ∧ (par q 0x10 8 < 2 ^ 48) ∧ ((s₁.walk { holder := 8 + q.engine.val, tc := q.tc.val, ta := par q 0x10 8, master := mEng q.engine.val } false).2.1 = .fault k lvl a0 val)) ∧
  (∃ (q : Req) (s s₁ : State),
    let range := par q 0x10 1
    let ta := par q 0x18 8
    let n := par q 0x20 8
    Served { op := 0x0401, priv := 1, ctx := 1, fields := [fld 0x10 1, fld 0x18 8, fld 0x20 8] } q (firstBad [(0x10, decide (range ≤ 1)), (0x18, decide (range ≠ 1 ∨ (ta % 4096 = 0 ∧ ta < 2 ^ 48))), (0x20, decide (range ≠ 1 ∨ (1 ≤ n ∧ n ≤ 2 ^ 36)))]) s s₁ ∧ (s₁.flushesOn < 16) ∧ (s₁.unaccepted = [])) ∧
  (∃ (q : Req) (s s₁ : State),
    Served { op := 0x0402, priv := 2 } q none s s₁ ∧ (s₁.flushesOn < 16) ∧ (s₁.unaccepted = [])) ∧
  ((∃ (s : State), 0 < s.flushesOn)) :=
  ⟨⟨{ ask 0x0300 with ctxv := true }, awake, _, ⟨by decide +kernel, rfl, by decide +kernel⟩⟩,
   ⟨{ ask 0x0301 0x010001 with ctxv := true, tc := 3, plen := 64, payload := List.replicate 64 0 }, awake, _, ⟨by decide +kernel, rfl, by decide +kernel⟩⟩,
   ⟨{ ask 0x0302 with ctxv := true, tc := 3 }, awake, _, ⟨by decide +kernel, rfl, by decide +kernel⟩, by decide +kernel⟩,
   ⟨{ ask 0x0303 (2 ^ 64) with ctxv := true, tc := 3 }, awake, _, ⟨by decide +kernel, rfl, by decide +kernel⟩, by decide +kernel⟩,
   ⟨{ ask 0x0303 7 with ctxv := true, tc := 3 }, { ((awake.put .XLT_CTX_CFG_EN 1 3).put .XLT_WIN_LIMIT_LPN 100 3) with pg := { awake.pg with pages := [(7, { pl := { tier := 5 } })] } }, _, ⟨by decide +kernel, rfl, by decide +kernel⟩, by decide +kernel⟩,
   ⟨ask 0x0304 (2 ^ 30 * 2 ^ 128), dcAwake, _, { region := 0, base := 0, len := 2 ^ 30 }, ⟨by decide +kernel, rfl, by rw [dc_request_good]; decide +kernel, by decide +kernel⟩, by decide +kernel⟩,
   ⟨ask 0x0305 (2 ^ 30 * 2 ^ 128), dcAwake, _, { region := 0, base := 0, len := 2 ^ 30 }, ⟨by decide +kernel, rfl, by rw [dc_request_good]; decide +kernel, by decide +kernel⟩, by decide +kernel⟩,
   ⟨awake.setHead 0 { dcPending := [{ ext := { region := 0, base := 0, len := 2 ^ 21 }, release := false, forced := false, handle := 64 }] }, 0, { ext := { region := 0, base := 0, len := 2 ^ 21 }, release := false, forced := false, handle := 64 }, [(0, 4096)], by decide +kernel, rfl, by decide +kernel⟩,
   ⟨{ ask 0x0400 (2 ^ 48) with ctxv := true }, awake, _, ⟨by decide +kernel, rfl, by decide +kernel⟩, by decide +kernel⟩,
   ⟨{ ask 0x0400 with ctxv := true }, mapAwake, _, 13, 1, 0, 4096, ⟨by decide +kernel, rfl, by decide +kernel⟩, by decide +kernel⟩,
   ⟨{ ask 0x0400 4096 with ctxv := true }, awake, _, 4, 0, 0, false, ⟨by decide +kernel, rfl, by decide +kernel⟩, by decide +kernel⟩,
   ⟨{ ask 0x0401 with ctxv := true }, awake, _, ⟨by decide +kernel, rfl, by decide +kernel⟩, by decide +kernel⟩,
   ⟨ask 0x0402, awake, _, ⟨by decide +kernel, rfl, by decide +kernel⟩, by decide +kernel⟩,
   ⟨{ awake with xlt := { awake.xlt with waiting := [{ kind := 5, req := ask 0x0402, started := true }] } }, by decide +kernel⟩⟩

/-- States and operands that meet the hypotheses of `Obligations.TieringCommands`, clause by clause. -/
theorem witness_TieringCommands :
  (∃ (q : Req) (s s₁ : State),
    let lpn := firstLpn q
    Served { op := 0x0500, priv := 1, mctp := true, ctx := 2, fields := [fbits 0x10 0 33] } q (firstBad [(0x0C, q.ctxv || decide (s.priv q.origin ≠ 1)), (0x10, decide (lpn < devWindow))]) s s₁ (if q.ctxv then s.lpnDeny q lpn 1 else none)) ∧
  (∃ (q : Req) (s s₁ : State),
    let ob := par q 0x10 1
    let floor := par q 0x11 1
    let ceil := par q 0x12 1
    let promo := par q 0x13 1
    let age := par q 0x14 1
    let lend := parBits q 0x15 0 1
    let twin := parBits q 0x15 1 2
    Served { op := 0x0501, priv := 2, fields := [fld 0x10 5, fbits 0x15 0 4] } q (firstBad [(0x10, decide (ob < 8)), (0x11, decide (1 ≤ floor ∧ floor ≤ 3)), (0x12, decide (1 ≤ ceil ∧ ceil ≤ 3 ∧ ceil ≤ floor)), (0x13, decide (1 ≤ promo ∧ promo ≤ 15 ∧ (age = 0 ∨ 4 < age ∨ 2 ^ (4 - age) ≤ promo))), (0x14, decide (1 ≤ age ∧ age ≤ 4)), (0x15, decide (twin ≠ 3 ∧ (lend = 0 ∨ (floor ≠ 1 ∧ twin ≠ 2))))]) s s₁) ∧
  (∃ (q : Req) (s s₁ : State) (u : State),
    let t := par q 0x20 1
    let l := pagesOf q
    let ok' := decide (1 ≤ pageCount q ∧ pageCount q ≤ 512)
    Served { op := 0x0502, priv := 1, ctx := 2, fields := rangeFields ++ [fld 0x20 1] } q (firstBad (s.rangeChecks q ++ [(0x20, decide (t ≤ 3)), (0x20, !ok' || l.all (fun p => !(s.page p).pl.sh || decide (s.pinTarget p t = 1) || !(hasImage (s.tier p)) || s.tier p == 5))])) s s₁ (if q.ctxv then s.lpnDeny q (firstLpn q) (pageCount q) else none) ∧ (∀ p ∈ l, 1 ≤ s₁.tier p ∧ s₁.tier p ≤ 4) ∧ (u = l.foldl (fun (s : State) p => s.pinPage p t) s₁) ∧ (u.pg.opPages.any (fun o => o.handle == s₁.nextHandle) = false)) ∧
  (∃ (q : Req) (s s₁ : State) (u : State),
    let t := par q 0x20 1
    let l := pagesOf q
    let ok' := decide (1 ≤ pageCount q ∧ pageCount q ≤ 512)
    Served { op := 0x0502, priv := 1, ctx := 2, fields := rangeFields ++ [fld 0x20 1] } q (firstBad (s.rangeChecks q ++ [(0x20, decide (t ≤ 3)), (0x20, !ok' || l.all (fun p => !(s.page p).pl.sh || decide (s.pinTarget p t = 1) || !(hasImage (s.tier p)) || s.tier p == 5))])) s s₁ (if q.ctxv then s.lpnDeny q (firstLpn q) (pageCount q) else none) ∧ (∀ p ∈ l, 1 ≤ s₁.tier p ∧ s₁.tier p ≤ 4) ∧ (u = l.foldl (fun (s : State) p => s.pinPage p t) s₁) ∧ (u.pg.opPages.any (fun o => o.handle == s₁.nextHandle) = true) ∧ ((s₁.freeSlot).isSome = true)) ∧
  (∃ (q : Req) (s s₁ : State),
    Served { op := 0x0503, priv := 1, ctx := 2, fields := rangeFields } q (firstBad (s.rangeChecks q)) s s₁ (if q.ctxv then s.lpnDeny q (firstLpn q) (pageCount q) else none)) ∧
  (∃ (q : Req) (s s₁ : State) (u : State),
    let kind := par q 0x20 1
    let l := pagesOf q
    let ok' := decide (1 ≤ pageCount q ∧ pageCount q ≤ 512)
    Served { op := 0x0504, priv := 1, ctx := 2, fields := rangeFields ++ [fld 0x20 1] } q (firstBad (s.rangeChecks q ++ [(0x20, decide (kind ≤ 2)), (0x20, !ok' || kind != 0 || l.all (fun p => s.get .XLT_OBJ_TWIN (s.page p).pl.obj == 0))])) s s₁ (if q.ctxv then s.lpnDeny q (firstLpn q) (pageCount q) else none) ∧ (kind < 2 ∨ s₁.portUp 0 = true ∨ s₁.portUp 1 = true) ∧ (u = l.foldl (fun (s : State) p => s.askTwin p kind) s₁) ∧ (u.pg.opPages.any (fun o => o.handle == s₁.nextHandle) = false)) ∧
  (∃ (q : Req) (s s₁ : State) (u : State),
    let kind := par q 0x20 1
    let l := pagesOf q
    let ok' := decide (1 ≤ pageCount q ∧ pageCount q ≤ 512)
    Served { op := 0x0504, priv := 1, ctx := 2, fields := rangeFields ++ [fld 0x20 1] } q (firstBad (s.rangeChecks q ++ [(0x20, decide (kind ≤ 2)), (0x20, !ok' || kind != 0 || l.all (fun p => s.get .XLT_OBJ_TWIN (s.page p).pl.obj == 0))])) s s₁ (if q.ctxv then s.lpnDeny q (firstLpn q) (pageCount q) else none) ∧ (kind < 2 ∨ s₁.portUp 0 = true ∨ s₁.portUp 1 = true) ∧ (u = l.foldl (fun (s : State) p => s.askTwin p kind) s₁) ∧ (u.pg.opPages.any (fun o => o.handle == s₁.nextHandle) = true) ∧ ((s₁.freeSlot).isSome = true)) ∧
  (∃ (q : Req) (s s₁ : State) (new : List (Nat × Nat)),
    Served { op := 0x0505, priv := 2, fields := [fld 0x10 5, fld 0x16 2, fld 0x18 4, fld 0x1C 2] } q (firstBad (budgetRows.map (fun r => (r.2.1, decide (par q r.2.1 r.2.2.1 = 0 ∨ (r.2.2.2.1 ≤ par q r.2.1 r.2.2.1 ∧ par q r.2.1 r.2.2.1 ≤ r.2.2.2.2)))) ++ [(0x14, decide (s.nextTier q 4 0x14 1 < s.nextTier q 3 0x13 1))])) s s₁ ∧ (new = (budgetRows.filter (fun r => par q r.2.1 r.2.2.1 != 0)).map (fun r => (r.1, par q r.2.1 r.2.2.1)))) ∧
  (∃ (q : Req) (s s₁ : State),
    let a := par q 0x10 2
    Served { op := 0x0506, priv := 0, output := true, fields := [fld 0x10 2] } q (firstBad [(0x10, decide (a ≤ 257 ∨ a = 0xFFFF))]) s s₁) ∧
  (∃ (q : Req) (s s₁ : State) (u : State),
    let a := q.tc.val
    let commit := par q 0x10 8
    let thin := par q 0x18 8
    let twl := parBits q 0x20 0 1
    Served { op := 0x0507, priv := 2, ctx := 1, fields := [fld 0x10 8, fld 0x18 8, fbits 0x20 0 1] } q (firstBad [(0x10, decide (commit ≤ s.windowPages a)), (0x18, decide (commit + thin ≤ s.windowPages a))]) s s₁ ∧ (u = ((s₁.put .XLT_ACCT_VALUE commit a 0).put .XLT_ACCT_VALUE thin a 1).put .XLT_ACCT_TWL twl a) ∧ (u.res a - s₁.res a ≤ s₁.get .XLT_CAP_COUNT 3)) ∧
  (∃ (q : Req) (s s₁ : State) (u : State),
    let a := q.tc.val
    let commit := par q 0x10 8
    let thin := par q 0x18 8
    let twl := parBits q 0x20 0 1
    Served { op := 0x0507, priv := 2, ctx := 1, fields := [fld 0x10 8, fld 0x18 8, fbits 0x20 0 1] } q (firstBad [(0x10, decide (commit ≤ s.windowPages a)), (0x18, decide (commit + thin ≤ s.windowPages a))]) s s₁ ∧ (u = ((s₁.put .XLT_ACCT_VALUE commit a 0).put .XLT_ACCT_VALUE thin a 1).put .XLT_ACCT_TWL twl a) ∧ (s₁.get .XLT_CAP_COUNT 3 < u.res a - s₁.res a)) :=
  ⟨⟨ask 0x0500 5, awake, _, ⟨by decide +kernel, rfl, by decide +kernel⟩⟩,
   ⟨ask 0x0501 0x0204010300, awake, _, ⟨by decide +kernel, rfl, by decide +kernel⟩⟩,
   ⟨ask 0x0502 (5 + 2 ^ 64), pageAwake, _, _, ⟨by decide +kernel, rfl, by decide +kernel⟩, by decide +kernel, rfl, by decide +kernel⟩,
   ⟨ask 0x0502 (5 + 2 ^ 64 + 2 * 2 ^ 128), pageAwake, _, _, ⟨by decide +kernel, rfl, by decide +kernel⟩, by decide +kernel, rfl, by decide +kernel⟩,
   ⟨ask 0x0503 (5 + 2 ^ 64), pageAwake, _, ⟨by decide +kernel, rfl, by decide +kernel⟩⟩,
   ⟨ask 0x0504 (5 + 2 ^ 64 + 2 ^ 128), pageAwake, _, _, ⟨by decide +kernel, rfl, by decide +kernel⟩, by decide +kernel, rfl, by decide +kernel⟩,
   ⟨ask 0x0504 (5 + 2 ^ 64 + 2 ^ 128), furnAwake, _, _, ⟨by decide +kernel, rfl, by decide +kernel⟩, by decide +kernel, rfl, by decide +kernel⟩,
   ⟨ask 0x0505 5, awake, _, _, ⟨by decide +kernel, rfl, by decide +kernel⟩, rfl⟩,
   ⟨ask 0x0506 3, awake, _, ⟨by decide +kernel, rfl, by decide +kernel⟩⟩,
   ⟨{ ask 0x0507 with ctxv := true }, awake, _, _, ⟨by decide +kernel, rfl, by decide +kernel⟩, rfl, by decide +kernel⟩,
   ⟨{ ask 0x0507 100 with ctxv := true, tc := 3 }, awake.put .XLT_WIN_LIMIT_LPN 1000 3, _, _, ⟨by decide +kernel, rfl, by decide +kernel⟩, rfl, by decide +kernel⟩⟩

/-- States and operands that meet the hypotheses of `Obligations.MailboxAndDiscoveryCommands`, clause by clause. -/
theorem witness_MailboxAndDiscoveryCommands :
  ((∃ (s : State) (h : Fin 8), s.mboxOpen h.val = true)) ∧
  ((∃ (s : State) (h : Fin 8), s.mboxOpen h.val = false)) ∧
  ((∃ (s : State) (h : Fin 8), s.mboxOpen h.val = true)) ∧
  ((∃ (s : State) (u : State) (h : Fin 8) (dpa : Dpa) (d : Line) (hint : Nat) (l : Nat), s.mboxOpen h.val = true ∧ s.isSet .HPT_DEV_STS_STEWARD h.val = true ∧ s.lineOf h.val dpa.val = some l ∧ u = s.deviceWrite h.val l d false 0 hint)) ∧
  ((∃ (s : State) (h : Fin 8) (dpa : Dpa), s.mboxOpen h.val = true ∧ (s.isSet .HPT_DEV_STS_STEWARD h.val = false ∨ s.lineOf h.val dpa.val = none))) ∧
  ((∃ (s : State) (h : Fin 8) (log : Fin 5) (l : EvLog), s.mboxOpen h.val = true ∧ l = tgetD {} log.val (s.head h.val).logs)) ∧
  ((∃ (s : State) (h : Fin 8) (log : Fin 5) (l : EvLog), s.mboxOpen h.val = true ∧ l = { tgetD {} log.val (s.head h.val).logs with overflow := false, ovfCount := 0, ovfFirst := 0, ovfLast := 0 })) ∧
  ((∃ (s : State) (h : Fin 8), s.mboxOpen h.val = true)) ∧
  ((∃ (s : State), s.alive = true)) ∧
  ((∃ (s : State), s.alive = true)) ∧
  ((∃ (s : State) (h : Fin 8) (id : Nat), s.alive = true ∧ s.hasSession h.val id = true)) ∧
  ((∃ (s : State) (h : Fin 8) (id : Nat), s.alive = true ∧ s.hasSession h.val id = true ∧ (s.head h.val).ideKeyMem = true)) ∧
  ((∃ (s : State) (h : Fin 8) (id : Nat), s.alive = true ∧ s.hasSession h.val id = true ∧ (s.head h.val).ideKeyLink = true)) ∧
  ((∃ (s : State) (h : Fin 8) (id : Nat), s.alive = true ∧ s.hasSession h.val id = true ∧ (s.head h.val).ideKeyMem = false)) :=
  ⟨⟨awake, 0, by decide +kernel⟩,
   ⟨awake.setHead 0 { mboxBusy := true }, 0, by decide +kernel⟩,
   ⟨awake, 0, by decide +kernel⟩,
   ⟨mapAwake, _, 0, 0, 0, 0, 0, by decide +kernel, by decide +kernel, by decide +kernel, rfl⟩,
   ⟨awake, 0, 0, by decide +kernel⟩,
   ⟨awake, 0, 0, _, by decide +kernel, rfl⟩,
   ⟨awake, 0, 0, _, by decide +kernel, rfl⟩,
   ⟨awake, 0, by decide +kernel⟩,
   ⟨awake, by decide +kernel⟩,
   ⟨awake, by decide +kernel⟩,
   ⟨{ awake with sec := { awake.sec with sessions := [(0, 5)] } }, 0, 5, by decide +kernel⟩,
   ⟨{ awake.setHead 0 { ideKeyMem := true } with sec := { awake.sec with sessions := [(0, 5)] } }, 0, 5, by decide +kernel⟩,
   ⟨{ awake.setHead 0 { ideKeyLink := true } with sec := { awake.sec with sessions := [(0, 5)] } }, 0, 5, by decide +kernel⟩,
   ⟨{ awake.setHead 0 { ideKeyLink := true } with sec := { awake.sec with sessions := [(0, 5)] } }, 0, 5, by decide +kernel⟩⟩

/-- States and operands that meet the hypotheses of `Obligations.RingStates`, clause by clause. -/
theorem witness_RingStates :
  ((∃ (s : State) (h : Fin 8) (r : Fin 64), s.get .HPT_RING_STS_STATE h.val r.val = 0)) ∧
  ((∃ (s : State) (u : State) (h : Fin 8) (r : Fin 64), s.get .HPT_RING_STS_STATE h.val r.val = 1 ∧ u = ((s.put .HPT_RING_CTL_EN 0 h.val r.val).put .HPT_RING_STS_SQHEAD
        ((s.ring h.val r.val).fetched.headD (s.get .HPT_RING_STS_SQHEAD h.val r.val)) h.val r.val).setRing h.val r.val { s.ring h.val r.val with fetched := [], fetching := 0 })) ∧
  ((∃ (s : State) (h : Fin 8) (r : Fin 64), s.get .HPT_RING_STS_STATE h.val r.val = 2)) ∧
  ((∃ (s : State) (h : Fin 8) (r : Fin 64), s.get .HPT_RING_STS_STATE h.val r.val = 3 ∧ (s.ring h.val r.val).inFlight = 0)) ∧
  ((∃ (s : State) (h : Fin 8) (r : Fin 64), s.get .HPT_RING_STS_STATE h.val r.val ≠ 1)) ∧
  ((∃ (s : State) (h : Fin 8) (r : Fin 64) (tail : Fin 65536), s.get .HPT_RING_STS_STATE h.val r.val = 1 ∧ s.sqSize h.val r.val ≤ tail.val)) ∧
  ((∃ (s : State) (h : Fin 8) (r : Fin 64) (tail : Fin 65536), s.get .HPT_RING_STS_STATE h.val r.val = 1 ∧ tail.val < s.sqSize h.val r.val)) ∧
  ((∃ (s : State) (h : Fin 8) (r : Fin 64) (head : Fin 65536) (left : Nat), (s.get .HPT_RING_STS_STATE h.val r.val = 1 ∨ s.get .HPT_RING_STS_STATE h.val r.val = 3) ∧ head.val < s.cqSize h.val r.val ∧ left = (s.get .HPT_RING_STS_CQTAIL h.val r.val + s.cqSize h.val r.val - head.val) % s.cqSize h.val r.val ∧ left ≤ (s.ring h.val r.val).unreleased)) ∧
  ((∃ (s : State) (h : Fin 8) (r : Fin 64) (head : Fin 65536), s.get .HPT_RING_STS_STATE h.val r.val = 1 ∧ s.cqSize h.val r.val ≤ head.val)) ∧
  ((∃ (s : State) (h : Fin 8) (r : Fin 64) (t : Nat), (s.head h.val).tags.find? (fun x => decide (x.2 = .entries r.val)) = some (t, .entries r.val))) ∧
  ((∃ (s : State) (h : Fin 8) (r : Fin 64) (t : Nat), (s.head h.val).tags.find? (fun x => decide (x.2 = .entries r.val)) = some (t, .entries r.val) ∧ s.get .HPT_RING_STS_STATE h.val r.val = 1)) ∧
  ((∃ (s : State) (h : Fin 8) (r : Fin 64) (t : Nat) (ix : Nat), (s.head h.val).tags = [(t, .payload r.val ix)] ∧ s.get .HPT_RING_STS_STATE h.val r.val = 1)) ∧
  ((∃ (s : State) (h : Fin 8) (r : Fin 64) (fence : Bool), s.mayStart h.val r.val fence = true)) ∧
  ((∃ (s : State) (t : State) (h : Fin 8) (r : Fin 64) (fence : Bool) (addr : Nat) (len : Nat), s.mayStart h.val r.val fence = true ∧ s.issueRead h.val addr len (.payload r.val ((s.ring h.val r.val).fetched.headD 0)) = some t)) ∧
  ((∃ (s : State) (h : Fin 8) (r : Fin 64), s.isSet .HPT_RING_CFG_IRQ_EN h.val r.val = true ∧ 0 < (s.ring h.val r.val).unsignalled)) :=
  ⟨⟨awake, 0, 0, by decide +kernel⟩,
   ⟨ringAwake, _, 0, 0, by decide +kernel, rfl⟩,
   ⟨awake.put .HPT_RING_STS_STATE 2, 0, 0, by decide +kernel⟩,
   ⟨awake.put .HPT_RING_STS_STATE 3, 0, 0, by decide +kernel⟩,
   ⟨awake, 0, 0, by decide +kernel⟩,
   ⟨ringAwake, 0, 0, 65535, by decide +kernel⟩,
   ⟨ringAwake, 0, 0, 1, by decide +kernel⟩,
   ⟨ringAwake, 0, 0, 0, _, by decide +kernel, by decide +kernel, rfl, by decide +kernel⟩,
   ⟨ringAwake, 0, 0, 8, by decide +kernel⟩,
   ⟨ringAwake, 0, 0, 9, by decide +kernel⟩,
   ⟨ringAwake, 0, 0, 9, by decide +kernel⟩,
   ⟨ringAwake.setHead 0 { tags := [(9, .payload 0 3)] }, 0, 0, 9, 3, by decide +kernel⟩,
   ⟨ringAwake, 0, 0, true, by decide +kernel⟩,
   ⟨ringAwake.put .HPT_HEAD_STS_BME 1, _, 0, 0, true, 4096, 64, by decide +kernel, rfl⟩,
   ⟨(awake.put .HPT_RING_CFG_IRQ_EN 1).setRing 0 0 { unsignalled := 1 }, 0, 0, by decide +kernel⟩⟩

/-- States and operands that meet the hypotheses of `Obligations.BusMasterReads`, clause by clause. -/
theorem witness_BusMasterReads :
  ((∃ (s : State) (h : Fin 8) (tag : Fin 16384) (u : TagUse), tget tag.val (s.head h.val).tags = some u)) ∧
  ((∃ (s : State) (h : Fin 8) (tag : Fin 16384), tget tag.val (s.head h.val).tags = none ∧ (s.head h.val).quar.contains tag.val = true)) ∧
  ((∃ (s : State) (h : Fin 8) (tag : Fin 16384), tget tag.val (s.head h.val).tags = none ∧ (s.head h.val).quar.contains tag.val = false)) ∧
  ((∃ (s : State) (h : Fin 8) (tag : Fin 16384) (use : TagUse), tget tag.val (s.head h.val).tags = some use ∧ (s.head h.val).cplDisable = false ∧ tgetD 0 tag.val (s.head h.val).tagAt + s.cplT h.val ≤ s.now)) ∧
  ((∃ (s : State) (h : Fin 8) (tag : Fin 16384), tgetD 0 tag.val (s.head h.val).quarTo ≤ s.now)) ∧
  ((∃ (s : State) (h : Fin 8) (v : Fin 72), ((s.head h.val).msixPend.contains v.val = false ∨ s.isSet .HPT_HEAD_STS_BME h.val = false))) ∧
  ((∃ (s : State) (h : Fin 8) (v : Fin 72), (s.head h.val).msixPend.contains v.val = true ∧ s.isSet .HPT_HEAD_STS_BME h.val = true)) :=
  ⟨⟨awake.setHead 0 { tags := [(9, .payload 0 1)] }, 0, 9, .payload 0 1, by decide +kernel⟩,
   ⟨awake.setHead 0 { quar := [9] }, 0, 9, by decide +kernel⟩,
   ⟨awake, 0, 9, by decide +kernel⟩,
   ⟨{ ringAwake with now := 20000000 }, 0, 9, .entries 0, rfl, by decide +kernel⟩,
   ⟨awake.setHead 0 { quar := [9] }, 0, 9, by decide +kernel⟩,
   ⟨awake, 0, 0, by decide +kernel⟩,
   ⟨(awake.put .HPT_HEAD_STS_BME 1).setHead 0 { msixPend := [0] }, 0, 0, by decide +kernel⟩⟩

/-- States and operands that meet the hypotheses of `Obligations.LinksDeparturesAndResets`, clause by clause. -/
theorem witness_LinksDeparturesAndResets :
  ((∃ (s : State) (h : Fin 8) (rate : Fin 7) (width : Fin 17) (flit : Fin 3), s.isSet .HPT_HEAD_STS_DEPARTING h.val = false ∧ s.isSet .COH_EPOCH_SWEEP_WAIT h.val = false ∧ s.halt = none ∧ s.alive = true ∧ s.host.perstHigh.contains (h.val / 2) = true ∧ (h.val % 2 = 0 ∨ s.host.x8.contains (h.val / 2) = true) ∧ rate.val ≤ s.get .HPT_PORT_CFG_MAXRATE (h.val / 2) ∧ (width.val = 1 ∨ width.val = 2 ∨ width.val = 4 ∨ width.val = 8 ∨ width.val = 16 ∧ s.host.x8.contains (h.val / 2) = false) ∧ (rate.val ≤ 4 ∧ flit.val = 0 ∨ 4 < rate.val ∧ flit.val ≠ 0) ∧ ((s.head h.val).training = true ∨ s.isSet .HPT_HEAD_STS_LINK_UP h.val = true))) ∧
  ((∃ (s : State) (h : Fin 8), s.isSet .HPT_HEAD_STS_LINK_UP h.val = true)) ∧
  ((∃ (s : State) (u : State) (p : Fin 4), u = { s with host := { s.host with perstHigh := linsert p.val s.host.perstHigh, x8 := lset p.val false s.host.x8 } } ∧ s.isSet .HPT_PORT_CFG_MODE p.val = false ∧ s.isSet .HPT_HEAD_STS_LINK_UP (2 * p.val) = false ∧ s.isSet .HPT_HEAD_STS_LINK_UP (2 * p.val + 1) = false)) ∧
  ((∃ (s : State) (u : State) (p : Fin 4), u = { s with host := { s.host with perstHigh := linsert p.val s.host.perstHigh, x8 := lset p.val true s.host.x8 } } ∧ s.isSet .HPT_PORT_CFG_MODE p.val = true ∧ s.isSet .HPT_HEAD_STS_LINK_UP (2 * p.val) = false ∧ s.isSet .HPT_HEAD_STS_LINK_UP (2 * p.val + 1) = false)) ∧
  ((∃ (s : State) (h : Fin 8), s.isSet .HPT_HEAD_STS_DEPARTING h.val = true ∧ s.host.perstHigh.contains (h.val / 2) = true ∧ (h.val % 2 = 0 ∨ s.host.x8.contains (h.val / 2) = true))) ∧
  ((∃ (s : State) (h : Fin 8) (i : Fin 16), (∀ j < 16, j ≠ i.val → s.isSet .HPT_BIND_CTL_EN h.val j = true → s.bindOverlap h.val i.val j = false) ∧ s.get .HPT_BIND_TA_TABASE h.val i.val + s.get .HPT_BIND_SIZE_SIZE h.val i.val ≤ 2 ^ 27)) ∧
  ((∃ (s : State) (h : Fin 8) (i : Fin 16) (j : Nat), s.isSet .HPT_BIND_CTL_EN h.val i.val = false ∧ (2 ^ 27 < s.get .HPT_BIND_TA_TABASE h.val i.val + s.get .HPT_BIND_SIZE_SIZE h.val i.val ∨ j < 16 ∧ j ≠ i.val ∧ s.isSet .HPT_BIND_CTL_EN h.val j = true ∧ s.bindOverlap h.val i.val j = true))) ∧
  ((∃ (s : State) (h : Fin 8) (d : Fin 8) (base : Hpa) (ways : Fin 17), s.get .HPT_DEV_STS_STATUS h.val = stOk ∧ [1, 2, 3, 4, 6, 8, 12, 16].contains ways.val = true ∧ (∀ k < d.val, ∃ x, tget k (s.head h.val).decoders = some x ∧ x.committed = true ∧ x.base + x.size ≤ base.val / 2 ^ 28 * 2 ^ 28) ∧ (∀ i < 16, s.isSet .HPT_BIND_CTL_EN h.val i = true → s.isSet .HPT_BIND_CTL_KIND h.val i = false))) ∧
  ((∃ (s : State) (h : Fin 8) (size : Hpa) (i : Nat), i < 16 ∧ s.isSet .HPT_BIND_CTL_EN h.val i = true ∧ s.isSet .HPT_BIND_CTL_KIND h.val i = true ∧ (s.head h.val).decoders = [] ∧ 0 < s.get .HPT_BIND_BASE_BASE h.val i + s.get .HPT_BIND_SIZE_SIZE h.val i ∧ s.get .HPT_BIND_BASE_BASE h.val i * 2 ^ 21 < size.val / 2 ^ 28 * 2 ^ 28 ∧ (s.head h.val).biDec = false)) :=
  ⟨⟨{ (awake.put .HPT_PORT_CFG_MAXRATE 6 0).setHead 0 { training := true } with host := { ((awake.put .HPT_PORT_CFG_MAXRATE 6 0).setHead 0 { training := true }).host with perstHigh := [0] } }, 0, 6, 16, 1, by decide +kernel⟩,
   ⟨mapAwake, 0, by decide +kernel⟩,
   ⟨awake, _, 0, rfl, by decide +kernel⟩,
   ⟨awake.put .HPT_PORT_CFG_MODE 1, _, 0, rfl, by decide +kernel⟩,
   ⟨{ awake.put .HPT_HEAD_STS_DEPARTING 1 with host := { awake.host with perstHigh := [0] } }, 0, by decide +kernel⟩,
   ⟨mapAwake, 0, 1, by decide +kernel⟩,
   ⟨(mapAwake.put .HPT_BIND_TA_TABASE (2 ^ 27) 0 1).put .HPT_BIND_SIZE_SIZE 1 0 1, 0, 1, 0, by decide +kernel⟩,
   ⟨mapAwake, 0, 0, 0, 1, by decide +kernel, by decide +kernel, fun k hk => absurd hk (Nat.not_lt_zero k), by decide +kernel⟩,
   ⟨mapAwake.put .HPT_BIND_CTL_KIND 1, 0, ⟨2 ^ 28, by decide⟩, 0, by decide +kernel⟩⟩

/-- States and operands that meet the hypotheses of `Obligations.JobCommands`, clause by clause. -/
theorem witness_JobCommands :
  (∃ (q : Req) (s s₁ : State),
    let kind := par q 0x10 1
    Served { op := 0x0600, priv := 1, mctp := true, ctx := if kind = 0 then 2 else 1, output := decide (kind = 1), fields := fld 0x10 1 :: (if kind = 0 then [] else [fld 0x18 8]) } q (firstBad [(0x10, decide (kind ≤ 1))]) s s₁ ∧ (s₁.unitsOff = false) ∧ (kind = 0)) ∧
  (∃ (q : Req) (s s₁ : State),
    let kind := par q 0x10 1
    Served { op := 0x0600, priv := 1, mctp := true, ctx := if kind = 0 then 2 else 1, output := decide (kind = 1), fields := fld 0x10 1 :: (if kind = 0 then [] else [fld 0x18 8]) } q (firstBad [(0x10, decide (kind ≤ 1))]) s s₁ ∧ (s₁.unitsOff = true)) ∧
  (∃ (q : Req) (s s₁ : State) (k : Nat) (x : Session),
    let kind := par q 0x10 1
    let h := par q 0x18 8
    Served { op := 0x0600, priv := 1, mctp := true, ctx := if kind = 0 then 2 else 1, output := decide (kind = 1), fields := fld 0x10 1 :: (if kind = 0 then [] else [fld 0x18 8]) } q (firstBad [(0x10, decide (kind ≤ 1))]) s s₁ ∧ (s₁.unitsOff = false) ∧ (kind = 1) ∧ (s₁.sessionOf h = some (k, x)) ∧ (x.tc = q.tc.val)) ∧
  (∃ (q : Req) (s s₁ : State),
    let h := par q 0x38 8
    let sess := s.sessionOf h
    let dec := if h = 0 then parBit q 0x10 0 else match sess with | some (_, x) => x.dir == 1 | none => false
    Served { op := 0x0601, priv := 1, mbox := false, ctx := 1, fields := submitFields (decide (h ≠ 0)) } q (firstBad ([(0x02, !q.plptr)] ++ (if h = 0 then s.formatChecks q 26 false else []) ++ outChecks q ++ sourceChecks q dec ++ [(0x38, decide (h = 0) || s.onItsRing q h)])) s s₁ ∧ (s₁.unitsOff = false) ∧ (h = 0) ∧ (dec = true ∨ par q 0x20 8 ≤ jobMax) ∧ (s₁.job.queue.length < 256)) ∧
  (∃ (q : Req) (s s₁ : State),
    let h := par q 0x38 8
    let sess := s.sessionOf h
    let dec := if h = 0 then parBit q 0x10 0 else match sess with | some (_, x) => x.dir == 1 | none => false
    Served { op := 0x0601, priv := 1, mbox := false, ctx := 1, fields := submitFields (decide (h ≠ 0)) } q (firstBad ([(0x02, !q.plptr)] ++ (if h = 0 then s.formatChecks q 26 false else []) ++ outChecks q ++ sourceChecks q dec ++ [(0x38, decide (h = 0) || s.onItsRing q h)])) s s₁ ∧ (s₁.unitsOff = false) ∧ (h = 0) ∧ (dec = false) ∧ (jobMax < par q 0x20 8) ∧ (s₁.job.queue.length < 256)) ∧
  (∃ (q : Req) (s s₁ : State) (k : Nat) (x : Session),
    let h := par q 0x38 8
    let sess := s.sessionOf h
    let dec := if h = 0 then parBit q 0x10 0 else match sess with | some (_, x) => x.dir == 1 | none => false
    Served { op := 0x0601, priv := 1, mbox := false, ctx := 1, fields := submitFields (decide (h ≠ 0)) } q (firstBad ([(0x02, !q.plptr)] ++ (if h = 0 then s.formatChecks q 26 false else []) ++ outChecks q ++ sourceChecks q dec ++ [(0x38, decide (h = 0) || s.onItsRing q h)])) s s₁ ∧ (s₁.unitsOff = false) ∧ (h ≠ 0) ∧ (s₁.sessionOf h = some (k, x)) ∧ (x.broken = false) ∧ (s₁.job.queue.length < 256)) ∧
  (∃ (q : Req) (s s₁ : State) (a : Fin 8) (b : Fin 64) (k : Nat) (x : Session),
    let fmt := parBits q 0x10 1 3
    Served { op := 0x0602, priv := 1, mbox := false, ctx := 1, fields := [fbits 0x10 0 5, fbits 0x11 0 4, fbits 0x12 0 5, fld 0x13 1, fld 0x14 4] } q (firstBad (s.formatChecks q 26 true)) s s₁ ∧ (s₁.unitsOff = false) ∧ (q.origin = .ring a b) ∧ ((List.range 64).find? (fun k => (tget k s₁.job.sessions).isNone) = some k) ∧ (x = { seq := s₁.job.sessSeq + 1, ring := (a.val, b.val), tc := q.tc.val, dir := parBits q 0x10 0 1, fmt := fmt, csum := parBit q 0x10 4, level := parBits q 0x11 0 4, wlog2 := parBits q 0x12 0 5, blk := par q 0x13 1, dict := s₁.dictSlot q.tc.val (par q 0x14 4) }) ∧ (s₁.histBytes + x.hist ≤ 480 * 2 ^ 20)) ∧
  (∃ (q : Req) (s s₁ : State) (k : Nat) (x : Session),
    let h := par q 0x38 8
    Served { op := 0x0604, priv := 1, mbox := false, ctx := 1, fields := flushFields } q (firstBad (outChecks q ++ [(0x38, s.onItsRing q h)])) s s₁ ∧ (s₁.unitsOff = false) ∧ (s₁.sessionOf h = some (k, x)) ∧ (x.broken = false) ∧ (s₁.job.queue.length < 256)) ∧
  (∃ (q : Req) (s s₁ : State) (k : Nat) (x : Session),
    let h := par q 0x38 8
    Served { op := 0x0603, priv := 1, mbox := false, ctx := 1, fields := flushFields } q (firstBad (outChecks q ++ [(0x38, s.onItsRing q h)])) s s₁ ∧ (s₁.unitsOff = false) ∧ (s₁.sessionOf h = some (k, x)) ∧ (x.broken = false) ∧ (s₁.job.queue.length < 256)) ∧
  (∃ (q : Req) (s s₁ : State) (k : Nat) (x : Session),
    let h := par q 0x38 8
    Served { op := 0x0603, priv := 1, mbox := false, ctx := 1, fields := flushFields } q (firstBad (outChecks q ++ [(0x38, s.onItsRing q h)])) s s₁ ∧ (s₁.unitsOff = false) ∧ (s₁.sessionOf h = some (k, x)) ∧ (x.broken = true)) ∧
  (∃ (q : Req) (s s₁ : State) (d : DictRead) (k : Nat) (l : List Byte),
    let raw := parBit q 0x10 0
    let id := par q 0x14 4
    let len := par q 0x20 8
    let own := (match d with | .bytes l => raw || (ownDictId l == id && (zDict false (l.take len)).isSome) | .poison => true : Bool)
    Served { op := 0x0605, priv := 1, ctx := 1, fields := [fbits 0x10 0 1, fbits 0x10 5 1, fld 0x14 4, fld 0x18 8, fld 0x20 8] } q (firstBad [(0x14, decide (id ≠ 0) && (s.dictSlot q.tc.val id).isNone && own), (0x20, decide (256 ≤ len ∧ len ≤ 2 ^ 21))]) s s₁ ∧ (s₁.unitsOff = false) ∧ ((List.range 16).find? (fun k => (tget k s₁.job.dicts).isNone) = some k) ∧ (d = .bytes l)) ∧
  (∃ (q : Req) (s s₁ : State) (k : Nat),
    let slot := s.dictSlot q.tc.val (par q 0x14 4)
    Served { op := 0x0606, priv := 1, ctx := 1, fields := [fld 0x14 4] } q (firstBad [(0x14, slot.isSome)]) s s₁ ∧ (s₁.unitsOff = false) ∧ (slot = some k) ∧ (s₁.dictUsers k = 0)) :=
  ⟨⟨ask 0x0600, jobAwake, _, ⟨by decide +kernel, rfl, by decide +kernel⟩, by decide +kernel⟩,
   ⟨ask 0x0600, awake.put .JOB_CTL_UNIT_EN 0, _, ⟨by decide +kernel, rfl, by decide +kernel⟩, by decide +kernel⟩,
   ⟨onRing0 { ask 0x0600 (1 + 64 * 2 ^ 64) with ctxv := true, outptr := true }, sessAwake false, _, 0, session0 false, ⟨by decide +kernel, rfl, by decide +kernel⟩, by decide +kernel⟩,
   ⟨onRing0 { ask 0x0601 (0x10100140 + 8 * 2 ^ 128 + 16 * 2 ^ 256) with ctxv := true }, jobAwake, _, ⟨by decide +kernel, rfl, by decide +kernel⟩, by decide +kernel⟩,
   ⟨onRing0 { ask 0x0601 (0x10100142 + (2 ^ 32 - 4096) * 2 ^ 128 + 16 * 2 ^ 256 + 2 ^ 46 * 2 ^ 192) with ctxv := true }, jobAwake, _, ⟨by decide +kernel, rfl, by decide +kernel⟩, by decide +kernel⟩,
   ⟨onRing0 { ask 0x0601 (0x40 + 8 * 2 ^ 128 + 16 * 2 ^ 256 + 64 * 2 ^ 320) with ctxv := true }, sessAwake false, _, 0, session0 false, ⟨by decide +kernel, rfl, by decide +kernel⟩, by decide +kernel⟩,
   ⟨onRing0 { ask 0x0602 0x10100100 with ctxv := true }, jobAwake, _, 0, 0, 0, _, ⟨by decide +kernel, rfl, by decide +kernel⟩, by decide +kernel, rfl, by decide +kernel, rfl, by decide +kernel⟩,
   ⟨onRing0 { ask 0x0604 (16 * 2 ^ 256 + 64 * 2 ^ 320) with ctxv := true }, sessAwake false, _, 0, session0 false, ⟨by decide +kernel, rfl, by decide +kernel⟩, by decide +kernel⟩,
   ⟨onRing0 { ask 0x0603 (16 * 2 ^ 256 + 64 * 2 ^ 320) with ctxv := true }, sessAwake false, _, 0, session0 false, ⟨by decide +kernel, rfl, by decide +kernel⟩, by decide +kernel⟩,
   ⟨onRing0 { ask 0x0603 (16 * 2 ^ 256 + 64 * 2 ^ 320) with ctxv := true }, sessAwake true, _, 0, session0 true, ⟨by decide +kernel, rfl, by decide +kernel⟩, by decide +kernel⟩,
   ⟨{ ask 0x0605 (1 + 7 * 2 ^ 32 + 256 * 2 ^ 128) with ctxv := true }, jobAwake, _, .bytes [1, 2], 0, [1, 2], ⟨by decide +kernel, rfl, by decide +kernel⟩, by decide +kernel⟩,
   ⟨{ ask 0x0606 (7 * 2 ^ 32) with ctxv := true }, { jobAwake with job := { jobAwake.job with dicts := [(2, { tc := 0, raw := true, id := 7, bytes := [] })] } }, _, 2, ⟨by decide +kernel, rfl, by decide +kernel⟩, by decide +kernel⟩⟩

/-- States and operands that meet the hypotheses of `Obligations.JobEvents`, clause by clause. -/
theorem witness_JobEvents :
  ((∃ (s : State) (n : Fin 4) (e : Nat × Nat) (j : Job), s.unitOn n.val = true ∧ tget n.val s.job.units = none ∧
      s.nextEntry = some e ∧ tget e.1 s.job.jobs = some j ∧ j.session = none ∧ parBit j.req 0x10 7 = false ∧ headOf j.req.origin = none)) ∧
  ((∃ (s : State) (n : Fin 4) (id piece k : Nat) (j : Job), tget n.val s.job.units = some (id, piece) ∧ tget id s.job.jobs = some j ∧ j.slot = none ∧
      s.freeSlot = some k)) ∧
  ((∃ (s : State) (u : State) (n : Fin 4) (id : Nat) (piece : Nat) (j : Job) (acc : List (Nat × Bool)) (src : List Byte), tget n.val s.job.units = some (id, piece) ∧ tget id s.job.jobs = some j ∧ s.jobAccesses n.val j acc = (u, some true) ∧ j.pieces = 1 ∧ src.length = j.srcLen ∧ (u.jobPar j).dir = 0 ∧ j.session = none)) ∧
  ((∃ (s : State) (u : State) (n : Fin 4) (id : Nat) (piece : Nat) (k : Nat) (j : Job) (x : Session) (acc : List (Nat × Bool)) (src : List Byte), tget n.val s.job.units = some (id, piece) ∧ tget id s.job.jobs = some j ∧ s.jobAccesses n.val j acc = (u, some true) ∧ j.pieces = 1 ∧ src.length = j.srcLen ∧ j.session = some k ∧ tget k u.job.sessions = some x ∧ x.dir = 0)) ∧
  ((∃ (s : State) (u : State) (n : Fin 4) (id : Nat) (piece : Nat) (j : Job) (acc : List (Nat × Bool)) (src : List Byte), tget n.val s.job.units = some (id, piece) ∧ tget id s.job.jobs = some j ∧ s.jobAccesses n.val j acc = (u, some true) ∧ src.length = pieceLen j piece ∧ (u.jobPar j).dir = 0 ∧ j.pieces ≠ 1)) ∧
  ((∃ (s : State) (u : State) (n : Fin 4) (id : Nat) (piece : Nat) (j : Job) (acc : List (Nat × Bool)) (src : List Byte), tget n.val s.job.units = some (id, piece) ∧ tget id s.job.jobs = some j ∧ s.jobAccesses n.val j acc = (u, some true) ∧ src.length = pieceLen j piece ∧ (u.jobPar j).dir = 1)) ∧
  ((∃ (s : State) (n : Fin 4) (j : Job) (e : Emit) (u : State), u = (s.put .JOB_UNIT_CNT_RAW_BLK (satAdd 0xFFFF (s.get .JOB_UNIT_CNT_RAW_BLK n.val) e.raw) n.val).sessionAfter j e.c e.bytes.length e.c.part.length ∧ e.bytes.length ≤ j.room ∧ j.kind = 0)) ∧
  ((∃ (s : State) (u : State) (v : State) (w : State) (n : Fin 4) (id : Nat) (piece : Nat) (j : Job) (acc : List (Nat × Bool)), tget n.val s.job.units = some (id, piece) ∧ tget id s.job.jobs = some j ∧ s.jobAccesses n.val j acc = (u, some true) ∧ v = u.report (msg2 bJob n.val 1) ∧ w = u.report (msg2 bCoh (22 + n.val) 5))) ∧
  ((∃ (s : State) (u : State) (n : Fin 4) (id : Nat) (piece : Nat) (j : Job), tget n.val s.job.units = some (id, piece) ∧ tget id s.job.jobs = some j ∧ u = (s.bump .JOB_UNIT_CNT_HANGS 0x7F n.val).report (msg2 bJob n.val 3))) :=
  ⟨⟨{ jobAwake with job := { jobAwake.job with jobs := [(5, job5)], queue := [(5, 0)] } }, 1, (5, 0), job5, by decide +kernel, rfl, rfl, rfl, rfl, rfl, rfl⟩,
   ⟨unitAwake, 1, 5, 0, 0, job5, rfl, rfl, rfl, by decide +kernel⟩,
   ⟨unitAwake, _, 1, 5, 0, job5, [], [], rfl, rfl, rfl, rfl, rfl, rfl, rfl⟩,
   ⟨{ unitAwake with job := { unitAwake.job with jobs := [(5, { job5 with session := some 0 })], sessions := [(0, session0 false)] } }, _, 1, 5, 0, 0, { job5 with session := some 0 }, session0 false, [], [], rfl, rfl, rfl, rfl, rfl, rfl, rfl, rfl⟩,
   ⟨{ unitAwake with job := { unitAwake.job with jobs := [(5, { job5 with pieces := 2 })] } }, _, 1, 5, 0, { job5 with pieces := 2 }, [], [], rfl, rfl, rfl, rfl, rfl, by decide⟩,
   ⟨{ unitAwake with job := { unitAwake.job with jobs := [(5, { job5 with req := { job5.req with param := 1 } })] } }, _, 1, 5, 0, { job5 with req := { job5.req with param := 1 } }, [], [], rfl, rfl, rfl, rfl, rfl⟩,
   ⟨unitAwake, 1, job5, { c := {} }, _, rfl, by decide +kernel, rfl⟩,
   ⟨unitAwake, _, _, _, 1, 5, 0, job5, [], rfl, rfl, rfl, rfl, rfl⟩,
   ⟨unitAwake, _, 1, 5, 0, job5, rfl, rfl, rfl⟩⟩

/-- States and operands that meet the hypotheses of `Obligations.KeyAndSecurityCommands`, clause by clause. -/
theorem witness_KeyAndSecurityCommands :
  (∃ (q : Req) (s s₁ : State),
    Served { op := 0x0700, priv := 0, mctp := true, output := true } q none s s₁) ∧
  (∃ (q : Req) (s s₁ : State),
    let ks := par q 0x10 1
    Served { op := 0x0701, priv := 2, ctx := 2, fields := keyFields } q (firstBad [(0x10, slotOk ks)]) s s₁ ∧ (s₁.keysOpen q opW) ∧ (s₁.get .SEC_KS_STS_REF ks = 0) ∧ (s₁.swept ks = false) ∧ (s₁.isSet .SEC_STS_ENTROPY_FAIL = false)) ∧
  (∃ (q : Req) (s s₁ : State),
    let ks := par q 0x10 1
    Served { op := 0x0701, priv := 2, ctx := 2, fields := keyFields } q (firstBad [(0x10, slotOk ks)]) s s₁ ∧ (s₁.keysOpen q opW) ∧ (s₁.get .SEC_KS_STS_REF ks = 0) ∧ (s₁.swept ks = false) ∧ (s₁.isSet .SEC_STS_ENTROPY_FAIL = true)) ∧
  (∃ (q : Req) (s s₁ : State),
    let ks := par q 0x10 1
    let sid := par q 0x14 4
    let mine := match headOf q.origin with | some h => s.sec.sessions.contains (h, sid) | none => false
    Served { op := 0x0702, priv := 2, ctx := 2, payload := 104, fields := keyFields ++ [fld 0x14 4] } q (firstBad [(0x08, decide (q.plen = 104)), (0x10, slotOk ks), (0x14, mine)]) s s₁ ∧ (s₁.keysOpen q opW) ∧ (s₁.get .SEC_KS_STS_REF ks = 0) ∧ (s₁.swept ks = false)) ∧
  ((∃ (ks : Nat), ks < 32)) ∧
  (∃ (q : Req) (s s₁ : State),
    let ks := par q 0x10 1
    Served { op := 0x0704, priv := 2, fields := keyFields } q (firstBad [(0x10, slotOk ks)]) s s₁ ∧ (s₁.keysOpen q opW) ∧ (s₁.get .SEC_KS_STS_REF ks = 0) ∧ (s₁.swept ks = false) ∧ (s₁.get .SEC_CTL_EXHAUST_KS ≠ ks)) ∧
  (∃ (q : Req) (s s₁ : State),
    let ks := par q 0x10 1
    let force := parBit q 0x11 0
    Served { op := 0x0704, priv := 2, fields := keyFields } q (firstBad [(0x10, slotOk ks)]) s s₁ ∧ (s₁.keysOpen q opW) ∧ (0 < s₁.get .SEC_KS_STS_REF ks) ∧ (force = true) ∧ (s₁.swept ks = false) ∧ (s₁.get .SEC_CTL_EXHAUST_KS ≠ ks) ∧ ((s₁.freeSlot).isSome = true)) ∧
  (∃ (q : Req) (s s₁ : State) (k : Nat),
    let old := par q 0x10 1
    let new := par q 0x11 1
    let bind := parBits q 0x12 0 1
    let first := par q 0x18 8
    let count := par q 0x20 8
    Served { op := 0x0703, priv := 2, ctx := 2, fields := [fld 0x10 2, fbits 0x12 0 2, fbits 0x18 0 33, fld 0x20 8] } q (firstBad [(0x0C, bind == 0 || q.ctxv), (0x10, slotOk old && s.slotActive old), (0x11, slotOk new && s.slotActive new && new != old), (0x18, decide (first < devWindow)), (0x20, decide (1 ≤ count ∧ count ≤ 2 ^ 33 ∧ first + count ≤ devWindow))]) s s₁ ∧ (s₁.keysOpen q opW) ∧ ((List.range 4).find? (fun k => !s₁.sweeping k) = some k) ∧ (∀ j < 4, s₁.sweeping j = true → ¬ (first < s₁.get .SEC_SWEEP_LIMIT_LPN j ∧ s₁.get .SEC_SWEEP_FIRST_LPN j < first + count)) ∧ ((s₁.freeSlot).isSome = true)) ∧
  (∃ (q : Req) (s s₁ : State),
    let r := par q 0x10 1
    let en := parBits q 0x11 0 1
    let base := par q 0x18 8
    let lim := par q 0x20 8
    Served { op := 0x0705, priv := 2, fields := [fld 0x10 1, fbits 0x11 0 1, fbits 0x18 0 33, fbits 0x20 0 33] } q (firstBad [(0x10, decide (r < 8)), (0x20, decide (en = 0 ∨ (base < lim ∧ lim ≤ devWindow)))]) s s₁) ∧
  (∃ (q : Req) (s s₁ : State) (u : State) (hit : List Nat),
    Served { op := 0x0707, priv := 1, ctx := 2, fields := rangeFields } q (firstBad (s.rangeChecks q ++ [(0x10, (pagesOf q).all (fun p => s.tier p != 5))])) s s₁ (s.lpnDeny q (firstLpn q) (pageCount q)) ∧ (u = s₁.allRecalled q) ∧ (∀ p ∈ pagesOf q, u.notMine p = false ∧ u.tier p ≠ 5) ∧ (hit = (pagesOf q).filter (fun p => u.tier p != 0))) ∧
  (∃ (q : Req) (s s₁ : State) (hit : List Nat),
    Served { op := 0x0706, priv := 1, ctx := 2, fields := rangeFields } q (firstBad (s.rangeChecks q)) s s₁ (s.lpnDeny q (firstLpn q) (pageCount q)) ∧ (∀ p ∈ pagesOf q, s₁.inMove p = false) ∧ (hit = (pagesOf q).filter (fun p => s₁.unverif p && hasImage (s₁.tier p) && s₁.slotActive (s₁.page p).pl.ks && decide (s₁.get .SEC_KS_HIGH_VALUE (s₁.page p).pl.ks < 0xFFFFFFFFFFFFFFFE)))) ∧
  (∃ (q : Req) (s s₁ : State),
    let seq := par q 0x10 8
    Served { op := 0x0708, priv := 2, fields := [fld 0x10 8] } q none s s₁ ∧ (s₁.sec.alarms.contains seq = false) ∧ (s₁.isSet .SEC_STS_HALT_REC = true) ∧ (s₁.sec.haltRec.map (·.seq) = some seq)) ∧
  (∃ (q : Req) (s s₁ : State),
    let seq := par q 0x10 8
    Served { op := 0x0708, priv := 2, fields := [fld 0x10 8] } q none s s₁ ∧ (s₁.sec.alarms.contains seq = true)) :=
  ⟨⟨ask 0x0700, awake, _, ⟨by decide +kernel, rfl, by decide +kernel⟩⟩,
   ⟨ask 0x0701 3, portAwake, _, ⟨by decide +kernel, rfl, by decide +kernel⟩, by decide +kernel⟩,
   ⟨ask 0x0701 3, portAwake.put .SEC_STS_ENTROPY_FAIL 1, _, ⟨by decide +kernel, rfl, by decide +kernel⟩, by decide +kernel⟩,
   ⟨{ ask 0x0702 (3 + 5 * 2 ^ 32) with plen := 104, payload := List.replicate 104 0 }, { portAwake with sec := { portAwake.sec with sessions := [(0, 5)], secrets := [(0, 5, [1])] } }, _, ⟨by decide +kernel, rfl, by decide +kernel⟩, by decide +kernel⟩,
   ⟨3, by decide +kernel⟩,
   ⟨ask 0x0704 3, portAwake.put .SEC_CTL_EXHAUST_KS 4, _, ⟨by decide +kernel, rfl, by decide +kernel⟩, by decide +kernel⟩,
   ⟨ask 0x0704 (3 + 2 ^ 8), (portAwake.put .SEC_CTL_EXHAUST_KS 4).put .SEC_KS_STS_REF 1 3, _, ⟨by decide +kernel, rfl, by decide +kernel⟩, by decide +kernel⟩,
   ⟨ask 0x0703 (1 + 2 * 2 ^ 8 + 9 * 2 ^ 128), ((portAwake.put .SEC_KS_STS_STATE 1 1).put .SEC_KS_STS_STATE 1 2), _, 0, ⟨by decide +kernel, rfl, by decide +kernel⟩, by decide +kernel⟩,
   ⟨ask 0x0705 (0x0102 + 5 * 2 ^ 64 + 9 * 2 ^ 128), awake, _, ⟨by decide +kernel, rfl, by decide +kernel⟩⟩,
   ⟨ask 0x0707 (5 + 2 ^ 64), pageAwake, _, _, _, ⟨by decide +kernel, rfl, by decide +kernel⟩, rfl, by decide +kernel, rfl⟩,
   ⟨ask 0x0706 (5 + 2 ^ 64), { (pageAwake.put .SEC_KS_STS_STATE 1) with sec := { pageAwake.sec with unver := [(1, 0)] } }, _, _, ⟨by decide +kernel, rfl, by decide +kernel⟩, by decide +kernel, rfl⟩,
   ⟨ask 0x0708 7, { awake.put .SEC_STS_HALT_REC 1 with sec := { awake.sec with haltRec := some ⟨1, 1, 0, 0, 0, 0, 5, 0, 0, 0, 0, 0, 7⟩ } }, _, ⟨by decide +kernel, rfl, by decide +kernel⟩, by decide +kernel⟩,
   ⟨ask 0x0708 7, { awake with sec := { awake.sec with alarms := [7] } }, _, ⟨by decide +kernel, rfl, by decide +kernel⟩, by decide +kernel⟩⟩

/-- States and operands that meet the hypotheses of `Obligations.ProtectionCommands`, clause by clause. -/
theorem witness_ProtectionCommands :
  (∃ (q : Req) (s s₁ : State),
    let c := par q 0x10 1
    Served { op := 0x0800, priv := 0, mctp := true, output := true, fields := [fld 0x10 1] } q (firstBad [(0x10, decide (c < 16))]) s s₁) ∧
  (∃ (q : Req) (s s₁ : State),
    Served { op := 0x0801, priv := 2, fields := [fld 0x10 2] } q (firstBad [(0x10, decide (par q 0x10 1 ≤ 1)), (0x11, decide (par q 0x11 1 ≤ 1))]) s s₁) ∧
  (∃ (q : Req) (s s₁ : State),
    let h := par q 0x10 2
    Served { op := 0x0802, priv := 2, fields := [fld 0x10 4, fbits 0x14 0 1] } q (firstBad [(0x10, decide (h ≤ 168))]) s s₁ ∧ (parBit q 0x14 0 = false)) ∧
  (∃ (q : Req) (s s₁ : State),
    let h := par q 0x10 2
    Served { op := 0x0802, priv := 2, fields := [fld 0x10 4, fbits 0x14 0 1] } q (firstBad [(0x10, decide (h ≤ 168))]) s s₁ ∧ (parBit q 0x14 0 = true)) ∧
  (∃ (q : Req) (s s₁ : State),
    let k := par q 0x10 1
    let ma := par q 0x18 8
    Served { op := 0x0803, priv := 2, fields := injectFields k } q (s.injectBad q) s s₁ ∧ (k < 2) ∧ (s₁.get .ECC_INJ_STS_ARMED (s₁.chanOf ma) < 8)) ∧
  (∃ (q : Req) (s s₁ : State) (o : Own),
    let k := par q 0x10 1
    let ma := par q 0x18 8
    Served { op := 0x0803, priv := 2, fields := injectFields k } q (s.injectBad q) s s₁ ∧ (k = 2) ∧ (s₁.ownAt ma = some o) ∧ (tget ma s₁.pg.own = some o) ∧ (o.role = 1) ∧ (s₁.get .ECC_INJ_STS_ARMED (s₁.chanOf ma) < 8)) ∧
  (∃ (q : Req) (s s₁ : State),
    let k := par q 0x10 1
    Served { op := 0x0803, priv := 2, fields := injectFields k } q (s.injectBad q) s s₁ ∧ (k = 3) ∧ ((s₁.ecc.inj.filter (fun x => decide (x.kind = 3 ∧ x.la / 1024 = par q 0x18 2 / 1024))).length < 4)) ∧
  (∃ (q : Req) (s s₁ : State) (m : Nat),
    let i0 := par q 0x10 4
    let n := par q 0x14 2
    Served { op := 0x0804, priv := 0, output := true, fields := [fld 0x10 6] } q (firstBad [(0x14, decide (1 ≤ n ∧ n ≤ 4096))]) s s₁ ∧ (m = min n (s₁.ecc.pcount - i0))) :=
  ⟨⟨ask 0x0800 3, awake, _, ⟨by decide +kernel, rfl, by decide +kernel⟩⟩,
   ⟨ask 0x0801 0x0101, awake, _, ⟨by decide +kernel, rfl, by decide +kernel⟩⟩,
   ⟨ask 0x0802 24, awake, _, ⟨by decide +kernel, rfl, by decide +kernel⟩, by decide +kernel⟩,
   ⟨ask 0x0802 (24 + 2 ^ 32), awake, _, ⟨by decide +kernel, rfl, by decide +kernel⟩, by decide +kernel⟩,
   ⟨ask 0x0803 (2 ^ 144 + 2 ^ 224), mapAwake, _, ⟨by decide +kernel, rfl, by decide +kernel⟩, by decide +kernel⟩,
   ⟨ask 0x0803 (2 + 16 * 2 ^ 64 + 2 ^ 144 + 2 ^ 224), { mapAwake with pg := { mapAwake.pg with own := [(16, { lpn := 5, role := 1, code := 0, start := true })] } }, _, { lpn := 5, role := 1, code := 0, start := true }, ⟨by decide +kernel, rfl, by decide +kernel⟩, by decide +kernel⟩,
   ⟨ask 0x0803 (3 + (0x0C01 + 2 ^ 16) * 2 ^ 64), awake, _, ⟨by decide +kernel, rfl, by decide +kernel⟩, by decide +kernel⟩,
   ⟨ask 0x0804 (2 ^ 32), awake, _, _, ⟨by decide +kernel, rfl, by decide +kernel⟩, rfl⟩⟩

/-- States and operands that meet the hypotheses of `Obligations.DramCommands`, clause by clause. -/
theorem witness_DramCommands :
  (∃ (q : Req) (s s₁ : State),
    let c := par q 0x10 1
    Served { op := 0x0900, priv := 0, mctp := true, output := true, fields := [fld 0x10 1] } q (firstBad [(0x10, decide (c < 16))]) s s₁) ∧
  (∃ (q : Req) (s s₁ : State),
    let mask := par q 0x10 2
    let p := par q 0x12 1
    Served { op := 0x0901, priv := 2, fields := [fld 0x10 2, fld 0x12 1] } q (firstBad [(0x10, decide (mask ≠ 0)), (0x12, decide (p < 4)), (0x12, (maskList mask).all (fun c => s.isSet .MEM_FP_VALID c p && s.isSet .MEM_FP_TRAINED c p))]) s s₁ ∧ (∀ c ∈ maskList mask, s₁.inService c = true) ∧ ((s₁.freeSlot).isSome = true)) ∧
  (∃ (q : Req) (s s₁ : State),
    let c := par q 0x10 1
    Served { op := 0x0902, priv := 2, fields := [fld 0x10 1] } q (firstBad [(0x10, decide (c < 16))]) s s₁ ∧ (s₁.inService c = true) ∧ ((s₁.freeSlot).isSome = true)) ∧
  (∃ (q : Req) (s s₁ : State),
    let c := par q 0x10 1
    let d := par q 0x14 4
    Served { op := 0x0903, priv := 2, fields := [fld 0x10 1, fld 0x14 4] } q (firstBad [(0x10, decide (c < 16)), (0x14, decide (d ≤ 10000))]) s s₁ ∧ (0 < d) ∧ (s₁.chState c = 3 ∨ s₁.chState c = 4)) ∧
  (∃ (q : Req) (s s₁ : State),
    let c := par q 0x10 1
    let d := par q 0x14 4
    Served { op := 0x0903, priv := 2, fields := [fld 0x10 1, fld 0x14 4] } q (firstBad [(0x10, decide (c < 16)), (0x14, decide (d ≤ 10000))]) s s₁ ∧ (d = 0) ∧ (s₁.chState c ≠ 4)) ∧
  (∃ (q : Req) (s s₁ : State),
    let c := par q 0x10 1
    let d := par q 0x14 4
    Served { op := 0x0903, priv := 2, fields := [fld 0x10 1, fld 0x14 4] } q (firstBad [(0x10, decide (c < 16)), (0x14, decide (d ≤ 10000))]) s s₁ ∧ (d = 0) ∧ (s₁.chState c = 4)) ∧
  (∃ (q : Req) (s s₁ : State) (sn : Snapshot),
    let c := par q 0x10 1
    let ix := par q 0x11 1
    Served { op := 0x0904, priv := 2, output := true, fields := [fld 0x10 2] } q (firstBad [(0x10, decide (c < 16)), (0x11, decide (ix < 8 ∨ ix = 0xFF))]) s s₁ ∧ (tget (if ix = 0xFF then s₁.get .MEM_FRZ_STS_SNAP c else ix) (s₁.chan c).snaps = some sn)) ∧
  (∃ (q : Req) (s s₁ : State),
    let c := par q 0x10 1
    Served { op := 0x0905, priv := 2, fields := [fld 0x10 1, fbits 0x11 0 1] } q (firstBad [(0x10, decide (c < 16))]) s s₁ ∧ (parBit q 0x11 0 = true ∨ s₁.holdsPages c = false) ∧ ((s₁.freeSlot).isSome = true)) :=
  ⟨⟨ask 0x0900 3, awake, _, ⟨by decide +kernel, rfl, by decide +kernel⟩⟩,
   ⟨ask 0x0901 (1 + 2 ^ 16), ((mapAwake.put .MEM_FP_VALID 1 0 1).put .MEM_FP_TRAINED 1 0 1), _, ⟨by decide +kernel, rfl, by decide +kernel⟩, by decide +kernel⟩,
   ⟨ask 0x0902 3, mapAwake, _, ⟨by decide +kernel, rfl, by decide +kernel⟩, by decide +kernel⟩,
   ⟨ask 0x0903 (3 + 50 * 2 ^ 32), awake.put .MEM_CH_STS_STATE 3 3, _, ⟨by decide +kernel, rfl, by decide +kernel⟩, by decide +kernel⟩,
   ⟨ask 0x0903 3, awake.put .MEM_CH_STS_STATE 3 3, _, ⟨by decide +kernel, rfl, by decide +kernel⟩, by decide +kernel⟩,
   ⟨ask 0x0903 3, awake.put .MEM_CH_STS_STATE 4 3, _, ⟨by decide +kernel, rfl, by decide +kernel⟩, by decide +kernel⟩,
   ⟨ask 0x0904 (3 + 255 * 2 ^ 8), awake.setChan 3 { awake.chan 3 with snaps := [(0, { cause := 1, fp := 0, time := 0, seq := 0, errs := [], slot := 0, cmds := [] })] }, _, { cause := 1, fp := 0, time := 0, seq := 0, errs := [], slot := 0, cmds := [] }, ⟨by decide +kernel, rfl, by decide +kernel⟩, by decide +kernel⟩,
   ⟨ask 0x0905 (3 + 2 ^ 8), mapAwake, _, ⟨by decide +kernel, rfl, by decide +kernel⟩, by decide +kernel⟩⟩

/-- States and operands that meet the hypotheses of `Obligations.FreezesAndHolds`, clause by clause. -/
theorem witness_FreezesAndHolds :
  ((∃ (s : State) (c : Fin 16), s.chState c.val = 2 ∧ s.isSet .MEM_FRZ_STS_FROZEN c.val = false ∧ s.storm c.val = false)) ∧
  ((∃ (s : State) (c : Fin 16), s.isSet .MEM_FRZ_STS_FROZEN c.val = true)) ∧
  ((∃ (s : State) (u : State) (c : Fin 16), u = (((s.bump .MEM_CNT_ABO 0xFFFF c.val).bump .MEM_CNT_RFM 0xFFFFFFFF c.val).maint c.val 7).emit (.dram c.val 3 0))) ∧
  ((∃ (s : State) (c : Fin 16), s.chState c.val = 3 ∧ (s.chan c.val).hold = none)) ∧
  ((∃ (s : State) (c : Fin 16), s.chState c.val = 3 ∧ (s.chan c.val).hold.isSome = true ∧ s.get .MEM_FRZ_STS_CAUSE c.val ≠ 3)) ∧
  ((∃ (s : State) (u : State) (c : Fin 16), s.chState c.val = 3 ∧ (s.chan c.val).hold.isSome = true ∧ s.get .MEM_FRZ_STS_CAUSE c.val = 3 ∧ u = ((s.put .MEM_FRZ_STS_FROZEN 0 c.val).markEvac c.val).afterSteps)) ∧
  ((∃ (s : State) (c : Fin 16) (d : Nat), s.chState c.val = 4 ∧ (s.chan c.val).hold = some (.ms d))) ∧
  ((∃ (s : State) (c : Fin 16), s.chState c.val = 4 ∧ (s.chan c.val).owed = [])) :=
  ⟨⟨mapAwake.put .MEM_FRZ_CTL_STORM_THR 8, 3, by decide +kernel⟩,
   ⟨awake.put .MEM_FRZ_STS_FROZEN 1 3, 3, by decide +kernel⟩,
   ⟨awake, _, 3, rfl⟩,
   ⟨(awake.put .MEM_CH_STS_STATE 3 3), 3, by decide +kernel⟩,
   ⟨(awake.put .MEM_CH_STS_STATE 3 3).setChan 3 { awake.chan 3 with hold := some (.ms 5) }, 3, by decide +kernel⟩,
   ⟨((awake.put .MEM_CH_STS_STATE 3 3).put .MEM_FRZ_STS_CAUSE 3 3).setChan 3 { awake.chan 3 with hold := some (.ms 5) }, _, 3, by decide +kernel, by decide +kernel, by decide +kernel, rfl⟩,
   ⟨(awake.put .MEM_CH_STS_STATE 4 3).setChan 3 { awake.chan 3 with hold := some (.ms 5) }, 3, 5, by decide +kernel, rfl⟩,
   ⟨(awake.put .MEM_CH_STS_STATE 4 3).setChan 3 { awake.chan 3 with hold := some (.ms 5) }, 3, by decide +kernel⟩⟩

/-- States and operands that meet the hypotheses of `Obligations.ChannelUpkeep`, clause by clause. -/
theorem witness_ChannelUpkeep :
  ((∃ (s : State) (c : Fin 16), (s.chan c.val).postponed < s.get .MEM_REF_CTL_MAXPOST c.val)) ∧
  ((∃ (s : State) (c : Fin 16), s.get .MEM_REF_CTL_MAXPOST c.val ≤ (s.chan c.val).postponed)) ∧
  ((∃ (s : State) (u : State) (c : Fin 16), u = (List.range ((s.chan c.val).postponed + 1)).foldl (fun (s : State) _ => s.refresh c.val) s)) ∧
  ((∃ (s : State) (c : Fin 16), s.inService c.val = true)) ∧
  ((∃ (s : State) (c : Fin 16) (d : Nat), s.inService c.val = true ∧ (s.get .MEM_TRN_CTL_DRIFT_PS c.val < d ∨ s.get .MEM_TRN_CTL_RETRAIN_S c.val * 1000000000 ≤ s.now - (s.chan c.val).lastRetrain))) ∧
  ((∃ (s : State) (c : Fin 16), (s.chan c.val).retrainDue = true ∧ s.chState c.val = 2 ∧ s.get .MEM_GLB_FCHG = 31)) ∧
  ((∃ (s : State) (u : State) (v : State) (c : Fin 16) (ns : Nat), s.chState c.val = 5 ∧ s.get .MEM_GLB_FCHG = c.val ∧ (s.chan c.val).retrainDue = true ∧ (s.chan c.val).pauseHit = none ∧ u = ((s.bump .MEM_TRN_STS_RETRAINS 0xFFFF c.val).pauseTime c.val ns).put .MEM_TRN_STS_LAST 1 c.val ∧ v = (u.setChan c.val { u.chan c.val with retrainDue := false, lastRetrain := u.now }).endPause c.val)) ∧
  ((∃ (s : State) (u : State) (v : State) (c : Fin 16) (ns : Nat), s.chState c.val = 5 ∧ s.get .MEM_GLB_FCHG = c.val ∧ (s.chan c.val).retrainDue = true ∧ u = ((((s.bump .MEM_TRN_STS_RETRAINS 0xFFFF c.val).pauseTime c.val ns).put .MEM_TRN_STS_LAST 2 c.val).bump .MEM_TRN_STS_FAILS 0xFF c.val).report (msg2 bMem c.val 3) ∧ v = (u.setChan c.val { u.chan c.val with retrainDue := false, lastRetrain := u.now }).endPause c.val)) ∧
  ((∃ (s : State) (c : Fin 16), (s.chan c.val).pauseHit = none)) ∧
  ((∃ (s : State) (u : State) (v : State) (c : Fin 16) (p : Nat), (s.chan c.val).changeTo = some p ∧ (s.chan c.val).retrainDue = false ∧ s.chState c.val = 2 ∧ s.get .MEM_GLB_FCHG = 31 ∧ u = (List.range (s.chan c.val).postponed).foldl (fun (s : State) _ => s.refresh c.val) s ∧ v = ((u.setChan c.val { u.chan c.val with postponed := 0 }).maint c.val 4).maint c.val 11)) ∧
  ((∃ (s : State) (u : State) (v : State) (w : State) (c : Fin 16) (p : Nat) (ns : Nat), (s.chan c.val).changeTo = some p ∧ (s.chan c.val).retrainDue = false ∧ (s.chan c.val).pauseHit = none ∧ s.chState c.val = 5 ∧ s.get .MEM_GLB_FCHG = c.val ∧ u = (((s.maint c.val 12).maint c.val 8).closeRows c.val).pauseTime c.val ns ∧ v = ((u.put .MEM_CH_STS_FP p c.val).put .MEM_CH_STS_RATE (u.get .MEM_FP_RATE c.val p) c.val).put .MEM_TIM_SEL_ACT (1 - u.get .MEM_TIM_SEL_ACT c.val) c.val ∧ w = ((u.put .MEM_FP_TRAINED 0 c.val p).bump .MEM_TRN_STS_FAILS 0xFF c.val).report (msg2 bMem c.val 4))) ∧
  ((∃ (s : State) (slot : Fin 32) (i : Fin 4), s.isSet .SLT_SG_STS_GATE slot.val = true ∧ (s.chan (slot.val / 2)).failed.contains (4 * (slot.val % 2) + i.val) = false)) ∧
  ((∃ (s : State) (slot : Fin 32) (i : Fin 4), s.isSet .SLT_SG_STS_GATE slot.val = true ∧ (s.chan (slot.val / 2)).failed.contains (4 * (slot.val % 2) + i.val) = true)) ∧
  ((∃ (s : State) (slot : Nat) (i : Nat), (s.chan (slot / 2)).failed.contains (4 * (slot % 2) + i) = false)) ∧
  ((∃ (s : State) (slot : Nat) (v : Nat), v < s.get .MEM_REF_CTL_CRIT_C (slot / 2) + 128 ∧ (s.chan (slot / 2)).failed = [])) ∧
  ((∃ (s : State) (c : Fin 16), s.chState c.val = 7 ∧ s.mem.disabledSlices.contains c.val = false ∧ (∀ p < 4, s.isSet .MEM_FP_VALID c.val p = false))) ∧
  ((∃ (s : State) (u : State) (v : State) (c : Fin 16) (l : List (Fin 4)) (p : Nat) (rest : List Nat), s.chState c.val = 7 ∧ s.mem.disabledSlices.contains c.val = false ∧ (∀ k < 4, s.isSet .MEM_FP_VALID c.val k = true → l.any (fun x => x.val == k) = true) ∧ u = (List.range 4).foldl (fun (s : State) k => s.put .MEM_FP_TRAINED (b2n (s.isSet .MEM_FP_VALID c.val k && l.any (fun x => x.val == k))) c.val k) s ∧ u.trained c.val = p :: rest ∧ v = (u.put .MEM_CH_STS_FP p c.val).put .MEM_CH_STS_RATE (u.get .MEM_FP_RATE c.val p) c.val ∧ v.mapCheck c.val = true)) ∧
  ((∃ (s : State) (u : State) (c : Fin 16), s.chState c.val = 1 ∧ s.mapCheck c.val = true ∧ s.mem.disabledSlices.contains c.val = false ∧ u = (List.range 8).foldl (fun (s : State) i => (s.put .ECC_MARK_V 0 c.val i).put .ECC_MARK_GROUP 0 c.val i) s)) :=
  ⟨⟨awake.put .MEM_REF_CTL_MAXPOST 4 3, 3, by decide +kernel⟩,
   ⟨awake.put .MEM_REF_CTL_MAXPOST 0 3, 3, by decide +kernel⟩,
   ⟨awake, _, 3, rfl⟩,
   ⟨mapAwake, 3, by decide +kernel⟩,
   ⟨mapAwake, 3, 100, by decide +kernel⟩,
   ⟨(mapAwake.put .MEM_GLB_FCHG 31).setChan 3 { awake.chan 3 with retrainDue := true }, 3, by decide +kernel⟩,
   ⟨((mapAwake.put .MEM_CH_STS_STATE 5 3).put .MEM_GLB_FCHG 3).setChan 3 { awake.chan 3 with retrainDue := true }, _, _, 3, 900, by decide +kernel, by decide +kernel, (by decide +kernel), by decide +kernel, rfl, rfl⟩,
   ⟨((mapAwake.put .MEM_CH_STS_STATE 5 3).put .MEM_GLB_FCHG 3).setChan 3 { awake.chan 3 with retrainDue := true }, _, _, 3, 900, by decide +kernel, by decide +kernel, by decide +kernel, rfl, rfl⟩,
   ⟨mapAwake, 3, by decide +kernel⟩,
   ⟨(mapAwake.put .MEM_GLB_FCHG 31).setChan 3 { awake.chan 3 with changeTo := some 1 }, _, _, 3, 1, rfl, by decide +kernel, by decide +kernel, by decide +kernel, rfl, rfl⟩,
   ⟨((mapAwake.put .MEM_CH_STS_STATE 5 3).put .MEM_GLB_FCHG 3).setChan 3 { awake.chan 3 with changeTo := some 1 }, _, _, _, 3, 1, 900, rfl, by decide +kernel, by decide +kernel, (by decide +kernel), by decide +kernel, rfl, rfl, rfl⟩,
   ⟨mapAwake.put .SLT_SG_STS_GATE 1 6, 6, 1, by decide +kernel⟩,
   ⟨(mapAwake.put .SLT_SG_STS_GATE 1 6).setChan 3 { failed := [1] }, 6, 1, by decide +kernel⟩,
   ⟨mapAwake, 6, 1, by decide +kernel⟩,
   ⟨mapAwake.put .MEM_REF_CTL_CRIT_C 95 3, 6, 150, by decide +kernel⟩,
   ⟨awake.put .MEM_CH_STS_STATE 7 3, 3, by decide +kernel⟩,
   ⟨initAwake.put .MEM_CH_STS_STATE 7 3, _, _, 3, [0, 1, 2, 3], 0, [1, 2, 3], by decide +kernel, by decide +kernel, by decide +kernel, rfl, by decide +kernel, rfl, by decide +kernel⟩,
   ⟨initAwake, _, 3, by decide +kernel, by decide +kernel, by decide +kernel, rfl⟩⟩

/-- States and operands that meet the hypotheses of `Obligations.HostMemoryAccesses`, clause by clause. -/
theorem witness_HostMemoryAccesses :
  ((∃ (s : State) (u : State) (m : HostMem) (dpa : Nat) (line : Nat) (val : Nat) (tc : Nat) (kind : Bool) (q : CohReq) (h : Held) (x : State × Resolved) (y : State × Bool) (z : State × Nat × Nat), s.memOpen m.h.val = true ∧ s.hdm m.h.val m.hpa.val = some dpa ∧ s.wakeMem.coh.parked = [] ∧ x = s.wakeMem.resolve (hostAcc m dpa none) false ∧ x.2 = .line line val tc kind ∧ y = x.1.memAccess m.h.val (line / 64) opR false (.toHead m.h.val) ∧ y.2 = true ∧ z = y.1.labels tc val ∧ u = z.1.count (.head m.h.val) 0x01 1 (some (headAttr m.h.val (line / 64) z.2.1)) ∧ q = portReq (hostAcc m dpa none) line z.2.1 z.2.2 (entS val) (entQ val) kind ∧ u.portHit q = some h)) ∧
  ((∃ (s : State) (u : State) (m : HostMem) (dpa : Nat) (line : Nat) (val : Nat) (tc : Nat) (kind : Bool) (q : CohReq) (x : State × Resolved) (y : State × Bool) (z : State × Nat × Nat), s.memOpen m.h.val = true ∧ s.hdm m.h.val m.hpa.val = some dpa ∧ s.wakeMem.coh.parked = [] ∧ x = s.wakeMem.resolve (hostAcc m dpa none) false ∧ x.2 = .line line val tc kind ∧ y = x.1.memAccess m.h.val (line / 64) opR false (.toHead m.h.val) ∧ y.2 = true ∧ z = y.1.labels tc val ∧ u = z.1.count (.head m.h.val) 0x01 1 (some (headAttr m.h.val (line / 64) z.2.1)) ∧ q = portReq (hostAcc m dpa none) line z.2.1 z.2.2 (entS val) (entQ val) kind ∧ u.portHit q = none ∧ u.admissible q = true ∧ u.coh.quotaQ = [])) ∧
  ((∃ (s : State) (u : State) (m : HostMem) (dpa : Nat) (line : Nat) (val : Nat) (tc : Nat) (kind : Bool) (q : CohReq) (x : State × Resolved) (y : State × Bool) (z : State × Nat × Nat), s.memOpen m.h.val = true ∧ s.hdm m.h.val m.hpa.val = some dpa ∧ s.wakeMem.coh.parked = [] ∧ x = s.wakeMem.resolve (hostAcc m dpa none) false ∧ x.2 = .line line val tc kind ∧ y = x.1.memAccess m.h.val (line / 64) opR false (.toHead m.h.val) ∧ y.2 = true ∧ z = y.1.labels tc val ∧ u = z.1.count (.head m.h.val) 0x01 1 (some (headAttr m.h.val (line / 64) z.2.1)) ∧ q = portReq (hostAcc m dpa none) line z.2.1 z.2.2 (entS val) (entQ val) kind ∧ u.portHit q = none ∧ u.admissible q = false)) ∧
  ((∃ (s : State) (u : State) (m : HostMem) (d : Line) (mask : Fin (2 ^ 64)) (poison : Bool) (dpa : Nat) (line : Nat) (val : Nat) (tc : Nat) (kind : Bool) (q : CohReq) (x : State × Resolved) (y : State × Bool) (z : State × Nat × Nat), s.memOpen m.h.val = true ∧ s.hdm m.h.val m.hpa.val = some dpa ∧ s.wakeMem.coh.parked = [] ∧ x = s.wakeMem.resolve (hostAcc m dpa (some (d, mask.val, poison))) true ∧ x.2 = .line line val tc kind ∧ y = x.1.memAccess m.h.val (line / 64) opW false (.toHead m.h.val) ∧ y.2 = true ∧ z = y.1.labels tc val ∧ u = z.1.count (.head m.h.val) 0x02 1 (some (headAttr m.h.val (line / 64) z.2.1)) ∧ q = portReq (hostAcc m dpa (some (d, mask.val, poison))) line z.2.1 z.2.2 (entS val) (entQ val) kind ∧ u.coh.bi = [] ∧ u.admissible q = true ∧ u.coh.quotaQ = [])) ∧
  ((∃ (s : State) (u : State) (m : HostMem) (d : Line) (mask : Fin (2 ^ 64)) (poison : Bool) (dpa : Nat) (line : Nat) (val : Nat) (tc : Nat) (k : Nat) (kind : Bool) (q : CohReq) (x : State × Resolved) (y : State × Bool) (z : State × Nat × Nat), s.memOpen m.h.val = true ∧ s.hdm m.h.val m.hpa.val = some dpa ∧ s.wakeMem.coh.parked = [] ∧ x = s.wakeMem.resolve (hostAcc m dpa (some (d, mask.val, poison))) true ∧ x.2 = .line line val tc kind ∧ y = x.1.memAccess m.h.val (line / 64) opW false (.toHead m.h.val) ∧ y.2 = true ∧ z = y.1.labels tc val ∧ u = z.1.count (.head m.h.val) 0x02 1 (some (headAttr m.h.val (line / 64) z.2.1)) ∧ q = portReq (hostAcc m dpa (some (d, mask.val, poison))) line z.2.1 z.2.2 (entS val) (entQ val) kind ∧ (m.h.val, line, k) ∈ u.coh.bi)) ∧
  ((∃ (s : State) (u : State) (m : HostMem) (d : Line) (mask : Fin (2 ^ 64)) (poison : Bool) (dpa : Nat) (line : Nat) (val : Nat) (tc : Nat) (kind : Bool) (q : CohReq) (x : State × Resolved) (y : State × Bool) (z : State × Nat × Nat), s.memOpen m.h.val = true ∧ s.hdm m.h.val m.hpa.val = some dpa ∧ s.wakeMem.coh.parked = [] ∧ x = s.wakeMem.resolve (hostAcc m dpa (some (d, mask.val, poison))) true ∧ x.2 = .line line val tc kind ∧ y = x.1.memAccess m.h.val (line / 64) opW false (.toHead m.h.val) ∧ y.2 = true ∧ z = y.1.labels tc val ∧ u = z.1.count (.head m.h.val) 0x02 1 (some (headAttr m.h.val (line / 64) z.2.1)) ∧ q = portReq (hostAcc m dpa (some (d, mask.val, poison))) line z.2.1 z.2.2 (entS val) (entQ val) kind ∧ u.coh.bi = [] ∧ u.admissible q = false)) ∧
  ((∃ (s : State) (u : State) (v : State) (m : HostMem) (dpa : Nat), s.memOpen m.h.val = true ∧ s.hdm m.h.val m.hpa.val = some dpa ∧ s.wakeMem.coh.parked = [] ∧ s.bindOf m.h.val dpa = none ∧ u = ((s.wakeMem.reportTo (msg1 bHpt m.h.val 3 0 (xlExtra 1 0 false false 0 m.h.val) 1) (.xlat m.h.val dpa 16)).count (.head m.h.val) 0x05 1 (some (headAttr m.h.val lpnEnd 0))).count (.head m.h.val) 0x01 1 (some (headAttr m.h.val lpnEnd 0)) ∧ v = ((s.wakeMem.reportTo (msg1 bHpt m.h.val 3 0 (xlExtra 1 0 true false 0 m.h.val) 1) (.xlat m.h.val dpa 16)).count (.head m.h.val) 0x05 1 (some (headAttr m.h.val lpnEnd 0))).count (.head m.h.val) 0x02 1 (some (headAttr m.h.val lpnEnd 0)))) ∧
  ((∃ (s : State) (m : HostMem), s.memOpen m.h.val = true ∧ s.wakeMem.hdm m.h.val m.hpa.val = none ∧ (s.wakeMem.head m.h.val).decodePoison = false)) ∧
  ((∃ (s : State) (m : HostMem) (dpa : Nat) (line : Nat) (val : Nat) (tc : Nat) (kind : Bool) (x : State × Resolved), s.memOpen m.h.val = true ∧ s.hdm m.h.val m.hpa.val = some dpa ∧ x = s.wakeMem.resolve (hostAcc m dpa none) false ∧ x.2 = .line line val tc kind)) ∧
  ((∃ (s : State) (h : Fin 8) (q : CohReq), firstFree (fun q => q.agent == h.val && s.admissible q) [] s.coh.quotaQ = some q)) :=
  ⟨⟨memAwake.hold 0 0 (some { st := 2, data := 5 }), _, hostRd, 0, 0, 77, 0, false, _, { st := 2, data := 5 }, _, _, _, by decide +kernel, by decide +kernel, by decide +kernel, rfl, by decide +kernel, rfl, by decide +kernel, rfl, rfl, rfl, by decide +kernel⟩,
   ⟨memAwake, _, hostRd, 0, 0, 77, 0, false, _, _, _, _, by decide +kernel, by decide +kernel, by decide +kernel, rfl, by decide +kernel, rfl, by decide +kernel, rfl, rfl, rfl, by decide +kernel⟩,
   ⟨{ memAwake with coh := { memAwake.coh with evs := [(agKey 0 0, 1)] } }, _, hostRd, 0, 0, 77, 0, false, _, _, _, _, by decide +kernel, by decide +kernel, by decide +kernel, rfl, by decide +kernel, rfl, by decide +kernel, rfl, rfl, rfl, by decide +kernel⟩,
   ⟨memAwake, _, hostRd, 7, 255, false, 0, 0, 205, 0, false, _, _, _, _, by decide +kernel, by decide +kernel, by decide +kernel, rfl, by decide +kernel, rfl, by decide +kernel, rfl, rfl, rfl, by decide +kernel⟩,
   ⟨memAwake.biSend 0 0 1, _, hostRd, 7, 255, false, 0, 0, 205, 0, 1, false, _, _, _, _, by decide +kernel, by decide +kernel, by decide +kernel, rfl, by decide +kernel, rfl, by decide +kernel, rfl, rfl, rfl, by decide +kernel⟩,
   ⟨{ memAwake with coh := { memAwake.coh with evs := [(agKey 0 0, 1)] } }, _, hostRd, 7, 255, false, 0, 0, 205, 0, false, _, _, _, _, by decide +kernel, by decide +kernel, by decide +kernel, rfl, by decide +kernel, rfl, by decide +kernel, rfl, rfl, rfl, by decide +kernel⟩,
   ⟨memAwake.setHead 0 { decoders := [(0, { size := 2 ^ 31, committed := true })] }, _, _, { hostRd with hpa := ⟨2 ^ 30, by decide⟩ }, 2 ^ 30, by decide +kernel, by decide +kernel, (by decide +kernel), by decide +kernel, rfl, rfl⟩,
   ⟨mapAwake, hostRd, by decide +kernel⟩,
   ⟨memAwake, hostRd, 0, 0, 77, 0, false, _, by decide +kernel, by decide +kernel, rfl, by decide +kernel⟩,
   ⟨mapAwake.coh' (fun c => { c with quotaQ := [{ agent := 0, line := 3, kind := .readS }] }), 0, { agent := 0, line := 3, kind := .readS }, by decide +kernel⟩⟩

/-- States and operands that meet the hypotheses of `Obligations.BackInvalidation`, clause by clause. -/
theorem witness_BackInvalidation :
  ((∃ (s : State) (h : Fin 8) (line : LineNo) (kind : Nat), s.get .HPT_HEAD_STS_IDE h.val ≠ 3 ∧ s.coh.bi.find? (fun b => b.1 == h.val && b.2.1 == line.val) = some (h.val, line.val, kind))) ∧
  ((∃ (s : State) (h : Fin 8) (line : LineNo), s.get .HPT_HEAD_STS_IDE h.val ≠ 3 ∧ s.coh.bi.find? (fun b => b.1 == h.val && b.2.1 == line.val) = some (h.val, line.val, 1))) ∧
  ((∃ (s : State) (h : Fin 8) (line : LineNo), s.get .HPT_HEAD_STS_IDE h.val ≠ 3 ∧ s.coh.bi.find? (fun b => b.1 == h.val && b.2.1 == line.val) = none)) ∧
  ((∃ (s : State) (u : State) (h : Fin 8) (line : LineNo) (kind : Nat), (h.val, line.val, kind) ∈ s.coh.bi ∧ u = (if (s.present line.val h.val && ((s.presence line.val).2 || s.coh.rebuild.contains (line.val / 64))) = true then (s.clearPresence line.val h.val).poisonLine line.val 3 else s.clearPresence line.val h.val))) ∧
  ((∃ (s : State) (h : Fin 8), s.get .HPT_HEAD_STS_IDE h.val ≠ 3)) ∧
  ((∃ (s : State) (h : Fin 8), s.get .HPT_HEAD_STS_IDE h.val = 3)) ∧
  ((∃ (s : State), s.coh.dir = [] ∧ s.coh.bi = [])) ∧
  ((∃ (s : State) (u : State) (h : Fin 8) (line : Nat) (kind : Nat) (l : List Nat), (h.val, line, kind) ∈ s.coh.bi ∧ (s.setHead h.val { s.head h.val with biDec := false }).losePresence h.val = (u, l))) :=
  ⟨⟨mapAwake.biSend 0 70 1, 0, 70, 1, by decide +kernel⟩,
   ⟨mapAwake.biSend 0 70 1, 0, 70, by decide +kernel⟩,
   ⟨mapAwake, 0, 70, by decide +kernel⟩,
   ⟨mapAwake.biSend 0 70 1, _, 0, 70, 1, by decide +kernel, rfl⟩,
   ⟨mapAwake, 0, by decide +kernel⟩,
   ⟨mapAwake.put .HPT_HEAD_STS_IDE 3, 0, by decide +kernel⟩,
   ⟨mapAwake, by decide +kernel⟩,
   ⟨mapAwake.biSend 0 70 1, _, 0, 70, 1, _, by decide +kernel, rfl⟩⟩

/-- States and operands that meet the hypotheses of `Obligations.CoherenceRequests`, clause by clause. -/
theorem witness_CoherenceRequests :
  ((∃ (s : State) (q : Ask) (d : Line), s.writeHit q.agent.val q.line.val d = none)) ∧
  ((∃ (s : State) (q : Ask) (h : Held), s.heldAt q.agent.val q.line.val = some h ∧ 3 ≤ h.st)) ∧
  ((∃ (s : State) (u : State) (v : State) (p : CohReq) (r : CohReq) (via : Option Via) (x : State × Option CohReq) (y : State × Bool), x = (match via with | some w => s.wakeMem.viaReq p w | none => (s.wakeMem, if ownLpn p then some p else none)) ∧ x.2 = some r ∧ x.1.halt = none ∧ tget (agKey r.agent r.line) x.1.coh.reqs = none ∧ x.1.outstanding r.agent < 64 ∧ x.1.agentRoom r.agent r.line = true ∧ y = (if r.master = 0x7F then (x.1, true) else x.1.memAccess r.master r.lpn (if r.owns then opW else opR) (x.1.jobExcepted r.master r.lpn) .std) ∧ y.2 = true ∧ u = (if 8 ≤ r.agent ∧ r.agent < 0x0E then y.1.count (.cluster (r.agent - 8)) 0x03 1 (some (reqAttr (y.1.numbered r) 6)) else y.1) ∧ v = (u.coh' (fun c => { c with reqs := tput (agKey r.agent r.line) { req := y.1.numbered r } c.reqs })).say ((y.1.numbered r).msg (u.homeAg r.line)))) ∧
  ((∃ (s : State) (u : State) (q : Ask) (m : MoveSt), tget (q.line.val / 64) s.pg.moves = some m ∧ m.step = 1 ∧ s.halt = none ∧ m.req.ver = (s.page (q.line.val / 64)).pl.ver ∧ s.meets m.req = true ∧ u = s.say { cls := cREQ, code := 1, line := 64 * (q.line.val / 64), src := 0x12 + s.home (q.line.val / 64), dst := s.homeAg (64 * (q.line.val / 64)), page := true, master := mMig })) ∧
  ((∃ (s : State) (q : Ask) (m : MoveSt), tget (q.line.val / 64) s.pg.moves = some m ∧ m.step = 1 ∧ s.halt = none ∧ m.req.ver ≠ (s.page (q.line.val / 64)).pl.ver)) ∧
  ((∃ (s : State) (q : CohReq), (s.page q.lpn).pl.lock = true ∧ (s.holdOf (s.home q.lpn)).length < 64)) ∧
  ((∃ (s : State) (q : CohReq), (s.page q.lpn).pl.lock = false ∧ (s.trkOf q.line).isSome = true ∧ q.att < 8)) ∧
  ((∃ (s : State) (q : CohReq), (s.page q.lpn).pl.lock = false ∧ (s.trkOf q.line).isSome = false ∧ (s.starvOf (s.home q.lpn)).any (fun x => x.line == q.line) = false ∧ s.atQuota (s.home q.lpn) q.cls = true ∧ q.att < 8)) ∧
  ((∃ (s : State) (q : CohReq), (s.page q.lpn).pl.lock = false ∧ (s.trkOf q.line).isSome = false ∧ s.starvOf (s.home q.lpn) = [] ∧ s.atQuota (s.home q.lpn) q.cls = false ∧ s.trkUsed (s.home q.lpn) < 256)) ∧
  ((∃ (s : State) (a : Fin 18) (line : LineNo) (r : AgReq), tget (agKey a.val line.val) s.coh.reqs = some r ∧ r.backoff = false)) ∧
  ((∃ (s : State) (u : State) (a : Fin 18) (line : LineNo) (r : AgReq), tget (agKey a.val line.val) s.coh.reqs = some r ∧ r.backoff = true ∧ u = (s.coh' (fun c => { c with reqs := tput (agKey a.val line.val) { r with backoff := false } c.reqs })).say (r.req.msg (s.homeAg line.val)))) :=
  ⟨⟨mapAwake, { agent := 14, line := 70 }, 9, by decide +kernel⟩,
   ⟨mapAwake.hold 14 70 (some { st := 3, data := 5 }), { agent := 14, line := 70 }, { st := 3, data := 5 }, by decide +kernel⟩,
   ⟨mapAwake, _, _, askReq { agent := 14, line := line0 } .readS, askReq { agent := 14, line := line0 } .readS, none, _, _, rfl, by decide +kernel, by decide +kernel, (by decide +kernel), by decide +kernel, by decide +kernel, rfl, by decide +kernel, rfl, rfl⟩,
   ⟨{ pinAwake with pg := { pinAwake.pg with moves := [(5, { move5 1 with req := pinReq })] } }, _, { agent := 14, line := 320 }, { move5 1 with req := pinReq }, by decide +kernel, by decide +kernel, (by decide +kernel), by decide +kernel, by decide +kernel, rfl⟩,
   ⟨{ furnAwake with pg := { furnAwake.pg with moves := [(5, { move5 1 with req := { (move5 1).req with ver := 3 } })] } }, { agent := 14, line := 320 }, { move5 1 with req := { (move5 1).req with ver := 3 } }, by decide +kernel⟩,
   ⟨{ pageAwake with pg := { pageAwake.pg with pages := [(5, { pl := { tier := 1, lock := true }, want := 1 })] } }, { agent := 14, line := 330, kind := .readS }, by decide +kernel⟩,
   ⟨mapAwake.putTrk 70 { req := { agent := 15, line := 70, kind := .readS } }, { agent := 14, line := 70, kind := .readS }, by decide +kernel⟩,
   ⟨(mapAwake.put .TLG_SQ_QUOTA 0 1 0), { agent := 14, line := 70, kind := .readS }, by decide +kernel⟩,
   ⟨mapAwake, { agent := 14, line := 70, kind := .readS }, by decide +kernel⟩,
   ⟨mapAwake.coh' (fun c => { c with reqs := [(agKey 14 70, { req := { agent := 14, line := 70, kind := .readS } })] }), 14, 70, { req := { agent := 14, line := 70, kind := .readS } }, by decide +kernel⟩,
   ⟨mapAwake.coh' (fun c => { c with reqs := [(agKey 14 70, { req := { agent := 14, line := 70, kind := .readS }, backoff := true })] }), _, 14, 70, { req := { agent := 14, line := 70, kind := .readS }, backoff := true }, by decide +kernel, rfl, rfl⟩⟩

/-- States and operands that meet the hypotheses of `Obligations.CachedLineIsGrantedExclusive`, clause by clause. -/
theorem witness_CachedLineIsGrantedExclusive :
  ((∃ (s : State) (q : Ask) (l : LcLine), s.get .PWR_STATE_PS = 0 ∧ s.halt = none ∧ s.coh.reqs = [] ∧ s.coh.evs = [] ∧ s.coh.parked = [] ∧ s.coh.sf = [] ∧ s.coh.trk = [] ∧ s.coh.held = [] ∧ s.xlt.waiting = [] ∧ s.acc.tapMem = none ∧ q.via = none ∧ q.master = none ∧ 8 ≤ q.agent.val ∧ devWindow ≤ q.line.val / 64 ∧ (s.page (q.line.val / 64)).pl.lock = false ∧ s.starvOf (s.home (q.line.val / 64)) = [] ∧ s.atQuota (s.home (q.line.val / 64)) q.cls.val = false ∧ tget (q.line.val / 64) s.coh.dir = none ∧ s.coh.rebuild = [] ∧ s.lcOf q.line.val = some l ∧ l.prov = false)) :=
  ⟨mapAwake.lcPut line0.val { data := 9 }, { agent := 14, line := line0 }, { data := 9 }, by decide +kernel⟩

/-- States and operands that meet the hypotheses of `Obligations.CoherenceAnswers`, clause by clause. -/
theorem witness_CoherenceAnswers :
  ((∃ (s : State) (a : Fin 18) (line : LineNo), s.heldAt a.val line.val = none)) ∧
  ((∃ (s : State) (a : Fin 18) (line : LineNo), s.snoopAt a.val line.val = some 0 ∧ s.heldAt a.val line.val = none)) ∧
  ((∃ (s : State) (a : Fin 18) (line : LineNo), s.snoopAt a.val line.val = some 3 ∧ s.heldAt a.val line.val = none)) ∧
  ((∃ (s : State) (a : Fin 18) (rid : Fin 18) (line : LineNo) (t : Trk), s.snoopAt a.val line.val = some 1 ∧ s.trkOf line.val = some t ∧ t.req.agent = rid.val ∧ s.heldAt a.val line.val = none)) ∧
  ((∃ (s : State) (a : Fin 18) (rid : Fin 18) (line : LineNo) (t : Trk), s.snoopAt a.val line.val = some 2 ∧ s.trkOf line.val = some t ∧ t.req.agent = rid.val ∧ s.heldAt a.val line.val = none)) ∧
  ((∃ (s : State) (a : Fin 18) (line : LineNo) (h : Held), s.snoopAt a.val line.val = some 0 ∧ s.heldAt a.val line.val = some h ∧ h.st ≠ 4)) ∧
  ((∃ (s : State) (a : Fin 18) (line : LineNo) (h : Held), s.snoopAt a.val line.val = some 0 ∧ s.heldAt a.val line.val = some h ∧ h.st = 4)) ∧
  ((∃ (s : State) (u : State) (a : Fin 18) (rid : Fin 18) (line : LineNo) (h : Held) (t : Trk), s.snoopAt a.val line.val = some 2 ∧ s.trkOf line.val = some t ∧ t.req.agent = rid.val ∧ s.heldAt a.val line.val = some h ∧ 2 ≤ h.st ∧ u = s.sendDat a.val rid.val line.val 3 h)) ∧
  ((∃ (s : State) (u : State) (a : Fin 18) (rid : Fin 18) (line : LineNo) (h : Held) (t : Trk), s.snoopAt a.val line.val = some 1 ∧ s.trkOf line.val = some t ∧ t.req.agent = rid.val ∧ s.heldAt a.val line.val = some h ∧ (h.st = 2 ∨ h.st = 3) ∧ u = (s.sendDat a.val rid.val line.val 1 h).hold a.val line.val (some { h with st := 1 }))) ∧
  ((∃ (s : State) (u : State) (a : Fin 18) (rid : Fin 18) (line : LineNo) (h : Held) (t : Trk), s.snoopAt a.val line.val = some 1 ∧ s.trkOf line.val = some t ∧ t.req.agent = rid.val ∧ s.heldAt a.val line.val = some h ∧ h.st = 4 ∧ u = (s.sendDat a.val rid.val line.val 1 h).hold a.val line.val (some { h with st := 1 }))) ∧
  ((∃ (s : State) (a : Fin 18) (line : LineNo) (h : Held), s.snoopAt a.val line.val = some 3 ∧ s.heldAt a.val line.val = some h ∧ h.st = 3)) ∧
  ((∃ (s : State) (a : Fin 18) (line : LineNo) (h : Held), s.snoopAt a.val line.val = some 3 ∧ s.heldAt a.val line.val = some h ∧ h.st = 4)) ∧
  ((∃ (s : State) (a : Fin 18) (line : LineNo) (h : Held), s.heldAt a.val line.val = some h ∧ (h.st = 1 ∨ h.st = 3))) ∧
  ((∃ (s : State) (u : State) (a : Fin 18) (line : LineNo) (h : Held), s.heldAt a.val line.val = some h ∧ h.st = 2 ∧ s.outstanding a.val < 64 ∧ u = (s.hold a.val line.val none).coh' (fun c => { c with evs := tput (agKey a.val line.val) 0 c.evs }))) ∧
  ((∃ (s : State) (u : State) (a : Fin 18) (line : LineNo) (h : Held), 8 ≤ a.val ∧ s.heldAt a.val line.val = some h ∧ h.st = 4 ∧ s.outstanding a.val < 64 ∧ s.wbmOut a.val (s.home (line.val / 64)) < 8 ∧ u = (s.hold a.val line.val none).coh' (fun c => { c with evs := tput (agKey a.val line.val) 1 c.evs }))) ∧
  ((∃ (s : State) (u : State) (a : Fin 18) (line : LineNo) (gs : Nat) (d : Line) (r : AgReq), tget (agKey a.val line.val) s.coh.reqs = some r ∧ tget (agKey a.val line.val) s.coh.dat = some (gs, d, false) ∧ 8 ≤ a.val ∧ u = s.coh' (fun c => { c with dat := tdel (agKey a.val line.val) c.dat }) ∧ r.req.kind ≠ .readSnc)) ∧
  ((∃ (s : State) (u : State) (a : Fin 18) (line : LineNo) (gs : Nat) (d : Line) (r : AgReq), tget (agKey a.val line.val) s.coh.reqs = some r ∧ tget (agKey a.val line.val) s.coh.dat = some (gs, d, false) ∧ 8 ≤ a.val ∧ u = s.coh' (fun c => { c with dat := tdel (agKey a.val line.val) c.dat }) ∧ r.req.kind = .readSnc)) ∧
  ((∃ (s : State) (a : Fin 18) (line : LineNo) (t : Trk), s.trkOf line.val = some t ∧ t.req.agent = a.val ∧ tget (agKey a.val line.val) s.coh.reqs = none ∧ t.granted = true)) ∧
  ((∃ (s : State) (a : Fin 18) (line : LineNo) (t : Trk), s.trkOf line.val = some t ∧ t.req.agent = a.val ∧ tget (agKey a.val line.val) s.coh.reqs = none ∧ t.granted = false ∧ t.acked = false)) ∧
  ((∃ (s : State) (a : Fin 18) (line : LineNo), tget (agKey a.val line.val) s.coh.evs = some 3)) ∧
  ((∃ (s : State) (a : Fin 18) (line : LineNo) (t : Trk) (r : AgReq) (h : Held), tget (agKey a.val line.val) s.coh.evs = none ∧ s.trkOf line.val = some t ∧ t.req.agent = a.val ∧ tget (agKey a.val line.val) s.coh.reqs = some r ∧ t.granted = true ∧ t.noData = true ∧ s.heldAt a.val line.val = some h ∧ r.req.kind = .upgrade)) ∧
  ((∃ (s : State) (a : Fin 18) (line : LineNo) (m : WbMsg), s.halt = none ∧ tget (agKey a.val line.val) s.coh.evs = some 1 ∧ tget (agKey a.val line.val) s.coh.wbData = some m)) ∧
  ((∃ (s : State) (a : Fin 18) (line : LineNo), s.halt = none ∧ tget (agKey a.val line.val) s.coh.evs = some 1 ∧ tget (agKey a.val line.val) s.coh.wbData = none)) ∧
  ((∃ (s : State) (a : Fin 18) (line : LineNo), s.halt = none ∧ tget (agKey a.val line.val) s.coh.evs = none)) ∧
  ((∃ (s : State) (u : State) (m : WbMsg) (n : WbMsg) (d : Line) (po : Bool), s.halt = none ∧ tget (agKey m.agent.val m.line.val) s.coh.wbOut = some (d, po) ∧ n = { m with data := d, poison := po } ∧ u = s.coh' (fun c => { c with wbOut := tdel (agKey m.agent.val m.line.val) c.wbOut, wbData := tput (agKey m.agent.val m.line.val) n c.wbData }) ∧ tget (agKey m.agent.val m.line.val) u.coh.evs ≠ some 2 ∧ u.trkOf m.line.val = none)) ∧
  ((∃ (s : State) (u : State) (m : WbMsg) (n : WbMsg) (d : Line) (po : Bool), s.halt = none ∧ tget (agKey m.agent.val m.line.val) s.coh.wbOut = some (d, po) ∧ n = { m with data := d, poison := po } ∧ u = s.coh' (fun c => { c with wbOut := tdel (agKey m.agent.val m.line.val) c.wbOut, wbData := tput (agKey m.agent.val m.line.val) n c.wbData }) ∧ tget (agKey m.agent.val m.line.val) u.coh.evs = some 2)) ∧
  ((∃ (s : State) (a : Fin 18) (line : LineNo) (e : SfEnt), s.sfOf line.val = some e ∧ e.f = some a.val ∧ s.heldAt a.val line.val = none ∧ tget (agKey a.val line.val) s.coh.evs = some 0)) ∧
  ((∃ (s : State) (a : Fin 18) (line : LineNo) (t : Trk) (code : Fin 16) (kind : Nat), s.trkOf line.val = some t ∧ kind < 4 ∧ t.snoops.find? (fun p => p.1 == a.val && decide (64 ≤ p.2 ∧ p.2 % 16 = code.val)) = some (a.val, 64 + 16 * kind + code.val) ∧ (code.val < 6 ∨ code.val = 8 ∨ code.val = 9))) ∧
  ((∃ (s : State) (line : LineNo), s.trkOf line.val = none)) :=
  ⟨⟨mapAwake, 14, 70, by decide +kernel⟩,
   ⟨snoopAwake 0, 14, 70, by decide +kernel⟩,
   ⟨snoopAwake 3, 14, 70, by decide +kernel⟩,
   ⟨snoopAwake 1, 14, 15, 70, { req := { agent := 15, line := 70, kind := .readS }, snoops := [(14, 1)] }, by decide +kernel⟩,
   ⟨snoopAwake 2, 14, 15, 70, { req := { agent := 15, line := 70, kind := .readS }, snoops := [(14, 2)] }, by decide +kernel⟩,
   ⟨snoopAwake 0 (some { st := 2, data := 5 }), 14, 70, { st := 2, data := 5 }, by decide +kernel⟩,
   ⟨snoopAwake 0 (some { st := 4, data := 5 }), 14, 70, { st := 4, data := 5 }, by decide +kernel⟩,
   ⟨snoopAwake 2 (some { st := 3, data := 5 }), _, 14, 15, 70, { st := 3, data := 5 }, { req := { agent := 15, line := 70, kind := .readS }, snoops := [(14, 2)] }, by decide +kernel, by decide +kernel, (by decide +kernel), by decide +kernel, by decide +kernel, rfl⟩,
   ⟨snoopAwake 1 (some { st := 3, data := 5 }), _, 14, 15, 70, { st := 3, data := 5 }, { req := { agent := 15, line := 70, kind := .readS }, snoops := [(14, 1)] }, by decide +kernel, by decide +kernel, (by decide +kernel), by decide +kernel, by decide +kernel, rfl⟩,
   ⟨snoopAwake 1 (some { st := 4, data := 5 }), _, 14, 15, 70, { st := 4, data := 5 }, { req := { agent := 15, line := 70, kind := .readS }, snoops := [(14, 1)] }, by decide +kernel, by decide +kernel, (by decide +kernel), by decide +kernel, by decide +kernel, rfl⟩,
   ⟨snoopAwake 3 (some { st := 3, data := 5 }), 14, 70, { st := 3, data := 5 }, by decide +kernel⟩,
   ⟨snoopAwake 3 (some { st := 4, data := 5 }), 14, 70, { st := 4, data := 5 }, by decide +kernel⟩,
   ⟨mapAwake.hold 14 70 (some { st := 3, data := 5 }), 14, 70, { st := 3, data := 5 }, by decide +kernel⟩,
   ⟨mapAwake.hold 14 70 (some { st := 2, data := 5 }), _, 14, 70, { st := 2, data := 5 }, by decide +kernel, by decide +kernel, by decide +kernel, rfl⟩,
   ⟨mapAwake.hold 14 70 (some { st := 4, data := 5 }), _, 14, 70, { st := 4, data := 5 }, by decide +kernel, by decide +kernel, (by decide +kernel), by decide +kernel, by decide +kernel, rfl⟩,
   ⟨mapAwake.coh' (fun c => { c with reqs := [(agKey 14 70, { req := { agent := 14, line := 70, kind := .readS } })], dat := [(agKey 14 70, (2, 9, false))] }), _, 14, 70, 2, 9, { req := { agent := 14, line := 70, kind := .readS } }, by decide +kernel, by decide +kernel, by decide, rfl, by decide⟩,
   ⟨mapAwake.coh' (fun c => { c with reqs := [(agKey 14 70, { req := { agent := 14, line := 70, kind := .readSnc } })], dat := [(agKey 14 70, (2, 9, false))] }), _, 14, 70, 2, 9, { req := { agent := 14, line := 70, kind := .readSnc } }, by decide +kernel, by decide +kernel, by decide, rfl, by decide⟩,
   ⟨mapAwake.putTrk 70 { req := { agent := 14, line := 70, kind := .readS }, granted := true }, 14, 70, { req := { agent := 14, line := 70, kind := .readS }, granted := true }, by decide +kernel⟩,
   ⟨mapAwake.putTrk 70 { req := { agent := 14, line := 70, kind := .readS } }, 14, 70, { req := { agent := 14, line := 70, kind := .readS } }, by decide +kernel⟩,
   ⟨mapAwake.coh' (fun c => { c with evs := [(agKey 14 70, 3)] }), 14, 70, by decide +kernel⟩,
   ⟨((mapAwake.hold 14 70 (some { st := 1, data := 5 })).putTrk 70 { req := { agent := 14, line := 70, kind := .upgrade }, granted := true, noData := true }).coh' (fun c => { c with reqs := [(agKey 14 70, { req := { agent := 14, line := 70, kind := .upgrade } })] }), 14, 70, { req := { agent := 14, line := 70, kind := .upgrade }, granted := true, noData := true }, { req := { agent := 14, line := 70, kind := .upgrade } }, { st := 1, data := 5 }, by decide +kernel⟩,
   ⟨mapAwake.coh' (fun c => { c with evs := [(agKey 14 70, 1)], wbData := [(agKey 14 70, { agent := 14, line := 70, data := 9 })] }), 14, 70, { agent := 14, line := 70, data := 9 }, by decide +kernel⟩,
   ⟨mapAwake.coh' (fun c => { c with evs := [(agKey 14 70, 1)] }), 14, 70, by decide +kernel⟩,
   ⟨mapAwake, 14, 70, by decide +kernel⟩,
   ⟨mapAwake.coh' (fun c => { c with wbOut := [(agKey 14 70, (9, false))] }), _, { agent := 14, line := 70, data := 9 }, _, 9, false, rfl, by decide +kernel, rfl, rfl, by decide +kernel⟩,
   ⟨mapAwake.coh' (fun c => { c with evs := [(agKey 14 70, 2)], wbOut := [(agKey 14 70, (9, false))] }), _, { agent := 14, line := 70, data := 9 }, _, 9, false, rfl, by decide +kernel, rfl, rfl, by decide +kernel⟩,
   ⟨(mapAwake.setSf 70 2 [14] (some 14)).coh' (fun c => { c with evs := [(agKey 14 70, 0)] }), 14, 70, { st := 2, holders := [14], f := some 14 }, by decide +kernel⟩,
   ⟨mapAwake.putTrk 70 { req := { agent := 15, line := 70, kind := .readO }, snoops := [(14, 66)] }, 14, 70, { req := { agent := 15, line := 70, kind := .readO }, snoops := [(14, 66)] }, 2, 0, by decide +kernel⟩,
   ⟨mapAwake, 70, by decide +kernel⟩⟩

end Sys2Proof.Tests
end

/-!
PROOFS of the statements of the architecture chapter: the home slice of a page and the interleave (R30, R33, R338), links, departures and resets
(R48-R77), and the refutation of the host accesses.
-/
namespace Sys2Proof.Proofs.Architecture
open Sys2Proof Sys2Proof.Machine

/-! ### The XOR of low nibbles -/

theorem nibXor_succ_high (n x : Nat) : nibXor (n + 1) x = nibXor n x ^^^ (x / 2 ^ (4 * n) % 16) := by
  induction n generalizing x with
  | zero => simp [nibXor]
  | succ n ih =>
    have hdiv : x / 16 / 2 ^ (4 * n) = x / 2 ^ (4 * (n + 1)) := by
      rw [Nat.div_div_eq_div_mul, Nat.mul_succ, Nat.pow_add, Nat.mul_comm]
    rw [nibXor, ih (x / 16), hdiv, ← Nat.xor_assoc, ← nibXor]

/-- The XOR over the nibbles, as the statements write it. -/
theorem foldl_nibbles_eq_nibXor (n x : Nat) :
    (List.range n).foldl (fun h k => h ^^^ (x / 2 ^ (4 * k) % 16)) 0 = nibXor n x := by
  induction n with
  | zero => rfl
  | succ n ih => rw [List.range_succ, List.foldl_append, ih, nibXor_succ_high]; rfl

theorem nibXor_lt (n x : Nat) : nibXor n x < 16 := by
  induction n generalizing x with
  | zero => simp [nibXor]
  | succ n ih => exact Nat.xor_lt_two_pow (n := 4) (Nat.mod_lt _ (by decide)) (ih _)

/-! ### The home slice -/

theorem home_eq_homeHash_of_none_disabled (s : State) (lpn : Nat) (h : s.mem.disabledSlices = []) :
    s.home lpn = homeHash lpn := by
  simp [State.home, h]

/-- Only the disabled slices have a say beside the LPN. -/
theorem home_congr {s t : State} (lpn : Nat) (h : s.mem.disabledSlices = t.mem.disabledSlices) :
    s.home lpn = t.home lpn := by
  rw [State.home, State.home, h]

/-- Settles O29: the home is `homeHash`, whose nibbles the statement writes as a fold. -/
theorem homeSliceOfAPage : Obligations.HomeSliceOfAPage := by
  refine ⟨fun s lpn h => ?_, fun s t lpn h => home_congr lpn h⟩
  rw [home_eq_homeHash_of_none_disabled s lpn h, foldl_nibbles_eq_nibXor, homeHash]

/-! ### The interleave -/

theorem grainB_cases (s : State) : s.grainB = 0 ∨ s.grainB = 1 ∨ s.grainB = 2 ∨ s.grainB = 4 := by
  unfold State.grainB
  split <;> simp

theorem chanOf_lt (s : State) (ma : Nat) : s.chanOf ma < 16 :=
  Nat.xor_lt_two_pow (n := 4) (Nat.mod_lt _ (by decide)) (nibXor_lt ..)

theorem localOf_lt (s : State) {ma : Nat} (h : ma < 2 ^ 36) : s.localOf ma < 2 ^ 32 := by
  unfold State.localOf
  rcases grainB_cases s with hb | hb | hb | hb <;> simp only [hb] <;> omega

theorem localOf_div (s : State) (ma : Nat) : s.localOf ma / 2 ^ s.grainB = ma / 2 ^ (s.grainB + 4) := by
  have hmod : ma % 2 ^ s.grainB / 2 ^ s.grainB = 0 := Nat.div_eq_of_lt (Nat.mod_lt _ (Nat.two_pow_pos _))
  rw [State.localOf, Nat.mul_comm, Nat.mul_add_div (Nat.two_pow_pos _), hmod, Nat.add_zero]

theorem localOf_mod (s : State) (ma : Nat) : s.localOf ma % 2 ^ s.grainB = ma % 2 ^ s.grainB := by
  rw [State.localOf, Nat.mul_comm, Nat.mul_add_mod, Nat.mod_mod]

/-- The channel's hash undoes itself: XOR with it gives the bits of the media address back. -/
theorem chanOf_xor_hash (s : State) (ma : Nat) :
    s.chanOf ma ^^^ nibXor 8 (ma / 2 ^ (s.grainB + 4)) = ma / 2 ^ s.grainB % 16 := by
  rw [State.chanOf, Nat.xor_assoc, Nat.xor_self, Nat.xor_zero]
  rfl

/-- A media address is its high part, its channel bits and its low part. -/
theorem maOf_eq (s : State) (c loc : Nat) : s.maOf c loc =
    loc / 2 ^ s.grainB * 2 ^ (s.grainB + 4) + (c ^^^ nibXor 8 (loc / 2 ^ s.grainB)) * 2 ^ s.grainB + loc % 2 ^ s.grainB := rfl

theorem maOf_chanOf_localOf (s : State) (ma : Nat) : s.maOf (s.chanOf ma) (s.localOf ma) = ma := by
  rw [maOf_eq, localOf_div, localOf_mod, chanOf_xor_hash]
  rcases grainB_cases s with hb | hb | hb | hb <;> simp only [hb] <;> omega

section
variable (s : State) {c loc : Nat} (hc : c < 16)
include hc

theorem maOf_lt (hl : loc < 2 ^ 32) : s.maOf c loc < 2 ^ 36 := by
  have hx : c ^^^ nibXor 8 (loc / 2 ^ s.grainB) < 16 := Nat.xor_lt_two_pow (n := 4) hc (nibXor_lt ..)
  rw [maOf_eq]
  generalize c ^^^ nibXor 8 (loc / 2 ^ s.grainB) = x at hx ⊢
  rcases grainB_cases s with hb | hb | hb | hb <;> simp only [hb] <;> omega

/-- The parts of a media address built by `maOf`: its high part, its channel bits and its low part. -/
theorem maOf_parts : s.maOf c loc / 2 ^ (s.grainB + 4) = loc / 2 ^ s.grainB ∧
    s.maOf c loc / 2 ^ s.grainB % 16 = c ^^^ nibXor 8 (loc / 2 ^ s.grainB) ∧
    s.maOf c loc % 2 ^ s.grainB = loc % 2 ^ s.grainB := by
  have hx : c ^^^ nibXor 8 (loc / 2 ^ s.grainB) < 16 := Nat.xor_lt_two_pow (n := 4) hc (nibXor_lt ..)
  rw [maOf_eq]
  generalize c ^^^ nibXor 8 (loc / 2 ^ s.grainB) = x at hx ⊢
  rcases grainB_cases s with hb | hb | hb | hb <;> simp only [hb] <;> omega

theorem chanOf_maOf : s.chanOf (s.maOf c loc) = c := by
  obtain ⟨hhigh, hmid, -⟩ := maOf_parts s (loc := loc) hc
  show s.maOf c loc / 2 ^ s.grainB % 16 ^^^ nibXor 8 (s.maOf c loc / 2 ^ (s.grainB + 4)) = c
  rw [hhigh, hmid, Nat.xor_assoc, Nat.xor_self, Nat.xor_zero]

theorem localOf_maOf : s.localOf (s.maOf c loc) = loc := by
  obtain ⟨hhigh, -, hlow⟩ := maOf_parts s (loc := loc) hc
  rw [State.localOf, hhigh, hlow, Nat.div_add_mod']

end

/-- Settles O30: `maOf` inverts the pair of `chanOf` and `localOf`, since the hash of the high part is XORed in twice. -/
theorem interleaveIsOneToOne : Obligations.InterleaveIsOneToOne := by
  refine ⟨fun s => ?_, fun s ma b hma hb => ?_, fun s c loc hc hl => ?_⟩
  · refine ⟨?_, ?_, ?_, ?_⟩ <;> intro h <;> simp [State.grainB, h]
  · subst hb
    rw [foldl_nibbles_eq_nibXor]
    exact ⟨rfl, rfl, chanOf_lt s ma, localOf_lt s hma, maOf_chanOf_localOf s ma⟩
  · exact ⟨maOf_lt s hc hl, chanOf_maOf s hc, localOf_maOf s hc⟩

/-! ### Heads and their tables -/

theorem tdel_tins_same {α : Type} (k : Nat) (v : α) (t : Tab α) : tdel k (tins k v t) = tdel k t := by
  induction t with
  | nil => simp [tins, tdel]
  | cons p t ih =>
    obtain ⟨x, w⟩ := p
    simp only [tins]
    split
    · simp [tdel]
    · simp [tdel, ih]

theorem tdel_tdel_same {α : Type} (k : Nat) (t : Tab α) : tdel k (tdel k t) = tdel k t := by
  rw [tdel_eq_filter, tdel_eq_filter, List.filter_filter]
  simp

@[simp] theorem tput_tput_same {α : Type} (k : Nat) (v w : α) (t : Tab α) : tput k v (tput k w t) = tput k v t := by
  rw [tput, tput, tdel_tins_same, tdel_tdel_same, ← tput]

@[simp] theorem head_setHead_same (s : State) (h : Nat) (v : HeadSt) : (s.setHead h v).head h = v :=
  tgetD_tput_same ..

theorem head_setHead_ne (s : State) {h k : Nat} (v : HeadSt) (hne : h ≠ k) : (s.setHead h v).head k = s.head k :=
  tgetD_tput_ne _ hne ..

@[simp] theorem setHead_setHead_same (s : State) (h : Nat) (v w : HeadSt) : (s.setHead h w).setHead h v = s.setHead h v := by
  simp [State.setHead]

/-! ### Fields that survive a filter of the registers -/

theorem rget_filter (keep : RegKey → Bool) {k : RegKey} (hk : keep k = true) (t : List (RegKey × Nat)) :
    rget k (t.filter (fun p => keep p.1)) = rget k t := by
  induction t with
  | nil => rfl
  | cons p t ih =>
    obtain ⟨x, v⟩ := p
    by_cases hx : x = k
    · subst hx; simp [hk, rget]
    · cases hkeep : keep x <;> simp [hkeep, rget, hx, ih]

theorem get_keepRegs (s : State) (keep : RegKey → Bool) {r : Reg} {i j : Nat} (hk : keep ⟨r, i, j⟩ = true) :
    (s.keepRegs keep).get r i j = s.get r i j := by
  rw [State.get, State.keepRegs, rget_filter keep hk, ← State.get]

/-! ### What ending the work of a head leaves unchanged

Ending the work of a head (R77) writes ring registers, the jobs count of a unit and the reply slots of heads; the link state of R75 is none
of these. -/

/-- The registers that ending work may write. -/
def workReg (r : Reg) : Bool :=
  ringReg r || match r with | .JOB_UNIT_CNT_JOBS => true | _ => false

/-- From `s` to `t` only registers of `workReg` changed, and no head forgot whether its link reached L0. -/
structure KeepsLinkState (s t : State) : Prop where
  get_eq : ∀ (r : Reg) (i j : Nat), workReg r = false → t.get r i j = s.get r i j
  reachedL0_eq : ∀ h : Nat, (t.head h).reachedL0 = (s.head h).reachedL0

namespace KeepsLinkState

theorem refl (s : State) : KeepsLinkState s s := ⟨fun _ _ _ _ => rfl, fun _ => rfl⟩

theorem trans {s t u : State} (h : KeepsLinkState s t) (k : KeepsLinkState t u) : KeepsLinkState s u :=
  ⟨fun r i j hr => (k.get_eq r i j hr).trans (h.get_eq r i j hr), fun n => (k.reachedL0_eq n).trans (h.reachedL0_eq n)⟩

theorem foldl {β : Type} {f : State → β → State} (hf : ∀ s x, KeepsLinkState s (f s x)) (l : List β) (s : State) :
    KeepsLinkState s (l.foldl f s) := by
  induction l generalizing s with
  | nil => exact refl s
  | cons x l ih => exact (hf s x).trans (ih _)

theorem of_ite {s t u : State} {c : Prop} [Decidable c] (h : KeepsLinkState s t) (k : KeepsLinkState s u) :
    KeepsLinkState s (if c then t else u) := by
  split <;> assumption

theorem of_eq {s t : State} (hr : t.regs = s.regs) (hh : t.host.heads = s.host.heads) : KeepsLinkState s t :=
  ⟨fun r i j _ => by rw [State.get, State.get, hr], fun n => by rw [State.head, State.head, hh]⟩

theorem put (s : State) {r : Reg} (v i j : Nat) (hr : workReg r = true) : KeepsLinkState s (s.put r v i j) := by
  refine ⟨fun r' i' j' hr' => s.get_put_other v i i' j j' ?_, fun _ => rfl⟩
  rintro rfl
  simp [hr] at hr'

theorem setHead (s : State) (h : Nat) (v : HeadSt) (hl : v.reachedL0 = (s.head h).reachedL0) : KeepsLinkState s (s.setHead h v) := by
  refine ⟨fun _ _ _ _ => rfl, fun n => ?_⟩
  by_cases hn : h = n
  · subst hn; simpa using hl
  · rw [head_setHead_ne s v hn]

theorem setRing (s : State) (h r : Nat) (v : RingSt) : KeepsLinkState s (s.setRing h r v) := of_eq rfl rfl

theorem emit (s : State) (o : Out) : KeepsLinkState s (s.emit o) := of_eq rfl rfl

theorem job' (s : State) (f : JobSt → JobSt) : KeepsLinkState s (s.job' f) := of_eq rfl rfl

theorem keepRegs (s : State) {keep : RegKey → Bool} (hk : ∀ k, ringReg k.r = false → keep k = true) :
    KeepsLinkState s (s.keepRegs keep) := by
  refine ⟨fun r i j hr => get_keepRegs s keep (hk _ ?_), fun _ => rfl⟩
  exact (Bool.or_eq_false_iff.mp hr).1

theorem msix (s : State) (h v : Nat) : KeepsLinkState s (s.msix h v) :=
  of_ite (emit ..) (setHead _ _ _ rfl)

theorem ringIrq (s : State) (h r : Nat) : KeepsLinkState s (s.ringIrq h r) :=
  of_ite ((setRing ..).trans (msix ..)) (refl s)

theorem writeCqe (s : State) (h r : Nat) (final noirq : Bool) (status tag result detail outlen : Nat) :
    KeepsLinkState s (s.writeCqe h r final noirq status tag result detail outlen) :=
  of_ite (((emit ..).trans (put _ _ _ _ rfl)).trans ((put _ _ _ _ rfl).trans ((setRing ..).trans (ringIrq ..)))) (refl s)

theorem reply (s : State) (q : Req) (status result detail outlen : Nat) (output : Output) :
    KeepsLinkState s (s.reply q status result detail outlen output) := by
  unfold State.reply
  split
  · exact (setHead s _ _ (by rfl)).trans ((emit ..).trans (msix ..))
  · exact (of_ite (refl s) (emit s _)).trans ((writeCqe ..).trans (setRing ..))
  · exact of_eq rfl rfl

theorem endOp (s : State) (slot status detail result : Nat) : KeepsLinkState s (s.endOp slot status detail result) := by
  unfold State.endOp
  split
  · exact refl s
  · refine of_ite (refl s) (of_ite (of_eq rfl rfl) ?_)
    split
    · exact of_ite (of_eq rfl rfl) (of_ite ((of_eq (by rfl) (by rfl)).trans (writeCqe ..)) (of_eq rfl rfl))
    · exact (of_eq (by rfl) (by rfl)).trans ((put _ _ _ _ rfl).trans (msix ..))
    · split <;> exact of_eq rfl rfl

theorem removeJob (s : State) (id : Nat) : KeepsLinkState s (s.removeJob id) :=
  (of_eq (by rfl) (by rfl)).trans (foldl (fun _ _ => put _ _ _ _ rfl) _ _)

theorem breakSession (s : State) (k : Option Nat) : KeepsLinkState s (s.breakSession k) := by
  unfold State.breakSession
  split
  · exact refl s
  · split
    · exact of_eq rfl rfl
    · exact refl s

theorem finishJob (s : State) (id status result detail : Nat) : KeepsLinkState s (s.finishJob id status result detail) := by
  unfold State.finishJob
  split
  · exact refl s
  · rename_i j _
    have hb : KeepsLinkState s (if status = stOk then s.removeJob id else (s.removeJob id).breakSession j.session) :=
      (removeJob s id).trans (of_ite (refl _) (breakSession ..))
    dsimp only
    generalize (if status = stOk then s.removeJob id else (s.removeJob id).breakSession j.session) = t at hb ⊢
    refine hb.trans ?_
    split
    · exact endOp ..
    · exact of_ite (refl _) (reply ..)

theorem cutJob (s : State) (id status detail : Nat) : KeepsLinkState s (s.cutJob id status detail) := by
  unfold State.cutJob
  split
  · exact refl s
  · exact of_ite ((of_eq (by rfl) (by rfl)).trans (finishJob ..)) (finishJob ..)

theorem endJobs (s : State) (p : Job → Bool) (status : Nat) : KeepsLinkState s (s.endJobs p status) :=
  KeepsLinkState.foldl (fun _ _ => cutJob ..) _ _

theorem abortRing (s : State) (h r : Nat) : KeepsLinkState s (s.abortRing h r) := by
  unfold State.abortRing
  dsimp only
  refine trans (trans ?_ (endJobs ..)) (of_eq (by rfl) (by rfl))
  exact ((put _ _ _ _ rfl).trans (put _ _ _ _ rfl)).trans (put _ _ _ _ rfl)

theorem abandonReads (s : State) (h : Nat) (p : TagUse → Bool) : KeepsLinkState s (s.abandonReads h p) :=
  KeepsLinkState.setHead _ _ _ rfl

/-- Aborting the rings and jobs of a head leaves its link as it is. -/
theorem abortHead (s : State) (h : Nat) : KeepsLinkState s (s.abortHead h) := by
  unfold State.abortHead
  dsimp only
  refine trans ?_ (keepRegs _ fun k hk => by simp [hk])
  refine trans (trans ?_ (job' ..)) (abandonReads ..)
  exact (foldl (fun _ _ => abortRing ..) _ s).trans (endJobs ..)

end KeepsLinkState

/-! ### Departures -/

@[simp] theorem head_dropResponses (s : State) (h k : Nat) : (s.dropResponses h).head k = s.head k := rfl

@[simp] theorem head_mapOwed (s : State) (h : Nat) (f : CohReq → CohReq) (k : Nat) : (s.mapOwed h f).head k = s.head k := rfl

@[simp] theorem head_dropPort (s : State) (h k : Nat) : (s.dropPort h).head k = s.head k := rfl

@[simp] theorem get_uncommit (s : State) (h : Nat) (r : Reg) (i j : Nat) : (s.uncommit h).get r i j = s.get r i j := rfl

@[simp] theorem head_uncommit (s : State) (h : Nat) :
    (s.uncommit h).head h = { s.head h with decoders := [], biDec := false, decodePoison := false } :=
  head_setHead_same ..

theorem get_resetFunction (s : State) (h : Nat) (ide : Bool) {r : Reg} (i j : Nat) (hb : r ≠ .HPT_HEAD_STS_BME) (hi : r ≠ .HPT_HEAD_STS_IDE) :
    (s.resetFunction h ide).get r i j = s.get r i j := by
  cases ide
  · exact State.get_put_other _ _ _ _ _ _ hb.symm
  · exact (State.get_put_other _ _ _ _ _ _ hi.symm).trans (State.get_put_other _ _ _ _ _ _ hb.symm)

theorem bme_resetFunction (s : State) (h : Nat) (ide : Bool) : (s.resetFunction h ide).get .HPT_HEAD_STS_BME h = 0 := by
  cases ide
  · exact State.get_put_same ..
  · exact (State.get_put_other _ _ _ _ _ _ (by decide)).trans (State.get_put_same ..)

/-- What a function reset leaves of its head (R77): MSI-X, the mailbox reply and the device control are gone. -/
theorem head_resetFunction (s : State) (h : Nat) (ide : Bool) :
    (s.resetFunction h ide).head h = { s.head h with
      msix := [], msixPend := [], tag8 := false, cplValue := 0, cplDisable := false, maxPayload := 0, maxRead := 2, aer := 0, bars := []
      mbox := none, mboxBusy := false, ideLink := if ide then 0 else (s.head h).ideLink
      ideKeyLink := (s.head h).ideKeyLink && !ide, ideKeyMem := (s.head h).ideKeyMem && !ide } := by
  cases ide <;> exact head_setHead_same ..

theorem coh_dirBuilt_bi (s : State) : s.dirBuilt.coh.bi = s.coh.bi := by
  unfold State.dirBuilt
  split <;> rfl

theorem get_dirBuilt (s : State) (r : Reg) (i j : Nat) : s.dirBuilt.get r i j = s.get r i j := by
  unfold State.dirBuilt
  split <;> rfl

theorem head_dirBuilt (s : State) (k : Nat) : s.dirBuilt.head k = s.head k := by
  unfold State.dirBuilt
  split <;> rfl

theorem get_sweepWait (s : State) (h : Nat) {r : Reg} (i j : Nat) (hw : r ≠ .COH_EPOCH_SWEEP_WAIT) :
    (s.sweepWait h).get r i j = s.get r i j :=
  s.get_put_other _ _ _ _ _ hw.symm

theorem get_losePresence (s : State) (h : Nat) {r : Reg} (i j : Nat) (he : r ≠ .COH_EPOCH_EPOCH) (hw : r ≠ .COH_EPOCH_SWEEP_WAIT) :
    (s.losePresence h).1.get r i j = s.get r i j := by
  rw [State.losePresence, get_dirBuilt, State.coh'_get, get_sweepWait _ _ _ _ hw, State.get_put_other _ _ _ _ _ _ he.symm]

theorem epoch_losePresence (s : State) (h : Nat) :
    (s.losePresence h).1.get .COH_EPOCH_EPOCH h = (s.get .COH_EPOCH_EPOCH h + 1) % 65536 := by
  rw [State.losePresence, get_dirBuilt, State.coh'_get, get_sweepWait _ _ _ _ (by decide), State.get_put_same, State.epochOf]

theorem head_losePresence (s : State) (h k : Nat) : (s.losePresence h).1.head k = s.head k := head_dirBuilt ..

/-- No back-invalidate snoop of the head is outstanding once its presence is lost (R172). -/
theorem bi_losePresence (s : State) (h : Nat) : (s.losePresence h).1.coh.bi.all (fun b => b.1 != h) = true := by
  have hbi : (s.losePresence h).1.coh.bi = s.coh.bi.filter (fun b => b.1 != h) := coh_dirBuilt_bi _
  rw [hbi, List.all_eq_true]
  exact fun b hb => (List.mem_filter.mp hb).2

/-- A departing head before its rings, jobs and function are reset: link down, what it was owed dropped, its tollgate counts cleared. -/
def linkGone (s : State) (h : Nat) : State :=
  let down := ((s.put .HPT_HEAD_STS_LINK_UP 0 h).bump .HPT_HEAD_STS_DEP_CNT 0xFFFF h).put .HPT_HEAD_STS_DEPARTING 1 h
  let idle := down.setHead h { down.head h with reachedL0 := false, training := false, quiesced := false }
  (List.range 16).foldl (fun (s : State) k => s.put .TLG_HQ_COUNT 0 h k) ((idle.dropResponses h).dropPort h)

theorem departCore_of_linkUp {s : State} {h : Nat} (hup : s.isSet .HPT_HEAD_STS_LINK_UP h = true) :
    s.departCore h = ((((linkGone s h).abortHead h).uncommit h).resetFunction h true).losePresence h := by
  have hdep : s.departs h = true := by simp [State.departs, hup]
  rw [State.departCore, if_pos hdep]
  rfl

theorem get_foldl_put {r r' : Reg} (hr : r ≠ r') (v i i' j' : Nat) (l : List Nat) (s : State) :
    (l.foldl (fun (s : State) k => s.put r v i k) s).get r' i' j' = s.get r' i' j' := by
  induction l generalizing s with
  | nil => rfl
  | cons k l ih => exact (ih _).trans (s.get_put_other _ _ _ _ _ hr)

theorem head_foldl_put (r : Reg) (v i n : Nat) (l : List Nat) (s : State) :
    (l.foldl (fun (s : State) k => s.put r v i k) s).head n = s.head n := by
  induction l generalizing s with
  | nil => rfl
  | cons k l ih => exact ih _

theorem get_linkGone (s : State) (h : Nat) {r : Reg} (i j : Nat) (hc : r ≠ .TLG_HQ_COUNT) :
    (linkGone s h).get r i j =
      (((s.put .HPT_HEAD_STS_LINK_UP 0 h).bump .HPT_HEAD_STS_DEP_CNT 0xFFFF h).put .HPT_HEAD_STS_DEPARTING 1 h).get r i j :=
  get_foldl_put hc.symm ..

theorem reachedL0_linkGone (s : State) (h : Nat) : ((linkGone s h).head h).reachedL0 = false := by
  rw [linkGone, head_foldl_put]
  simp

/-- A register that a departure neither resets nor counts in reads as when the link went. -/
theorem get_departCore {s : State} {h : Nat} (hup : s.isSet .HPT_HEAD_STS_LINK_UP h = true) {r : Reg} (i j : Nat)
    (he : r ≠ .COH_EPOCH_EPOCH) (hw : r ≠ .COH_EPOCH_SWEEP_WAIT) (hb : r ≠ .HPT_HEAD_STS_BME) (hi : r ≠ .HPT_HEAD_STS_IDE)
    (hr : workReg r = false) :
    (s.departCore h).1.get r i j = (linkGone s h).get r i j := by
  rw [departCore_of_linkUp hup, get_losePresence _ _ _ _ he hw, get_resetFunction _ _ _ _ _ hb hi, get_uncommit]
  exact (KeepsLinkState.abortHead ..).get_eq r i j hr

theorem head_departCore {s : State} {h : Nat} (hup : s.isSet .HPT_HEAD_STS_LINK_UP h = true) :
    ((s.departCore h).1.head h).decoders = [] ∧ ((s.departCore h).1.head h).msix = [] ∧
      ((s.departCore h).1.head h).reachedL0 = false ∧ ((s.departCore h).1.head h).biDec = false := by
  have hl0 := ((KeepsLinkState.abortHead (linkGone s h) h).reachedL0_eq h).trans (reachedL0_linkGone s h)
  rw [departCore_of_linkUp hup, head_losePresence, head_resetFunction, head_uncommit]
  dsimp only
  exact ⟨rfl, rfl, hl0, rfl⟩

theorem epoch_departCore {s : State} {h : Nat} (hup : s.isSet .HPT_HEAD_STS_LINK_UP h = true) :
    (s.departCore h).1.get .COH_EPOCH_EPOCH h = (s.get .COH_EPOCH_EPOCH h + 1) % 65536 := by
  rw [departCore_of_linkUp hup, epoch_losePresence, get_resetFunction _ _ _ _ _ (by decide) (by decide), get_uncommit,
    (KeepsLinkState.abortHead ..).get_eq _ _ _ rfl, get_linkGone _ _ _ _ (by decide), State.get_put_other _ _ _ _ _ _ (by decide),
    State.bump, State.get_put_other _ _ _ _ _ _ (by decide), State.get_put_other _ _ _ _ _ _ (by decide)]

theorem linkUp_departCore {s : State} {h : Nat} (hup : s.isSet .HPT_HEAD_STS_LINK_UP h = true) :
    (s.departCore h).1.get .HPT_HEAD_STS_LINK_UP h = 0 := by
  rw [get_departCore hup _ _ (by decide) (by decide) (by decide) (by decide) rfl, get_linkGone _ _ _ _ (by decide),
    State.get_put_other _ _ _ _ _ _ (by decide), State.bump, State.get_put_other _ _ _ _ _ _ (by decide), State.get_put_same]

theorem departing_departCore {s : State} {h : Nat} (hup : s.isSet .HPT_HEAD_STS_LINK_UP h = true) :
    (s.departCore h).1.get .HPT_HEAD_STS_DEPARTING h = 1 := by
  rw [get_departCore hup _ _ (by decide) (by decide) (by decide) (by decide) rfl, get_linkGone _ _ _ _ (by decide),
    State.get_put_same]

theorem bi_departCore {s : State} {h : Nat} (hup : s.isSet .HPT_HEAD_STS_LINK_UP h = true) :
    (s.departCore h).1.coh.bi.all (fun b => b.1 != h) = true := by
  rw [departCore_of_linkUp hup]
  exact bi_losePresence ..

/-! ### Links, function resets and IDE -/

theorem headExists_of {s : State} {h : Nat} (hp : s.host.perstHigh.contains (h / 2) = true)
    (hx : h % 2 = 0 ∨ s.host.x8.contains (h / 2) = true) : s.headExists h = true := by
  simp only [State.headExists, Bool.and_eq_true, Bool.or_eq_true, beq_iff_eq]
  exact ⟨hp, hx⟩

theorem linkFits_of {s : State} {h rate width flit : Nat} (hr : rate ≤ s.get .HPT_PORT_CFG_MAXRATE (h / 2))
    (hw : width = 1 ∨ width = 2 ∨ width = 4 ∨ width = 8 ∨ width = 16 ∧ s.host.x8.contains (h / 2) = false)
    (hlt : flit < 3) (hf : rate ≤ 4 ∧ flit = 0 ∨ 4 < rate ∧ flit ≠ 0) : s.linkFits h rate width flit = true := by
  have hwidth : ([1, 2, 4, 8].contains width || (width == 16 && !s.host.x8.contains (h / 2))) = true := by
    rcases hw with rfl | rfl | rfl | rfl | ⟨rfl, hx⟩
    iterate 4 rfl
    · rw [hx]; rfl
  have hflit : (if rate ≤ 4 then flit == 0 else flit == 1 || flit == 2) = true := by
    rcases hf with ⟨hle, rfl⟩ | ⟨hlt', hne⟩
    · simp [hle]
    · rw [if_neg (by omega), Bool.or_eq_true, beq_iff_eq, beq_iff_eq]
      omega
  simp only [State.linkFits, hwidth, hflit, hr, decide_true, Bool.and_self]

theorem exec_linkUp_of_ready {s : State} {h : Fin 8} {rate : Fin 7} {width : Fin 17} {flit : Fin 3}
    (hd : s.isSet .HPT_HEAD_STS_DEPARTING h.val = false) (hw : s.isSet .COH_EPOCH_SWEEP_WAIT h.val = false) (hhalt : s.halt = none)
    (ha : s.alive = true) (he : s.headExists h.val = true) (hfit : s.linkFits h.val rate.val width.val flit.val = true)
    (ht : (s.head h.val).training = true ∨ s.isSet .HPT_HEAD_STS_LINK_UP h.val = true) :
    exec (.linkUp h rate width flit) s = .next (((((s.put .HPT_HEAD_STS_LINK_UP 1 h.val).put .HPT_HEAD_STS_RATE rate.val h.val).put
      .HPT_HEAD_STS_WIDTH width.val h.val).put .HPT_HEAD_STS_FLIT flit.val h.val).setHead h.val
        { s.head h.val with reachedL0 := true, training := false, quiesced := false }) := by
  refine (if_neg ?_ : execLinkUp h rate width flit s = _)
  simp [hd, hw, hhalt, ha, he, hfit, ht]

/-- A port out of reset, its MODE taken over (R48). -/
def outOfReset (s : State) (p : Nat) (x8 : Bool) : State :=
  { s with host := { s.host with perstHigh := linsert p s.host.perstHigh, x8 := lset p x8 s.host.x8 } }

/-- A head starts to train, unless its link is up. -/
def trainUnlessUp (s : State) (h : Nat) : State :=
  if s.isSet .HPT_HEAD_STS_LINK_UP h then s else s.setHead h { s.head h with training := true }

theorem trainUnlessUp_of_down {s : State} {h : Nat} (hdown : s.isSet .HPT_HEAD_STS_LINK_UP h = false) :
    trainUnlessUp s h = s.setHead h { s.head h with training := true } :=
  if_neg (ne_true_of_eq_false hdown)

theorem exec_perstDeassert_oneHead {s : State} {p : Fin 4} (hmode : s.isSet .HPT_PORT_CFG_MODE p.val = false) :
    exec (.perstDeassert p) s = .next (trainUnlessUp (outOfReset s p.val false) (2 * p.val)) := by
  show execPerstDeassert p s = _
  simp only [execPerstDeassert, hmode]
  rfl

theorem exec_perstDeassert_twoHeads {s : State} {p : Fin 4} (hmode : s.isSet .HPT_PORT_CFG_MODE p.val = true) :
    exec (.perstDeassert p) s =
      .next (trainUnlessUp (trainUnlessUp (outOfReset s p.val true) (2 * p.val)) (2 * p.val + 1)) := by
  show execPerstDeassert p s = _
  simp only [execPerstDeassert, hmode]
  rfl

/-- Both streams fail alike (R67): the head's record takes the AER bit along with what the stream loses. -/
theorem setHead_then_aer (s : State) (h a : Nat) (v : HeadSt) :
    (s.setHead h v).setHead h { (s.setHead h v).head h with aer := a } = s.setHead h { v with aer := a } := by
  rw [setHead_setHead_same, head_setHead_same]

/-! ### Bindings and decoders -/

theorem exec_bindEnableWrite_on {s : State} {h : Fin 8} {i : Fin 16}
    (hfree : ∀ j < 16, j ≠ i.val → s.isSet .HPT_BIND_CTL_EN h.val j = true → s.bindOverlap h.val i.val j = false)
    (hta : s.get .HPT_BIND_TA_TABASE h.val i.val + s.get .HPT_BIND_SIZE_SIZE h.val i.val ≤ 2 ^ 27) :
    exec (.bindEnableWrite h i true) s = .next ((s.put .HPT_BIND_CTL_EN 1 h.val i.val).put .HPT_BIND_CTL_ERR 0 h.val i.val) := by
  have hany : (List.range 16).any (fun j => j != i.val && s.isSet .HPT_BIND_CTL_EN h.val j && s.bindOverlap h.val i.val j) = false := by
    rw [List.any_eq_false]
    intro j hj
    simp only [Bool.and_eq_true, bne_iff_ne]
    rintro ⟨⟨hne, hen⟩, hov⟩
    simp [hfree j (List.mem_range.mp hj) hne hen] at hov
  show execBindEnableWrite h i true s = _
  simp only [execBindEnableWrite, hany, decide_eq_false (Nat.not_lt.mpr hta)]
  rfl

theorem exec_bindEnableWrite_refused {s : State} {h : Fin 8} {i : Fin 16} {j : Nat} (hen : s.isSet .HPT_BIND_CTL_EN h.val i.val = false)
    (hbad : 2 ^ 27 < s.get .HPT_BIND_TA_TABASE h.val i.val + s.get .HPT_BIND_SIZE_SIZE h.val i.val ∨
      j < 16 ∧ j ≠ i.val ∧ s.isSet .HPT_BIND_CTL_EN h.val j = true ∧ s.bindOverlap h.val i.val j = true) :
    exec (.bindEnableWrite h i true) s = .next ((s.put .HPT_BIND_CTL_EN 0 h.val i.val).put .HPT_BIND_CTL_ERR 1 h.val i.val) := by
  have hb : ((List.range 16).any (fun j => j != i.val && s.isSet .HPT_BIND_CTL_EN h.val j && s.bindOverlap h.val i.val j) ||
      decide (2 ^ 27 < s.get .HPT_BIND_TA_TABASE h.val i.val + s.get .HPT_BIND_SIZE_SIZE h.val i.val)) = true := by
    rw [Bool.or_eq_true]
    rcases hbad with hta | ⟨hj, hne, hon, hov⟩
    · exact .inr (decide_eq_true hta)
    · exact .inl (List.any_eq_true.mpr ⟨j, List.mem_range.mpr hj, by simp [hne, hon, hov]⟩)
  show execBindEnableWrite h i true s = _
  simp only [execBindEnableWrite, hb, hen]
  rfl

/-- No decoder range overlaps an HDM-DB entry where no enabled entry is HDM-DB. -/
theorem overDb_eq_false {s : State} {h : Nat} (hk : ∀ i < 16, s.isSet .HPT_BIND_CTL_EN h i = true → s.isSet .HPT_BIND_CTL_KIND h i = false)
    (lo len : Nat) : s.overDb h lo len = false := by
  rw [State.overDb, List.any_eq_false]
  intro i hi
  simp only [Bool.and_eq_true]
  rintro ⟨⟨hen, hkind⟩, -⟩
  simp [hk i (List.mem_range.mp hi) hen] at hkind

theorem overDb_of_entry {s : State} {h lo len i : Nat} (hi : i < 16) (hen : s.isSet .HPT_BIND_CTL_EN h i = true)
    (hkind : s.isSet .HPT_BIND_CTL_KIND h i = true) (hlo : lo < (s.get .HPT_BIND_BASE_BASE h i + s.get .HPT_BIND_SIZE_SIZE h i) * 2 ^ 21)
    (hhi : s.get .HPT_BIND_BASE_BASE h i * 2 ^ 21 < lo + len) : s.overDb h lo len = true :=
  List.any_eq_true.mpr ⟨i, List.mem_range.mpr hi, by simp only [hen, hkind, Bool.and_self, Bool.true_and]; exact decide_eq_true ⟨hlo, hhi⟩⟩

/-- The decoder that a commit asks for: host range and skipped DPA in units of 256 MiB (R28). -/
def askedDecoder (base size : Hpa) (skip : Dpa) (ways : Fin 17) (gran : Fin 7) : Decoder :=
  { base := base.val / 2 ^ 28 * 2 ^ 28, size := size.val / 2 ^ 28 * 2 ^ 28, skip := skip.val / 2 ^ 28 * 2 ^ 28
    ways := ways.val, gran := gran.val }

/-- Every decoder below d is committed and ends at or below the base asked for. -/
def lowerInOrder (t : Tab Decoder) (d base : Nat) : Bool :=
  (List.range d).all (fun k => match tget k t with
    | some x => x.committed && decide (x.base + x.size ≤ base)
    | none => false)

/-- Whether a head refuses a decoder: not ready, ways it lacks, out of order, or over an HDM-DB entry without back-invalidate (R64). -/
def commitRefused (s : State) (h d : Nat) (x : Decoder) : Bool :=
  decide (s.get .HPT_DEV_STS_STATUS h = stPending ∨ s.get .HPT_DEV_STS_STATUS h = stCfgInvalid ∨ s.get .HPT_DEV_STS_STATUS h = stMediaNotReady) ||
    !([1, 2, 3, 4, 6, 8, 12, 16].contains x.ways) || !lowerInOrder (s.head h).decoders d x.base ||
    (s.overDb h ((s.setHead h { s.head h with decoders := tput d x (s.head h).decoders }).dpaBase h d) (x.size / x.ways) &&
      (!(s.head h).biDec || !(List.range 16).all (fun n => s.isSet .COH_DIR_CFG_EN n)))

theorem exec_hdmDecoderCommit {s : State} {h d : Fin 8} {base size : Hpa} {skip : Dpa} {ways : Fin 17} {gran : Fin 7} {refused : Bool}
    (hr : commitRefused s h.val d.val (askedDecoder base size skip ways gran) = refused) :
    exec (.hdmDecoderCommit h d base size skip ways gran) s = .next (s.setHead h.val { s.head h.val with
      quiesced := (s.head h.val).quiesced && refused
      decoders := tput d.val { askedDecoder base size skip ways gran with committed := !refused, errNotCommitted := refused }
        (s.head h.val).decoders }) := by
  subst hr
  rfl

theorem lowerInOrder_of {t : Tab Decoder} {d base : Nat}
    (hord : ∀ k < d, ∃ x, tget k t = some x ∧ x.committed = true ∧ x.base + x.size ≤ base) : lowerInOrder t d base = true := by
  rw [lowerInOrder, List.all_eq_true]
  intro k hk
  obtain ⟨x, hx, hc, hle⟩ := hord k (List.mem_range.mp hk)
  simp only [hx, hc, decide_eq_true hle, Bool.and_self]

theorem commitRefused_eq_false {s : State} {h d : Nat} {x : Decoder} (hst : s.get .HPT_DEV_STS_STATUS h = stOk)
    (hways : [1, 2, 3, 4, 6, 8, 12, 16].contains x.ways = true) (hord : lowerInOrder (s.head h).decoders d x.base = true)
    (hk : ∀ i < 16, s.isSet .HPT_BIND_CTL_EN h i = true → s.isSet .HPT_BIND_CTL_KIND h i = false) : commitRefused s h d x = false := by
  rw [commitRefused, hst, hways, hord, overDb_eq_false hk]
  rfl

theorem commitRefused_of_overDb {s : State} {h d : Nat} {x : Decoder}
    (hdb : s.overDb h ((s.setHead h { s.head h with decoders := tput d x (s.head h).decoders }).dpaBase h d) (x.size / x.ways) = true)
    (hbi : (s.head h).biDec = false) : commitRefused s h d x = true := by
  rw [commitRefused, hdb, hbi]
  exact Bool.or_true _

/-- The DPA base of the first decoder of a head is the DPA it skips. -/
theorem dpaBase_single (s : State) (h : Nat) (v : HeadSt) (x : Decoder) :
    (s.setHead h { v with decoders := tput 0 x [] }).dpaBase h 0 = x.skip := by
  simp [State.dpaBase, tput, tdel, tins]

/-- Settles O48: a clause for each command, by what the command does (`exec_…`) and, for the departures, by what a departure leaves
(`…_departCore`). -/
theorem linksDeparturesAndResets : Obligations.LinksDeparturesAndResets := by
  unfold Obligations.LinksDeparturesAndResets
  refine ⟨?linkUp, ?depart, ?perstAssert, ?perstDeassertOne, ?perstDeassertTwo, ?departureDone, ?flr, ?cxlReset, ?unclaimed, ?ide,
    ?bindOn, ?bindOff, ?bindRefused, ?commit, ?commitOverDb⟩
  case linkUp =>
    intro s h rate width flit hd hw hhalt ha hp hx hr hwidth hflit ht
    exact exec_linkUp_of_ready hd hw hhalt ha (headExists_of hp hx) (linkFits_of hr hwidth flit.isLt hflit) ht
  case depart =>
    intro s h hup
    obtain ⟨hdec, hmsix, hl0, hbi⟩ := head_departCore hup
    exact ⟨(s.departCore h.val).1, (s.departCore h.val).2, rfl, rfl, rfl, linkUp_departCore hup, departing_departCore hup, hdec, hmsix, hl0, hbi,
      epoch_departCore hup, bi_departCore hup⟩
  case perstAssert => rintro s _ p rfl; rfl
  case perstDeassertOne =>
    intro s u p hu hmode hup _
    obtain rfl : u = outOfReset s p.val false := hu
    rw [exec_perstDeassert_oneHead hmode, trainUnlessUp_of_down (s := outOfReset ..) hup]
  case perstDeassertTwo =>
    intro s u p hu hmode hup hup'
    obtain rfl : u = outOfReset s p.val true := hu
    rw [exec_perstDeassert_twoHeads hmode, trainUnlessUp_of_down (s := outOfReset ..) hup,
      trainUnlessUp_of_down (s := (outOfReset ..).setHead ..) hup', head_setHead_ne _ _ (by omega)]
  case departureDone =>
    intro s h hd hp hx
    have he : (s.put .HPT_HEAD_STS_DEPARTING 0 h.val).headExists h.val = true := headExists_of hp hx
    show execDepartureDone h s = _
    simp only [execDepartureDone, hd, he, not_true_eq_false, if_true, if_false]
    rfl
  case flr =>
    intro s h
    refine ⟨rfl, bme_resetFunction .., ?_, ?_⟩ <;> rw [head_resetFunction]
  case cxlReset =>
    rintro s u v h rfl rfl
    refine ⟨rfl, ?_⟩
    rw [head_dropPort, head_setHead_same, head_mapOwed, head_resetFunction, head_uncommit]
  case unclaimed => exact fun s h => ⟨rfl, rfl⟩
  case ide =>
    intro s h
    constructor
    · exact congrArg (fun t : State => Host.Outcome.next (t.report (msg2 bHpt h.val 2))) (setHead_then_aer (s.put .HPT_HEAD_STS_IDE 3 h.val) ..)
    · exact congrArg (fun t : State => Host.Outcome.next (t.report (msg2 bHpt h.val 2))) (setHead_then_aer s ..)
  case bindOn => exact fun s h i => exec_bindEnableWrite_on
  case bindOff => exact fun s h i => rfl
  case bindRefused => exact fun s h i j => exec_bindEnableWrite_refused
  case commit =>
    intro s h d base size skip ways gran hst hways hord hk
    rw [exec_hdmDecoderCommit (commitRefused_eq_false hst hways (lowerInOrder_of hord) hk), Bool.and_false]
    rfl
  case commitOverDb =>
    intro s h base size gran i hi hen hkind hnone hpos hlt hbi
    have hrefused : commitRefused s h.val (0 : Fin 8).val (askedDecoder base size 0 1 gran) = true := by
      refine commitRefused_of_overDb ?_ hbi
      rw [hnone]
      rw [show (0 : Fin 8).val = 0 from rfl, dpaBase_single]
      refine overDb_of_entry hi hen hkind (Nat.mul_pos hpos (by decide)) ?_
      simpa [askedDecoder] using hlt
    rw [exec_hdmDecoderCommit hrefused, hnone, Bool.and_true]
    rfl

/-! ### A filtered counter tells the poison of an unbound read

R511 makes an occurrence that a request causes attributable, and a counter with FILT = 1 counts attributable occurrences alone (R512). The model
counts the poisoned read data of a translation fault with the attributes of its head; the statement counts it without any. -/

/-- Head 0 is up and one of its decoders maps its DPAs, none of which a binding entry holds. Counter 128, the head's first, counts POISON
(event 0x06) under filter set 0, which accepts the head's requests before stage 2 has resolved them. -/
def poisonWatched : State :=
  let s : State := { State.reset with
    boot := { phase := 3 }
    host := { State.reset.host with
      perstHigh := [0]
      heads := [(0, { decoders := [(0, { size := 2 ^ 31, committed := true })] })] } }
  let s := ((s.put .HPT_HEAD_STS_LINK_UP 1).put .PMU_CTL_EN 1 128).put .PMU_CTL_EVENT 0x06 128
  let s := (s.put .PMU_CTL_FILT 1 128).put .PMU_FS_MASK0_MASK 1
  ((s.put .PMU_FS_SEL_PRIVSET 1).put .PMU_FS_SEL_CLSET 1).put .PMU_FS_SEL_TIERSET (2 ^ 6)

/-- A read of host address 0 by head 0. -/
def readZero : HostMem := { h := 0, tag := 0, hpa := 0 }

/-- What counter 128 shows after a command. -/
def counter128 : Res → Nat
  | .next t => t.get .PMU_CNT_COUNT 128
  | _ => 0

/-- The model counts the poison that an unbound read returns. -/
theorem counter128_memrd_unbound : counter128 (exec (.memrd readZero) poisonWatched) = 1 := by decide +kernel

/-- Refutes O56: a read of a DPA that no binding entry holds counts POISON with the attributes of its head (R511), so a counter whose filter
accepts them counts it, where the statement has an occurrence without attributes, which no filtered counter sees. -/
theorem not_hostMemoryAccesses : ¬ Obligations.HostMemoryAccesses := by
  unfold Obligations.HostMemoryAccesses
  rintro ⟨-, -, -, -, -, -, hunbound, -⟩
  obtain ⟨hread, -⟩ := hunbound poisonWatched _ _ readZero 0 0 false 0 (by decide +kernel) (by decide +kernel) (by decide +kernel)
    (by decide +kernel) rfl rfl
  have hcount := counter128_memrd_unbound
  rw [hread] at hcount
  exact absurd hcount (by decide +kernel)

end Sys2Proof.Proofs.Architecture

/-!
PROOFS of the statements of the host ports: the completions, timeouts and quarantine of bus-master reads and the enables of the bus master
(R51, R56, R71-R74, R78), and the answers to back-invalidate snoops (R67, R168-R172).
-/
namespace Sys2Proof.Proofs.HostPorts
open Sys2Proof Sys2Proof.Machine Sys2Proof.Proofs.Architecture

/-! ### Completions (R73, R74) -/

section
variable {s : State} {h : Fin 8} {tag : Fin 16384}

theorem exec_bmCompletion_outstanding {u : TagUse} (hu : tget tag.val (s.head h.val).tags = some u) (last : Bool) :
    exec (.bmCompletion h tag last) s =
      .next (if last then ((s.freeTag h.val tag.val).readDone h.val u).refetch h.val else s) := by
  show execBmCompletion h tag last s = _
  simp only [execBmCompletion, hu]

theorem exec_bmCompletion_late (hu : tget tag.val (s.head h.val).tags = none) (hq : (s.head h.val).quar.contains tag.val = true)
    (last : Bool) : exec (.bmCompletion h tag last) s = .next (s.bump .HPT_LATE_CPL_COUNT 0xFFFFFFFF h.val) := by
  show execBmCompletion h tag last s = _
  simp only [execBmCompletion, hu, hq, if_true]

theorem exec_bmCompletion_unexpected (hu : tget tag.val (s.head h.val).tags = none)
    (hq : (s.head h.val).quar.contains tag.val = false) (last : Bool) :
    exec (.bmCompletion h tag last) s = .next (s.setHead h.val { s.head h.val with aer := (s.head h.val).aer ||| 2 }) := by
  show execBmCompletion h tag last s = _
  simp only [execBmCompletion, hu, hq, Bool.false_eq_true, if_false]

end

/-! ### Timeouts and quarantine (R72, R73) -/

/-- A read has timed out: its tag is quarantined, the AER bit set, the timeout counted and reported. -/
def readTimedOut (s : State) (h t : Nat) : State :=
  let q := s.quarTag h t
  ((q.setHead h { q.head h with aer := (s.head h).aer ||| 1 }).bump .HPT_CPL_TMO_COUNT 0xFFFFFFFF h).report (msg2 bHpt h 5)

/-- A ring that runs stops with a status (R96). -/
def stopIfRunning (s : State) (h r st : Nat) : State :=
  if s.get .HPT_RING_STS_STATE h r = 1 then s.stopRing h r st else s

/-- What a read that timed out would have served ends (R72): its ring stops, the command that waited for its payload is dropped, or its job
ends. -/
def endTimedOutUse (s : State) (h : Nat) : TagUse → State
  | .entries r => stopIfRunning s h r stTimeout
  | .payload r ix => stopIfRunning (s.dropStarted h r ix) h r stTimeout
  | .job j => s.cutJob j stTimeout 0

theorem exec_completionTimeout_of_due {s : State} {h : Fin 8} {tag : Fin 16384} {use : TagUse}
    (hu : tget tag.val (s.head h.val).tags = some use) (hon : (s.head h.val).cplDisable = false)
    (hdue : tgetD 0 tag.val (s.head h.val).tagAt + s.cplT h.val ≤ s.now) :
    exec (.completionTimeout h tag) s = .next (endTimedOutUse (readTimedOut s h.val tag.val) h.val use) := by
  have hwait : ¬((s.head h.val).cplDisable = true ∨ s.now < tgetD 0 tag.val (s.head h.val).tagAt + s.cplT h.val) := by
    rw [hon]
    simpa using hdue
  show execCompletionTimeout h tag s = _
  simp only [execCompletionTimeout, hu, if_neg hwait]
  cases use <;> rfl

theorem exec_tagQuarantineExpire_of_due {s : State} {h : Fin 8} {tag : Fin 16384} (hdue : tgetD 0 tag.val (s.head h.val).quarTo ≤ s.now) :
    exec (.tagQuarantineExpire h tag) s = .next ((s.setHead h.val { s.head h.val with
      quar := lremove tag.val (s.head h.val).quar, quarTo := tdel tag.val (s.head h.val).quarTo }).refetch h.val) :=
  if_neg (Nat.not_lt.mpr hdue)

theorem not_mem_lremove (k : Nat) (l : List Nat) : k ∉ lremove k l := by
  simp [lremove]

/-! ### Enables of the bus master (R56, R78) -/

/-- No read is left outstanding where all are abandoned. -/
theorem tags_abandonReads_all (s : State) (h : Nat) : ((s.abandonReads h (fun _ => true)).head h).tags = [] := by
  rw [State.abandonReads, head_setHead_same]
  simp

/-- The host has programmed an entry of the MSI-X table and cleared its mask. -/
def unmaskVector (s : State) (h v addr data : Nat) : State :=
  s.setHead h { s.head h with msix := tput v { addr := addr, data := data, mask := false } (s.head h).msix }

theorem exec_msixVectorUnmask (s : State) (h : Fin 8) (v : Fin 72) (a d : Nat) :
    exec (.msixVectorUnmask h v a d) s =
      if s.isSet .HPT_HEAD_STS_BME h.val = true ∧ (s.head h.val).msixPend.contains v.val = true then
        .next ((unmaskVector s h.val v.val a d).sendPending h.val [v.val])
      else .next (unmaskVector s h.val v.val a d) := rfl

/-- Settles O47: a clause for each command, by what the command does in the case of the clause (`exec_…`). -/
theorem busMasterReads : Obligations.BusMasterReads := by
  unfold Obligations.BusMasterReads
  refine ⟨?outstanding, ?use, ?late, ?unexpected, ?timeout, ?quarantineEnds, ?enabled, ?disabled, ?unmasked, ?unmaskedPending⟩
  case outstanding =>
    intro s h tag u hu
    exact ⟨exec_bmCompletion_outstanding hu true, exec_bmCompletion_outstanding hu false⟩
  case use => exact fun s h r ix j => ⟨rfl, rfl, rfl⟩
  case late => exact fun s h tag last hu hq => exec_bmCompletion_late hu hq last
  case unexpected => exact fun s h tag last hu hq => exec_bmCompletion_unexpected hu hq last
  case timeout =>
    rintro s _ _ h tag use hu hon hdue rfl rfl
    have hexec := exec_completionTimeout_of_due hu hon hdue
    refine ⟨?_, ?_, ?_⟩
    · rintro r rfl
      exact hexec
    · rintro r ix _ rfl rfl
      exact hexec
    · rintro j rfl
      exact hexec
  case quarantineEnds => exact fun s h tag hdue => ⟨exec_tagQuarantineExpire_of_due hdue, not_mem_lremove _ _⟩
  case enabled => exact fun s h => rfl
  case disabled =>
    rintro s _ h rfl
    exact ⟨rfl, tags_abandonReads_all ..⟩
  case unmasked =>
    intro s h v a d hidle
    rw [exec_msixVectorUnmask, if_neg]
    · rfl
    · rintro ⟨hbme, hpend⟩
      rcases hidle with hnone | hoff
      · exact Bool.false_ne_true (hnone.symm.trans hpend)
      · exact Bool.false_ne_true (hoff.symm.trans hbme)
  case unmaskedPending =>
    intro s h v a d hpend hbme
    rw [exec_msixVectorUnmask, if_pos ⟨hbme, hpend⟩]
    rfl

/-! ### Answers to back-invalidate snoops (R67, R169, R170) -/

section
variable {s : State} {h : Fin 8} {line : LineNo}

/-- A response to an outstanding snoop: the head keeps the line shared after a BISnpData that it answers so, and gives it up otherwise. -/
theorem exec_birsp_outstanding {kind : Nat} (hide : s.get .HPT_HEAD_STS_IDE h.val ≠ 3)
    (hfind : s.coh.bi.find? (fun b => b.1 == h.val && b.2.1 == line.val) = some (h.val, line.val, kind)) (keepS : Bool) :
    exec (.birsp h line keepS) s = .next (((if keepS = true ∧ kind = 1 then s.setPresence line.val (s.presence line.val).1 false
      else s.clearPresence line.val h.val).biDel h.val line.val).recallEnds h.val line.val) := by
  show execBirsp h line keepS s = _
  simp only [execBirsp, if_neg hide, hfind]

theorem exec_birsp_late (hide : s.get .HPT_HEAD_STS_IDE h.val ≠ 3)
    (hfind : s.coh.bi.find? (fun b => b.1 == h.val && b.2.1 == line.val) = none) (keepS : Bool) :
    exec (.birsp h line keepS) s = .next ((s.coh' (fun c => { c with
      biLate := c.biLate.filter (fun b => b != (h.val, line.val)) })).bump .COH_BI_CNT_LATE_BIRSP 0xFFFF h.val) := by
  show execBirsp h line keepS s = _
  simp only [execBirsp, if_neg hide, hfind]

theorem exec_birsp_insecure (hide : s.get .HPT_HEAD_STS_IDE h.val = 3) (keepS : Bool) : exec (.birsp h line keepS) s = .next s :=
  if_pos hide

theorem exec_biconflict (s : State) (h : Fin 8) (line : LineNo) :
    exec (.biconflict h line) s =
      .next (if s.get .HPT_HEAD_STS_IDE h.val = 3 then s else s.emit (.biConflictAck h.val line.val)) := rfl

/-- A snoop timed out: the presence is lost, with the line's data where the head held it exclusively or its record is being rebuilt. -/
def presenceTimedOut (s : State) (h line : Nat) : State :=
  if (s.present line h && ((s.presence line).2 || s.coh.rebuild.contains (line / 64))) = true then
    (s.clearPresence line h).poisonLine line 3
  else s.clearPresence line h

theorem exec_bisnpTimeout_outstanding {kind : Nat} (hbi : (h.val, line.val, kind) ∈ s.coh.bi) :
    exec (.bisnpTimeout h line) s = .next ((((((presenceTimedOut s h.val line.val).bump .COH_BI_CNT_TIMEOUTS 0xFFFF h.val).report
      (msg2 bCoh ((presenceTimedOut s h.val line.val).home (line.val / 64)) 3 (line.val * 64))).coh'
        (fun c => { c with biLate := c.biLate ++ [(h.val, line.val)] })).biDel h.val line.val).recallEnds h.val line.val) := by
  have hany : s.coh.bi.any (fun b => b.1 == h.val && b.2.1 == line.val) = true :=
    List.any_eq_true.mpr ⟨_, hbi, by simp⟩
  exact if_pos hany

end

/-! ### The loss of back-invalidation (R170, R172) -/

/-- A head's presence is tracked in a record of its present epoch, or a snoop to it is outstanding. -/
def hasPresence (s : State) (h : Nat) : Bool :=
  s.coh.dir.any (fun r => decide (tgetD 0 h r.2.epoch = s.epochOf h) && r.2.hp.any (fun p => bit p.2 h)) || s.coh.bi.any (fun b => b.1 == h)

/-- The head has lost its HDM-DB decoding. -/
def biDecOff (s : State) (h : Nat) : State := s.setHead h { s.head h with biDec := false }

theorem exec_biEnCleared (s : State) (h : Fin 8) :
    exec (.biEnCleared h) s =
      if hasPresence s h.val = true then
        .next (((biDecOff s h.val).losePresence h.val).1.recallsGone h.val ((biDecOff s h.val).losePresence h.val).2)
      else .next (biDecOff s h.val) := rfl

theorem hasPresence_of_empty {s : State} (hdir : s.coh.dir = []) (hbi : s.coh.bi = []) (h : Nat) : hasPresence s h = false := by
  rw [hasPresence, hdir, hbi]
  rfl

theorem hasPresence_of_snoop {s : State} {h line kind : Nat} (hbi : (h, line, kind) ∈ s.coh.bi) : hasPresence s h = true := by
  rw [hasPresence, Bool.or_eq_true]
  exact .inr (List.any_eq_true.mpr ⟨_, hbi, beq_self_eq_true h⟩)

theorem epochOf_losePresence_biDecOff (s : State) (h : Nat) :
    ((biDecOff s h).losePresence h).1.epochOf h = (s.epochOf h + 1) % 65536 :=
  epoch_losePresence ..

/-- Settles O57: the answers to a snoop by its three cases and the timeout (`exec_…`), the loss of back-invalidation by whether the head has
presence to lose. -/
theorem backInvalidation : Obligations.BackInvalidation := by
  unfold Obligations.BackInvalidation
  refine ⟨?givenUp, ?keptShared, ?late, ?timeout, ?conflict, ?insecure, ?nothingToLose, ?presenceLost⟩
  case givenUp =>
    intro s h line kind hide hfind
    rw [exec_birsp_outstanding hide hfind, if_neg (fun hkeep => Bool.false_ne_true hkeep.1)]
  case keptShared =>
    intro s h line hide hfind
    rw [exec_birsp_outstanding hide hfind, if_pos ⟨rfl, rfl⟩]
  case late => exact fun s h line keepS hide hfind => exec_birsp_late hide hfind keepS
  case timeout =>
    rintro s _ h line kind hbi rfl
    exact exec_bisnpTimeout_outstanding hbi
  case conflict =>
    intro s h line hide
    rw [exec_biconflict, if_neg hide]
  case insecure =>
    intro s h line keepS hide
    rw [exec_biconflict, if_pos hide]
    exact ⟨rfl, exec_birsp_insecure hide keepS⟩
  case nothingToLose =>
    intro s h hdir hbi
    rw [exec_biEnCleared, hasPresence_of_empty hdir hbi]
    rfl
  case presenceLost =>
    intro s u h line kind l hbi hlose
    obtain ⟨rfl, rfl⟩ := Prod.mk.inj hlose
    rw [exec_biEnCleared, if_pos (hasPresence_of_snoop hbi)]
    exact ⟨rfl, epochOf_losePresence_biDecOff ..⟩

end Sys2Proof.Proofs.HostPorts

/-!
PROOFS of the statements of the Pyryx command interface: the queue and the passing of time (R98, R341, R391), the sys commands (R102, R103, R577),
the checks of a request and its reply (R86-R98), the rings (R94-R96) and the ends of operations (R100).
-/
namespace Sys2Proof.Proofs.Pyryx
open Sys2Proof Sys2Proof.Machine Sys2Proof.Proofs.Architecture Sys2Proof.Proofs.HostPorts

/-! ### The registers that an update may write -/

/-- From `s` to `t` only registers of `l` changed. -/
structure WritesOnly (l : List Reg) (s t : State) : Prop where
  get_eq : ∀ (r : Reg) (i j : Nat), r ∉ l → t.get r i j = s.get r i j

namespace WritesOnly

variable {l : List Reg}

theorem refl (s : State) : WritesOnly l s s := ⟨fun _ _ _ _ => rfl⟩

theorem trans {s t u : State} (h : WritesOnly l s t) (k : WritesOnly l t u) : WritesOnly l s u :=
  ⟨fun r i j hr => (k.get_eq r i j hr).trans (h.get_eq r i j hr)⟩

theorem of_ite {s t u : State} {c : Prop} [Decidable c] (h : WritesOnly l s t) (k : WritesOnly l s u) :
    WritesOnly l s (if c then t else u) := by
  split <;> assumption

theorem foldl {β : Type} {f : State → β → State} (hf : ∀ s x, WritesOnly l s (f s x)) (xs : List β) {s t : State} (h : WritesOnly l s t) :
    WritesOnly l s (xs.foldl f t) := by
  induction xs generalizing t with
  | nil => exact h
  | cons x xs ih => exact ih (h.trans (hf t x))

theorem of_regs {s t : State} (h : t.regs = s.regs) : WritesOnly l s t :=
  ⟨fun r i j _ => by rw [State.get, State.get, h]⟩

theorem put (s : State) {r : Reg} (v i j : Nat) (hr : r ∈ l) : WritesOnly l s (s.put r v i j) :=
  ⟨fun _ _ _ hr' => s.get_put_other _ _ _ _ _ (fun e => hr' (e ▸ hr))⟩

end WritesOnly

/-! ### What counting and the slots of a channel write -/

/-- The registers in which occurrences are counted (R344, R509). -/
def counterRegs : List Reg := [.PMU_CNT_COUNT, .PMU_CNT_SAT, .MEM_CNT_RFM]

namespace WritesOnly

variable {l : List Reg}

theorem pmuAdd (s : State) (n k : Nat) : WritesOnly counterRegs s (s.pmuAdd n k) :=
  of_ite (put _ _ _ _ (by decide)) ((put _ _ _ _ (by decide)).trans (put _ _ _ _ (by decide)))

theorem pmuRange (lo n code k : Nat) (a : Option Attr) (s : State) : WritesOnly counterRegs s (s.pmuRange lo n code k a) := by
  induction n generalizing s with
  | zero => exact refl s
  | succ n ih => exact (of_ite (pmuAdd ..) (refl s)).trans (ih _)

theorem count (s : State) (u : PmuUnit) (code k : Nat) (a : Option Attr) : WritesOnly counterRegs s (s.count u code k a) := by
  refine of_ite (refl s) ?_
  have hunit := pmuRange (unitCounters u).1 (unitCounters u).2 code k a s
  cases u with
  | slice n => exact hunit.trans (pmuRange ..)
  | head h => exact hunit.trans (pmuRange ..)
  | cluster c => exact hunit
  | port p => exact hunit
  | global => exact hunit

theorem issued (s : State) (c : Nat) (d : DramCmd) : WritesOnly l s (s.issued c d) := of_regs rfl

theorem setChan (s : State) (c : Nat) (v : ChanSt) : WritesOnly l s (s.setChan c v) := of_regs rfl

theorem emit (s : State) (o : Out) : WritesOnly l s (s.emit o) := of_regs rfl

theorem bump (s : State) {r : Reg} (cap i j : Nat) (hr : r ∈ l) : WritesOnly l s (s.bump r cap i j) := put _ _ _ _ hr

theorem activate (s : State) (c bank : Nat) : WritesOnly counterRegs s (s.activate c bank) := by
  have hrfm : Reg.MEM_CNT_RFM ∈ counterRegs := by decide
  exact of_ite (refl s) (of_ite ((((setChan ..).trans (bump _ _ _ _ hrfm)).trans (issued ..)).trans (emit ..)) (setChan ..))

theorem issueMed (s : State) (c : Nat) (m : MedCmd) : WritesOnly counterRegs s (s.issueMed c m) := by
  have hopened (d : DramAddr) (e : DramCmd) (t : State) (h : WritesOnly counterRegs s t) :
      WritesOnly counterRegs s (((if m.spec then t else t.count (.slice c) 0x22 1 m.who).issued c e).activate c (bankKey d)) :=
    h.trans (((of_ite (refl t) (count ..)).trans (issued ..)).trans (activate ..))
  have hserved (e : DramCmd) (code : Nat) (t : State) (h : WritesOnly counterRegs s t) :
      WritesOnly counterRegs s (if m.spec then t.issued c e else (t.issued c e).count (.slice c) code 64 m.who) :=
    h.trans ((issued ..).trans (of_ite (refl _) (count ..)))
  exact (hserved _ _ _ (of_ite (refl s) (hopened _ _ _ (of_ite (issued ..) (refl s))))).trans ((setChan ..).trans (emit ..))

theorem slotOf (s : State) (c sc : Nat) : WritesOnly counterRegs s (s.slotOf c sc) := by
  unfold State.slotOf
  dsimp only
  split
  · exact trans (of_regs (by rfl)) (count ..)
  · exact trans (trans (of_ite (refl s) (count ..)) (of_regs (by rfl))) (issueMed ..)

theorem runSlots (c n : Nat) (s : State) : WritesOnly counterRegs s (s.runSlots c n) := by
  induction n generalizing s with
  | zero => exact refl s
  | succ n ih =>
    refine of_ite (trans (of_regs (by rfl)) (count ..)) ?_
    exact trans (trans ((slotOf s c 0).trans (slotOf _ c 1)) (of_regs (by rfl))) (ih _)

theorem tick (s : State) : WritesOnly counterRegs s s.tick :=
  foldl (fun _ _ => of_ite (runSlots ..) (refl _)) _ (t := { s with now := s.now + 1000 }) (of_regs rfl)

theorem countUnlessNone (s : State) (u : PmuUnit) (code n k : Nat) :
    WritesOnly counterRegs s (if n = 0 then s else s.count u code k none) :=
  of_ite (refl s) (count ..)

theorem countCycles (s : State) : WritesOnly counterRegs s s.countCycles := by
  unfold State.countCycles
  dsimp only
  refine trans (foldl ?ports _ (foldl ?clusters _ (foldl ?heads _ (foldl ?slices _ (refl s))))) (countUnlessNone ..)
  case slices => exact fun s n => (countUnlessNone ..).trans (countUnlessNone ..)
  case heads => exact fun s h => (foldl (fun _ _ => count ..) _ (refl s)).trans (countUnlessNone ..)
  case clusters => exact fun s e => countUnlessNone ..
  case ports => exact fun s p => (countUnlessNone ..).trans (countUnlessNone ..)

end WritesOnly

/-! ### The queue, and what passes while it is empty (R98, R341, R391) -/

theorem step_of_pending {s : State} {c : Instr} {rest : List Instr} (h : s.pending = c :: rest) :
    step s = exec c { s with pending := rest } := by
  simp only [step, h]

theorem step_of_idle {s : State} (h : s.pending = []) : step s = .next s.tickLinks := by
  simp only [step, h]

/-- Settles O24: `step` goes by the queue. -/
theorem stepRunsTheFrontCommand : Obligations.StepRunsTheFrontCommand := fun _ _ _ h => step_of_pending h

/-- A port that is up or keying sends an IDLE (R391). -/
def idleOn (s : State) (p : Nat) : State := if s.get .CVN_LINK_STS_STATE p = 4 ∨ s.portUp p then s.sendIdle p else s

theorem tickLinks_eq (s : State) : s.tickLinks = idleOn (idleOn s.countCycles.tick 0) 1 := by
  unfold State.tickLinks
  dsimp only
  generalize s.countCycles.tick = t
  rfl

theorem idleOn_of_up {s : State} {p : Nat} (h : s.portUp p = true) : idleOn s p = s.sendIdle p := if_pos (.inr h)

theorem idleOn_of_silent {s : State} {p : Nat} (h : s.get .CVN_LINK_STS_STATE p ≠ 4 ∧ s.portUp p = false) : idleOn s p = s :=
  if_neg (by simpa using h)

theorem portUp_congr {s t : State} {p : Nat} (h : t.get .CVN_LINK_STS_STATE p = s.get .CVN_LINK_STS_STATE p) : t.portUp p = s.portUp p := by
  rw [State.portUp, State.portUp, h]

theorem portUp_sendIdle (s : State) (p k : Nat) : (s.sendIdle p).portUp k = s.portUp k := portUp_congr rfl

/-- The states of the links stay as they are while time passes. -/
theorem linkState_tick (s : State) (p : Nat) : s.countCycles.tick.get .CVN_LINK_STS_STATE p = s.get .CVN_LINK_STS_STATE p :=
  ((WritesOnly.countCycles s).trans (.tick _)).get_eq _ _ _ (by decide)

/-- A fold whose steps all leave the value it begins with ends with it. -/
theorem foldl_eq_self {α β : Type} {f : α → β → α} {a : α} {l : List β} (h : ∀ b ∈ l, f a b = a) : l.foldl f a = a := by
  induction l with
  | nil => rfl
  | cons b l ih =>
    obtain ⟨hb, hl⟩ := List.forall_mem_cons.mp h
    rw [List.foldl_cons, hb, ih hl]

/-- A fold of whose steps only one changes the value it meets takes that one step. -/
theorem foldl_eq_of_only {α β : Type} {f : α → β → α} {a : α} {c : β} {l : List β} (hnd : l.Nodup) (hc : c ∈ l)
    (hbefore : ∀ b ∈ l, b ≠ c → f a b = a) (hafter : ∀ b ∈ l, b ≠ c → f (f a c) b = f a c) : l.foldl f a = f a c := by
  obtain ⟨pre, post, rfl⟩ := List.append_of_mem hc
  obtain ⟨-, hpost, hdisj⟩ := List.nodup_append.mp hnd
  have hpre : pre.foldl f a = a := foldl_eq_self fun b hb => hbefore b (by simp [hb]) (hdisj b hb c (by simp))
  rw [List.foldl_append, hpre, List.foldl_cons]
  refine foldl_eq_self fun b hb => hafter b (by simp [hb]) ?_
  rintro rfl
  exact (List.nodup_cons.mp hpost).1 hb

/-- A channel in service or in hold serves the slots of 1 µs (R341). -/
def slotsPass (s : State) (c : Nat) : State := if s.chState c = 2 ∨ s.chState c = 4 then s.runSlots c (s.slotsPerUs c) else s

theorem slotsPass_of_serving {s : State} {c : Nat} (h : s.chState c = 2) : slotsPass s c = s.runSlots c (s.slotsPerUs c) := if_pos (.inl h)

theorem slotsPass_of_still {s : State} {c : Nat} (h : s.chState c ≠ 2 ∧ s.chState c ≠ 4) : slotsPass s c = s := if_neg (not_or.mpr h)

/-- The state of a channel is none of what the slots of a channel write. -/
theorem chState_slotsPass (s : State) (c d : Nat) : (slotsPass s c).chState d = s.chState d :=
  (WritesOnly.of_ite (.runSlots ..) (.refl s)).get_eq _ _ _ (by decide)

/-- The clock 1 µs later. -/
def later (s : State) : State := { s with now := s.now + 1000 }

theorem tick_eq (s : State) : s.tick = (List.range 16).foldl slotsPass (later s) := rfl

/-- Settles O25: of the folds over ports and channels only the steps of those that carry traffic change the state, and neither the state of a link
nor that of a channel is among the registers that counting and the slots write. -/
theorem anEmptyQueueLetsTimePass : Obligations.AnEmptyQueueLetsTimePass := by
  unfold Obligations.AnEmptyQueueLetsTimePass
  refine ⟨fun s => step_of_idle, ?noTraffic, ?bothUp, ?noService, ?oneService⟩
  case noTraffic =>
    intro s h
    have hsilent (p : Nat) (hp : p < 2) : idleOn s.countCycles.tick p = s.countCycles.tick := by
      refine idleOn_of_silent ?_
      rw [portUp_congr (linkState_tick s p), linkState_tick]
      exact h p hp
    rw [tickLinks_eq, hsilent 0 (by decide), hsilent 1 (by decide)]
  case bothUp =>
    intro s h0 h1
    have hup (p : Nat) : s.countCycles.tick.portUp p = s.portUp p := portUp_congr (linkState_tick s p)
    rw [tickLinks_eq, idleOn_of_up ((hup 0).trans h0), idleOn_of_up ((portUp_sendIdle ..).trans ((hup 1).trans h1))]
  case noService =>
    intro s h
    rw [tick_eq]
    exact foldl_eq_self fun c hc => slotsPass_of_still (s := later s) (h c (List.mem_range.mp hc))
  case oneService =>
    intro s c hc hserves hstill
    rw [tick_eq, foldl_eq_of_only List.nodup_range (List.mem_range.mpr hc), slotsPass_of_serving (s := later s) hserves]
    · rfl
    · exact fun d hd hne => slotsPass_of_still (s := later s) (hstill d (List.mem_range.mp hd) hne)
    · intro d hd hne
      refine slotsPass_of_still ?_
      rw [chState_slotsPass]
      exact hstill d (List.mem_range.mp hd) hne

/-! ### The sys commands (R102, R103, R577) -/

/-- A request that is served completes with what its body answers, where that is ST_OK. -/
theorem completes_of_served {info : CmdInfo} {q : Req} {bad : Option Nat} {s t u : State} {deny : Option (Nat × Nat)} {body : State → Ans}
    {result len detail : Nat} {out : Output} (h : Served info q bad s t deny) (hbody : body t = okOut u result len out detail) :
    Completes (serve info q bad body s deny) u q result len out detail := by
  rw [Completes, serve_of_served h, hbody, finish_ok]

theorem completes_sysOpStatus {q : Req} {s s₁ : State} {slot : Nat} {o : OpSlot}
    (h : Served { op := 0x0104, priv := 0, mctp := true, fields := [fld 0x10 8] } q (s.handleBad q) s s₁ (s.outOfScope q))
    (hop : s₁.lookOp (par q 0x10 8) = .found slot o) :
    Completes (exec (.sysOpStatus q) s) s₁ q (o.status + o.progress % 128 * 2 ^ 16) 0 [] o.detail :=
  completes_of_served h (by simp only [hop]; rfl)

theorem completes_sysOpCancel {q : Req} {s s₁ : State} {slot : Nat} {o : OpSlot}
    (h : Served { op := 0x0105, priv := 1, mctp := true, fields := [fld 0x10 8] } q (s.handleBad q) s s₁ (s.outOfScope q))
    (hop : s₁.lookOp (par q 0x10 8) = .found slot o) : Completes (exec (.sysOpCancel q) s) (s₁.cancelOp slot o) q :=
  completes_of_served h (by simp only [hop]; rfl)

/-- The pages that an operation still had to visit are dropped. -/
def dropOpPages (s : State) (handle : Nat) : State :=
  { s with pg := { s.pg with opPages := s.pg.opPages.filter (fun x => x.handle != handle) } }

section
variable {o : OpSlot} (s : State) (slot : Nat)

theorem cancelOp_of_done (h : o.running = false ∨ o.ready.isSome = true) : s.cancelOp slot o = s := if_pos h

theorem not_done_of_running (hrun : o.running = true) (hnone : o.ready = none) : ¬(o.running = false ∨ o.ready.isSome = true) := by
  simp [hrun, hnone]

theorem cancelOp_pageWork (hrun : o.running = true) (hnone : o.ready = none) (hkind : o.kind = .tierTwin ∨ ∃ k f, o.kind = .zeroise k f) :
    s.cancelOp slot o = (dropOpPages s (o.seq * 64 + slot)).readyOp slot stAborted 0 0 := by
  unfold State.cancelOp
  rw [if_neg (not_done_of_running hrun hnone)]
  rcases hkind with hk | ⟨k, f, hk⟩ <;> rw [hk] <;> rfl

theorem cancelOp_rotate {k : Nat} (hrun : o.running = true) (hnone : o.ready = none) (hkind : o.kind = .rotate k) :
    s.cancelOp slot o = (s.stopSweep k).sweepEnds k stAborted 0 0 := by
  unfold State.cancelOp
  rw [if_neg (not_done_of_running hrun hnone), hkind]

end

/-- Settles O1: a served request is answered by its body (`completes_of_served`); what a cancellation does goes by the kind of operation. -/
theorem sysCommandsComplete : Obligations.SysCommandsComplete := by
  unfold Obligations.SysCommandsComplete
  refine ⟨?query, ?nop, ?status, ?cancel, ?cancelPages, ?cancelRotate, ?cancelDone, ?timeSync, ?receiver⟩
  case query => exact fun q s s₁ h => completes_of_served h rfl
  case nop => exact fun q s s₁ h => completes_of_served h rfl
  case status => exact fun q s s₁ slot o => completes_sysOpStatus
  case cancel => exact fun q s s₁ slot o => completes_sysOpCancel
  case cancelPages => exact fun s slot o => cancelOp_pageWork s slot
  case cancelRotate => exact fun s slot k o => cancelOp_rotate s slot
  case cancelDone => exact fun s slot o => cancelOp_of_done s slot
  case timeSync => exact fun q s s₁ h => completes_of_served h rfl
  case receiver => exact fun q s s₁ h => completes_of_served h rfl

/-! ### The checks of a request (R86, R88, R92, R97) -/

section
variable {s : State} {info : CmdInfo} {q : Req} {bad : Option Nat}

theorem check_mailbox_closed {h : Fin 8} (ho : q.origin = .mailbox h) (hop : q.opcode = info.op) (hlen : q.payload.length = q.plen)
    (hver : q.hver = 1) (hmbox : info.mbox = false) : s.check info q bad = some (stBadOpcode, 0) := by
  simp [State.check, ho, hop, hlen, hver, hmbox, transport]

theorem check_mctp_closed {e : Fin 256} {st : Bool} {n : Nat} (ho : q.origin = .mctp e st n) (hlen : q.payload.length = q.plen)
    (hver : q.hver = 1) (hmctp : info.mctp = false) : s.check info q bad = some (stBadOpcode, 2) := by
  simp [State.check, ho, hlen, hver, hmctp, transport]

/-- The checks of R86 from step 4 on: the state of the device, then the parameters. -/
def lateCheck (s : State) (info : CmdInfo) (q : Req) (bad : Option Nat) : Option (Nat × Nat) :=
  (s.stateCheck info.op).or ((minOff (minOff (badHeader info q) (reservedAt (info.fields ++ ptrFields q) q)) bad).map fun off => (stBadParam, off))

variable {h : Fin 8} {r : Fin 64} (ho : q.origin = .ring h r)
include ho

theorem check_ring_hver (hver : q.hver ≠ 1) : s.check info q bad = some (stBadParam, 3) := by
  simp [State.check, ho, hver]

theorem check_ring_opcode (hver : q.hver = 1) (hop : opcodes.contains q.opcode = false) : s.check info q bad = some (stBadOpcode, 1) := by
  simp only [State.check, ho, hver, hop, transport]
  rfl

/-- The exception for cfg.load on an unconfigured device is none for a ring. -/
theorem check_ring_priv (hver : q.hver = 1) (hop : opcodes.contains q.opcode = true) (hpriv : s.priv q.origin < info.priv) :
    s.check info q bad = some (stNoPriv, info.priv) := by
  rw [ho] at hpriv
  simp only [State.check, ho, hver, hop, hpriv, onRing, ne_eq, not_true_eq_false, or_self, and_false, not_false_eq_true, and_self, if_false,
    if_true]

/-- A ring's request of no Tenant that passes steps 1 to 3 of R86. -/
theorem check_ring_admitted (hver : q.hver = 1) (hop : opcodes.contains q.opcode = true) (hpriv : info.priv ≤ s.priv q.origin)
    (htenant : s.priv q.origin ≠ 1) : s.check info q bad = lateCheck s info q bad := by
  rw [ho] at hpriv htenant
  simp only [State.check, ho, hver, hop, Nat.not_lt.mpr hpriv, htenant, lateCheck]
  cases s.stateCheck info.op with
  | some e => rfl
  | none => cases minOff (minOff (badHeader info q) (reservedAt (info.fields ++ ptrFields q) q)) bad <;> rfl

end

section
variable {s : State} {info : CmdInfo} {q : Req} {bad : Option Nat}

theorem lateCheck_of_state {e : Nat × Nat} (h : s.stateCheck info.op = some e) : lateCheck s info q bad = some e := by
  rw [lateCheck, h, Option.some_or]

theorem lateCheck_of_params {off : Nat} (hstate : s.stateCheck info.op = none) (hheader : badHeader info q = none)
    (hreserved : reservedAt (info.fields ++ ptrFields q) q = none) : lateCheck s info q (some off) = some (stBadParam, off) := by
  rw [lateCheck, hstate, hheader, hreserved]
  rfl

variable {op : Nat}

theorem stateCheck_halted {seq : Nat} (hhalt : s.halt = some seq) (hop : ¬(op = 0x0700 ∨ op = 0x0D01 ∨ op = 0x0100)) :
    s.stateCheck op = some (stFaulted, seq % 2 ^ 32) := by
  rw [State.stateCheck, hhalt, if_pos ⟨rfl, hop⟩]
  rfl

theorem stateCheck_booting (hhalt : s.halt = none) (hst : s.get .HPT_DEV_STS_STATUS 0 = stPending) (hop : ¬(op = 0x0100 ∨ op = 0x0101)) :
    s.stateCheck op = some (stBusy, 100) := by
  rw [State.stateCheck, hhalt, if_neg (by simp), if_pos ⟨hst, hop⟩]

theorem stateCheck_unconfigured (hhalt : s.halt = none) (hst : s.get .HPT_DEV_STS_STATUS 0 = stCfgInvalid)
    (hop : ¬(op / 256 = 1 ∨ op / 256 = 2 ∨ op / 256 = 0x10 ∨ op / 256 = 0x0D)) : s.stateCheck op = some (stCfgInvalid, s.cause) := by
  rw [State.stateCheck, hhalt, if_neg (by simp), hst, if_neg (fun h => absurd h.1 (by decide)), if_pos ⟨rfl, hop⟩]

end

/-! ### What serving a request can leave (R87, R97, R98) -/

section
variable {s : State} {info : CmdInfo} {q : Req} {bad : Option Nat} {deny : Option (Nat × Nat)} (body : State → Ans)

theorem serve_of_refused {st d : Nat} (hk : s.takes q = true) (hc : (s.asked info q).check info q bad deny = some (st, d)) :
    serve info q bad body s deny = .next ((s.asked info q).reply q st 0 d 0 []) := by
  rw [State.asked] at hc ⊢
  simp only [serve, hk, answer, hc, if_true]

theorem serve_of_not_taken (hk : s.takes q = false) : serve info q bad body s deny = .next s := if_neg (by simp [hk])

theorem serve_of_fifth (hk : s.takes q = true) (hc : (s.asked info q).check info q bad deny = none) (hf : (s.asked info q).fifth q = true) :
    serve info q bad body s deny = .next ((s.asked info q).drawn.reply q stBusy 0 ((s.asked info q).draw % 10000 + 1) 0 []) := by
  rw [State.asked] at hc hf ⊢
  simp only [serve, hk, answer, hc, hf, if_true]

end

/-! ### What a reply changes (R85, R92, R95, R97) -/

/-- From `s` to `t` only registers, what the device has sent, and the heads and their rings changed. -/
def OnlyHostSide (s t : State) : Prop := { t with regs := s.regs, out := s.out, host := s.host } = s

namespace OnlyHostSide

theorem refl (s : State) : OnlyHostSide s s := rfl

theorem trans {s t u : State} (h : OnlyHostSide s t) (k : OnlyHostSide t u) : OnlyHostSide s u := by
  unfold OnlyHostSide at *
  rw [← h, ← k]

theorem of_ite {s t u : State} {c : Prop} [Decidable c] (h : OnlyHostSide s t) (k : OnlyHostSide s u) : OnlyHostSide s (if c then t else u) := by
  split <;> assumption

theorem pyx_eq {s t : State} (h : OnlyHostSide s t) : t.pyx = s.pyx := by
  unfold OnlyHostSide at h
  rw [← h]

theorem emit (s : State) (o : Out) : OnlyHostSide s (s.emit o) := rfl

theorem put (s : State) (r : Reg) (v i j : Nat) : OnlyHostSide s (s.put r v i j) := rfl

theorem setHead (s : State) (h : Nat) (v : HeadSt) : OnlyHostSide s (s.setHead h v) := rfl

theorem setRing (s : State) (h r : Nat) (v : RingSt) : OnlyHostSide s (s.setRing h r v) := rfl

theorem msix (s : State) (h v : Nat) : OnlyHostSide s (s.msix h v) := of_ite (emit ..) (setHead ..)

theorem ringIrq (s : State) (h r : Nat) : OnlyHostSide s (s.ringIrq h r) :=
  of_ite ((setRing ..).trans (msix ..)) (refl s)

theorem writeCqe (s : State) (h r : Nat) (final noirq : Bool) (status tag result detail outlen : Nat) :
    OnlyHostSide s (s.writeCqe h r final noirq status tag result detail outlen) :=
  of_ite (((((emit ..).trans (put ..)).trans (put ..)).trans (setRing ..)).trans (ringIrq ..)) (refl s)

end OnlyHostSide

theorem regs_msix (s : State) (h v : Nat) : (s.msix h v).regs = s.regs := by
  unfold State.msix
  split <;> rfl

theorem regs_ringIrq (s : State) (h r : Nat) : (s.ringIrq h r).regs = s.regs := by
  unfold State.ringIrq
  dsimp only
  split
  · exact regs_msix ..
  · rfl

/-- The registers of a completion ring that an entry moves on (R94). -/
def cqRegs : List Reg := [.HPT_RING_STS_CQTAIL, .HPT_RING_STS_PHASE]

namespace WritesOnly

variable {l : List Reg}

theorem setHead (s : State) (h : Nat) (v : HeadSt) : WritesOnly l s (s.setHead h v) := of_regs rfl

theorem setRing (s : State) (h r : Nat) (v : RingSt) : WritesOnly l s (s.setRing h r v) := of_regs rfl

theorem msix (s : State) (h v : Nat) : WritesOnly l s (s.msix h v) := of_regs (regs_msix ..)

theorem ringIrq (s : State) (h r : Nat) : WritesOnly l s (s.ringIrq h r) := of_regs (regs_ringIrq ..)

theorem writeCqe (hl : cqRegs ⊆ l) (s : State) (h r : Nat) (final noirq : Bool) (status tag result detail outlen : Nat) :
    WritesOnly l s (s.writeCqe h r final noirq status tag result detail outlen) := by
  have htail : Reg.HPT_RING_STS_CQTAIL ∈ l := hl (by decide)
  have hphase : Reg.HPT_RING_STS_PHASE ∈ l := hl (by decide)
  exact of_ite (((((emit ..).trans (put _ _ _ _ htail)).trans (put _ _ _ _ hphase)).trans (setRing ..)).trans (ringIrq ..)) (refl s)

end WritesOnly

theorem onlyReplies_of_onlyHostSide {s t : State} (h : OnlyHostSide s t) :
    { t with regs := s.regs, out := s.out, host := s.host, pyx := s.pyx } = s :=
  congrArg (fun u : State => { u with pyx := s.pyx }) h

section
variable {q : Req} (s : State) (status result detail outlen : Nat) (output : Output)

theorem onlyHostSide_reply_mailbox {h : Fin 8} (ho : q.origin = .mailbox h) : OnlyHostSide s (s.reply q status result detail outlen output) := by
  unfold State.reply
  simp only [ho]
  exact .trans (.trans (.setHead ..) (.emit ..)) (.msix ..)

theorem regs_reply_mailbox {h : Fin 8} (ho : q.origin = .mailbox h) : (s.reply q status result detail outlen output).regs = s.regs := by
  unfold State.reply
  simp only [ho]
  exact regs_msix ..

theorem onlyHostSide_reply_ring {h : Fin 8} {r : Fin 64} (ho : q.origin = .ring h r) :
    OnlyHostSide s (s.reply q status result detail outlen output) := by
  unfold State.reply
  simp only [ho]
  exact .trans (.trans (.of_ite (.refl s) (.emit ..)) (.writeCqe ..)) (.setRing ..)

/-- What a reply to an EID changes: its count of requests outstanding, and what the device has sent. -/
theorem reply_mctp {e : Fin 256} {b : Bool} {n : Nat} (ho : q.origin = .mctp e b n) :
    s.reply q status result detail outlen output =
      { s with
        pyx := { s.pyx with mctp := tputD 0 e.val (tgetD 0 e.val s.pyx.mctp - 1) s.pyx.mctp }
        out := .reply q.origin false status q.tag result detail outlen output :: s.out } := by
  unfold State.reply
  simp only [ho]
  rfl

theorem host_reply_mctp {e : Fin 256} {b : Bool} {n : Nat} (ho : q.origin = .mctp e b n) :
    (s.reply q status result detail outlen output).host = s.host := by
  rw [reply_mctp s _ _ _ _ _ ho]

/-- A reply changes nothing but what the device sends, and what belongs to the transport of its request. -/
theorem reply_onlyReplies (q : Req) : let t := s.reply q status result detail outlen output
    { t with regs := s.regs, out := s.out, host := s.host, pyx := s.pyx } = s := by
  cases ho : q.origin with
  | mailbox h => exact onlyReplies_of_onlyHostSide (onlyHostSide_reply_mailbox s _ _ _ _ _ ho)
  | ring h r => exact onlyReplies_of_onlyHostSide (onlyHostSide_reply_ring s _ _ _ _ _ ho)
  | mctp e b n => simp only [reply_mctp s _ _ _ _ _ ho]

/-- Off the rings a reply writes no register. -/
theorem regs_reply_of_not_onRing (hq : onRing q = false) : (s.reply q status result detail outlen output).regs = s.regs := by
  cases ho : q.origin with
  | mailbox h => exact regs_reply_mailbox s _ _ _ _ _ ho
  | ring h r => simp [onRing, ho] at hq
  | mctp e b n => rw [reply_mctp s _ _ _ _ _ ho]

theorem WritesOnly.reply {l : List Reg} (hl : cqRegs ⊆ l) (q : Req) : WritesOnly l s (s.reply q status result detail outlen output) := by
  cases ho : q.origin with
  | mailbox h => exact of_regs (regs_reply_mailbox s _ _ _ _ _ ho)
  | ring h r =>
    unfold State.reply
    simp only [ho]
    exact .trans (.trans (.of_ite (refl s) (emit ..)) (.writeCqe hl ..)) (setRing ..)
  | mctp e b n => exact of_regs (by rw [reply_mctp s _ _ _ _ _ ho])

end

/-- Settles O33: the outcomes of `serve` (`serve_of_…`), the frame of a reply by its transport, and the checks of R86 in their order. -/
theorem requestChecks : Obligations.RequestChecks := by
  unfold Obligations.RequestChecks
  refine ⟨?refused, ?notTaken, ?fifth, ?reply, ?hver, ?opcode, ?mailbox, ?mctp, ?priv, ?halt, ?boot, ?config, ?params⟩
  case refused =>
    rintro s _ info q bad deny st d body hk rfl hc
    exact serve_of_refused body hk hc
  case notTaken => exact fun s info q bad deny body => serve_of_not_taken body
  case fifth =>
    rintro s _ info q bad deny body hk rfl hc hf
    exact serve_of_fifth body hk hc hf
  case reply =>
    intro s q st res d n out
    refine ⟨reply_onlyReplies s _ _ _ _ _ q, regs_reply_of_not_onRing s _ _ _ _ _, fun h ho => (onlyHostSide_reply_mailbox s _ _ _ _ _ ho).pyx_eq,
      fun e b k ho => host_reply_mctp s _ _ _ _ _ ho, fun r i j htail hphase => ?_⟩
    exact (WritesOnly.reply s _ _ _ _ _ (List.Subset.refl cqRegs) q).get_eq r i j (by simp [cqRegs, htail, hphase])
  case hver => exact fun s info q bad h r => check_ring_hver
  case opcode => exact fun s info q bad h r => check_ring_opcode
  case mailbox => exact fun s info q bad h => check_mailbox_closed
  case mctp => exact fun s info q bad e st n => check_mctp_closed
  case priv => exact fun s info q bad h r ho hver hop hpriv _ => check_ring_priv ho hver hop hpriv
  case halt =>
    intro s info q bad h r seq ho hver hop hpriv htenant hhalt h1 h2 h3
    rw [check_ring_admitted ho hver hop hpriv htenant, lateCheck_of_state (stateCheck_halted hhalt (by simp [h1, h2, h3]))]
  case boot =>
    intro s info q bad h r ho hver hop hpriv htenant hhalt hst h1 h2
    rw [check_ring_admitted ho hver hop hpriv htenant, lateCheck_of_state (stateCheck_booting hhalt hst (by simp [h1, h2]))]
  case config =>
    intro s info q bad h r ho hver hop hpriv htenant hhalt hst h1 h2 h3 h4
    rw [check_ring_admitted ho hver hop hpriv htenant,
      lateCheck_of_state (stateCheck_unconfigured hhalt hst (by simp [h1, h2, h3, h4]))]
  case params =>
    intro s info q h r off ho hver hop hpriv htenant hstate hheader hreserved
    rw [check_ring_admitted ho hver hop hpriv htenant, lateCheck_of_params hstate hheader hreserved]

/-! ### What the end of work writes (R96, R100, R364)

`KeepsLinkState` lets the end of work write every register of a ring; here it matters that it writes no STATE. -/

/-- The registers that the end of an operation or a job may write. -/
def workRegs : List Reg := [.HPT_RING_STS_CQTAIL, .HPT_RING_STS_PHASE, .HPT_PYX_OPDONE_DONE, .JOB_UNIT_CNT_JOBS]

theorem cqRegs_subset_workRegs : cqRegs ⊆ workRegs := by decide

/-- A slot with an operation that ends. -/
def slotEnded (s : State) (o : OpSlot) (status detail result : Nat) : OpSlot :=
  { o with running := false, status := status, detail := detail, result := result, progress := 100, endedAt := s.pyx.ended + 1 }

/-- The slots with one that ends. -/
def withSlotEnded (s : State) (slot : Nat) (o : OpSlot) (status detail result : Nat) : State :=
  { s with pyx := { s.pyx with slots := tput slot (slotEnded s o status detail result) s.pyx.slots, ended := s.pyx.ended + 1 } }

/-- The end of an operation is told to the requester (R100): by the FINAL entry of its ring, by OPDONE and vector 6 of its mailbox, or by a
notification to the event receiver. -/
def tellEnd (s : State) (slot : Nat) (o : OpSlot) (status detail result : Nat) : State :=
  if o.quiet then s
  else match o.origin with
  | .ring h r =>
    if (s.ring h.val r.val).pass ≠ o.pass then s
    else
      let t := s.setRing h.val r.val { s.ring h.val r.val with finals := (s.ring h.val r.val).finals - 1 }
      if t.get .HPT_RING_STS_STATE h.val r.val = 1 then t.writeCqe h.val r.val true false status o.tag result detail 0 else t
  | .mailbox h => (s.put .HPT_PYX_OPDONE_DONE (s.get .HPT_PYX_OPDONE_DONE h.val ||| 2 ^ slot) h.val).msix h.val 6
  | .mctp _ _ _ =>
    match s.pyx.receiver with
    | some (eid, _) => s.emit (.mctpNotify eid 1 (replyImage 0 true status o.tag result detail 0 0 0))
    | none => s

theorem endOp_of_running {s : State} {slot : Nat} {o : OpSlot} (ho : tget slot s.pyx.slots = some o) (hrun : o.running = true)
    (status detail result : Nat) :
    s.endOp slot status detail result = tellEnd (withSlotEnded s slot o status detail result) slot o status detail result := by
  unfold State.endOp
  simp only [ho, hrun, Bool.true_eq_false, if_false]
  generalize hu : withSlotEnded s slot o status detail result = u
  rw [withSlotEnded, slotEnded] at hu
  have hrec : u.pyx.receiver = s.pyx.receiver := by rw [← hu]
  rw [hu, ← hrec]
  unfold tellEnd
  cases o.origin with
  | ring h r => rfl
  | mailbox h => rfl
  | mctp e b n => cases u.pyx.receiver <;> rfl

theorem endOp_of_none {s : State} {slot : Nat} (ho : tget slot s.pyx.slots = none) (status detail result : Nat) :
    s.endOp slot status detail result = s := by
  unfold State.endOp
  simp only [ho]

theorem endOp_of_ended {s : State} {slot : Nat} {o : OpSlot} (ho : tget slot s.pyx.slots = some o) (hrun : o.running = false)
    (status detail result : Nat) : s.endOp slot status detail result = s := by
  unfold State.endOp
  simp only [ho, hrun, if_true]

/-- Telling the end of an operation leaves the slots. -/
theorem onlyHostSide_tellEnd (s : State) (slot : Nat) (o : OpSlot) (status detail result : Nat) :
    OnlyHostSide s (tellEnd s slot o status detail result) := by
  refine .of_ite (.refl s) ?_
  cases o.origin with
  | ring h r => exact .of_ite (.refl s) (.of_ite (.trans (.setRing ..) (.writeCqe ..)) (.setRing ..))
  | mailbox h => exact .trans (.put ..) (.msix ..)
  | mctp e b n => cases s.pyx.receiver <;> rfl

namespace WritesOnly

theorem tellEnd (s : State) (slot : Nat) (o : OpSlot) (status detail result : Nat) :
    WritesOnly workRegs s (tellEnd s slot o status detail result) := by
  have hdone : Reg.HPT_PYX_OPDONE_DONE ∈ workRegs := by decide
  refine .of_ite (.refl s) ?_
  cases o.origin with
  | ring h r => exact of_ite (refl s) (of_ite ((setRing ..).trans (writeCqe cqRegs_subset_workRegs ..)) (setRing ..))
  | mailbox h => exact (put _ _ _ _ hdone).trans (msix ..)
  | mctp e b n => cases s.pyx.receiver <;> exact of_regs rfl

theorem endOp (s : State) (slot status detail result : Nat) : WritesOnly workRegs s (s.endOp slot status detail result) := by
  cases ho : tget slot s.pyx.slots with
  | none => rw [endOp_of_none ho]; exact refl s
  | some o =>
    cases hrun : o.running with
    | false => rw [endOp_of_ended ho hrun]; exact refl s
    | true =>
      rw [endOp_of_running ho hrun]
      exact trans (t := withSlotEnded ..) (of_regs rfl) (tellEnd ..)

theorem removeJob (s : State) (id : Nat) : WritesOnly workRegs s (s.removeJob id) :=
  foldl (fun _ _ => bump _ _ _ _ (by decide)) _ (of_regs (by rfl))

theorem breakSession (s : State) (k : Option Nat) : WritesOnly workRegs s (s.breakSession k) := by
  unfold State.breakSession
  split
  · exact refl s
  · split <;> exact of_regs rfl

theorem finishJob (s : State) (id status result detail : Nat) : WritesOnly workRegs s (s.finishJob id status result detail) := by
  unfold State.finishJob
  split
  · exact refl s
  · rename_i j _
    have hbroken : WritesOnly workRegs s (if status = stOk then s.removeJob id else (s.removeJob id).breakSession j.session) :=
      (removeJob s id).trans (of_ite (refl _) (breakSession ..))
    dsimp only
    generalize (if status = stOk then s.removeJob id else (s.removeJob id).breakSession j.session) = t at hbroken ⊢
    refine hbroken.trans ?_
    split
    · exact endOp ..
    · exact of_ite (refl _) (reply _ _ _ _ _ _ cqRegs_subset_workRegs _)

theorem cutJob (s : State) (id status detail : Nat) : WritesOnly workRegs s (s.cutJob id status detail) := by
  unfold State.cutJob
  split
  · exact refl s
  · exact of_ite (trans (t := s.drawn) (of_regs rfl) (finishJob ..)) (finishJob ..)

theorem endJobs (s : State) (p : Job → Bool) (status : Nat) : WritesOnly workRegs s (s.endJobs p status) :=
  foldl (fun _ _ => cutJob ..) _ (refl s)

end WritesOnly

/-! ### Rings (R94-R96) -/

@[simp] theorem ring_setRing_same (s : State) (h r : Nat) (v : RingSt) : (s.setRing h r v).ring h r = v := tgetD_tput_same ..

/-- A ring that is aborted is DISABLED: what ends with it writes other registers. -/
theorem state_abortRing (s : State) (h r : Nat) : (s.abortRing h r).get .HPT_RING_STS_STATE h r = 0 := by
  have hend (t : State) (p : Job → Bool) : (t.endJobs p stAborted).get .HPT_RING_STS_STATE h r = t.get .HPT_RING_STS_STATE h r :=
    (WritesOnly.endJobs t p stAborted).get_eq _ _ _ (by decide)
  unfold State.abortRing
  dsimp only
  rw [State.setRing_get, State.dropWaiters_get]
  show State.get (State.endJobs _ _ _) _ _ _ = 0
  rw [hend, State.get_put_other _ _ _ _ _ _ (by decide), State.get_put_other _ _ _ _ _ _ (by decide), State.get_put_same]

/-- Nothing of a ring that is aborted is left but its pass. -/
theorem ring_abortRing (s : State) (h r : Nat) : ∃ n, (s.abortRing h r).ring h r = { pass := n } := ⟨_, ring_setRing_same ..⟩

section
variable {s : State} {h : Fin 8} {r : Fin 64}

theorem exec_ringEnable_disabled (hst : s.get .HPT_RING_STS_STATE h.val r.val = 0) :
    exec (.ringEnable h r) s = .next ((((((((s.put .HPT_RING_STS_STATE 1 h.val r.val).put .HPT_RING_STS_SQHEAD 0 h.val r.val).put
      .HPT_RING_STS_CQTAIL 0 h.val r.val).put .HPT_RING_STS_PHASE 1 h.val r.val).put .HPT_RING_CTL_EN 1 h.val r.val).put
      .HPT_SQ_DB_TAIL 0 h.val r.val).muteRing h.val r.val).setRing h.val r.val { pass := (s.ring h.val r.val).pass + 1 }) :=
  if_pos hst

theorem exec_ringDrain_stopped (hst : s.get .HPT_RING_STS_STATE h.val r.val = 2) :
    exec (.ringDrain h r) s = .next (((s.put .HPT_RING_CTL_EN 0 h.val r.val).put .HPT_RING_STS_STATE 0 h.val r.val).put
      .HPT_RING_STS_STOPST 0 h.val r.val) := by
  show execRingDrain h r s = _
  simp only [execRingDrain, hst]
  rfl

/-- A ring that drains: its entries that have not started are given back. -/
def entriesGivenBack (s : State) (h r : Nat) : State :=
  ((s.put .HPT_RING_CTL_EN 0 h r).put .HPT_RING_STS_SQHEAD ((s.ring h r).fetched.headD (s.get .HPT_RING_STS_SQHEAD h r)) h r).setRing h r
    { s.ring h r with fetched := [], fetching := 0 }

theorem exec_ringDrain_running (hst : s.get .HPT_RING_STS_STATE h.val r.val = 1) :
    exec (.ringDrain h r) s = .next (((entriesGivenBack s h.val r.val).abandonReads h.val (fun u => decide (u = .entries r.val))).put
      .HPT_RING_STS_STATE 3 h.val r.val) := by
  show execRingDrain h r s = _
  simp only [execRingDrain, hst, if_true, entriesGivenBack]
  rw [State.get_put_other _ _ _ _ _ _ (by decide)]
  rfl

/-- What a read serves belongs to a ring. -/
def ofRing (r : Nat) : TagUse → Bool
  | .entries k => k == r
  | .payload k _ => k == r
  | .job _ => false

theorem exec_ringAbort (s : State) (h : Fin 8) (r : Fin 64) :
    exec (.ringAbort h r) s = .next ((s.abortRing h.val r.val).abandonReads h.val (ofRing r.val)) := by
  show execRingAbort h r s = _
  rfl

theorem exec_sqDoorbell (s : State) (h : Fin 8) (r : Fin 64) (tail : Fin 65536) :
    exec (.sqDoorbell h r tail) s =
      if s.get .HPT_RING_STS_STATE h.val r.val ≠ 1 then .next (s.put .HPT_SQ_DB_TAIL tail.val h.val r.val)
      else if s.sqSize h.val r.val ≤ tail.val then .next ((s.put .HPT_SQ_DB_TAIL tail.val h.val r.val).stopRing h.val r.val stBadParam)
      else .next ((s.put .HPT_SQ_DB_TAIL tail.val h.val r.val).fetch h.val r.val) := by
  show execSqDoorbell h r tail s = _
  simp only [execSqDoorbell, State.sqSize, State.get_put_other _ _ _ _ _ _ (show Reg.HPT_SQ_DB_TAIL ≠ .HPT_RING_STS_STATE by decide),
    State.get_put_other _ _ _ _ _ _ (show Reg.HPT_SQ_DB_TAIL ≠ .HPT_RING_CFG_SQLOG2 by decide)]
  rfl

/-- Completion entries that HEAD leaves unreleased. -/
def leftBehind (s : State) (h r head : Nat) : Nat := (s.get .HPT_RING_STS_CQTAIL h r + s.cqSize h r - head) % s.cqSize h r

theorem exec_cqDoorbell (s : State) (h : Fin 8) (r : Fin 64) (head : Fin 65536) :
    exec (.cqDoorbell h r head) s =
      let t := s.put .HPT_CQ_DB_HEAD head.val h.val r.val
      let st := s.get .HPT_RING_STS_STATE h.val r.val
      if st = 0 ∨ st = 2 then .next t
      else if s.cqSize h.val r.val ≤ head.val ∨ (s.ring h.val r.val).unreleased < leftBehind s h.val r.val head.val then
        (if st = 1 then .next (t.stopRing h.val r.val stBadParam) else .next t)
      else .next (t.setRing h.val r.val { s.ring h.val r.val with unreleased := leftBehind s h.val r.val head.val }) := by
  show execCqDoorbell h r head s = _
  simp only [execCqDoorbell, leftBehind, State.cqSize,
    State.get_put_other _ _ _ _ _ _ (show Reg.HPT_CQ_DB_HEAD ≠ .HPT_RING_STS_STATE by decide),
    State.get_put_other _ _ _ _ _ _ (show Reg.HPT_CQ_DB_HEAD ≠ .HPT_RING_STS_CQTAIL by decide),
    State.get_put_other _ _ _ _ _ _ (show Reg.HPT_CQ_DB_HEAD ≠ .HPT_RING_CFG_CQLOG2 by decide)]
  rfl

/-- The reads that RING_ENTRY_FETCH may complete: those of entries, or those of payloads, of a ring. -/
def fetchOf (r : Nat) (payload : Bool) : TagUse → Bool
  | .entries k => !payload && k == r
  | .payload k _ => payload && k == r
  | .job _ => false

theorem fetchOf_entries (r : Nat) (u : TagUse) : fetchOf r false u = decide (u = .entries r) := by
  cases u with
  | entries k => rw [Bool.eq_iff_iff, decide_eq_true_iff, TagUse.entries.injEq]; exact beq_iff_eq
  | payload k ix => exact (decide_eq_false TagUse.noConfusion).symm
  | job j => exact (decide_eq_false TagUse.noConfusion).symm

/-- A command whose payload did not come is dropped (R72). -/
def dropWithoutPayload (s : State) (h : Nat) : TagUse → State
  | .payload k ix => s.dropStarted h k ix
  | _ => s

section
variable {t : Nat} {u : TagUse} {payload : Bool} (htag : s.ringTag h.val (fetchOf r.val payload) = some (t, u))
include htag

theorem exec_ringEntryFetch_done :
    exec (.ringEntryFetch h r payload false) s = .next (((s.freeTag h.val t).readDone h.val u).refetch h.val) := by
  show execRingEntryFetch h r payload false s = _
  unfold execRingEntryFetch
  split
  next hnone => cases htag.symm.trans hnone
  next hsome => cases htag.symm.trans hsome; rfl

theorem exec_ringEntryFetch_failed : exec (.ringEntryFetch h r payload true) s =
    .next ((stopIfRunning (dropWithoutPayload (s.freeTag h.val t) h.val u) h.val r.val stFaulted).refetch h.val) := by
  show execRingEntryFetch h r payload true s = _
  unfold execRingEntryFetch
  split
  next hnone => cases htag.symm.trans hnone
  next hsome =>
    cases htag.symm.trans hsome
    cases u <;> rfl

end

theorem stopIfRunning_of_running {st : Nat} (hst : s.get .HPT_RING_STS_STATE h.val r.val = 1) :
    stopIfRunning s h.val r.val st = s.stopRing h.val r.val st := if_pos hst

/-- The read of entries of a ring is the one that its RING_ENTRY_FETCH completes. -/
theorem ringTag_entries {t : Nat} (hfind : (s.head h.val).tags.find? (fun x => decide (x.2 = .entries r.val)) = some (t, .entries r.val)) :
    s.ringTag h.val (fetchOf r.val false) = some (t, .entries r.val) := by
  simp only [State.ringTag, fetchOf_entries, hfind]

theorem ringTag_payload {t ix : Nat} (htags : (s.head h.val).tags = [(t, .payload r.val ix)]) :
    s.ringTag h.val (fetchOf r.val true) = some (t, .payload r.val ix) := by
  simp [State.ringTag, htags, fetchOf]

/-- The oldest fetched entry of a ring starts; it waits for its payload where it has one. -/
def startOldest (s : State) (rg : RingSt) (h r : Nat) (fence wait : Bool) : State :=
  s.setRing h r { rg with
    fetched := rg.fetched.drop 1, inFlight := rg.inFlight + 1, fenced := fence
    started := rg.started ++ [{ ix := rg.fetched.headD 0, fence := fence, wait := wait }] }

theorem exec_ringCommandStart_bare {fence : Bool} (hmay : s.mayStart h.val r.val fence = true) :
    exec (.ringCommandStart h r fence none) s = .next (startOldest s (s.ring h.val r.val) h.val r.val fence false) := if_pos hmay

theorem exec_ringCommandStart_payload {t : State} {fence : Bool} {addr len : Nat} (hmay : s.mayStart h.val r.val fence = true)
    (hread : s.issueRead h.val addr len (.payload r.val ((s.ring h.val r.val).fetched.headD 0)) = some t) :
    exec (.ringCommandStart h r fence (some (addr, len))) s = .next (startOldest t (s.ring h.val r.val) h.val r.val fence true) := by
  show execRingCommandStart h r fence (some (addr, len)) s = _
  simp only [execRingCommandStart, hmay, if_true, hread]
  rfl

end

/-- Settles O46: a clause for each command, by what the command does in the case of the clause (`exec_…`), and for RING_ABORT by what an abort
leaves of its ring (`…_abortRing`). -/
theorem ringStates : Obligations.RingStates := by
  unfold Obligations.RingStates
  refine ⟨?enable, ?drainRunning, ?drainStopped, ?drainDone, ?abort, ?sqIdle, ?sqBeyond, ?sqGood, ?cqGood, ?cqBeyond, ?entries, ?entriesFailed,
    ?payload, ?startBare, ?startPayload, ?opdone, ?coalesce⟩
  case enable => exact fun s h r => exec_ringEnable_disabled
  case drainRunning =>
    rintro s _ h r hst rfl
    exact exec_ringDrain_running hst
  case drainStopped => exact fun s h r => exec_ringDrain_stopped
  case drainDone => exact fun s h r hst hidle => if_pos ⟨hst, hidle⟩
  case abort =>
    intro s h r
    obtain ⟨n, hring⟩ := ring_abortRing s h.val r.val
    rw [hring]
    exact ⟨exec_ringAbort s h r, state_abortRing s h.val r.val, rfl, rfl⟩
  case sqIdle =>
    intro s h r tail hst
    rw [exec_sqDoorbell, if_pos hst]
  case sqBeyond =>
    intro s h r tail hst hbeyond
    rw [exec_sqDoorbell, if_neg (not_not_intro hst), if_pos hbeyond]
  case sqGood =>
    intro s h r tail hst hlt
    rw [exec_sqDoorbell, if_neg (not_not_intro hst), if_neg (Nat.not_le.mpr hlt)]
  case cqGood =>
    rintro s h r head _ hst hlt rfl hleft
    have hgood : ¬(s.cqSize h.val r.val ≤ head.val ∨ (s.ring h.val r.val).unreleased < leftBehind s h.val r.val head.val) :=
      not_or.mpr ⟨Nat.not_le.mpr hlt, Nat.not_lt.mpr hleft⟩
    rw [exec_cqDoorbell]
    dsimp only
    rw [if_neg (by omega), if_neg hgood, leftBehind]
  case cqBeyond =>
    intro s h r head hst hbeyond
    rw [exec_cqDoorbell]
    dsimp only
    rw [if_neg (by omega), if_pos (.inl hbeyond), if_pos hst]
  case entries => exact fun s h r t hfind => exec_ringEntryFetch_done (ringTag_entries hfind)
  case entriesFailed =>
    intro s h r t hfind hst
    rw [exec_ringEntryFetch_failed (ringTag_entries hfind)]
    exact congrArg (fun u : State => Host.Outcome.next (u.refetch h.val)) (stopIfRunning_of_running (s := s.freeTag h.val t) hst)
  case payload =>
    intro s h r t ix htags hst
    refine ⟨exec_ringEntryFetch_done (ringTag_payload htags), ?_⟩
    rw [exec_ringEntryFetch_failed (ringTag_payload htags)]
    exact congrArg (fun u : State => Host.Outcome.next (u.refetch h.val))
      (stopIfRunning_of_running (s := (s.freeTag h.val t).dropStarted h.val r.val ix) hst)
  case startBare => exact fun s h r fence => exec_ringCommandStart_bare
  case startPayload => exact fun s t h r fence addr len => exec_ringCommandStart_payload
  case opdone => exact fun s h mask => rfl
  case coalesce => exact fun s h r hirq hpos => if_pos ⟨hirq, hpos⟩

/-! ### The ends of operations (R100, R420, R545) -/

/-- An operation that ends stays readable in its slot. -/
theorem slots_endOp {s : State} {slot : Nat} {o : OpSlot} (ho : tget slot s.pyx.slots = some o) (hrun : o.running = true)
    (status detail result : Nat) :
    tget slot (s.endOp slot status detail result).pyx.slots = some (slotEnded s o status detail result) := by
  rw [endOp_of_running ho hrun, (onlyHostSide_tellEnd ..).pyx_eq]
  exact tget_tput_same ..

section
variable {s : State} {k : Fin 64} {o : OpSlot} {st d res p ks sw c : Nat} (ho : tget k.val s.pyx.slots = some o) (hrun : o.running = true)
include ho hrun

theorem exec_operationEnd_ready (hready : o.ready = some (st, d, res)) (hkind : o.kind ≠ .fwActivate) :
    exec (.operationEnd k) s = .next (s.endOp k.val st d res) := by
  show execOperationEnd k s = _
  simp only [execOperationEnd, ho, hready, hrun, hkind, if_true, and_false, if_false]

variable (hready : o.ready = none)
include hready

theorem exec_operationEnd_cfgLoad (hkind : o.kind = .cfgLoad) :
    exec (.operationEnd k) s = .next (s.endOp k.val stOk 0 0).cfgWritten := by
  show execOperationEnd k s = _
  simp only [execOperationEnd, ho, hready, hrun, hkind]

theorem exec_operationEnd_linkUp (hkind : o.kind = .linkUp p 0) (hdue : o.at' + 1000000000 ≤ s.now) :
    exec (.operationEnd k) s = .next (s.endOp k.val stTimeout (s.get .CVN_LINK_STS_STATE p) 0) := by
  show execOperationEnd k s = _
  simp only [execOperationEnd, ho, hready, hrun, hkind, if_pos hdue]

theorem exec_operationEnd_zeroise (hkind : o.kind = .zeroise ks sw) :
    exec (.operationEnd k) s = .next ((s.zeroSweep ks).endOp k.val stOk 0 0) := by
  show execOperationEnd k s = _
  simp only [execOperationEnd, ho, hready, hrun, hkind]

theorem exec_operationEnd_fwActivate (hkind : o.kind = .fwActivate) (hrom : s.isSet .GLB_BOOT_STS_ROMREC = false)
    (hnext : s.passCluster.nextCluster (s.passCluster.get .GLB_FW_STS_CLUSTER + 1) = some c) :
    exec (.operationEnd k) s = .next (s.passCluster.startCluster c) := by
  show execOperationEnd k s = _
  simp only [execOperationEnd, ho, hready, hrun, hkind, hrom, Bool.false_eq_true, if_false, hnext]

end

/-- Settles O36: a clause for each way an operation goes on or ends (`exec_operationEnd_…`), and that telling its end leaves its slot
(`slots_endOp`). -/
theorem operationsEnd : Obligations.OperationsEnd := by
  unfold Obligations.OperationsEnd
  refine ⟨?ready, ?cfgLoad, ?linkUp, ?zeroise, ?fwActivate⟩
  case ready =>
    rintro s _ k o st d res ho hrun hready hkind rfl
    exact ⟨exec_operationEnd_ready ho hrun hready hkind, _, slots_endOp ho hrun st d res, rfl, rfl, rfl, rfl, rfl, rfl⟩
  case cfgLoad => exact fun s k o => exec_operationEnd_cfgLoad
  case linkUp => exact fun s k o p => exec_operationEnd_linkUp
  case zeroise => exact fun s k o ks sw => exec_operationEnd_zeroise
  case fwActivate => exact fun s k o c => exec_operationEnd_fwActivate

end Sys2Proof.Proofs.Pyryx

/-!
PROOFS of the statements of the translation chapter: the state after reset (R131, R541), contexts, flushes, queries and Dynamic Capacity
(R65, R133-R138, R143, R144, R554), Table pages (R126, R255, R270, R311), and the requests of agents (R108, R147-R159, R174, R426).
-/
namespace Sys2Proof.Proofs.Translation
open Sys2Proof Sys2Proof.Machine Sys2Proof.Proofs.Architecture Sys2Proof.Proofs.Pyryx

/-! ### The state after reset (R131, R541) -/

/-- Settles O27: nothing is listed at reset, so every canonical form holds of an empty list, and start-up is in its first phase. -/
theorem resetMeetsTheInvariant : Obligations.ResetMeetsTheInvariant := ⟨rfl, rfl, .nil, Nat.zero_le 3⟩

/-! ### How a served request is answered (R87, R100, R311) -/

section
variable {info : CmdInfo} {q : Req} {bad : Option Nat} {s t u : State} {deny : Option (Nat × Nat)} {body : State → Ans}
  (h : Served info q bad s t deny)
include h

theorem refused_of_served {status detail : Nat} (hbody : body t = refuse t status detail) :
    Refused (serve info q bad body s deny) t q status detail := by
  rw [Refused, serve_of_served h, hbody, finish_refuse]

theorem starts_of_served {k : OpKind} (hbody : body t = pend u k) (hfree : t.freeSlot.isSome = true) :
    Starts (serve info q bad body s deny) t u q k := by
  obtain ⟨slot, hslot⟩ := Option.isSome_iff_exists.mp hfree
  exact ⟨slot, hslot, by rw [serve_of_served h, hbody, finish_pend _ _ _ _ _ hslot]⟩

end

/-! ### Flushes (R134, R135, R138) -/

/-- What ends with a flush: the one of `seg.ctx_destroy` disables its context. -/
def flushEnds (s : State) (w : Waiting) : State := if w.kind = 7 then (s.put .XLT_CTX_CFG_EN 0 w.req.tc.val).regrant s else s

/-- A flush that finds a slot free and no access unaccepted is over at once. -/
theorem runFlush_at_once {s : State} {w : Waiting} (hnew : w.started = false) (hslot : s.flushesOn < 16) (hnone : s.unaccepted = []) :
    s.runFlush w = ok (flushEnds (s.flushDone w) w).showFlush := by
  simp only [State.runFlush, hnew, hslot, hnone, decide_true, Bool.or_true, Bool.false_eq_true, not_true_eq_false, or_self, if_false,
    List.filter_nil, if_true]
  rfl

theorem flushEnds_of_ne {s : State} {w : Waiting} (hkind : w.kind ≠ 7) : flushEnds s w = s := if_neg hkind

/-- A command that does no more than flush. -/
theorem takeOrWait_flush {s : State} {q : Req} {kind : Nat} (hkind : kind = 4 ∨ kind = 5 ∨ kind = 6) (hslot : s.flushesOn < 16)
    (hnone : s.unaccepted = []) : s.takeOrWait kind q = okOut (s.flushDone { kind := kind, req := q }).showFlush 0 0 [] := by
  have hrun := runFlush_at_once (s := s) (w := { kind := kind, req := q }) rfl hslot hnone
  rw [flushEnds_of_ne (by simp; omega)] at hrun
  rw [State.takeOrWait, State.runWait, if_neg (by simp; omega), if_neg (by simp; omega), hrun]
  rfl

/-! ### What leaves the pages as they are -/

/-- From `s` to `t` the pages, their content and all that is kept of moves stay as they are. -/
def KeepsPages (s t : State) : Prop := t.pg = s.pg

namespace KeepsPages

theorem refl (s : State) : KeepsPages s s := rfl

theorem trans {s t u : State} (h : KeepsPages s t) (k : KeepsPages t u) : KeepsPages s u := Eq.trans k h

theorem of_ite {s t u : State} {c : Prop} [Decidable c] (h : KeepsPages s t) (k : KeepsPages s u) : KeepsPages s (if c then t else u) := by
  split <;> assumption

theorem foldl {β : Type} {f : State → β → State} (hf : ∀ s x, KeepsPages s (f s x)) (l : List β) (s : State) : KeepsPages s (l.foldl f s) := by
  induction l generalizing s with
  | nil => exact refl s
  | cons x l ih => exact (hf s x).trans (ih _)

theorem of_onlyRegs {s t : State} (h : OnlyRegs s t) : KeepsPages s t := by
  unfold OnlyRegs at h
  unfold KeepsPages
  rw [← h]

theorem of_onlyHostSide {s t : State} (h : OnlyHostSide s t) : KeepsPages s t := by
  unfold OnlyHostSide at h
  unfold KeepsPages
  rw [← h]

theorem put (s : State) (r : Reg) (v i j : Nat) : KeepsPages s (s.put r v i j) := rfl

theorem bump (s : State) (r : Reg) (cap i j : Nat) : KeepsPages s (s.bump r cap i j) := rfl

theorem emit (s : State) (o : Out) : KeepsPages s (s.emit o) := rfl

theorem disable (s : State) (src : Nat) : KeepsPages s (s.disable src) := rfl

theorem setHead (s : State) (h : Nat) (v : HeadSt) : KeepsPages s (s.setHead h v) := rfl

theorem setRecs (s : State) (t : Tab FltRec) : KeepsPages s (s.setRecs t) := rfl

theorem count (s : State) (u : PmuUnit) (code k : Nat) (a : Option Attr) : KeepsPages s (s.count u code k a) := of_onlyRegs (count_onlyRegs ..)

theorem msix (s : State) (h v : Nat) : KeepsPages s (s.msix h v) := of_onlyHostSide (.msix ..)

/-! The collector of faults (R439-R459) -/

theorem logCxl (s : State) (h log : Nat) (rc : CxlRec) : KeepsPages s (s.logCxl h log rc) :=
  of_ite (setHead ..) (of_ite ((setHead ..).trans (msix ..)) (setHead ..))

theorem logAll (log : Nat) (rc : CxlRec) (l : List Nat) (s : State) : KeepsPages s (s.logAll log rc l) := by
  induction l generalizing s with
  | nil => exact refl s
  | cons h l ih => exact (logCxl ..).trans (ih _)

theorem markEvac (s : State) (c : Nat) : KeepsPages s (s.markEvac c) :=
  of_ite (put ..) (of_ite rfl rfl)

theorem askLowest (s : State) (c : Nat) : KeepsPages s (s.askLowest c) := by
  unfold State.askLowest
  split <;> rfl

theorem fewEngines (s : State) (cluster : Nat) : KeepsPages s (s.fewEngines cluster) :=
  of_ite (t := { s.countEngines with due := _ }) (by rfl) (by rfl)

theorem reloadFields (s : State) (m : Msg) : KeepsPages s (s.reloadFields m) :=
  foldl (f := fun (u : State) (x : RegKey × Nat) => u.put x.1.r x.2 x.1.i x.1.j) (fun _ _ => put ..) (tgetD [] (srcId m) s.flt.reload) s

theorem escalate (s : State) (m : Msg) : KeepsPages s (s.escalate m) := by
  unfold State.escalate
  split
  · exact of_ite (askLowest ..) (markEvac ..)
  · exact markEvac ..
  · exact markEvac ..
  · exact of_ite (emit ..) (disable ..)
  · exact of_ite (emit ..) (disable ..)
  · exact of_ite (put ..) (disable ..)
  · exact of_ite ((foldl (fun _ _ => put ..) _ _).trans (fewEngines ..)) ((put ..).trans (fewEngines ..))
  · exact disable ..
  · exact of_ite (reloadFields ..) (of_ite (put ..) (disable ..))
  · exact reloadFields ..
  · exact disable ..

theorem orderEscalation (s : State) (m : Msg) (direct : Bool) (seq why : Nat) (r : Option FltRec) :
    KeepsPages s (s.orderEscalation m direct seq why r) :=
  (of_ite (refl s) (escalate ..)).trans (logAll ..)

theorem mirror (s : State) (r : FltRec) (k : Mirror) : KeepsPages s (s.mirror r k) := by
  refine of_ite (refl s) ?_
  cases k with
  | std => exact logAll ..
  | poison h dpa => exact logCxl ..
  | xlat h dpa b => exact logCxl ..
  | alarm a b c => exact logAll ..
  | media a => exact logAll ..
  | toHead h => exact logCxl ..

theorem then_ite {s t u : State} {c : Prop} [Decidable c] (h : KeepsPages s t) (k : KeepsPages t u) : KeepsPages s (if c then u else t) :=
  of_ite (h.trans k) h

/-- Taking a message changes records, registers, logs and what the escalation steps touch, but no page. -/
theorem collect (s : State) (m : Msg) (k : Mirror) (direct : Bool) : KeepsPages s (s.collect m k direct).1 := by
  unfold State.collect
  split
  · exact setRecs ..
  split
  split
  · exact setRecs ..
  split
  · split
    · extract_lets dropped noted
      have hnoted : KeepsPages dropped noted := of_ite ((put ..).trans (put ..)) (refl _)
      exact (bump ..).trans (hnoted.trans (bump ..))
    · exact then_ite (bump ..) (orderEscalation ..)
  · extract_lets seq second timer r numbered overwritten ended escalated recorded _ ringed mirrored
    have hnumbered : KeepsPages s numbered := put ..
    have hoverwritten : KeepsPages s overwritten := hnumbered.then_ite (bump ..)
    have hended : KeepsPages s ended := by
      refine hoverwritten.trans ?_
      unfold ended
      split
      · exact of_ite (orderEscalation ..) (refl _)
      · exact refl _
    have hescalated : KeepsPages s escalated := by
      refine hended.trans ?_
      unfold escalated
      clear_value second
      split
      · exact setRecs ..
      · exact refl _
    have hrecorded : KeepsPages s recorded := hescalated.trans (setRecs ..)
    have hringed : KeepsPages s ringed := hrecorded.then_ite rfl
    have hmirrored : KeepsPages s mirrored := hringed.trans (mirror ..)
    exact hmirrored.then_ite (orderEscalation ..)

theorem collectAll (l : List Msg) (s : State) : KeepsPages s (s.collectAll l) := by
  induction l generalizing s with
  | nil => exact refl s
  | cons m l ih => exact (collect ..).trans (ih _)

theorem afterSteps (s : State) : KeepsPages s s.afterSteps := trans (t := { s with due := [] }) rfl (collectAll ..)

theorem report (s : State) (m : Msg) : KeepsPages s (s.report m) := by
  have hcounted : KeepsPages s (s.count .global 0x06 1 none) := count ..
  unfold State.report State.reportK
  generalize s.count .global 0x06 1 none = t at hcounted ⊢
  have hfirst := hcounted.trans (collect t m .std false)
  dsimp only
  split
  next heq =>
    rw [heq] at hfirst
    exact (hfirst.trans (collect ..)).trans (afterSteps _)
  next heq =>
    rw [heq] at hfirst
    exact hfirst.trans (afterSteps _)

theorem notify (s : State) (a b c : Nat) (r : Option FltRec) : KeepsPages s (s.notify a b c r) := by
  unfold State.notify
  extract_lets logged signalled
  have hsignalled : KeepsPages s signalled := (logAll ..).trans (foldl (fun _ _ => msix ..) _ _)
  split
  · exact hsignalled.trans (emit ..)
  · exact hsignalled

theorem reportNotify (s : State) (m : Msg) (a b c : Nat) : KeepsPages s (s.reportNotify m a b c) := by
  unfold State.reportNotify
  exact (report ..).trans (notify ..)

/-! The account of a page (R254-R266) -/

theorem repress (s : State) : KeepsPages s s.repress := by
  unfold State.repress
  extract_lets us need short free cur was lvl shown told
  have hshown : KeepsPages s shown := (put ..).trans (put ..)
  have htold : KeepsPages s told := hshown.then_ite (report ..)
  split
  · exact htold
  · exact (htold.trans (put ..)).trans (reportNotify ..)

theorem addUse (s : State) (a plus minus popPlus popMinus : Nat) : KeepsPages s (s.addUse a plus minus popPlus popMinus) := by
  unfold State.addUse
  extract_lets r0 used counted total reserved
  have hcounted : KeepsPages s counted := trans (t := used) (put ..) (put ..)
  have hreserved : KeepsPages s reserved := hcounted.trans (trans (t := total) (put ..) (put ..))
  exact hreserved.trans (repress _)

theorem page_eq {s t : State} (h : KeepsPages s t) (lpn : Nat) : t.page lpn = s.page lpn := by rw [State.page, State.page, h]

end KeepsPages

/-! ### Table pages (R143, R144, R270) -/

@[simp] theorem page_putPage_same (s : State) (lpn : Nat) (p : Page) : (s.putPage lpn p).page lpn = p := tgetD_tputD_same ..

theorem page_setPage_same (s : State) (lpn : Nat) (p : Page) : (s.setPage lpn p).page lpn = p := by
  unfold State.setPage
  dsimp only
  split
  · exact page_putPage_same ..
  · rw [(KeepsPages.addUse ..).page_eq, page_putPage_same]

/-- The tag-pointer is all that a page's tag table changes of it. -/
theorem pl_giveTags {s t : State} {lpn hint : Nat} {avoid : List Nat} (h : s.giveTags lpn hint avoid = some t) :
    (t.page lpn).pl = (s.page lpn).pl := by
  unfold State.giveTags at h
  dsimp only at h
  split at h
  · obtain ⟨a, -, rfl⟩ := Option.map_eq_some_iff.mp h
    rw [page_putPage_same]
  · cases h
    rw [page_putPage_same]

theorem page_joinSlot (s : State) (ks l : Nat) : (s.joinSlot ks).page l = s.page l := rfl

theorem page_putCtrs (lpn ks v n : Nat) (s : State) (l : Nat) : (s.putCtrs lpn ks v n).page l = s.page l := by
  have hone (t : State) (k : Nat) : (t.putCtr lpn k ks v).page l = t.page l := by
    unfold State.putCtr
    dsimp only
    split <;> rfl
  induction n with
  | zero => rfl
  | succ n ih => rw [State.putCtrs, hone, ih]

/-- An image that is placed for a Table page has its local twin (R126). -/
theorem pl_giveImage_table {s t : State} {lpn fritVer want hint : Nat} {pl : Place} {segs : List Seg} {avoid : List Nat}
    (htable : pl.tier = 5) (h : s.giveImage lpn pl segs fritVer 1 want hint avoid = some t) :
    (t.page lpn).pl.tier = 5 ∧ (t.page lpn).pl.twk = 1 := by
  unfold State.giveImage at h
  split at h
  · cases h
  extract_lets owned written raw tn at h
  split at h
  rename_i u pl' tw heq
  simp only at heq
  split at heq <;> cases heq
  · rw [if_neg (by simp)] at h
    obtain ⟨v, htags, rfl⟩ := Option.map_eq_some_iff.mp h
    rw [if_neg (by simp), pl_giveTags htags, page_setPage_same]
    exact ⟨htable, rfl⟩
  · rw [if_pos (by simp [htable])] at h
    cases h

theorem pl_tablePage {s t : State} {lpn : Nat} (h : s.tablePage lpn = some t) : (t.page lpn).pl.tier = 5 ∧ (t.page lpn).pl.twk = 1 := by
  unfold State.tablePage at h
  extract_lets account ks at h
  rw [Option.ite_none_left_eq_some] at h
  obtain ⟨-, h⟩ := h
  split at h
  rw [Option.ite_none_left_eq_some] at h
  obtain ⟨-, h⟩ := h
  extract_lets pl at h
  split at h
  · cases h
  next hgiven =>
    rw [Option.ite_none_right_eq_some] at h
    obtain ⟨-, h⟩ := h
    cases h
    rw [page_joinSlot, page_putCtrs]
    exact pl_giveImage_table rfl hgiven

/-! ### Allocating and freeing pages (R138, R143, R144, R311) -/

/-- Zero pages whose key slots are active pass both checks of `seg.alloc`. -/
theorem all_zero_and_active {s : State} {l : List Nat} (hzero : ∀ p ∈ l, s.tier p = 0 ∧ s.slotActive (s.slotFor p) = true) :
    l.findIdx? (fun p => s.tier p != 0) = none ∧ l.any (fun p => !s.slotActive (s.slotFor p)) = false :=
  ⟨List.findIdx?_eq_none_iff.mpr fun p hp => by simp [(hzero p hp).1], List.any_eq_false.mpr fun p hp => by simp [(hzero p hp).2]⟩

section
variable {q : Req} {s s₁ u : State}

section
variable (h : Served { op := 0x0306, priv := 1, ctx := 1, fields := rangeFields } q (firstBad (s.rangeChecks q)) s s₁
  (s.lpnDeny q (firstLpn q) (pageCount q)))
include h

theorem refused_segAlloc_not_zero {i : Nat} (hfind : (pagesOf q).findIdx? (fun p => s₁.tier p != 0) = some i) :
    Refused (exec (.segAlloc q) s) s₁ q stStale i :=
  refused_of_served h (by simp only [hfind])

variable (hzero : ∀ p ∈ pagesOf q, s₁.tier p = 0 ∧ s₁.slotActive (s₁.slotFor p) = true)
include hzero

theorem completes_segAlloc (hmade : s₁.tablePages (pagesOf q) = some u) : Completes (exec (.segAlloc q) s) u q := by
  obtain ⟨hfind, hkeys⟩ := all_zero_and_active hzero
  exact completes_of_served h (by simp only [hfind, hkeys, hmade]; rfl)

theorem refused_segAlloc_full (hmade : s₁.tablePages (pagesOf q) = none) : Refused (exec (.segAlloc q) s) s₁ q stNoSpace 0 := by
  obtain ⟨hfind, hkeys⟩ := all_zero_and_active hzero
  exact refused_of_served h (by simp only [hfind, hkeys, hmade]; rfl)

end

/-- A command that takes pages recalls them all, and runs at once where none of them is held. -/
theorem runPages_of_free {w : Waiting} (hkind : w.kind ≠ 1) (hfree : ∀ p ∈ pagesOf w.req, (s.allRecalled w.req).notMine p = false) :
    s.runPages w = waitBody w.kind w.req (s.allRecalled w.req) := by
  have hany : (pagesOf w.req).any (s.allRecalled w.req).notMine = false := List.any_eq_false.mpr fun p hp => by simp [hfree p hp]
  simp only [State.runPages, if_neg hkind]
  exact if_neg (by rw [← State.allRecalled, hany]; exact Bool.false_ne_true)

theorem runPages_of_held {w : Waiting} (hkind : w.kind ≠ 1) (hheld : ∃ p ∈ pagesOf w.req, (s.allRecalled w.req).notMine p = true) :
    s.runPages w = (s.allRecalled w.req).keepWaiting w := by
  simp only [State.runPages, if_neg hkind]
  exact if_pos (List.any_eq_true.mpr hheld)

/-- A page of a list is the root of an enabled context. -/
def rootAmong (s : State) (l : List Nat) : Bool :=
  (List.range 256).any (fun c => s.isSet .XLT_CTX_CFG_EN c && s.isSet .XLT_CTX_CFG_ROOTV c && l.contains (s.get .XLT_CTX_CFG_ROOT c))

theorem rootAmong_eq_false {s : State} {l : List Nat}
    (h : ∀ c < 256, s.isSet .XLT_CTX_CFG_EN c = true → s.isSet .XLT_CTX_CFG_ROOTV c = true → s.get .XLT_CTX_CFG_ROOT c ∉ l) :
    rootAmong s l = false := by
  refine List.any_eq_false.mpr fun c hc => ?_
  have hc := h c (List.mem_range.mp hc)
  simpa using hc

section
variable (h : Served { op := 0x0307, priv := 1, ctx := 2, fields := rangeFields } q
    (firstBad (s.rangeChecks q ++ [(0x10, (pagesOf q).all (fun p => s.tier p == 5 || s.tier p == 7))])) s s₁
    (s.lpnDeny q (firstLpn q) (pageCount q)))
  (hroot : rootAmong s₁ (pagesOf q) = false)
include h hroot

theorem serve_segFree_of_no_root : exec (.segFree q) s = .next ((s₁.runPages { kind := 2, req := q }).finish s₁ q) := by
  show execSegFree q s = _
  rw [execSegFree, serve_of_served h]
  dsimp only
  rw [← rootAmong, hroot]
  rfl

theorem completes_segFree (hfree : ∀ p ∈ pagesOf q, (s₁.allRecalled q).notMine p = false) :
    Completes (exec (.segFree q) s) ((pagesOf q).foldl (fun (s : State) p => s.zeroPage p) (s₁.allRecalled q)).settleUnver q := by
  rw [serve_segFree_of_no_root h hroot, runPages_of_free (Nat.succ_ne_self 1) hfree]
  rfl

theorem waits_segFree (hheld : ∃ p ∈ pagesOf q, (s₁.allRecalled q).notMine p = true) :
    exec (.segFree q) s = .next { s₁.allRecalled q with xlt := { (s₁.allRecalled q).xlt with
      waiting := (s₁.allRecalled q).xlt.waiting ++ [{ kind := 2, req := q }] } } := by
  rw [serve_segFree_of_no_root h hroot, runPages_of_held (Nat.succ_ne_self 1) hheld]
  rfl

end

end

/-- Settles O9: what `seg.alloc` answers goes by its two checks and by whether every page can be made (`all_zero_and_active`), a page it makes is
read back through all that follows its placing (`pl_tablePage`), and `seg.free` goes by whether a page is still held (`runPages_of_…`). -/
theorem segmentAllocation : Obligations.SegmentAllocation := by
  unfold Obligations.SegmentAllocation
  refine ⟨?made, ?full, ?notZero, ?table, ?freed, ?held⟩
  case made => exact fun q s s₁ u h hzero hmade => completes_segAlloc h hzero hmade
  case full => exact fun q s s₁ h hzero hmade => refused_segAlloc_full h hzero hmade
  case notZero => exact fun q s s₁ i h hfind => refused_segAlloc_not_zero h hfind
  case table => exact fun s t lpn => pl_tablePage
  case freed => exact fun q s s₁ h hroot hfree => completes_segFree h (rootAmong_eq_false hroot) hfree
  case held => exact fun q s s₁ h hroot hheld => waits_segFree h (rootAmong_eq_false hroot) hheld

/-! ### Contexts (R143, R144) -/

/-- The windows of a context are set, as many as `n` of them. -/
def putWindows (tc : Nat) (base lim : Nat → Nat) (n : Nat) (s : State) : State :=
  (List.range n).foldl (fun (s : State) w => (s.put .XLT_WIN_BASE_LPN (base w) tc w).put .XLT_WIN_LIMIT_LPN (lim w) tc w) s

section
variable (tc : Nat) (base lim : Nat → Nat) (n : Nat) (s : State)

theorem putWindows_succ : putWindows tc base lim (n + 1) s =
    ((putWindows tc base lim n s).put .XLT_WIN_BASE_LPN (base n) tc n).put .XLT_WIN_LIMIT_LPN (lim n) tc n := by
  rw [putWindows, List.range_succ, List.foldl_append]
  rfl

theorem window_putWindows {w : Nat} (hw : w < n) :
    (putWindows tc base lim n s).get .XLT_WIN_BASE_LPN tc w = base w ∧ (putWindows tc base lim n s).get .XLT_WIN_LIMIT_LPN tc w = lim w := by
  induction n with
  | zero => cases hw
  | succ n ih =>
    rw [putWindows_succ]
    by_cases hlast : w = n
    · subst hlast
      exact ⟨by rw [State.get_put_other _ _ _ _ _ _ (by decide), State.get_put_same], State.get_put_same ..⟩
    · have hne (r : Reg) : (⟨r, tc, n⟩ : RegKey) ≠ ⟨r, tc, w⟩ := fun h => hlast (by injection h with _ _ h; exact h.symm)
      obtain ⟨hbase, hlim⟩ := ih (by omega)
      rw [State.get_put_other _ _ _ _ _ _ (by decide), State.get_put_ne _ _ (hne _), State.get_put_ne _ _ (hne _),
        State.get_put_other _ _ _ _ _ _ (by decide)]
      exact ⟨hbase, hlim⟩

/-- Setting windows leaves every other register. -/
theorem writesOnly_putWindows : WritesOnly [.XLT_WIN_BASE_LPN, .XLT_WIN_LIMIT_LPN] s (putWindows tc base lim n s) :=
  .foldl (fun _ _ => (WritesOnly.put _ _ _ _ (by decide)).trans (.put _ _ _ _ (by decide))) _ (.refl s)

theorem onlyRegs_putWindows : OnlyRegs s (putWindows tc base lim n s) := by
  induction n with
  | zero => exact .refl s
  | succ n ih =>
    rw [putWindows_succ]
    exact ih.trans ((put_onlyRegs ..).trans (put_onlyRegs ..))

end

/-- A context enabled without a root, with the masks and defaults that the request names. -/
def ctxEnabled (s : State) (q : Req) : State :=
  let tc := q.tc.val
  ((((((s.put .XLT_CTX_CFG_EN 1 tc).put .XLT_CTX_CFG_ROOTV 0 tc).put .XLT_CTX_CFG_ROOT 0 tc).put .XLT_CTX_MASK_CLMASK (par q 0x10 2) tc).put
    .XLT_CTX_MASK_OBMASK (par q 0x12 1) tc).put .XLT_CTX_MASK_DEFCL (parBits q 0x13 0 4) tc).put .XLT_CTX_MASK_DEFOB (parBits q 0x13 4 3) tc

/-- The context with its windows as well. -/
def ctxCreated (s : State) (q : Req) : State :=
  putWindows q.tc.val (fun w => payNat q.payload (16 * w) 8) (fun w => payNat q.payload (16 * w + 8) 8) 4 (ctxEnabled s q)

theorem get_ctxCreated (s : State) (q : Req) {r : Reg} (i j : Nat) (hr : r ∉ [Reg.XLT_WIN_BASE_LPN, .XLT_WIN_LIMIT_LPN]) :
    (ctxCreated s q).get r i j = (ctxEnabled s q).get r i j :=
  (writesOnly_putWindows ..).get_eq r i j hr

theorem onlyRegs_ctxEnabled (s : State) (q : Req) : OnlyRegs s (ctxEnabled s q) :=
  ((((((put_onlyRegs ..).trans (put_onlyRegs ..)).trans (put_onlyRegs ..)).trans (put_onlyRegs ..)).trans (put_onlyRegs ..)).trans
    (put_onlyRegs ..)).trans (put_onlyRegs ..)

/-- Creating a context changes registers alone. -/
theorem onlyRegs_ctxCreated (s : State) (q : Req) : OnlyRegs s (ctxCreated s q) :=
  (onlyRegs_ctxEnabled s q).trans (onlyRegs_putWindows ..)

theorem xlt_of_onlyRegs {s t : State} (h : OnlyRegs s t) : t.xlt = s.xlt := by
  unfold OnlyRegs at h
  rw [← h]

theorem get_ctxEnabled (s : State) (q : Req) : let u := ctxEnabled s q; let tc := q.tc.val
    u.get .XLT_CTX_CFG_EN tc = 1 ∧ u.get .XLT_CTX_CFG_ROOTV tc = 0 ∧ u.get .XLT_CTX_MASK_CLMASK tc = par q 0x10 2 ∧
      u.get .XLT_CTX_MASK_OBMASK tc = par q 0x12 1 ∧ u.get .XLT_CTX_MASK_DEFCL tc = parBits q 0x13 0 4 ∧
      u.get .XLT_CTX_MASK_DEFOB tc = parBits q 0x13 4 3 := by
  simp [ctxEnabled, State.get_put_other]

section
variable {q : Req} {s s₁ : State}

theorem completes_segCtxCreate {bad : Option Nat}
    (h : Served { op := 0x0301, priv := 2, ctx := 1, payload := 64, fields := [fld 0x10 3, fbits 0x13 0 7] } q bad s s₁) :
    Completes (serve { op := 0x0301, priv := 2, ctx := 1, payload := 64, fields := [fld 0x10 3, fbits 0x13 0 7] } q bad
      (fun s => ok ((ctxCreated s q).regrant s)) s) ((ctxCreated s₁ q).regrant s₁) q :=
  completes_of_served h rfl

theorem completes_segCtxDestroy (h : Served { op := 0x0302, priv := 2, ctx := 1 } q none s s₁) (hbound : s₁.bound q.tc.val = false)
    (hidle : s₁.ctxBusy q.tc.val = false) (hslot : s₁.flushesOn < 16) (hnone : s₁.unaccepted = []) :
    Completes (exec (.segCtxDestroy q) s) (flushEnds (s₁.flushDone { kind := 7, req := q }) { kind := 7, req := q }).showFlush q :=
  completes_of_served h (by
    simp only [hbound, hidle, Bool.false_eq_true, or_self, if_false]
    exact runFlush_at_once rfl hslot hnone)

section
variable (h : Served { op := 0x0303, priv := 1, ctx := 1, fields := [fld 0x10 8, fbits 0x18 0 1] } q
    (firstBad [(0x10, parBit q 0x18 0 || (s.windowed q.tc.val (par q 0x10 8) 1 && s.tier (par q 0x10 8) == 5))]) s s₁
    (if parBit q 0x18 0 then none else s.lpnDeny q (par q 0x10 8) 1))
  (hslot : s₁.flushesOn < 16) (hnone : s₁.unaccepted = [])
include h hslot hnone

theorem completes_segSetRoot_clear (hclear : parBit q 0x18 0 = true) :
    Completes (exec (.segSetRoot q) s) ((s₁.put .XLT_CTX_CFG_ROOTV 0 q.tc.val).flushDone { kind := 6, req := q }).showFlush q :=
  completes_of_served h (by
    simp only [hclear, if_true]
    exact takeOrWait_flush (s := s₁.put .XLT_CTX_CFG_ROOTV 0 q.tc.val) (by decide) hslot hnone)

theorem completes_segSetRoot_set (hclear : parBit q 0x18 0 = false) :
    Completes (exec (.segSetRoot q) s) (((s₁.put .XLT_CTX_CFG_ROOT (par q 0x10 8) q.tc.val).put .XLT_CTX_CFG_ROOTV 1 q.tc.val).flushDone
      { kind := 6, req := q }).showFlush q :=
  completes_of_served h (by
    simp only [hclear, Bool.false_eq_true, if_false]
    exact takeOrWait_flush (s := (s₁.put .XLT_CTX_CFG_ROOT (par q 0x10 8) q.tc.val).put .XLT_CTX_CFG_ROOTV 1 q.tc.val) (by decide) hslot hnone)

end

/-! ### Dynamic Capacity (R65, R143) -/

/-- An extent is offered to a host, or asked back: the request waits for the host, and its record stands in the Dynamic Capacity log. -/
def dcAsked (s : State) (q : Req) (release : Bool) (e : Extent) : State :=
  let h := par q 0x10 1
  (s.setHead h { s.head h with dcPending := (s.head h).dcPending ++ [{ ext := e, release := release, forced := false, handle := s.nextHandle }] }).logCxl
    h 4 { handle := 0, kind := 4, typ := b2n release, a := e.base, b := e.len, c := e.region }

theorem dcAsk_of_extent {release : Bool} {e : Extent} (hext : s.dcExtent q = some e) :
    dcAsk s q release = pend (dcAsked s q release e) (if release then .dcRelease (par q 0x10 1) else .dcAdd (par q 0x10 1)) := by
  simp only [dcAsk, hext]
  rfl

/-- A host that accepts parts of what it was offered. -/
theorem exec_dcHostResponse_accepts {h : Fin 8} {p : DcPending} {parts : List (Nat × Nat)} (hopen : s.mboxOpen h.val = true)
    (hoffer : (s.head h.val).dcPending.find? (fun p => p.release == false) = some p) (hparts : partsOk p.ext parts = true) :
    exec (.dcHostResponse h false parts) s = .next (((s.setHead h.val { s.head h.val with
      extents := (s.head h.val).extents ++ parts.map (fun x => Extent.mk p.ext.region x.1 x.2 p.ext.tag)
      dcPending := (s.head h.val).dcPending.erase p }).readyOp (p.handle % 64) stOk 0
        ((parts.map (fun x => Extent.mk p.ext.region x.1 x.2 p.ext.tag)).foldl (fun n e => n + e.len) 0)).mailbox h.val cxlSuccess []) := by
  show execDcHostResponse h false parts s = _
  simp only [execDcHostResponse, onMailbox, hopen, hoffer, hparts, not_true_eq_false, Bool.false_eq_true, if_true, if_false]

/-! ### Queries of a translation (R143) -/

/-- The access that a query translates. -/
abbrev queryAcc (q : Req) : XlAcc := { holder := 8 + q.engine.val, tc := q.tc.val, ta := par q 0x10 8, master := mEng q.engine.val }

theorem runQuery_leaf {w : Waiting} {val lvl lpn addr : Nat} (hwalk : (s.walk (queryAcc w.req) false).2.1 = .leaf val lvl lpn addr) :
    s.runQuery w = okOut s val 8 [(0, 8, lpn)] (lvl * 256) := by
  unfold State.runQuery
  dsimp only
  split
  next heq => rw [heq] at hwalk; cases hwalk; rfl
  next heq => rw [heq] at hwalk; cases hwalk
  next heq => rw [heq] at hwalk; cases hwalk

theorem runQuery_fault {w : Waiting} {k lvl val : Nat} {mark : Bool} (hwalk : (s.walk (queryAcc w.req) false).2.1 = .fault k lvl mark val) :
    s.runQuery w = okOut s val 8 [] (k + lvl * 256) := by
  unfold State.runQuery
  dsimp only
  split
  next heq => rw [heq] at hwalk; cases hwalk
  next heq => rw [heq] at hwalk; cases hwalk; rfl
  next heq => rw [heq] at hwalk; cases hwalk

section
variable (h : Served { op := 0x0400, priv := 1, mctp := true, ctx := 1, fields := [fld 0x10 8], output := true } q none s s₁)
include h

theorem completes_xltQuery_beyond (hbeyond : 2 ^ 48 ≤ par q 0x10 8) : Completes (exec (.xltQuery q) s) s₁ q 0 8 [] 0x02 :=
  completes_of_served h (if_pos hbeyond)

/-- An address of 48 bits is walked. -/
theorem completes_xltQuery {val detail : Nat} {out : Output} (hta : par q 0x10 8 < 2 ^ 48)
    (hrun : s₁.runQuery { kind := 3, req := q } = okOut s₁ val 8 out detail) : Completes (exec (.xltQuery q) s) s₁ q val 8 out detail :=
  completes_of_served h ((if_neg (Nat.not_le.mpr hta)).trans hrun)

end

end

/-! ### A flush that an engine does not acknowledge (R134, R554) -/

/-- Flushes wait no longer for the accesses of an engine. -/
def dropHung (s : State) (n : Nat) : State :=
  { s with xlt := { s.xlt with waiting := s.xlt.waiting.map (fun (w : Waiting) => { w with left := w.left.filter (fun k =>
    !(match tget k s.coh.reqs with | some r => r.req.master == mEng n | none => false)) }) } }

theorem exec_flushAckTimeout_running {s : State} {n : Fin 48} (hon : 0 < s.flushesOn) :
    exec (.flushAckTimeout n) s = .next (((((dropHung s n.val).bump .XLT_FLUSH_STS_HUNG 0xFFFF).report
      (msg1 bXlt (8 + n.val) 4)).hangEngine n.val).wake) :=
  if_neg (Nat.ne_of_gt hon)

/-- Settles O43: a served request is answered by its body; the four commands that flush share `runFlush_at_once`, the two queries of a walk
`runQuery_…`, and the two of Dynamic Capacity `dcAsk_of_extent`. -/
theorem segmentAndTranslationCommands : Obligations.SegmentAndTranslationCommands := by
  unfold Obligations.SegmentAndTranslationCommands
  refine ⟨?query, ?create, ?destroy, ?clearRoot, ?setRoot, ?dcAdd, ?dcRelease, ?dcAccepts, ?beyond, ?leaf, ?fault, ?flush, ?flushAll, ?scope,
    ?expire, ?hung⟩
  case query => exact fun q s s₁ h => completes_of_served h rfl
  case create =>
    intro q s s₁ tc base lim h
    obtain ⟨hen, hrootv, hcl, hob, hdefcl, hdefob⟩ := get_ctxEnabled s₁ q
    have hget {r : Reg} (hr : r ∉ [Reg.XLT_WIN_BASE_LPN, .XLT_WIN_LIMIT_LPN]) := get_ctxCreated s₁ q tc 0 hr
    exact ⟨ctxCreated s₁ q, completes_segCtxCreate h, (hget (by decide)).trans hen, (hget (by decide)).trans hrootv,
      (hget (by decide)).trans hcl, (hget (by decide)).trans hob, (hget (by decide)).trans hdefcl, (hget (by decide)).trans hdefob,
      fun w hw => window_putWindows _ _ _ _ _ hw, KeepsPages.of_onlyRegs (onlyRegs_ctxCreated s₁ q), xlt_of_onlyRegs (onlyRegs_ctxCreated s₁ q)⟩
  case destroy => exact fun q s s₁ h => completes_segCtxDestroy h
  case clearRoot => exact fun q s s₁ h hclear hslot hnone => completes_segSetRoot_clear h hslot hnone hclear
  case setRoot => exact fun q s s₁ h hclear hslot hnone => completes_segSetRoot_set h hslot hnone hclear
  case dcAdd => exact fun q s s₁ e h hext => starts_of_served h (dcAsk_of_extent hext)
  case dcRelease => exact fun q s s₁ e h hext => starts_of_served h (dcAsk_of_extent hext)
  case dcAccepts => exact fun s h p parts => exec_dcHostResponse_accepts
  case beyond => exact fun q s s₁ => completes_xltQuery_beyond
  case leaf => exact fun q s s₁ val lvl lpn addr h hta hwalk => completes_xltQuery h hta (runQuery_leaf hwalk)
  case fault => exact fun q s s₁ k lvl val a0 h hta hwalk => completes_xltQuery h hta (runQuery_fault hwalk)
  case flush => exact fun q s s₁ h hslot hnone => completes_of_served h (takeOrWait_flush (by decide) hslot hnone)
  case flushAll => exact fun q s s₁ h hslot hnone => completes_of_served h (takeOrWait_flush (by decide) hslot hnone)
  case scope =>
    intro s q
    exact ⟨fun hctx => if_pos hctx, fun hrange => if_neg (by rw [hrange]; decide), rfl, rfl, rfl⟩
  case expire => exact fun s ix => rfl
  case hung => exact fun s n => exec_flushAckTimeout_running

/-! ### Requests of agents and their homes (R149, R154, R155, R158, R159, R174) -/

section
variable {s : State} {q : Ask}

theorem exec_reado_asks {full : Bool} {wrote : Option Line} (hmiss : wrote.bind (s.writeHit q.agent.val q.line.val) = none) :
    exec (.reado q full false wrote) s = .next (s.agentAsk (askReq q (if full then .readOFull else .readO)) q.via) := by
  show execReado q full false wrote s = _
  simp only [execReado, Bool.false_eq_true, if_false, hmiss]

theorem exec_reado_hits {full : Bool} {wrote : Option Line} {t : State} (hhit : wrote.bind (s.writeHit q.agent.val q.line.val) = some t) :
    exec (.reado q full false wrote) s = .next t := by
  show execReado q full false wrote s = _
  simp only [execReado, Bool.false_eq_true, if_false, hhit]

/-- A line held in E or M is written where it is. -/
theorem writeHit_of_owned {a line : Nat} {h : Held} (hheld : s.heldAt a line = some h) (hst : 3 ≤ h.st) (d : Line) :
    s.writeHit a line d = some (s.hold a line (some { st := 4, data := d })) := by
  simp only [State.writeHit, hheld, if_pos hst]

/-! The page of a move (R174) -/

/-- The migration agent asks the home of its page. -/
def askPage (s : State) (lpn : Nat) : State :=
  s.say { cls := cREQ, code := 1, line := 64 * lpn, src := 0x12 + s.home lpn, dst := s.homeAg (64 * lpn), page := true, master := mMig }

section
variable {m : MoveSt} (hmove : tget (q.line.val / 64) s.pg.moves = some m) (hstep : m.step = 1) (hrun : s.halt = none)
include hmove hstep hrun

theorem exec_reado_page (hver : m.req.ver = (s.page (q.line.val / 64)).pl.ver) (hmeets : s.meets m.req = true) (full : Bool) (w : Option Line) :
    exec (.reado q full true w) s = .next ({ askPage s (q.line.val / 64) with pg := { (askPage s (q.line.val / 64)).pg with
      moves := tput (q.line.val / 64) { m with step := 2 } (askPage s (q.line.val / 64)).pg.moves } }.takePage (q.line.val / 64)) := by
  show execReado q full true w s = _
  simp only [execReado, if_true, hmove, hstep, hrun, hver, hmeets, Option.isNone_none, and_self, not_true_eq_false, and_false, if_false]
  rfl

theorem exec_reado_stalePage (hver : m.req.ver ≠ (s.page (q.line.val / 64)).pl.ver) (full : Bool) (w : Option Line) :
    exec (.reado q full true w) s = .next (s.staleMove m) := by
  show execReado q full true w s = _
  simp only [execReado, if_true, hmove, hstep, hrun, hver, Option.isNone_none, and_self, false_and, not_false_eq_true]

end

end

/-! A request leaves its agent (R108, R154) -/

/-- The request with the line it names: of the device window, or of its translation. -/
def located (s : State) (p : CohReq) : Option Via → State × Option CohReq
  | some w => s.wakeMem.viaReq p w
  | none => (s.wakeMem, if ownLpn p then some p else none)

/-- The memory port judges a request (R521); one without an originator passes. -/
def judged (s : State) (r : CohReq) : State × Bool :=
  if r.master = 0x7F then (s, true) else s.memAccess r.master r.lpn (if r.owns then opW else opR) (s.jobExcepted r.master r.lpn) .std

/-- A cluster counts the requests of its cache. -/
def countedAt (s : State) (r : CohReq) : State :=
  if 8 ≤ r.agent ∧ r.agent < 0x0E then s.count (.cluster (r.agent - 8)) 0x03 1 (some (reqAttr r 6)) else s

/-- A request becomes outstanding at its agent, and its message leaves for the home. -/
def issued (s : State) (r : CohReq) : State :=
  (s.coh' (fun c => { c with reqs := tput (agKey r.agent r.line) { req := r } c.reqs })).say (r.msg (s.homeAg r.line))

/-- A request that its agent may issue, and that the memory port allows, reaches its home. -/
theorem agentAsk_admitted {s u : State} {p r : CohReq} {via : Option Via} (hloc : located s p via = (u, some r)) (hrun : u.halt = none)
    (hnone : tget (agKey r.agent r.line) u.coh.reqs = none) (hfew : u.outstanding r.agent < 64) (hroom : u.agentRoom r.agent r.line = true)
    (hok : (judged u r).2 = true) :
    let t := (judged u r).1
    let v := issued (countedAt t (t.numbered r)) (t.numbered r)
    s.agentAsk p via = (v.homeReq (t.numbered r)).settled (v.home r.lpn) := by
  have hadmit : ¬(u.halt.isSome = true ∨ (tget (agKey r.agent r.line) u.coh.reqs).isSome = true ∨ 64 ≤ u.outstanding r.agent ∨
      ¬u.agentRoom r.agent r.line = true) := by
    simp [hrun, hnone, hroom, hfew]
  unfold State.agentAsk
  dsimp only
  split
  next heq => cases hloc.symm.trans heq
  next heq =>
    cases hloc.symm.trans heq
    rw [if_neg hadmit]
    exact if_neg (not_not_intro hok)

/-! A request at its home (R158, R159, R174, R426) -/

section
variable {s : State} {q : CohReq}

theorem refuse_of_att_lt (hatt : q.att < 8) (rsn : Nat) (quota : Bool) : s.refuse q rsn quota = s.nackReq q rsn quota := if_pos hatt

theorem homeReq_locked (hlock : (s.page q.lpn).pl.lock = true) (hroom : (s.holdOf (s.home q.lpn)).length < 64) :
    s.homeReq q = s.setHold (s.home q.lpn) (s.holdOf (s.home q.lpn) ++ [q]) := by
  simp only [State.homeReq, hlock, if_true, if_pos hroom]

variable (hfree : (s.page q.lpn).pl.lock = false)
include hfree

theorem homeReq_line_busy (htrk : (s.trkOf q.line).isSome = true) : s.homeReq q = s.refuse q 1 false := by
  simp only [State.homeReq, hfree, Bool.false_eq_true, if_false, htrk, true_or, if_true]

variable (htrk : (s.trkOf q.line).isSome = false) (hline : (s.starvOf (s.home q.lpn)).any (fun x => x.line == q.line) = false)
include htrk hline

theorem homeReq_over_quota (hquota : s.atQuota (s.home q.lpn) q.cls = true) : s.homeReq q = s.refuse q 0 true := by
  simp only [State.homeReq, hfree, htrk, hline, hquota, Bool.false_eq_true, or_self, if_false, if_true]

theorem homeReq_accepted (hquota : s.atQuota (s.home q.lpn) q.cls = false) (hstarv : s.starvOf (s.home q.lpn) = [])
    (htrackers : s.trkUsed (s.home q.lpn) < 256) : s.homeReq q = s.openTrk q := by
  have hopen : ¬((s.starvOf (s.home q.lpn) ≠ [] ∧ q.att < 8) ∨ 256 ≤ s.trkUsed (s.home q.lpn)) := by simp [hstarv, htrackers]
  simp only [State.homeReq, hfree, htrk, hline, hquota, hopen, Bool.false_eq_true, or_self, if_false]

end

/-! A Nack and the backoff after it (R158) -/

/-- A request is sent again. -/
def resent (s : State) (a line : Nat) (r : AgReq) : State :=
  (s.coh' (fun c => { c with reqs := tput (agKey a line) { r with backoff := false } c.reqs })).say (r.req.msg (s.homeAg line))

section
variable {s : State} {a : Fin 18} {line : LineNo} {r : AgReq} (hreq : tget (agKey a.val line.val) s.coh.reqs = some r)
include hreq

theorem exec_nack_outstanding (hback : r.backoff = false) :
    exec (.nack a line) s = .next (s.coh' (fun c => { c with
      reqs := tput (agKey a.val line.val)
        { r with nacks := min 8 (r.nacks + 1), backoff := true, req := { r.req with att := min 8 (r.nacks + 1) } } c.reqs })) := by
  show execNack a line s = _
  simp only [execNack, hreq, hback, Bool.false_eq_true, if_false]

theorem exec_nackBackoffExpire_waiting (hback : r.backoff = true) : exec (.nackBackoffExpire a line) s =
    .next (((resent s a.val line.val r).homeReq r.req).settled ((resent s a.val line.val r).home r.req.lpn)) := by
  show execNackBackoffExpire a line s = _
  simp only [execNackBackoffExpire, hreq, hback, if_true]
  rfl

end

/-- Settles O58: what a command asks, by its cases (`exec_reado_…`); how a request leaves its agent (`agentAsk_admitted`); what its home makes of it, by
the order of its checks (`homeReq_…`); and the two events of a backoff. -/
theorem coherenceRequests : Obligations.CoherenceRequests := by
  unfold Obligations.CoherenceRequests
  refine ⟨?asks, ?misses, ?hits, ?leaves, ?page, ?stale, ?locked, ?lineBusy, ?overQuota, ?accepted, ?nack, ?backoffEnds⟩
  case asks => exact fun s q => ⟨rfl, rfl, exec_reado_asks rfl, exec_reado_asks rfl, rfl⟩
  case misses => exact fun s q full d hmiss => exec_reado_asks hmiss
  case hits => exact fun s q full d h hheld hst => exec_reado_hits (writeHit_of_owned hheld hst d)
  case leaves =>
    rintro s _ _ p r via _ _ rfl hloc hrun hnone hfew hroom rfl hok rfl rfl
    have hlocated : located s p via = ((located s p via).1, some r) := Prod.ext rfl hloc
    exact agentAsk_admitted hlocated hrun hnone hfew hroom hok
  case page =>
    rintro s _ q full w m hmove hstep hrun hver hmeets rfl
    exact exec_reado_page hmove hstep hrun hver hmeets full w
  case stale => exact fun s q full w m hmove hstep hrun hver => exec_reado_stalePage hmove hstep hrun hver full w
  case locked => exact fun s q => homeReq_locked
  case lineBusy => exact fun s q hfree htrk hatt => (homeReq_line_busy hfree htrk).trans (refuse_of_att_lt hatt ..)
  case overQuota =>
    exact fun s q hfree htrk hline hquota hatt => (homeReq_over_quota hfree htrk hline hquota).trans (refuse_of_att_lt hatt ..)
  case accepted =>
    intro s q hfree htrk hstarv hquota htrackers
    exact homeReq_accepted hfree htrk (by rw [hstarv]; rfl) hquota hstarv htrackers
  case nack => exact fun s a line r => exec_nack_outstanding
  case backoffEnds =>
    rintro s _ a line r hreq hback rfl
    exact exec_nackBackoffExpire_waiting hreq hback

end Sys2Proof.Proofs.Translation

/-!
PROOFS of the statements of the access paths: a write-back whose leaf check poisons another page (R289, R300, R468), and the write-back of a Furnace
page's dirty line (R181, R190, R224).
-/
namespace Sys2Proof.Proofs.AccessPaths
open Sys2Proof Sys2Proof.Machine Sys2Proof.Proofs.Architecture Sys2Proof.Proofs.Translation

/-- The event is the write-back with its reads. -/
theorem exec_sectorWriteback (lpn : Lpn) (k : Fin 8) (body : List Byte) (hint : Nat) (f f2 : Fetch) (s : State) :
    exec (.sectorWriteback lpn k body hint f f2) s = .next (s.wbStep lpn.val k.val body hint f f2) := rfl

/-! ### A write-back that finds the unverifiable list full

R289 has a write-back verify its leaf first. A node that no copy of serves makes every page beneath it unverifiable, or Poisoned where the list of R300 is
full: then the content of the other pages beneath the node is lost too, which the statement does not allow for. -/

/-- Sector 0 of page 5 is dirty; page 7 holds a line. The level 1 node above both is not cached, and its copies lie on the frozen channels 1 and 6, whose
DIMMs have lost their power, so that their lines are uncorrectable (R468). The unverifiable list holds 64 nodes. -/
def unverListFull : State :=
  let s : State := { State.reset with
    pg := { State.reset.pg with
      pages := [(5, { pl := { tier := 1, code := 1, ma := 48 } }), (7, { pl := { tier := 1, code := 1, ma := 80 } })]
      mem := [(448, 13)]
      nodes := [(nodeKey 3 5, { a := 30000, b := 30016 })] }
    coh := { State.reset.coh with lc := (List.range 8).map (fun i => (320 + i, { data := 77, dirty := true })) }
    sec := { State.reset.sec with
      tcache := [(treeIx 2 5, false)]
      unver := (List.range 64).map (fun i => (0, 1000 + i)) } }
  let s := [1, 6].foldl (fun (s : State) c => (s.put .MEM_CH_STS_DIMMS 1 c).put .MEM_CH_STS_STATE 3 c) s
  [3, 5].foldl (fun (s : State) c => s.put .MEM_CH_STS_STATE 2 c) (s.put .SEC_KS_STS_STATE 1)

/-- Page 7 is Poisoned with page 5: its line reads 0. -/
theorem line448_after_writeback : tgetD 0 448 (unverListFull.wbStep (5 : Lpn).val (0 : Fin 8).val [] 0 {} {}).pg.mem = 0 := by decide +kernel

/-- Refutes O4: the write-back of page 5 verifies its leaf, finds neither copy of the node above it and the unverifiable list full, and so poisons page 7,
which lies beneath the same node (R300). -/
theorem not_writeBackTouchesOnlyItsPage : ¬ Obligations.WriteBackTouchesOnlyItsPage := by
  unfold Obligations.WriteBackTouchesOnlyItsPage
  intro h
  have hkept := h unverListFull _ 5 0 [] 0 {} {} (exec_sectorWriteback 5 0 [] 0 {} {} unverListFull) 448 (by decide)
  rw [line448_after_writeback] at hkept
  exact absurd hkept (by decide +kernel)

/-! ### What leaves coherence as it is -/

theorem coh_of_onlyRegs {s t : State} (h : OnlyRegs s t) : t.coh = s.coh := by
  unfold OnlyRegs at h
  rw [← h]

@[simp] theorem coh_count (s : State) (u : PmuUnit) (code k : Nat) (a : Option Attr) : (s.count u code k a).coh = s.coh :=
  coh_of_onlyRegs (count_onlyRegs ..)

@[simp] theorem coh_bump (s : State) (r : Reg) (cap i j : Nat) : (s.bump r cap i j).coh = s.coh := rfl

@[simp] theorem coh_msix (s : State) (h v : Nat) : (s.msix h v).coh = s.coh := by
  unfold State.msix
  split <;> rfl

@[simp] theorem coh_logCxl (s : State) (h log : Nat) (rc : CxlRec) : (s.logCxl h log rc).coh = s.coh := by
  simp only [State.logCxl]
  split
  · rfl
  · split
    · exact coh_msix ..
    · rfl

@[simp] theorem coh_logAll (log : Nat) (rc : CxlRec) (l : List Nat) (s : State) : (s.logAll log rc l).coh = s.coh := by
  induction l generalizing s with
  | nil => rfl
  | cons h l ih => rw [State.logAll, ih, coh_logCxl]

theorem coh_foldl {β : Type} {f : State → β → State} (hf : ∀ s x, (f s x).coh = s.coh) (l : List β) (s : State) : (l.foldl f s).coh = s.coh := by
  induction l generalizing s with
  | nil => rfl
  | cons x l ih => rw [List.foldl_cons, ih, hf]

@[simp] theorem coh_markEvac (s : State) (c : Nat) : (s.markEvac c).coh = s.coh := by
  simp only [State.markEvac]
  split
  · rfl
  · split <;> rfl

@[simp] theorem coh_askLowest (s : State) (c : Nat) : (s.askLowest c).coh = s.coh := by
  unfold State.askLowest
  split <;> rfl

@[simp] theorem coh_fewEngines (s : State) (cluster : Nat) : (s.fewEngines cluster).coh = s.coh := by
  simp only [State.fewEngines]
  split <;> rfl

@[simp] theorem coh_reloadFields (s : State) (m : Msg) : (s.reloadFields m).coh = s.coh :=
  coh_foldl (f := fun (u : State) (x : RegKey × Nat) => u.put x.1.r x.2 x.1.i x.1.j) (fun _ _ => rfl) (tgetD [] (srcId m) s.flt.reload) s

/-- The steps of an escalation reach registers, channels, slots and engines, never the coherence state (R445). -/
@[simp] theorem coh_escalate (s : State) (m : Msg) : (s.escalate m).coh = s.coh := by
  have hengines (l : List Nat) : (l.foldl (fun (s : State) n => s.put .ENG_STS_STATE 3 n) s).coh = s.coh :=
    coh_foldl (f := fun (s : State) n => s.put .ENG_STS_STATE 3 n) (fun _ _ => rfl) l s
  unfold State.escalate
  split <;> simp [apply_ite State.coh, hengines]

@[simp] theorem coh_orderEscalation (s : State) (m : Msg) (direct : Bool) (seq why : Nat) (r : Option FltRec) :
    (s.orderEscalation m direct seq why r).coh = s.coh := by
  cases direct <;> simp [State.orderEscalation]

@[simp] theorem coh_mirror (s : State) (r : FltRec) (k : Mirror) : (s.mirror r k).coh = s.coh := by
  unfold State.mirror
  split
  · rfl
  · cases k <;> simp

/-- Taking a message changes records, registers, logs and what the escalation steps touch, but nothing of coherence. -/
@[simp] theorem coh_collect (s : State) (m : Msg) (k : Mirror) (direct : Bool) : (s.collect m k direct).1.coh = s.coh := by
  unfold State.collect
  split
  · rfl
  split
  split
  · rfl
  split
  · split
    · extract_lets dropped noted
      have hnoted : noted.coh = s.coh := by
        unfold noted
        split <;> rfl
      exact hnoted
    · extract_lets dropped ordered
      show ordered.coh = s.coh
      unfold ordered
      split
      · exact coh_orderEscalation ..
      · rfl
  · extract_lets seq second timer r numbered overwritten ended escalated recorded _ ringed mirrored collected
    have hoverwritten : overwritten.coh = s.coh := by
      unfold overwritten
      split <;> rfl
    have hended : ended.coh = s.coh := by
      unfold ended
      split
      · split
        · exact (coh_orderEscalation ..).trans hoverwritten
        · exact hoverwritten
      · exact hoverwritten
    have hescalated : escalated.coh = s.coh := by
      unfold escalated
      clear_value second
      split <;> exact hended
    have hringed : ringed.coh = s.coh := by
      unfold ringed
      split <;> exact hescalated
    have hmirrored : mirrored.coh = s.coh := (coh_mirror ..).trans hringed
    show collected.coh = s.coh
    unfold collected
    split
    · exact (coh_orderEscalation ..).trans hmirrored
    · exact hmirrored

@[simp] theorem coh_collectAll (l : List Msg) (s : State) : (s.collectAll l).coh = s.coh := by
  induction l generalizing s with
  | nil => rfl
  | cons m l ih => rw [State.collectAll, ih, coh_collect]

@[simp] theorem coh_afterSteps (s : State) : s.afterSteps.coh = s.coh := coh_collectAll s.due { s with due := [] }

@[simp] theorem coh_report (s : State) (m : Msg) : (s.report m).coh = s.coh := by
  have hfirst := coh_collect (s.count .global 0x06 1 none) m .std false
  unfold State.report State.reportK
  dsimp only
  split
  next heq => simpa [heq] using hfirst
  next heq => simpa [heq] using hfirst

/-! ### What a write of media lines leaves as it is (R331, R341) -/

@[simp] theorem coh_fire (s : State) (kind la : Nat) : (s.fire kind la).1.coh = s.coh := by
  unfold State.fire
  split
  · rfl
  · simp

theorem keepsPages_fire (s : State) (kind la : Nat) : KeepsPages s (s.fire kind la).1 := by
  unfold State.fire
  split
  · exact .refl s
  · exact KeepsPages.report ..

/-- A line write changes queues, injections and the stored codeword: neither coherence nor what the pages hold as content. -/
@[simp] theorem coh_writeLine (s : State) (la : Nat) : (s.writeLine la).coh = s.coh := coh_fire (s.arrive la true) 1 la

theorem keepsPages_writeLine (s : State) (la : Nat) : KeepsPages s (s.writeLine la) := keepsPages_fire (s.arrive la true) 1 la

@[simp] theorem coh_writeLines (la n : Nat) (s : State) : (s.writeLines la n).coh = s.coh := by
  induction n with
  | zero => rfl
  | succ n ih => rw [State.writeLines, coh_writeLine, ih]

theorem keepsPages_writeLines (la n : Nat) (s : State) : KeepsPages s (s.writeLines la n) := by
  induction n with
  | zero => exact .refl s
  | succ n ih => exact ih.trans (keepsPages_writeLine ..)

/-! ### Lines put on media -/

@[simp] theorem coh_markPoison (s : State) (line cause : Nat) : (s.markPoison line cause).coh = s.coh := by
  unfold State.markPoison
  split <;> rfl

@[simp] theorem pages_markPoison (s : State) (line cause : Nat) : (s.markPoison line cause).pg.pages = s.pg.pages := by
  unfold State.markPoison
  split <;> rfl

@[simp] theorem mem_markPoison (s : State) (line cause : Nat) : (s.markPoison line cause).pg.mem = s.pg.mem := by
  unfold State.markPoison
  split <;> rfl

@[simp] theorem coh_storeLines (l : List (Nat × Line × Option Nat)) (s : State) : (s.storeLines l).coh = s.coh := by
  induction l generalizing s with
  | nil => rfl
  | cons x l ih =>
    obtain ⟨line, d, po⟩ := x
    cases po <;> simp [State.storeLines, ih]

@[simp] theorem pages_storeLines (l : List (Nat × Line × Option Nat)) (s : State) : (s.storeLines l).pg.pages = s.pg.pages := by
  induction l generalizing s with
  | nil => rfl
  | cons x l ih =>
    obtain ⟨line, d, po⟩ := x
    cases po <;> simp [State.storeLines, ih]

/-- A line that is not among those stored reads as before. -/
theorem read_storeLines_of_notMem {line : Nat} (l : List (Nat × Line × Option Nat)) (h : ∀ x ∈ l, x.1 ≠ line) (s : State) :
    tgetD 0 line (s.storeLines l).pg.mem = tgetD 0 line s.pg.mem := by
  induction l generalizing s with
  | nil => rfl
  | cons x l ih =>
    obtain ⟨other, d, po⟩ := x
    have hne : other ≠ line := h _ List.mem_cons_self
    have hrest := ih fun x hx => h x (List.mem_cons_of_mem _ hx)
    cases po with
    | none =>
      simp only [State.storeLines, hrest]
      exact Memory.read_write_ne _ _ hne
    | some c =>
      simp only [State.storeLines, hrest, mem_markPoison]
      exact Memory.read_write_ne _ _ hne

/-- A line stored without the marking reads as what was stored, where each line is stored once. -/
theorem read_storeLines_of_mem {line : Nat} {d : Line} (l : List (Nat × Line × Option Nat)) (hnodup : (l.map (·.1)).Nodup)
    (hmem : (line, d, none) ∈ l) (s : State) : tgetD 0 line (s.storeLines l).pg.mem = d := by
  induction l generalizing s with
  | nil => cases hmem
  | cons x l ih =>
    rw [List.map_cons, List.nodup_cons] at hnodup
    obtain ⟨hfresh, hrest⟩ := hnodup
    rcases List.mem_cons.mp hmem with rfl | hlater
    · rw [State.storeLines, read_storeLines_of_notMem]
      · exact Memory.read_write_same ..
      · exact fun x hx hline => hfresh (List.mem_map.mpr ⟨x, hx, hline⟩)
    · exact ih hrest hlater _

/-! ### The counter of a sector (R282, R284) -/

theorem raiseCtr_of_lt {s : State} {lpn k ks : Nat} (h : s.ctr lpn k < 0xFFFFFFFFFFFFFF00) :
    s.raiseCtr lpn k ks = s.putCtr lpn k ks (s.ctr lpn k + 1) :=
  if_neg (by omega)

@[simp] theorem coh_putCtr (s : State) (lpn k ks v : Nat) : (s.putCtr lpn k ks v).coh = s.coh := by
  simp only [State.putCtr]
  split <;> rfl

@[simp] theorem pages_putCtr (s : State) (lpn k ks v : Nat) : (s.putCtr lpn k ks v).pg.pages = s.pg.pages := by
  simp only [State.putCtr]
  split <;> rfl

theorem exhaustBlocked_of_lt {s : State} {lpn : Nat} (h : ∀ j < 8, s.ctr lpn j < 0xFFFFFFFFFFFFFF00) : s.exhaustBlocked lpn = false := by
  have hnone : (List.range 8).any (fun k => decide (0xFFFFFFFFFFFFFFFE ≤ s.ctr lpn k)) = false := by
    rw [List.any_eq_false]
    intro j hj
    have := h j (List.mem_range.mp hj)
    rw [decide_eq_true_iff]
    omega
  simp only [State.exhaustBlocked, hnone, Bool.false_and]

/-! ### A sector becomes clean (R181) -/

@[simp] theorem page_cleanSector (s : State) (lpn k l : Nat) : (s.cleanSector lpn k).page l = s.page l := rfl

@[simp] theorem pg_cleanSector (s : State) (lpn k : Nat) : (s.cleanSector lpn k).pg = s.pg := rfl

@[simp] theorem twins_cleanSector (s : State) (lpn k : Nat) : (s.cleanSector lpn k).coh.twins = s.coh.twins := rfl

/-- A change of the values of some keys, by key. -/
theorem tget_map_where {α : Type} (p : Nat → Prop) [DecidablePred p] (f : α → α) (k : Nat) (t : Tab α) :
    tget k (t.map (fun x => if p x.1 then (x.1, f x.2) else x)) = if p k then (tget k t).map f else tget k t := by
  induction t with
  | nil => simp [tget]
  | cons x t ih =>
    obtain ⟨j, v⟩ := x
    by_cases hj : j = k
    · subst hj
      by_cases hp : p j <;> simp [tget, hp]
    · by_cases hp : p j <;> simp [tget, hp, hj, ih]

theorem lcOf_cleanSector (s : State) (lpn k : Nat) {line : Nat} (h : line / 8 = 8 * lpn + k) :
    (s.cleanSector lpn k).lcOf line = (s.lcOf line).map (fun l => { l with dirty := false }) := by
  have hmap := tget_map_where (· / 8 = 8 * lpn + k) (fun l : LcLine => { l with dirty := false }) line s.coh.lc
  rwa [if_pos h] at hmap

theorem dirtyLines_cleanSector (s : State) (lpn k : Nat) : (s.cleanSector lpn k).dirtyLines lpn k = [] := by
  rw [State.dirtyLines, List.filter_eq_nil_iff]
  intro line hline
  obtain ⟨i, hi, rfl⟩ := List.mem_map.mp hline
  have hi := List.mem_range.mp hi
  rw [lcOf_cleanSector s lpn k (by omega)]
  cases s.lcOf (64 * lpn + 8 * k + i) <;> simp

theorem mem_dirtyLines {s : State} {lpn k i : Nat} {l : LcLine} (hi : i < 8) (hl : s.lcOf (64 * lpn + 8 * k + i) = some l) (hdirty : l.dirty = true)
    (hprov : l.prov = false) : 64 * lpn + 8 * k + i ∈ s.dirtyLines lpn k := by
  rw [State.dirtyLines, List.mem_filter]
  exact ⟨List.mem_map.mpr ⟨i, List.mem_range.mpr hi, rfl⟩, by simp [hl, hdirty, hprov]⟩

/-! ### The write-back of a raw sector in place (R181, R224) -/

/-- The lines that a write-back of a sector stores: those of the line cache, else those of media. -/
def mergedSector (s : State) (lpn k : Nat) (lost : List (Nat × Nat)) : List (Nat × Line × Option Nat) :=
  (List.range 8).map (fun i => (64 * lpn + 8 * k + i, s.mergedLine (64 * lpn + 8 * k + i) lost))

theorem nodup_mergedSector (s : State) (lpn k : Nat) (lost : List (Nat × Nat)) : ((mergedSector s lpn k lost).map (·.1)).Nodup := by
  rw [mergedSector, List.map_map]
  exact List.pairwise_map.mpr (List.nodup_range.imp fun hne h => hne (Nat.add_left_cancel h))

/-- A line that the cache holds without poison is stored with its data. -/
theorem mem_mergedSector {s : State} {lpn k i : Nat} {l : LcLine} (hi : i < 8) (hl : s.lcOf (64 * lpn + 8 * k + i) = some l) (hprov : l.prov = false)
    (hpoison : l.poison = false) (lost : List (Nat × Nat)) : (64 * lpn + 8 * k + i, l.data, none) ∈ mergedSector s lpn k lost :=
  List.mem_map.mpr ⟨i, List.mem_range.mpr hi, by simp [State.mergedLine, hl, hprov, hpoison]⟩

theorem coh_spoil_congr {s t : State} (h : t.coh = s.coh) (lpn : Nat) : (t.spoil lpn).coh = (s.spoil lpn).coh := by
  simp only [State.spoil, State.coh', h]

/-- The sector of a raw page without a twin is on media. -/
def rawStored (s : State) (lpn k : Nat) (lost : List (Nat × Nat)) : State :=
  let t := s.count (.slice (s.home lpn)) 0x0A 1 s.mem.who
  let p := (s.page lpn).pl
  (((t.raiseCtr lpn k p.ks).storeLines (mergedSector t lpn k lost)).writeLines (4 * p.ma + 8 * k) 8).spoil lpn

section
variable {s : State} {lpn k : Nat} (hctr : s.ctr lpn k < 0xFFFFFFFFFFFFFF00) (lost : List (Nat × Nat))
include hctr

theorem raiseCtr_counted (ks : Nat) (u : PmuUnit) (code n : Nat) (a : Option Attr) :
    (s.count u code n a).raiseCtr lpn k ks = (s.count u code n a).putCtr lpn k ks (s.ctr lpn k + 1) := by
  have hkept : (s.count u code n a).ctr lpn k = s.ctr lpn k := by rw [State.ctr, State.ctr, KeepsPages.count s u code n a]
  rw [raiseCtr_of_lt (by rwa [hkept]), hkept]

theorem page_rawStored : (rawStored s lpn k lost).page lpn = s.page lpn := by
  have hwritten (t : State) (la n : Nat) : ((t.writeLines la n).spoil lpn).page lpn = t.page lpn := (keepsPages_writeLines la n t).page_eq lpn
  rw [rawStored, hwritten, raiseCtr_counted hctr, State.page, pages_storeLines, pages_putCtr, KeepsPages.count, State.page]

theorem coh_rawStored : (rawStored s lpn k lost).coh = (s.spoil lpn).coh := by
  refine coh_spoil_congr ?_ lpn
  rw [coh_writeLines, coh_storeLines, raiseCtr_counted hctr, coh_putCtr, coh_count]

end

/-- Media holds the data of a line that the cache holds without poison. -/
theorem read_rawStored {s : State} {lpn k i : Nat} {l : LcLine} (hi : i < 8) (hl : s.lcOf (64 * lpn + 8 * k + i) = some l) (hprov : l.prov = false)
    (hpoison : l.poison = false) (lost : List (Nat × Nat)) : tgetD 0 (64 * lpn + 8 * k + i) (rawStored s lpn k lost).pg.mem = l.data := by
  have hcounted : (s.count (.slice (s.home lpn)) 0x0A 1 s.mem.who).lcOf (64 * lpn + 8 * k + i) = some l := by
    rw [State.lcOf, coh_count]
    exact hl
  have hwritten (t : State) (la n : Nat) : ((t.writeLines la n).spoil lpn).pg = t.pg := keepsPages_writeLines la n t
  rw [rawStored, hwritten]
  exact read_storeLines_of_mem _ (nodup_mergedSector ..) (mem_mergedSector hi hcounted hprov hpoison lost) _

/-- A line that the cache holds is clean after its sector is. -/
theorem clean_rawStored {s : State} {lpn k i : Nat} {l : LcLine} (hctr : s.ctr lpn k < 0xFFFFFFFFFFFFFF00) (hi : i < 8)
    (hl : s.lcOf (64 * lpn + 8 * k + i) = some l) (lost : List (Nat × Nat)) :
    (((rawStored s lpn k lost).cleanSector lpn k).lcOf (64 * lpn + 8 * k + i)).map (fun x => x.dirty) = some false := by
  have hkept : (rawStored s lpn k lost).lcOf (64 * lpn + 8 * k + i) = some l := by
    rw [State.lcOf, coh_rawStored hctr]
    exact hl
  rw [lcOf_cleanSector _ _ _ (by omega), hkept]
  rfl

theorem twinLost_of_none {s : State} (h : s.coh.twins = []) (sec : Nat) : s.twinLost sec = s := by
  simp [State.twinLost, h]

/-! ### A Furnace page without a twin, on channels in service -/

/-- Every channel of a page's places is one of the 16. -/
theorem lt_of_mem_chs {s : State} {p : Page} {c : Nat} (hc : c ∈ s.primChs p ++ s.twinChs p) : c < 16 := by
  simp only [State.primChs, State.twinChs, List.mem_append, List.mem_map] at hc
  rcases hc with (⟨_, _, rfl⟩ | ⟨_, _, rfl⟩) | ⟨_, _, rfl⟩ <;> exact chanOf_lt ..

/-- A Furnace page without a twin that nothing keeps a write-back from: no move, no channel out of service, no key, leaf or counter that is missing. -/
structure FurnaceWritable (s : State) (lpn : Nat) : Prop where
  tier : (s.page lpn).pl.tier = 1
  twk : (s.page lpn).pl.twk = 0
  lock : (s.page lpn).pl.lock = false
  serve : ∀ c < 16, s.chState c = 2
  key : s.slotActive (s.page lpn).pl.ks = true
  leaf : s.unverif lpn = false
  ctrs : ∀ j < 8, s.ctr lpn j < 0xFFFFFFFFFFFFFF00

namespace FurnaceWritable
variable {s : State} {lpn k : Nat} (h : FurnaceWritable s lpn)
include h

theorem wbWaits_eq_false : s.wbWaits (s.page lpn) = false := by
  have hnone : (s.primChs (s.page lpn) ++ s.twinChs (s.page lpn)).any (fun c => s.chState c == 3 || s.chState c == 5) = false := by
    rw [List.any_eq_false]
    intro c hc
    simp [h.serve c (lt_of_mem_chs hc)]
  simp [State.wbWaits, hnone, h.tier, h.lock]

theorem noneHeld : (s.primChs (s.page lpn)).filter s.heldCh = [] := by
  rw [List.filter_eq_nil_iff]
  intro c hc
  simp [State.heldCh, h.serve c (lt_of_mem_chs (List.mem_append_left _ hc))]

/-- A dirty sector is read, merged and written. -/
theorem writeBack_eq_writeSector (hdirty : s.dirtyLines lpn k ≠ []) (w : WbIn) : s.writeBack lpn k w = s.writeSector lpn k w := by
  simp [State.writeBack, hdirty, h.wbWaits_eq_false, h.tier, hasImage, h.key, h.leaf, exhaustBlocked_of_lt h.ctrs]

/-- The sector goes to media in place, and its lines become clean (R181, R224). -/
theorem writeSector_eq (hk : k < 8) (w : WbIn) : s.writeSector lpn k w = (rawStored s lpn k w.lost).cleanSector lpn k := by
  have hpage : (rawStored s lpn k w.lost).page lpn = s.page lpn := page_rawStored (h.ctrs k hk) w.lost
  have himage : hasImage ((rawStored s lpn k w.lost).tier lpn) = true := by rw [State.tier, hpage, h.tier]; rfl
  have hzero : ((rawStored s lpn k w.lost).cleanSector lpn k).allZero lpn = false := by simp [State.allZero, hpage, h.tier]
  have hraw : isRaw (s.page lpn).pl = true := by simp [isRaw, h.tier]
  simp only [rawStored, mergedSector] at himage hzero
  simp [State.writeSector, rawStored, mergedSector, h.twk, h.tier, h.noneHeld, hraw, himage, hzero]

/-- The event ends with the sector on media and clean: no writer of it waits for a twin. -/
theorem sectorWriteback_eq (hrun : s.halt = none) (htwins : s.coh.twins = []) (hk : k < 8) (hdirty : s.dirtyLines lpn k ≠ []) (w : WbIn) :
    s.sectorWriteback lpn k w = (rawStored s lpn k w.lost).cleanSector lpn k := by
  have hwritten : s.writeBack lpn k w = (rawStored s lpn k w.lost).cleanSector lpn k :=
    (h.writeBack_eq_writeSector hdirty w).trans (h.writeSector_eq hk w)
  have hpage : ((rawStored s lpn k w.lost).cleanSector lpn k).page lpn = s.page lpn := by rw [page_cleanSector, page_rawStored (h.ctrs k hk)]
  have hnone : ((rawStored s lpn k w.lost).cleanSector lpn k).coh.twins = [] := by
    rw [twins_cleanSector, coh_rawStored (h.ctrs k hk)]
    exact htwins
  simp [State.sectorWriteback, hrun, htwins, hwritten, dirtyLines_cleanSector, hpage, h.twk, twinLost_of_none hnone]

end FurnaceWritable

/-! ### The write-back as an event -/

@[simp] theorem pg_uncharged (s : State) : s.uncharged.pg = s.pg := rfl

@[simp] theorem lcOf_uncharged (s : State) (line : Nat) : s.uncharged.lcOf line = s.lcOf line := rfl

/-- A write-back begins with its reads; with what they lost, the sector is written back (R224). -/
theorem wbStep_of_reads {s : State} {lpn k d : Nat} {r : List Nat} {c : LcLine} {body : List Byte} {hint : Nat} {f f2 : Fetch} {lost : List (Nat × Nat)}
    (hrun : s.halt = none) (hdirty : s.dirtyLines lpn k = d :: r) (hline : s.lcOf d = some c)
    (hreads : ((s.underFor (s.ownAttr none lpn c.cls) 4).wbReads lpn k f f2).2 = some lost) : s.wbStep lpn k body hint f f2 =
      (((s.underFor (s.ownAttr none lpn c.cls) 4).wbReads lpn k f f2).1.sectorWriteback lpn k { body := body, hint := hint, lost := lost }).uncharged := by
  have hpair : (s.underFor (s.ownAttr none lpn c.cls) 4).wbReads lpn k f f2 =
    (((s.underFor (s.ownAttr none lpn c.cls) 4).wbReads lpn k f f2).1, some lost) := Prod.ext rfl hreads
  rw [State.wbStep, if_neg (by simp [hrun])]
  simp only [hdirty, hline]
  rw [hpair]

/-- Settles O5: the reads of the event end in a state where its write-back is `rawStored`, which stores the merged sector (`read_rawStored`), with the
lines then clean (`clean_rawStored`). -/
theorem rawWriteBackStoresTheLine : Obligations.RawWriteBackStoresTheLine := by
  unfold Obligations.RawWriteBackStoresTheLine
  rintro s u lpn k i l body hint f f2 d r c _ lost hrun hdirtyLines hline rfl hreads hu hrunning htwins htier htwk hlock hserve hkey hleaf hctr hl
    hdirty hprov hpoison
  have hpage : FurnaceWritable u lpn.val := ⟨htier, htwk, hlock, hserve, hkey, hleaf, hctr⟩
  have hsome : u.dirtyLines lpn.val k.val ≠ [] := List.ne_nil_of_mem (mem_dirtyLines i.isLt hl hdirty hprov)
  have hwritten := hpage.sectorWriteback_eq hrunning htwins k.isLt hsome { body := body, hint := hint, lost := lost }
  dsimp only at hwritten
  have hread := read_rawStored i.isLt hl hprov hpoison lost
  refine ⟨_, by rw [exec_sectorWriteback, wbStep_of_reads hrun hdirtyLines hline hreads, ← hu, hwritten], ?_, ?_⟩
  · rw [pg_uncharged, pg_cleanSector]
    exact hread
  · rw [lcOf_uncharged]
    exact clean_rawStored (hctr k k.isLt) i.isLt hl lost

end Sys2Proof.Proofs.AccessPaths

/-!
PROOFS of the statements of the inline compression: what the encoder stores under VERIFY (R206, R210, R219, R220), and the frit trainer, the frit store and
the patrol scrubber (R213-R218, R230, R231, R326).
-/
namespace Sys2Proof.Proofs.InlineCompression
open Sys2Proof Sys2Proof.Machine

/-! ### Numbers and their bytes (R17) -/

theorem leNat_nil : leNat [] = 0 := rfl

theorem leNat_cons (b : Byte) (bs : List Byte) : leNat (b :: bs) = b.toNat + 256 * leNat bs := rfl

theorem leNat_lt (bs : List Byte) : leNat bs < 256 ^ bs.length := by
  induction bs with
  | nil => exact Nat.one_pos
  | cons b bs ih =>
    have hb := b.isLt
    rw [leNat_cons, List.length_cons, Nat.pow_succ]
    omega

theorem leNat_inj {bs cs : List Byte} (hlen : bs.length = cs.length) (h : leNat bs = leNat cs) : bs = cs := by
  induction bs generalizing cs with
  | nil => exact (List.length_eq_zero_iff.mp hlen.symm).symm
  | cons b bs ih =>
    cases cs with
    | nil => exact absurd hlen (Nat.succ_ne_zero _)
    | cons c cs =>
      have hb := b.isLt
      have hc := c.isLt
      rw [leNat_cons, leNat_cons] at h
      have hhead : b = c := BitVec.eq_of_toNat_eq (by omega)
      rw [hhead, ih (Nat.succ.inj hlen) (by omega)]

theorem leNat_append_singleton (bs : List Byte) (b : Byte) : leNat (bs ++ [b]) = leNat bs + 256 ^ bs.length * b.toNat := by
  induction bs with
  | nil => rw [List.nil_append, leNat_cons, leNat_nil, List.length_nil, Nat.pow_zero, Nat.one_mul, Nat.mul_zero, Nat.add_zero, Nat.zero_add]
  | cons c bs ih =>
    rw [List.cons_append, leNat_cons, ih, leNat_cons, List.length_cons, Nat.pow_succ, Nat.mul_comm (256 ^ bs.length) 256, Nat.mul_assoc]
    omega

@[simp] theorem length_natBytes (n v : Nat) : (natBytes n v).length = n := by simp [natBytes]

theorem natBytes_succ (n v : Nat) : natBytes (n + 1) v = natBytes n v ++ [BitVec.ofNat 8 (v / 256 ^ n)] := by
  simp [natBytes, List.range_succ]

theorem leNat_natBytes (n v : Nat) : leNat (natBytes n v) = v % 256 ^ n := by
  induction n with
  | zero => exact (Nat.mod_one v).symm
  | succ n ih => rw [natBytes_succ, leNat_append_singleton, ih, length_natBytes, Nat.mod_pow_succ, BitVec.toNat_ofNat]

theorem natBytes_inj {n v v₂ : Nat} (hv : v < 256 ^ n) (hv₂ : v₂ < 256 ^ n) (h : natBytes n v = natBytes n v₂) : v = v₂ := by
  have hle := congrArg leNat h
  rwa [leNat_natBytes, leNat_natBytes, Nat.mod_eq_of_lt hv, Nat.mod_eq_of_lt hv₂] at hle

theorem natBytes_leNat {n : Nat} {bs : List Byte} (hlen : bs.length = n) : natBytes n (leNat bs) = bs := by
  subst hlen
  exact leNat_inj (length_natBytes _ _) ((leNat_natBytes _ _).trans (Nat.mod_eq_of_lt (leNat_lt bs)))

/-! ### Words as bytes and as byte planes (R210) -/

/-- Every number of the list fits into w bytes. -/
def AreWords (w : Nat) (ws : List Nat) : Prop := ∀ v ∈ ws, v < 256 ^ w

theorem areWords_cons {w v : Nat} {ws : List Nat} : AreWords w (v :: ws) ↔ v < 256 ^ w ∧ AreWords w ws := List.forall_mem_cons

theorem unwords_cons (w v : Nat) (ws : List Nat) : unwords w (v :: ws) = natBytes w v ++ unwords w ws := rfl

theorem length_unwords (w : Nat) (ws : List Nat) : (unwords w ws).length = w * ws.length := by
  induction ws with
  | nil => rfl
  | cons v ws ih => rw [unwords_cons, List.length_append, length_natBytes, ih, List.length_cons, Nat.mul_succ, Nat.add_comm]

theorem unwords_inj {w : Nat} {ws vs : List Nat} (hlen : ws.length = vs.length) (hws : AreWords w ws) (hvs : AreWords w vs)
    (h : unwords w ws = unwords w vs) : ws = vs := by
  induction ws generalizing vs with
  | nil => exact (List.length_eq_zero_iff.mp hlen.symm).symm
  | cons x ws ih =>
    cases vs with
    | nil => exact absurd hlen (Nat.succ_ne_zero _)
    | cons y vs =>
      obtain ⟨hx, hws⟩ := areWords_cons.mp hws
      obtain ⟨hy, hvs⟩ := areWords_cons.mp hvs
      rw [unwords_cons, unwords_cons] at h
      obtain ⟨hhead, htail⟩ := List.append_inj h (by simp)
      rw [natBytes_inj hx hy hhead, ih (Nat.succ.inj hlen) hws hvs htail]

/-- Bytes of n words of w bytes are the bytes of some n words. -/
theorem exists_unwords {w n : Nat} {bs : List Byte} (hlen : bs.length = w * n) : ∃ ws, ws.length = n ∧ AreWords w ws ∧ unwords w ws = bs := by
  induction n generalizing bs with
  | zero => exact ⟨[], rfl, List.forall_mem_nil _, (List.length_eq_zero_iff.mp hlen).symm⟩
  | succ n ih =>
    rw [Nat.mul_succ] at hlen
    obtain ⟨ws, hn, hws, heq⟩ := ih (bs := bs.drop w) (by rw [List.length_drop]; omega)
    have htake : (bs.take w).length = w := by rw [List.length_take]; omega
    have hword : leNat (bs.take w) < 256 ^ w := Nat.lt_of_lt_of_eq (leNat_lt (bs.take w)) (congrArg (256 ^ ·) htake)
    refine ⟨leNat (bs.take w) :: ws, congrArg (· + 1) hn, areWords_cons.mpr ⟨hword, hws⟩, ?_⟩
    rw [unwords_cons, natBytes_leNat htake, heq, List.take_append_drop]

/-- The bytes of word i in the planes of n words of w bytes, low byte first. -/
def planeBytes (w n : Nat) (bs : List Byte) (i : Nat) : List Byte := (List.range w).map (fun j => bs.getD (n * j + i) 0)

@[simp] theorem length_planeBytes (w n : Nat) (bs : List Byte) (i : Nat) : (planeBytes w n bs i).length = w := by simp [planeBytes]

theorem planeBytes_succ (w n : Nat) (bs : List Byte) (i : Nat) :
    planeBytes (w + 1) n bs i = planeBytes w n bs i ++ [bs.getD (n * w + i) 0] := by
  simp [planeBytes, List.range_succ]

/-- A word of the planes is the number whose bytes are `planeBytes`. -/
theorem foldl_planes_eq_leNat (w n : Nat) (bs : List Byte) (i : Nat) :
    (List.range w).foldl (fun a j => a + (bs.getD (n * j + i) 0).toNat * 256 ^ j) 0 = leNat (planeBytes w n bs i) := by
  induction w with
  | zero => rfl
  | succ w ih =>
    rw [List.range_succ, List.foldl_append, ih, planeBytes_succ, leNat_append_singleton, length_planeBytes, Nat.mul_comm (256 ^ w)]
    rfl

theorem unplane_eq (w n : Nat) (bs : List Byte) : unplane w n bs = (List.range n).map (fun i => leNat (planeBytes w n bs i)) := by
  simp only [unplane, foldl_planes_eq_leNat]

@[simp] theorem length_unplane (w n : Nat) (bs : List Byte) : (unplane w n bs).length = n := by simp [unplane]

theorem areWords_unplane (w n : Nat) (bs : List Byte) : AreWords w (unplane w n bs) := by
  rw [unplane_eq]
  intro v hv
  obtain ⟨i, -, rfl⟩ := List.mem_map.mp hv
  simpa using leNat_lt (planeBytes w n bs i)

/-- Byte k of the planes is byte k / n of word k % n, so equal words have equal planes. -/
theorem unplane_inj {w n : Nat} {bs cs : List Byte} (hbs : bs.length = w * n) (hcs : cs.length = w * n)
    (h : unplane w n bs = unplane w n cs) : bs = cs := by
  have hword : ∀ i < n, planeBytes w n bs i = planeBytes w n cs i := by
    intro i hi
    rw [unplane_eq, unplane_eq] at h
    exact leNat_inj (by simp) (List.map_inj_left.mp h i (List.mem_range.mpr hi))
  have hbyte : ∀ i < n, ∀ j < w, bs.getD (n * j + i) 0 = cs.getD (n * j + i) 0 := fun i hi j hj =>
    List.map_inj_left.mp (hword i hi) j (List.mem_range.mpr hj)
  refine List.ext_getElem (hbs.trans hcs.symm) fun k hk hk₂ => ?_
  have hkn : k < n * w := by rwa [hbs, Nat.mul_comm] at hk
  have hn : 0 < n := Nat.pos_of_mul_pos_right (Nat.zero_lt_of_lt hkn)
  have hat := hbyte (k % n) (Nat.mod_lt k hn) (k / n) (Nat.div_lt_of_lt_mul hkn)
  rwa [Nat.div_add_mod, ← List.getElem_eq_getD (h := hk), ← List.getElem_eq_getD (h := hk₂)] at hat

/-- The w planes of n words: plane j holds byte j of every word, in the order of the words. -/
def planes (w n : Nat) (ws : List Nat) : List Byte := (List.range (n * w)).map (fun k => BitVec.ofNat 8 (ws.getD (k % n) 0 / 256 ^ (k / n)))

theorem planes_getD {w n i j : Nat} (hi : i < n) (hj : j < w) (ws : List Nat) :
    (planes w n ws).getD (n * j + i) 0 = BitVec.ofNat 8 (ws.getD i 0 / 256 ^ j) := by
  have hk : n * j + i < n * w := calc
    n * j + i < n * j + n := Nat.add_lt_add_left hi _
    _ = n * (j + 1) := (Nat.mul_succ n j).symm
    _ ≤ n * w := Nat.mul_le_mul_left n hj
  have hmod : (n * j + i) % n = i := by rw [Nat.mul_add_mod, Nat.mod_eq_of_lt hi]
  have hdiv : (n * j + i) / n = j := by rw [Nat.mul_add_div (Nat.zero_lt_of_lt hi), Nat.div_eq_of_lt hi, Nat.add_zero]
  have hlen : n * j + i < (planes w n ws).length := by rwa [planes, List.length_map, List.length_range]
  rw [← List.getElem_eq_getD (h := hlen)]
  simp only [planes, List.getElem_map, List.getElem_range, hmod, hdiv]

theorem planeBytes_planes {w n i : Nat} (hi : i < n) (ws : List Nat) : planeBytes w n (planes w n ws) i = natBytes w (ws.getD i 0) :=
  List.map_congr_left fun _ hj => planes_getD hi (List.mem_range.mp hj) ws

/-- Words are read back from their planes. -/
theorem unplane_planes {w n : Nat} {ws : List Nat} (hlen : ws.length = n) (hws : AreWords w ws) : unplane w n (planes w n ws) = ws := by
  rw [unplane_eq]
  refine List.ext_getElem (by rw [List.length_map, List.length_range, hlen]) fun i _ hi => ?_
  rw [List.getElem_map, List.getElem_range, planeBytes_planes (hlen ▸ hi), leNat_natBytes, ← List.getElem_eq_getD (h := hi),
    Nat.mod_eq_of_lt (hws _ (List.getElem_mem hi))]

/-! ### The predictions are bijections (R210) -/

/-- A map of lists of words of w bytes that keeps the length and the word size, takes no two lists to one and reaches every list. -/
structure BijectiveOnWords (w : Nat) (f : List Nat → List Nat) : Prop where
  length : ∀ rs, (f rs).length = rs.length
  words : ∀ rs, AreWords w rs → AreWords w (f rs)
  inj : ∀ rs qs, AreWords w rs → AreWords w qs → f rs = f qs → rs = qs
  onto : ∀ vs, AreWords w vs → ∃ rs, AreWords w rs ∧ f rs = vs

/-- A prediction undone word by word: each word is `next` of the word before it and its residual. -/
def undo (next : Nat → Nat → Nat) : Nat → List Nat → List Nat
  | _, [] => []
  | p, r :: rs => next p r :: undo next (next p r) rs

section
variable {w : Nat} {next : Nat → Nat → Nat}

theorem length_undo (p : Nat) (rs : List Nat) : (undo next p rs).length = rs.length := by
  induction rs generalizing p with
  | nil => rfl
  | cons r rs ih => rw [undo, List.length_cons, ih, List.length_cons]

theorem areWords_undo (hword : ∀ p r, p < 256 ^ w → r < 256 ^ w → next p r < 256 ^ w) {p : Nat} {rs : List Nat} (hp : p < 256 ^ w)
    (hrs : AreWords w rs) : AreWords w (undo next p rs) := by
  induction rs generalizing p with
  | nil => exact hrs
  | cons r rs ih =>
    obtain ⟨hr, htail⟩ := areWords_cons.mp hrs
    exact areWords_cons.mpr ⟨hword p r hp hr, ih (hword p r hp hr) htail⟩

theorem undo_inj (hone : ∀ p r q, r < 256 ^ w → q < 256 ^ w → next p r = next p q → r = q) {p : Nat} {rs qs : List Nat}
    (hrs : AreWords w rs) (hqs : AreWords w qs) (h : undo next p rs = undo next p qs) : rs = qs := by
  induction rs generalizing p qs with
  | nil =>
    cases qs with
    | nil => rfl
    | cons q qs => cases h
  | cons r rs ih =>
    cases qs with
    | nil => cases h
    | cons q qs =>
      obtain ⟨hr, hrs'⟩ := areWords_cons.mp hrs
      obtain ⟨hq, hqs'⟩ := areWords_cons.mp hqs
      obtain ⟨hhead, htail⟩ := List.cons.inj h
      obtain rfl : r = q := hone p r q hr hq hhead
      rw [ih hrs' hqs' htail]

theorem undo_onto (hword : ∀ p r, p < 256 ^ w → r < 256 ^ w → next p r < 256 ^ w)
    (honto : ∀ p v, p < 256 ^ w → v < 256 ^ w → ∃ r, r < 256 ^ w ∧ next p r = v) {p : Nat} {vs : List Nat} (hp : p < 256 ^ w)
    (hvs : AreWords w vs) : ∃ rs, AreWords w rs ∧ undo next p rs = vs := by
  induction vs generalizing p with
  | nil => exact ⟨[], hvs, rfl⟩
  | cons v vs ih =>
    obtain ⟨hv, htail⟩ := areWords_cons.mp hvs
    obtain ⟨r, hr, rfl⟩ := honto p v hp hv
    obtain ⟨rs, hrs, rfl⟩ := ih (hword p r hp hr) htail
    exact ⟨r :: rs, areWords_cons.mpr ⟨hr, hrs⟩, rfl⟩

theorem bijective_undo (hword : ∀ p r, p < 256 ^ w → r < 256 ^ w → next p r < 256 ^ w)
    (hone : ∀ p r q, r < 256 ^ w → q < 256 ^ w → next p r = next p q → r = q)
    (honto : ∀ p v, p < 256 ^ w → v < 256 ^ w → ∃ r, r < 256 ^ w ∧ next p r = v) : BijectiveOnWords w (undo next 0) where
  length := length_undo 0
  words _ := areWords_undo hword (Nat.pow_pos (by decide))
  inj _ _ := undo_inj hone
  onto _ := undo_onto hword honto (Nat.pow_pos (by decide))

end

theorem unxor_eq_undo (p : Nat) (rs : List Nat) : unxor p rs = undo (fun p r => r ^^^ p) p rs := by
  induction rs generalizing p with
  | nil => rfl
  | cons r rs ih => exact congrArg (_ :: ·) (ih _)

theorem xor_lt_word {w p r : Nat} (hp : p < 256 ^ w) (hr : r < 256 ^ w) : r ^^^ p < 256 ^ w := by
  have hpow : 256 ^ w = 2 ^ (8 * w) := Nat.pow_mul 2 8 w ▸ rfl
  rw [hpow] at hp hr ⊢
  exact Nat.xor_lt_two_pow hr hp

theorem xor_xor_self (r p : Nat) : (r ^^^ p) ^^^ p = r := by rw [Nat.xor_assoc, Nat.xor_self, Nat.xor_zero]

theorem xor_inj {p r q : Nat} (h : r ^^^ p = q ^^^ p) : r = q := by
  rw [← xor_xor_self r p, h, xor_xor_self]

theorem bijective_unxor (w : Nat) : BijectiveOnWords w (unxor 0) := by
  rw [funext (unxor_eq_undo 0)]
  exact bijective_undo (fun _ _ => xor_lt_word) (fun _ _ _ _ _ => xor_inj) fun p v hp hv => ⟨v ^^^ p, xor_lt_word hp hv, xor_xor_self v p⟩

/-- The word after p whose zig-zag difference is r, as `undelta` has it. -/
def addZigzag (p r : Nat) : Nat := (p + (if r % 2 = 1 then 2 ^ 32 - 1 - r / 2 else r / 2)) % 2 ^ 32

/-- Even residuals are the differences of the lower half, odd ones those of the upper, each half in order. -/
theorem addZigzag_inj {p r q : Nat} (hr : r < 256 ^ 4) (hq : q < 256 ^ 4) (h : addZigzag p r = addZigzag p q) : r = q := by
  unfold addZigzag at h
  split at h <;> split at h <;> omega

/-- The residual of the difference v − p: twice a difference of the lower half, the odd numbers counting down from the top. -/
theorem exists_addZigzag {p v : Nat} (hp : p < 256 ^ 4) (hv : v < 256 ^ 4) : ∃ r, r < 256 ^ 4 ∧ addZigzag p r = v := by
  by_cases hlow : (v + 2 ^ 32 - p) % 2 ^ 32 < 2 ^ 31
  · refine ⟨2 * ((v + 2 ^ 32 - p) % 2 ^ 32), by omega, ?_⟩
    rw [addZigzag, if_neg (by omega)]
    omega
  · refine ⟨2 * (2 ^ 32 - 1 - (v + 2 ^ 32 - p) % 2 ^ 32) + 1, by omega, ?_⟩
    rw [addZigzag, if_pos (by omega)]
    omega

theorem undelta_eq_undo (p : Nat) (rs : List Nat) : undelta p rs = undo addZigzag p rs := by
  induction rs generalizing p with
  | nil => rfl
  | cons r rs ih => exact congrArg (_ :: ·) (ih _)

theorem bijective_undelta : BijectiveOnWords 4 (undelta 0) := by
  rw [funext (undelta_eq_undo 0)]
  exact bijective_undo (fun _ _ _ _ => Nat.mod_lt _ (by decide)) (fun _ _ _ => addZigzag_inj) fun _ _ => exists_addZigzag

/-! ### The residual of a sector (R210) -/

/-- The inverse of a prediction by words of w bytes, n to a sector: planes to words, the prediction undone, words to bytes. -/
def unpredictWords (w n : Nat) (f : List Nat → List Nat) (res : List Byte) : List Byte := unwords w (f (unplane w n res))

theorem unpredict_eq_unpredictWords {mode : Nat} (h : mode = 4 ∨ mode = 5 ∨ mode = 6) :
    ∃ w n f, w * n = 512 ∧ BijectiveOnWords w f ∧ unpredict mode = unpredictWords w n f := by
  obtain rfl | rfl | rfl := h
  · exact ⟨8, 64, unxor 0, rfl, bijective_unxor 8, rfl⟩
  · exact ⟨4, 128, unxor 0, rfl, bijective_unxor 4, rfl⟩
  · exact ⟨4, 128, undelta 0, rfl, bijective_undelta, rfl⟩

section
variable {w n : Nat} {f : List Nat → List Nat} (hf : BijectiveOnWords w f)
include hf

theorem unpredictWords_inj {res res₂ : List Byte} (hres : res.length = w * n) (hres₂ : res₂.length = w * n)
    (h : unpredictWords w n f res = unpredictWords w n f res₂) : res = res₂ := by
  have hwords := areWords_unplane w n
  have hpred := unwords_inj (by simp only [hf.length, length_unplane]) (hf.words _ (hwords res)) (hf.words _ (hwords res₂)) h
  exact unplane_inj hres hres₂ (hf.inj _ _ (hwords res) (hwords res₂) hpred)

theorem exists_unpredictWords {sec : List Byte} (hsec : sec.length = w * n) :
    ∃ res : List Byte, res.length = w * n ∧ unpredictWords w n f res = sec := by
  obtain ⟨ws, hlen, hws, rfl⟩ := exists_unwords hsec
  obtain ⟨rs, hrs, rfl⟩ := hf.onto ws hws
  rw [hf.length] at hlen
  refine ⟨planes w n rs, ?_, ?_⟩
  · rw [planes, List.length_map, List.length_range, Nat.mul_comm]
  · rw [unpredictWords, unplane_planes hlen hrs]

end

theorem unpredict_inj {mode : Nat} (hmode : mode = 4 ∨ mode = 5 ∨ mode = 6) {res res₂ : List Byte} (hres : res.length = 512)
    (hres₂ : res₂.length = 512) (h : unpredict mode res = unpredict mode res₂) : res = res₂ := by
  obtain ⟨w, n, f, hsize, hf, hmode⟩ := unpredict_eq_unpredictWords hmode
  rw [hmode] at h
  exact unpredictWords_inj hf (hres.trans hsize.symm) (hres₂.trans hsize.symm) h

/-- The residual that the encoder's prediction gives a sector, from its words and their planes. -/
theorem exists_residual {mode : Nat} (hmode : mode = 4 ∨ mode = 5 ∨ mode = 6) {sec : List Byte} (hsec : sec.length = 512) :
    ∃ res : List Byte, res.length = 512 ∧ unpredict mode res = sec := by
  obtain ⟨w, n, f, hsize, hf, hmode⟩ := unpredict_eq_unpredictWords hmode
  rw [hmode, ← hsize]
  exact exists_unpredictWords hf (hsec.trans hsize.symm)

/-! ### Bodies (R206, R219, R220) -/

theorem decodeBody_patternBody (frit : Option Frit) {sec : List Byte} (hlen : sec.length = 512) :
    decodeBody frit (patternBody sec) = some (pattern (sec.take 8)) := by
  have htake : (sec.take 8).length = 8 := by simp [hlen]
  simp [decodeBody, patternBody, htake]

theorem decodeBody_raw (frit : Option Frit) {sec : List Byte} (hlen : sec.length = 512) : decodeBody frit ((0 : Byte) :: sec) = some sec := by
  simp [decodeBody, hlen]

/-- Under VERIFY a sector that is no pattern is stored as a body that decodes to it, or RAW. -/
theorem encodeSector_verify_cases (pol : Nat) (frit : Option Frit) {sec : List Byte} (body : List Byte) (hpat : isPattern sec = false) :
    (encodeSector pol frit true sec body).1 = (0 : Byte) :: sec ∨
      (encodeSector pol frit true sec body).1 = body ∧ decodeBody frit body = some sec := by
  rw [encodeSector, if_neg (by simp [hpat])]
  dsimp only
  split
  · exact .inl rfl
  · split
    next hdec => exact .inr ⟨rfl, hdec⟩
    next => exact .inl rfl

theorem decodeBody_encodeSector (pol : Nat) (frit : Option Frit) {sec : List Byte} (body : List Byte) (hlen : sec.length = 512) :
    decodeBody frit (encodeSector pol frit true sec body).1 = some sec := by
  cases hpat : isPattern sec with
  | true =>
    have hsec : sec = pattern (sec.take 8) := beq_iff_eq.mp hpat
    rw [encodeSector, if_pos hpat, decodeBody_patternBody frit hlen, ← hsec]
  | false =>
    obtain hraw | ⟨hbody, hdec⟩ := encodeSector_verify_cases pol frit body hpat
    · rw [hraw, decodeBody_raw frit hlen]
    · rw [hbody, hdec]

theorem decodeBody_reserved (frit : Option Frit) {m : Byte} (rest : List Byte) (hm : 8 ≤ m.toNat) : decodeBody frit (m :: rest) = none := by
  unfold decodeBody
  exact if_pos hm

/-- No body says ZERO. -/
theorem decodeBody_zero (frit : Option Frit) {m : Byte} (rest : List Byte) (hm : m.toNat = 1) : decodeBody frit (m :: rest) = none := by
  simp [decodeBody, hm]

theorem decodeBody_raw_length (frit : Option Frit) {m : Byte} {rest : List Byte} (hm : m.toNat = 0) (hlen : rest.length ≠ 512) :
    decodeBody frit (m :: rest) = none := by
  simp [decodeBody, hm, hlen]

theorem decodeBody_pattern_length (frit : Option Frit) {m : Byte} {rest : List Byte} (hm : m.toNat = 2) (hlen : rest.length ≠ 15) :
    decodeBody frit (m :: rest) = none := by
  simp [decodeBody, hm, hlen]

/-- The modes of R208 and R211, LZ to LZE, have bodies of 16 to 512 bytes. -/
theorem decodeBody_stream_length (frit : Option Frit) {m : Byte} {rest : List Byte} (hm : 3 ≤ m.toNat)
    (hlen : rest.length < 15 ∨ 511 < rest.length) : decodeBody frit (m :: rest) = none := by
  have hn : ¬(16 ≤ (m :: rest).length ∧ (m :: rest).length ≤ 512) := by rw [List.length_cons]; omega
  unfold decodeBody
  dsimp only
  split
  · rfl
  · split
    case _ hmode => omega
    case _ hmode => omega
    · rfl
    · rfl
    · rfl
    · rfl
    · split
      · exact if_neg fun h => hn ⟨h.1, h.2.1⟩
      · rfl
    · rfl

/-- Settles O31: VERIFY stores a body that decodes to the sector (`decodeBody_encodeSector`); the inverse of a predictor reaches every sector
(`exists_residual`) and takes no two residuals to one (`unpredict_inj`). -/
theorem storedSectorsDecode : Obligations.StoredSectorsDecode := by
  unfold Obligations.StoredSectorsDecode
  refine ⟨fun pol frit sec body hlen => decodeBody_encodeSector pol frit body hlen, fun mode sec hmode hlen => ?_, fun frit m rest h => ?_⟩
  · obtain ⟨res, hres, hsec⟩ := exists_residual hmode hlen
    exact ⟨res, hres, hsec, fun res₂ hres₂ hsec₂ => unpredict_inj hmode hres₂ hres (hsec₂.trans hsec.symm)⟩
  · obtain hm | hm | ⟨hm, hlen⟩ | ⟨hm, hlen⟩ | ⟨hm, hlen⟩ := h
    · exact decodeBody_reserved frit rest hm
    · exact decodeBody_zero frit rest hm
    · exact decodeBody_raw_length frit hm hlen
    · exact decodeBody_pattern_length frit hm hlen
    · exact decodeBody_stream_length frit hm hlen

/-! ### The frit trainer (R213, R217, R230, R231) -/

section
variable {s : State}

theorem exec_fritTrainStart_idle (hst : s.trainState = 0 ∨ s.trainState = 3) {n : Nat} (hn : legal .CDC_TRAIN_CTL_SAMPLES n = true)
    (f : Fin 64) (sc : Fin 256) (any : Bool) :
    exec (.fritTrainStart f sc any n) s = .next (((((((s.put .CDC_TRAIN_CTL_FRIT f.val).put .CDC_TRAIN_CTL_SCOPE sc.val).put
      .CDC_TRAIN_CTL_ANY (b2n any)).put .CDC_TRAIN_CTL_SAMPLES n).setBuilt none).put .CDC_TRAIN_STS_STATE 1).put .CDC_TRAIN_STS_SAMPLED 0) := by
  show execFritTrainStart f sc any n s = _
  rw [execFritTrainStart, State.trainStart, if_pos hst]
  dsimp only
  rw [if_pos hn]

theorem exec_fritSamplingDone_sampling (hst : s.trainState = 1) (hh : 40 ≤ s.healthy) (n : Nat) :
    exec (.fritSamplingDone n) s =
      .next ((s.put .CDC_TRAIN_STS_SAMPLED (min n (s.get .CDC_TRAIN_CTL_SAMPLES))).put .CDC_TRAIN_STS_STATE 2) := by
  show execFritSamplingDone n s = _
  rw [execFritSamplingDone, if_pos ⟨hst, hh⟩]

theorem exec_fritBuildDone_failed (hst : s.trainState = 2) (hh : 40 ≤ s.healthy) (lit ctl : List Nat) (d : List Byte) (lz lze : Nat) :
    exec (.fritBuildDone lit ctl d lz lze true) s = .next ((s.put .CDC_TRAIN_STS_STATE 0).report (msg1 bCdc 16 7)) := by
  show execFritBuildDone lit ctl d lz lze true s = _
  rw [execFritBuildDone, if_neg (by omega), if_pos (.inl rfl)]

theorem exec_fritBuildDone_valid (hst : s.trainState = 2) (hh : 40 ≤ s.healthy) {lit ctl : List Nat} {d : List Byte}
    (hlit : validTable lit = true) (hctl : validTable ctl = true) (hd : d.length = 4096) (lz lze : Nat) {any : Bool}
    (hany : any = (s.isSet .CDC_TRAIN_CTL_ANY && s.isSet .CDC_CTL_XSCOPE)) :
    exec (.fritBuildDone lit ctl d lz lze false) s =
      .next ((((s.setBuilt (some { ver := 0, oneTc := !any, scope := if any then 0 else s.get .CDC_TRAIN_CTL_SCOPE, lit := lit, ctl := ctl
                                   dict := d, nsamp := s.get .CDC_TRAIN_STS_SAMPLED })).put
        .CDC_TRAIN_STS_STATE 3).put .CDC_TRAIN_STS_RATIO_LZ (min lz 2047)).put .CDC_TRAIN_STS_RATIO_LZE (min lze 2047)) := by
  show execFritBuildDone lit ctl d lz lze false s = _
  rw [execFritBuildDone, if_neg (by omega), if_neg (by simp [hlit, hctl, hd]), hany]

/-! ### The frit store (R214, R215, R218) -/

theorem exec_fritCommit_running (hrun : s.halt = none) : exec .fritCommit s = .next s.fritCommit := by
  show execFritCommit s = _
  rw [execFritCommit, if_neg (by simp [hrun])]

/-- A frit goes into a slot of the store with its version, and leaves the trainer. -/
def storeFrit (s : State) (f slot ver : Nat) (x : Frit) : State :=
  { s with cdc := { s.cdc with store := tput (2 * f + slot) { x with ver := ver } s.cdc.store, built := none } }

/-- The registers of a frit name the slot that has just been stored as current, and the trainer is IDLE. -/
def nameCurrent (s : State) (f slot ver : Nat) (x : Frit) : State :=
  (((((s.put (verReg slot) ver f).put .CDC_FRIT_STS_CUR slot f).put .CDC_FRIT_STS_SCOPED (b2n x.oneTc) f).put
    .CDC_FRIT_STS_SCOPE x.scope f).put .CDC_TRAIN_STS_REFUSED 0).put .CDC_TRAIN_STS_STATE 0

theorem fritCommit_free {x : Frit} {f cur : Nat} (hst : s.trainState = 3) (hx : s.cdc.built = some x) (hf : f = s.get .CDC_TRAIN_CTL_FRIT)
    (hcur : cur = s.get .CDC_FRIT_STS_CUR f) (href : s.get (refReg (1 - cur)) f = 0) (hreb : s.isSet .CDC_FRIT_STS_REBUILD f = false) :
    let ver := nextVer (s.fritVerAt f cur)
    s.fritCommit = (((((nameCurrent (storeFrit s f (1 - cur) ver x) f (1 - cur) ver x).emptySlot f cur).fritDrop (2 * f + (1 - cur))).writeSlot
      (2 * f + (1 - cur)) 80).spoilIf (fun p => p.frit == f)) := by
  subst hcur hf
  simp only [State.fritCommit, hst, hx]
  rw [if_neg (by simp [href, hreb])]
  rfl

theorem fritCommit_referenced {x : Frit} (hst : s.trainState = 3) (hx : s.cdc.built = some x)
    (href : s.get (refReg (1 - s.get .CDC_FRIT_STS_CUR (s.get .CDC_TRAIN_CTL_FRIT))) (s.get .CDC_TRAIN_CTL_FRIT) ≠ 0) :
    s.fritCommit = s.put .CDC_TRAIN_STS_REFUSED 1 := by
  simp only [State.fritCommit, hst, hx]
  rw [if_pos (.inl href)]

theorem exec_fritRefWriteback_running (hrun : s.halt = none) : exec .fritRefWriteback s = .next s.saveRefs := by
  show execFritRefWriteback s = _
  rw [execFritRefWriteback, if_neg (by simp [hrun])]

/-- The counts of frit f as the sweep has them, its REBUILD cleared, and slots that are neither current nor referenced emptied. -/
def rebuiltFrit (refs : Tab Nat) (s : State) (f : Nat) : State :=
  ((((s.put .CDC_FRIT_REF0_REF (tgetD 0 (2 * f) refs) f).put .CDC_FRIT_REF1_REF (tgetD 0 (2 * f + 1) refs) f).put
    .CDC_FRIT_STS_REBUILD 0 f).emptySlot f 0).emptySlot f 1

theorem exec_fritRefRebuildDone_pending (hreb : s.isSet .CDC_FRIT_STS_REBUILD 0 = true)
    (hport : s.pg.pages.any (fun x => x.2.pl.tier == 4 && !s.portUp (locPort x.2.pl.ma)) = false) :
    exec .fritRefRebuildDone s = .next ((List.range 64).foldl (rebuiltFrit s.countRefs) s) := by
  show execFritRefRebuildDone s = _
  rw [execFritRefRebuildDone]
  exact if_neg (by simp only [hreb, hport, not_true, Bool.false_eq_true, or_self, not_false_eq_true])

/-! ### The patrol scrubber (R326) -/

/-- The line that a pass over channel c reads next. -/
def scrubLine (s : State) (c : Nat) : Nat := 4 * s.maOf c (tgetD 0 c s.ecc.scrubAt / 4) + tgetD 0 c s.ecc.scrubAt % 4

theorem exec_scrubRead_running {c : Fin 16} (hrun : s.halt = none) (hserv : s.inService c.val = true) (hpause : s.scrubPaused c.val = false)
    (hen : bit (s.get .ECC_SCRUB_CFG_EN) c.val = true) (hcap : tgetD 0 c.val s.pg.chCap ≠ 0) (hpass : (tget c.val s.ecc.scrubFrom).isSome = true)
    (e : ReadErr) (raced : Bool) (ns : Nat) :
    let x := (s.underFor { master := some 0x10, priv := 3, lpn := lpnEnd, cls := 0, tier := 6 } 3).readLine (scrubLine s c.val) e
      (s.markedLa (scrubLine s c.val))
    exec (.scrubRead c e raced ns) s = .next (((x.1.scrubOut (scrubLine s c.val) x.2 raced).scrubStep c.val ns).uncharged) := by
  have hlines : 4 * tgetD 0 c.val s.pg.chCap ≠ 0 := Nat.mul_ne_zero (by decide) hcap
  have hfrom : ¬(tget c.val s.ecc.scrubFrom).isNone = true := by simpa using Option.isSome_iff_ne_none.mp hpass
  show execScrubRead c e raced ns s = _
  rw [execScrubRead]
  dsimp only
  rw [if_neg (by simp [hrun, hserv, hpause, hen, hlines]), if_neg hfrom]
  rfl

end

/-- Settles O8: each event by its equation, in the order of the statement. -/
theorem fritsAndScrub : Obligations.FritsAndScrub := by
  unfold Obligations.FritsAndScrub
  refine ⟨fun s f sc any n hst hn => exec_fritTrainStart_idle hst hn f sc any,
    fun s n hst hh => exec_fritSamplingDone_sampling hst hh n,
    fun s lit ctl d lz lze any hst hh hlit hctl hd hany => exec_fritBuildDone_valid hst hh hlit hctl hd lz lze hany,
    fun s lit ctl d lz lze hst hh => exec_fritBuildDone_failed hst hh lit ctl d lz lze, ?commit, ?refused,
    fun s => rfl, fun s hrun => exec_fritRefWriteback_running hrun,
    fun s hreb hport => exec_fritRefRebuildDone_pending hreb hport, ?scrub⟩
  case commit =>
    rintro s _ _ x f cur hrun hst hx hf hcur href hreb rfl rfl
    rw [exec_fritCommit_running hrun, fritCommit_free hst hx hf hcur href hreb]
    rfl
  case refused =>
    intro s x hrun hst hx href
    rw [exec_fritCommit_running hrun, fritCommit_referenced hst hx href]
  case scrub =>
    rintro s c raced ns e _ hrun hserv hpause hen hcap hpass rfl
    exact exec_scrubRead_running hrun hserv hpause hen hcap hpass e raced ns

end Sys2Proof.Proofs.InlineCompression

/-!
PROOFS of the statements of the tiering chapter: the `tier` commands (R241, R250, R263-R265).
-/
namespace Sys2Proof.Proofs.Tiering
open Sys2Proof Sys2Proof.Machine Sys2Proof.Proofs.Pyryx Sys2Proof.Proofs.Translation

/-! ### The queues of moves (R246) -/

/-- From `s` to `t` only registers and the queues of moves changed. -/
def OnlyQueues (s t : State) : Prop :=
  { s with regs := t.regs, pg := { s.pg with promoQ := t.pg.promoQ, demoQ := t.pg.demoQ, forcedQ := t.pg.forcedQ } } = t

namespace OnlyQueues

theorem of_ite {s t u : State} {c : Prop} [Decidable c] (h : OnlyQueues s t) (k : OnlyQueues s u) : OnlyQueues s (if c then t else u) := by
  split <;> assumption

theorem setQueue (s : State) (k n : Nat) (l : List MoveReq) : OnlyQueues s (s.setQueue k n l) := by
  unfold State.setQueue
  split <;> rfl

theorem enqueue (s : State) (k : Nat) (r : MoveReq) : OnlyQueues s (s.enqueue k r) :=
  of_ite rfl (of_ite (setQueue ..) rfl)

variable {s t : State} (h : OnlyQueues s t)
include h

theorem mem_eq : t.pg.mem = s.pg.mem := by rw [← h]

theorem opPages_eq : t.pg.opPages = s.pg.opPages := by rw [← h]

theorem page_eq (lpn : Nat) : t.page lpn = s.page lpn := by rw [← h]; rfl

end OnlyQueues

/-! ### A page is pinned (R265) -/

/-- PIN of a page is set or cleared. -/
def putPin (s : State) (lpn : Nat) (v : Bool) : State := s.putPage lpn { s.page lpn with pl := { (s.page lpn).pl with pin := v } }

section
variable (s : State) (lpn t : Nat)

/-- The entry of an older pin of the page has left the forced queue of its home. -/
def unqueuePin : State :=
  s.setQueue 2 (s.home lpn) ((s.queue 2 (s.home lpn)).filter (fun r => !(r.lpn == lpn && r.cls == 4)))

/-- An operation waits for the page. -/
def listPage (o : OpPage) : State := { s with pg := { s.pg with opPages := s.pg.opPages ++ [o] } }

theorem pinPage_in_place (h : s.tier lpn = s.pinTarget lpn t) : s.pinPage lpn t = putPin s lpn true := if_pos h

theorem pinPage_moves (h : s.tier lpn ≠ s.pinTarget lpn t) :
    s.pinPage lpn t = (listPage (unqueuePin (putPin s lpn true) lpn) ⟨s.nextHandle, lpn, false, s.pinTarget lpn t⟩).enqueue 2
      { lpn := lpn, ver := (s.page lpn).pl.ver, cls := 4, target := s.pinTarget lpn t } := if_neg h

theorem page_putPin (v : Bool) : ((putPin s lpn v).page lpn).pl.pin = v := by rw [putPin, page_putPage_same]

theorem pinPage_keeps_mem_and_pins : (s.pinPage lpn t).pg.mem = s.pg.mem ∧ ((s.pinPage lpn t).page lpn).pl.pin = true := by
  by_cases h : s.tier lpn = s.pinTarget lpn t
  · rw [pinPage_in_place s lpn t h]
    exact ⟨rfl, page_putPin ..⟩
  · rw [pinPage_moves s lpn t h]
    have hqueued := OnlyQueues.enqueue (listPage (unqueuePin (putPin s lpn true) lpn) ⟨s.nextHandle, lpn, false, s.pinTarget lpn t⟩) 2
      { lpn := lpn, ver := (s.page lpn).pl.ver, cls := 4, target := s.pinTarget lpn t }
    have hunqueued : OnlyQueues (putPin s lpn true) (unqueuePin (putPin s lpn true) lpn) := .setQueue ..
    refine ⟨hqueued.mem_eq.trans hunqueued.mem_eq, ?_⟩
    rw [hqueued.page_eq]
    exact (congrArg (·.pl.pin) (hunqueued.page_eq lpn)).trans (page_putPin ..)

theorem pinPage_lists_page (h : s.tier lpn ≠ s.pinTarget lpn t) :
    OpPage.mk s.nextHandle lpn false (s.pinTarget lpn t) ∈ (s.pinPage lpn t).pg.opPages := by
  rw [pinPage_moves s lpn t h, (OnlyQueues.enqueue ..).opPages_eq]
  exact List.mem_append_right _ (List.mem_singleton_self _)

end

/-! ### The commands that walk pages (R250, R263-R265)

`tier.pin` and `tier.twin` go on as an operation where their walk has listed a page under the handle that the reply will name. -/

/-- A page is listed for the operation of this handle. -/
abbrev listedUnder (s : State) (handle : Nat) : Bool := s.pg.opPages.any (fun o => o.handle == handle)

theorem no_stale_page {s : State} {l : List Nat} (h : ∀ p ∈ l, 1 ≤ s.tier p ∧ s.tier p ≤ 4) :
    l.findIdx? (fun p => !(decide (1 ≤ s.tier p ∧ s.tier p ≤ 4))) = none :=
  List.findIdx?_eq_none_iff.mpr fun p hp => by simp [h p hp]

/-- A twin kind that needs a Caravan port has one. -/
theorem has_port {s : State} {kind : Nat} (h : kind < 2 ∨ s.portUp 0 = true ∨ s.portUp 1 = true) :
    ¬(kind = 2 ∧ ¬(s.portUp 0 = true ∨ s.portUp 1 = true)) :=
  fun ⟨htwo, hdown⟩ => hdown (h.resolve_left (by omega))

section
variable {q : Req} {s s₁ u : State}

section
variable (h : Served { op := 0x0502, priv := 1, ctx := 2, fields := rangeFields ++ [fld 0x20 1] } q
    (firstBad (s.rangeChecks q ++ [(0x20, decide (par q 0x20 1 ≤ 3)),
      (0x20, !decide (1 ≤ pageCount q ∧ pageCount q ≤ 512) || (pagesOf q).all (fun p =>
        !(s.page p).pl.sh || decide (s.pinTarget p (par q 0x20 1) = 1) || !(hasImage (s.tier p)) || s.tier p == 5))])) s s₁
    (if q.ctxv then s.lpnDeny q (firstLpn q) (pageCount q) else none))
  (htier : ∀ p ∈ pagesOf q, 1 ≤ s₁.tier p ∧ s₁.tier p ≤ 4)
  (hu : u = (pagesOf q).foldl (fun (s : State) p => s.pinPage p (par q 0x20 1)) s₁)
include h htier hu

theorem completes_tierPin (hnone : listedUnder u s₁.nextHandle = false) : Completes (exec (.tierPin q) s) u q := by
  subst hu
  exact completes_of_served h (by simp only [no_stale_page htier]; exact if_neg (by simp [hnone]))

theorem starts_tierPin (hsome : listedUnder u s₁.nextHandle = true) (hfree : s₁.freeSlot.isSome = true) :
    Starts (exec (.tierPin q) s) s₁ u q .tierPin := by
  subst hu
  exact starts_of_served h (by simp only [no_stale_page htier]; exact if_pos hsome) hfree

end

section
variable (h : Served { op := 0x0504, priv := 1, ctx := 2, fields := rangeFields ++ [fld 0x20 1] } q
    (firstBad (s.rangeChecks q ++ [(0x20, decide (par q 0x20 1 ≤ 2)),
      (0x20, !decide (1 ≤ pageCount q ∧ pageCount q ≤ 512) || par q 0x20 1 != 0 ||
        (pagesOf q).all (fun p => s.get .XLT_OBJ_TWIN (s.page p).pl.obj == 0))])) s s₁
    (if q.ctxv then s.lpnDeny q (firstLpn q) (pageCount q) else none))
  (hport : par q 0x20 1 < 2 ∨ s₁.portUp 0 = true ∨ s₁.portUp 1 = true)
  (hu : u = (pagesOf q).foldl (fun (s : State) p => s.askTwin p (par q 0x20 1)) s₁)
include h hport hu

theorem completes_tierTwin (hnone : listedUnder u s₁.nextHandle = false) : Completes (exec (.tierTwin q) s) u.settleOps q := by
  subst hu
  exact completes_of_served h ((if_neg (has_port hport)).trans (if_neg (by simp [hnone])))

theorem starts_tierTwin (hsome : listedUnder u s₁.nextHandle = true) (hfree : s₁.freeSlot.isSome = true) :
    Starts (exec (.tierTwin q) s) s₁ u q .tierTwin := by
  subst hu
  exact starts_of_served h ((if_neg (has_port hport)).trans (if_pos hsome)) hfree

end

/-! ### The account of a context (R254, R264) -/

section
variable (h : Served { op := 0x0507, priv := 2, ctx := 1, fields := [fld 0x10 8, fld 0x18 8, fbits 0x20 0 1] } q
    (firstBad [(0x10, decide (par q 0x10 8 ≤ s.windowPages q.tc.val)),
      (0x18, decide (par q 0x10 8 + par q 0x18 8 ≤ s.windowPages q.tc.val))]) s s₁)
  (hu : u = ((s₁.put .XLT_ACCT_VALUE (par q 0x10 8) q.tc.val 0).put .XLT_ACCT_VALUE (par q 0x18 8) q.tc.val 1).put
    .XLT_ACCT_TWL (parBits q 0x20 0 1) q.tc.val)
include h hu

theorem completes_tierThinConsent (hroom : u.res q.tc.val - s₁.res q.tc.val ≤ s₁.get .XLT_CAP_COUNT 3) :
    Completes (exec (.tierThinConsent q) s)
      (u.put .XLT_CAP_COUNT (s₁.get .XLT_CAP_COUNT 2 + u.res q.tc.val - s₁.res q.tc.val) 2).repress q := by
  subst hu
  exact completes_of_served h (if_neg (Nat.not_lt.mpr hroom))

theorem refused_tierThinConsent (hshort : s₁.get .XLT_CAP_COUNT 3 < u.res q.tc.val - s₁.res q.tc.val) :
    Refused (exec (.tierThinConsent q) s) s₁ q stNoSpace
      (min 0xFFFFFFFF (u.res q.tc.val - s₁.res q.tc.val - s₁.get .XLT_CAP_COUNT 3)) := by
  subst hu
  exact refused_of_served h (if_pos hshort)

end

/-! ### The counts of capacity (R254, R262) -/

def capacityCounts (s : State) : Output := (List.range 6).map (fun k => (8 * k, 8, s.get .XLT_CAP_COUNT k))

def capacityPressure (s : State) : Output :=
  [(0x30, 1, s.get .XLT_PRESS_STS_LEVEL + 4 * s.get .XLT_PRESS_STS_SHORTFALL),
    (0x32, 2, (List.range 16).foldl (fun n c => n + b2n (s.evacReady c) * 2 ^ c) 0)]

def capacityAccount (s : State) (a : Nat) : Output :=
  if a = 0xFFFF then []
  else [(0x40, 8, s.commit a), (0x48, 8, s.thin a), (0x50, 8, s.pop a), (0x58, 8, s.used a), (0x60, 8, s.res a), (0x68, 1, s.get .XLT_ACCT_TWL a)]

def capacityHistogram (s : State) : Output := (List.range 16).map (fun h => (0x80 + 8 * h, 8, tgetD 0 h s.pg.hist))

/-- What `tier.capacity` reports: counts and pressure of the device, the account that is named, and the histogram of heat. -/
def capacityOut (s : State) (a : Nat) : Output := capacityCounts s ++ capacityPressure s ++ capacityAccount s a ++ capacityHistogram s

theorem completes_tierCapacity
    (h : Served { op := 0x0506, priv := 0, output := true, fields := [fld 0x10 2] } q
      (firstBad [(0x10, decide (par q 0x10 2 ≤ 257 ∨ par q 0x10 2 = 0xFFFF))]) s s₁) :
    Completes (exec (.tierCapacity q) s) s₁ q 0 256 (capacityOut s₁ (par q 0x10 2)) :=
  completes_of_served h rfl

section
variable (s : State) (a : Nat)

theorem count_mem_capacityOut {k : Nat} (hk : k < 6) : (8 * k, 8, s.get .XLT_CAP_COUNT k) ∈ capacityOut s a :=
  List.mem_append_left _ (List.mem_append_left _ (List.mem_append_left _ (List.mem_map_of_mem (List.mem_range.mpr hk))))

theorem histogram_mem_capacityOut {h : Nat} (hh : h < 16) : (0x80 + 8 * h, 8, tgetD 0 h s.pg.hist) ∈ capacityOut s a :=
  List.mem_append_right _ (List.mem_map_of_mem (List.mem_range.mpr hh))

theorem account_mem_capacityOut (ha : a ≠ 0xFFFF) :
    [(0x40, 8, s.commit a), (0x48, 8, s.thin a), (0x50, 8, s.pop a), (0x58, 8, s.used a), (0x60, 8, s.res a)] ⊆ capacityOut s a := by
  refine List.Subset.trans ?_ (List.subset_append_of_subset_left _ (List.subset_append_right _ _))
  rw [capacityAccount, if_neg ha]
  exact List.sublist_append_left _ _ |>.subset

end

end

/-- Settles O44: a served request is answered by its body; `tier.pin` and `tier.twin` go by whether their walk listed a page, `tier.thin_consent` by
whether the reserve has room, and pinning a page changes only its PIN and the queues of moves (`pinPage_…`). -/
theorem tieringCommands : Obligations.TieringCommands := by
  unfold Obligations.TieringCommands
  refine ⟨?query, ?objective, ?pinInPlace, ?pinMoves, ?pinPage, ?unpin, ?twinInPlace, ?twinMade, ?budget, ?capacity, ?consent, ?noSpace⟩
  case query => exact fun q s s₁ h => completes_of_served h rfl
  case objective => exact fun q s s₁ h => completes_of_served h rfl
  case pinInPlace => exact fun q s s₁ u h => completes_tierPin h
  case pinMoves => exact fun q s s₁ u h => starts_tierPin h
  case pinPage =>
    intro s lpn t
    obtain ⟨hmem, hpin⟩ := pinPage_keeps_mem_and_pins s lpn t
    exact ⟨hmem, hpin, pinPage_lists_page s lpn t⟩
  case unpin => exact fun q s s₁ h => completes_of_served h rfl
  case twinInPlace => exact fun q s s₁ u h => completes_tierTwin h
  case twinMade => exact fun q s s₁ u h => starts_tierTwin h
  case budget =>
    rintro q s s₁ _ h rfl
    exact completes_of_served h rfl
  case capacity =>
    intro q s s₁ a h
    refine ⟨capacityOut s₁ a, completes_tierCapacity h, fun k => count_mem_capacityOut s₁ a, fun k => histogram_mem_capacityOut s₁ a, fun ha => ?_⟩
    have haccount := account_mem_capacityOut s₁ a ha
    simpa using haccount
  case consent => exact fun q s s₁ u h => completes_tierThinConsent h
  case noSpace => exact fun q s s₁ u h => refused_tierThinConsent h

end Sys2Proof.Proofs.Tiering

/-!
PROOFS of the statements of the DRAM controller: the refutation of the `mem` commands (R355).
-/
namespace Sys2Proof.Proofs.DramController
open Sys2Proof Sys2Proof.Machine

/-! ### A reload list that names the state of a channel

Taking a channel out of service recomputes USABLE and the pressure level (R254, R258), which may report a message; the record of that message may overwrite
one whose grace timer runs, and the step that this expiry orders may reload fields (R450, R459, R533). The statement is about every state, so also about one
whose reload list names `MEM_CH_STS.STATE`, a field that no step of the model puts there. -/

/-- The record of an uncorrectable access-table entry (R533), its grace timer running. -/
def tableRecord : FltRec :=
  { msg := msg2 bAcc 0 4, seq := 1, time := 0, count := 0, sev := 2, fallbk := true, tmr := true, ack := false, esc := false, active := false,
    direct := false }

/-- The record stands in the one entry of the queue that is not switched off, and its step is to reload STATE of channel 0 as SERVICE (2). The severity
table makes the message of a changed pressure level (SLC 0xB) Fatal, so that its record may take the entry. -/
def strayReload : State :=
  let s : State := { State.reset with flt := { State.reset.flt with
    recs := [(40, tableRecord)]
    off := (List.range 256).erase 40
    reload := [(srcId tableRecord.msg, [(⟨.MEM_CH_STS_STATE, 0, 0⟩, 2)])] } }
  (s.put .FLT_SEV_SEV_C 3 (16 * bSlc + 0xB)).put .FLT_SEV_V_C 1 (16 * bSlc + 0xB)

/-- No channel is in service, so the level becomes 3, and its message brings the reload. -/
theorem chState_takeOffline_strayReload : (strayReload.takeOffline (0 : Fin 16).val).chState (0 : Fin 16).val = 2 := by decide +kernel

/-- Refutes O53: the last clause, on `State.takeOffline`, does not bind the reload list, and channel 0 of `strayReload` ends in SERVICE, not OFFLINE. -/
theorem not_dramCommands : ¬ Obligations.DramCommands := by
  unfold Obligations.DramCommands
  rintro ⟨-, -, -, -, -, -, -, -, hoffline⟩
  obtain ⟨hstate, -⟩ := hoffline strayReload 0
  rw [chState_takeOffline_strayReload] at hstate
  exact absurd hstate (by decide)

end Sys2Proof.Proofs.DramController

/-!
PROOFS of the statements of the encryption chapter: the re-key sweeps (R273, R303-R306, R312) and the `sec` and `key` commands (R268-R311).
-/
namespace Sys2Proof.Proofs.Encryption
open Sys2Proof Sys2Proof.Machine Sys2Proof.Proofs.Architecture Sys2Proof.Proofs.Pyryx Sys2Proof.Proofs.Translation Sys2Proof.Proofs.AccessPaths

/-! ### Taking room leaves coherence as it is (R249, R254, R258) -/

@[simp] theorem coh_notify (s : State) (a b c : Nat) (r : Option FltRec) : (s.notify a b c r).coh = s.coh := by
  unfold State.notify
  extract_lets logged signalled
  have hsignalled : signalled.coh = s.coh := (coh_foldl (fun _ _ => coh_msix ..) _ _).trans (coh_logAll ..)
  split
  · exact hsignalled
  · exact hsignalled

@[simp] theorem coh_reportNotify (s : State) (m : Msg) (a b c : Nat) : (s.reportNotify m a b c).coh = s.coh :=
  (coh_notify ..).trans (coh_report ..)

@[simp] theorem coh_repress (s : State) : s.repress.coh = s.coh := by
  unfold State.repress
  extract_lets us need short free cur was lvl shown told
  have htold : told.coh = s.coh := by
    unfold told
    split
    · exact coh_report ..
    · rfl
  split
  · exact htold
  · exact (coh_reportNotify ..).trans htold

@[simp] theorem coh_addUse (s : State) (a plus minus popPlus popMinus : Nat) : (s.addUse a plus minus popPlus popMinus).coh = s.coh :=
  coh_repress _

@[simp] theorem coh_charge (s : State) (lpn n : Nat) : (s.charge lpn n).coh = s.coh := by
  unfold State.charge
  split
  · rfl
  · exact coh_addUse ..

@[simp] theorem coh_ownEach (ma lpn role code n : Nat) (s : State) : (s.ownEach ma lpn role code n).coh = s.coh := by
  induction n generalizing s with
  | zero => rfl
  | succ n ih => exact ih _

@[simp] theorem coh_ownRun (s : State) (ma lpn role code n : Nat) : (s.ownRun ma lpn role code n).coh = s.coh := by
  unfold State.ownRun
  split
  · rfl
  · rw [coh_count, coh_ownEach]

@[simp] theorem coh_loanTake (s : State) (p loc v n : Nat) : (s.loanTake p loc v n).coh = s.coh := by
  induction n with
  | zero => rfl
  | succ n ih => exact ih

theorem coh_takeImage {s : State} {m : MoveSt} {hint : Nat} {avoid : List Nat} {x : State × MoveSt} (h : s.takeImage m hint avoid = some x) :
    x.1.coh = s.coh := by
  unfold State.takeImage at h
  split at h
  · cases h; rfl
  · split at h <;> split at h <;> cases h <;> simp

theorem coh_takeTwin {s : State} {m : MoveSt} {hint : Nat} {x : State × MoveSt} (h : s.takeTwin m hint = some x) : x.1.coh = s.coh := by
  unfold State.takeTwin at h
  split at h
  · cases h; rfl
  · split at h
    · split at h <;> cases h; simp
    · dsimp only at h
      split at h <;> cases h; simp

theorem coh_holdRoom {s : State} {m : MoveSt} {hint : Nat} {x : State × MoveSt} (h : s.holdRoom m hint = some x) : x.1.coh = s.coh := by
  unfold State.holdRoom at h
  dsimp only at h
  rw [Option.ite_none_left_eq_some] at h
  obtain ⟨-, h⟩ := h
  obtain ⟨y, himage, h⟩ := Option.bind_eq_some_iff.mp h
  obtain ⟨z, htwin, h⟩ := Option.bind_eq_some_iff.mp h
  rw [Option.ite_none_left_eq_some] at h
  obtain ⟨-, h⟩ := h
  cases h
  rw [coh_charge, coh_takeTwin htwin, coh_takeImage himage]

/-! ### A page that nobody holds (R174) -/

theorem hostHolds_congr {s t : State} (h : t.coh = s.coh) (lpn : Nat) : t.hostHolds lpn = s.hostHolds lpn := by
  rw [State.hostHolds, State.hostHolds, h]

theorem keepsPages_biSend (s : State) (h line kind : Nat) : KeepsPages s (s.biSend h line kind) := by
  unfold State.biSend
  exact .of_ite (.refl s) (.of_ite rfl rfl)

theorem sf_biSend (s : State) (h line kind : Nat) : (s.biSend h line kind).coh.sf = s.coh.sf := by
  unfold State.biSend
  split
  · rfl
  · split <;> rfl

theorem mem_of_tget {α : Type} {k : Nat} {v : α} {t : Tab α} (h : tget k t = some v) : (k, v) ∈ t := by
  induction t with
  | nil => cases h
  | cons x t ih =>
    obtain ⟨j, w⟩ := x
    by_cases hj : j = k
    · simp_all [tget]
    · exact List.mem_cons_of_mem _ (ih (by simpa [tget, hj] using h))

/-- A record that shows no head in any line shows none in each line. -/
theorem no_head_of_recPairs {lpn : Nat} {r : DirRec} (h : recPairs lpn r = []) (k : Nat) {n : Nat} (hn : n < 8) : bit (tgetD 0 k r.hp) n = false := by
  cases hk : tget k r.hp with
  | none => simp [tgetD, hk, bit]
  | some mask =>
    have hline := List.map_eq_nil_iff.mp (List.flatMap_eq_nil_iff.mp h _ (mem_of_tget hk))
    have hhead := List.filter_eq_nil_iff.mp hline n (List.mem_range.mpr hn)
    simpa [tgetD, hk] using hhead

section
variable {s : State} {lpn : Nat} (h : s.hostHolds lpn = false)
include h

/-- No line of the page is in a record or in the snoop filter. -/
theorem no_copies_of_unheld : (∀ r, tget lpn s.coh.dir = some r → recPairs lpn r = []) ∧
    s.coh.sf.filter (fun e => decide (e.1 / 64 = lpn)) = [] := by
  simp only [State.hostHolds, Bool.or_eq_false_iff] at h
  obtain ⟨⟨⟨hdir, -⟩, hsf⟩, -⟩ := h
  refine ⟨fun r hr => by simpa [hr] using hdir, List.filter_eq_nil_iff.mpr fun e he => ?_⟩
  simpa using List.any_eq_false.mp hsf e he

/-- Bits of departed heads clear, but no line was held exclusively by one: none is poisoned (R172). -/
theorem dirFix_of_unheld : KeepsPages s (s.dirFix lpn) ∧ (s.dirFix lpn).coh.sf = s.coh.sf := by
  unfold State.dirFix
  split
  · exact ⟨rfl, rfl⟩
  next r hr =>
    extract_lets old lost poisoned
    have hnone : lost = [] := by
      refine List.filter_eq_nil_iff.mpr fun k _ => ?_
      rw [Bool.not_eq_true, List.any_eq_false]
      intro n hn
      simp [no_head_of_recPairs ((no_copies_of_unheld h).1 r hr) k (List.mem_range.mp hn)]
    have hpoisoned : poisoned = s := by rw [show poisoned = lost.foldl _ s from rfl, hnone]; rfl
    split
    · exact ⟨rfl, rfl⟩
    · rw [hpoisoned]
      exact ⟨rfl, rfl⟩

/-- The recall of a page that nobody holds sends at most snoops: the pages stay. -/
theorem keepsPages_recallPage_of_unheld : KeepsPages s (s.recallPage lpn) := by
  obtain ⟨hfixed, hsf⟩ := dirFix_of_unheld h
  unfold State.recallPage
  extract_lets fixed snooped mine
  have hsnooped : KeepsPages fixed snooped ∧ snooped.coh.sf = fixed.coh.sf := by
    unfold snooped
    split
    · refine ⟨.foldl (fun s b => .of_ite (.refl s) (keepsPages_biSend ..)) _ _, ?_⟩
      refine List.foldlRecOn (motive := fun (t : State) => t.coh.sf = fixed.coh.sf) _ _ rfl fun t ht b _ => ?_
      split
      · exact ht
      · exact (sf_biSend ..).trans ht
    · exact ⟨rfl, rfl⟩
  have hmine : mine = [] := by
    unfold mine
    rw [hsnooped.2, show fixed.coh.sf = s.coh.sf from hsf, (no_copies_of_unheld h).2]
    rfl
  rw [hmine]
  exact hfixed.trans hsnooped.1

/-- Taking a page that nobody holds leaves its tier. -/
theorem tier_takePage_of_unheld : ((s.takePage lpn).page lpn).pl.tier = (s.page lpn).pl.tier := by
  unfold State.takePage
  extract_lets p
  have hlocked : (s.putPage lpn { p with pl := { p.pl with lock := true } }).hostHolds lpn = false := h
  rw [(keepsPages_recallPage_of_unheld hlocked).page_eq, page_putPage_same]

/-- An access of the device's own to the page bears the same attributes once the page is charged for and taken. -/
theorem ownAttr_taken (n kind bytes : Nat) (master : Option Nat) (cls : Nat) :
    ((s.spend n kind bytes).takePage lpn).ownAttr master lpn cls = s.ownAttr master lpn cls := by
  have hspent : (s.spend n kind bytes).hostHolds lpn = false := h
  rw [State.ownAttr, tier_takePage_of_unheld hspent]
  rfl

end

/-! ### Re-key sweeps (R303-R306) -/

/-- A sweep re-encrypts the page at its waymark, or pauses for want of room (R304, R305). -/
def rekeyPage (u : State) (k w hint : Nat) (reads : List (Fin 64 × Fetch × Fetch)) : Res :=
  let plan := u.rekeyPlan w (u.get .SEC_SWEEP_CTL_NEW k)
  match u.holdRoom plan hint with
  | none => .next ((u.put .SEC_SWEEP_CTL_STATE 2 k).put .SEC_SWEEP_CTL_NOSPACE 1 k)
  | some (v, m) =>
    match (((v.spend (v.home w) 2 (u.moveBytes plan)).takePage w).underFor (v.ownAttr (some mMig) w 0) 5).moveReads w reads with
    | (y, none) => .next y.uncharged
    | (y, some lost) =>
      let z := ((y.landCopy w { m with lost := lost }).uncharged).mdcLeave w
      .next ((({ z with sec := { z.sec with rekeyed := tput k (tgetD 0 k z.sec.rekeyed + 1) z.sec.rekeyed } } : State).moveEnds w).wayTo k (w + 1))

section
variable {s : State} {k : Fin 4} {hint w : Nat} {reads : List (Fin 64 × Fetch × Fetch)}
  (hrun : s.halt = none) (hengines : 40 ≤ s.healthy) (hsweep : s.sweeping k.val = true) (hroom : s.isSet .SEC_SWEEP_CTL_NOSPACE k.val = false)
include hrun hengines hsweep hroom

theorem sweep_goes_on : ¬(s.halt.isSome ∨ s.healthy < 40 ∨ ¬ s.sweeping k.val ∨ s.isSet .SEC_SWEEP_CTL_NOSPACE k.val) := by
  simp [hrun, hsweep, hroom, hengines]

theorem exec_sweepAdvance_throttled (hstep : s.get .THM_STS_STEP ≠ 0) :
    exec (.sweepAdvance k hint reads) s = .next (s.put .SEC_SWEEP_CTL_STATE 2 k.val) :=
  (if_neg (sweep_goes_on hrun hengines hsweep hroom)).trans (if_pos hstep)

variable (hcool : s.get .THM_STS_STEP = 0) (hway : w = s.get .SEC_SWEEP_WAY_LPN k.val)
include hcool hway

theorem exec_sweepAdvance_no_node (hnode : (tget (nodeKey 3 w) s.pg.nodes).isSome = false) :
    exec (.sweepAdvance k hint reads) s = .next ((s.put .SEC_SWEEP_CTL_STATE 1 k.val).wayTo k.val ((w / 512 + 1) * 512)) := by
  subst hway
  show execSweepAdvance k hint reads s = _
  unfold execSweepAdvance
  rw [if_neg (sweep_goes_on hrun hengines hsweep hroom)]
  exact (if_neg (not_not_intro hcool)).trans (if_pos (by simpa using hnode))

variable (hnode : (tget (nodeKey 3 w) s.pg.nodes).isSome = true)
include hnode

theorem exec_sweepAdvance_other_slot (hks : (s.page w).pl.ks ≠ s.get .SEC_SWEEP_CTL_OLD k.val) :
    exec (.sweepAdvance k hint reads) s = .next ((s.put .SEC_SWEEP_CTL_STATE 1 k.val).wayTo k.val (w + 1)) := by
  subst hway
  show execSweepAdvance k hint reads s = _
  unfold execSweepAdvance
  rw [if_neg (sweep_goes_on hrun hengines hsweep hroom)]
  exact (if_neg (not_not_intro hcool)).trans ((if_neg (by simpa [Option.isSome_iff_ne_none] using hnode)).trans (if_pos (.inr (.inl hks))))

/-- A page under the old slot that is verifiable, quiet and in no move, on no frozen channel, and within the bucket, is re-encrypted. -/
theorem exec_sweepAdvance_rekeys {u : State} (himage : hasImage (s.page w).pl.tier = true)
    (hold : (s.page w).pl.ks = s.get .SEC_SWEEP_CTL_OLD k.val) (hver : s.unverif w = false)
    (hthawed : (s.primChs (s.page w) ++ s.twinChs (s.page w)).any (fun c => s.chState c == 3) = false)
    (hu : u = (s.put .SEC_SWEEP_CTL_STATE 1 k.val).recallPage w) (hmine : u.notMine w = false) (hquiet : u.pageQuiet w = true)
    (hbucket : u.affords (u.home w) 2 (u.moveBytes (u.rekeyPlan w (u.get .SEC_SWEEP_CTL_NEW k.val))) = true) :
    exec (.sweepAdvance k hint reads) s = rekeyPage u k.val w hint reads := by
  subst hway hu
  show execSweepAdvance k hint reads s = _
  unfold execSweepAdvance
  rw [if_neg (sweep_goes_on hrun hengines hsweep hroom)]
  refine (if_neg (not_not_intro hcool)).trans ((if_neg (by simpa [Option.isSome_iff_ne_none] using hnode)).trans ?_)
  refine (if_neg (by simp [himage, hold, hver])).trans ?_
  refine (if_neg (by rw [hthawed]; exact Bool.false_ne_true)).trans ((if_neg (by rw [hmine, hquiet]; simp)).trans ?_)
  exact if_neg (by rw [hbucket]; simp)

end

theorem rekeyPage_without_room {u : State} {k w hint : Nat} {reads : List (Fin 64 × Fetch × Fetch)}
    (hnone : u.holdRoom (u.rekeyPlan w (u.get .SEC_SWEEP_CTL_NEW k)) hint = none) :
    rekeyPage u k w hint reads = .next ((u.put .SEC_SWEEP_CTL_STATE 2 k).put .SEC_SWEEP_CTL_NOSPACE 1 k) := by
  simp only [rekeyPage, hnone]

theorem rekeyPage_with_room {u : State} {k w hint : Nat} {reads : List (Fin 64 × Fetch × Fetch)} {v : State × MoveSt}
    {y : State × Option (List (Nat × Nat))} {lost : List (Nat × Nat)} {z : State} (hquiet : u.pageQuiet w = true)
    (hv : u.holdRoom (u.rekeyPlan w (u.get .SEC_SWEEP_CTL_NEW k)) hint = some v)
    (hy : y = (((v.1.spend (v.1.home w) 2 (u.moveBytes (u.rekeyPlan w (u.get .SEC_SWEEP_CTL_NEW k)))).takePage w).underFor
      (((v.1.spend (v.1.home w) 2 (u.moveBytes (u.rekeyPlan w (u.get .SEC_SWEEP_CTL_NEW k)))).takePage w).ownAttr (some mMig) w 0)
        5).moveReads w reads)
    (hlost : y.2 = some lost) (hz : z = ((y.1.landCopy w { v.2 with lost := lost }).uncharged).mdcLeave w) :
    rekeyPage u k w hint reads = .next ((({ z with sec := { z.sec with
      rekeyed := tput k (tgetD 0 k z.sec.rekeyed + 1) z.sec.rekeyed } } : State).moveEnds w).wayTo k (w + 1)) := by
  have hunheld : v.1.hostHolds w = false := by
    rw [hostHolds_congr (coh_holdRoom hv)]
    simpa [State.pageQuiet] using hquiet
  rw [ownAttr_taken hunheld] at hy
  have hread : y = (y.1, some lost) := Prod.ext rfl hlost
  rw [hread] at hy
  subst hz
  simp only [rekeyPage, hv]
  rw [← hy]

/-- Settles O7: each clause is a branch of the sweep's step; the copy of a page that nobody holds keeps the attributes of its accesses
(`ownAttr_taken`), as taking room and taking the page leave its tier. -/
theorem sweepsRun : Obligations.SweepsRun := by
  unfold Obligations.SweepsRun
  refine ⟨?otherSlot, ?noNode, ?rekeyed, ?noRoom, ?throttled, ?retry, fun s => rfl⟩
  case otherSlot =>
    intro s k hint w reads hrun hengines hsweep hroom hcool hway hnode hks
    exact exec_sweepAdvance_other_slot hrun hengines hsweep hroom hcool hway hnode hks
  case noNode =>
    intro s k hint w reads hrun hengines hsweep hroom hcool hway hnode
    exact exec_sweepAdvance_no_node hrun hengines hsweep hroom hcool hway hnode
  case rekeyed =>
    intro s u k hint w reads v y lost z hrun hengines hsweep hroom hcool hway hnode himage hold hver hthawed hu hmine hquiet hbucket hv hy hlost hz
    rw [exec_sweepAdvance_rekeys hrun hengines hsweep hroom hcool hway hnode himage hold hver hthawed hu hmine hquiet hbucket]
    exact rekeyPage_with_room hquiet hv hy hlost hz
  case noRoom =>
    intro s u k hint w reads hrun hengines hsweep hroom hcool hway hnode himage hold hver hthawed hu hmine hquiet hbucket hnone
    rw [exec_sweepAdvance_rekeys hrun hengines hsweep hroom hcool hway hnode himage hold hver hthawed hu hmine hquiet hbucket]
    exact rekeyPage_without_room hnone
  case throttled =>
    intro s k hint reads hrun hengines hsweep hroom hstep
    exact exec_sweepAdvance_throttled hrun hengines hsweep hroom hstep
  case retry => exact fun s k hpaused hnospace => if_pos ⟨hpaused, hnospace⟩

/-! ### Checks that a body adds (R86) -/

theorem firstBad_eq_none_iff {l : List (Nat × Bool)} : firstBad l = none ↔ ∀ c ∈ l, c.2 = true := by
  induction l with
  | nil => simp [firstBad]
  | cons c l ih =>
    obtain ⟨off, good⟩ := c
    rw [List.forall_mem_cons, ← ih]
    cases hl : firstBad l <;> cases good <;> simp [firstBad, hl]

/-- A check that comes after checks which all pass. -/
theorem firstBad_append_singleton {l : List (Nat × Bool)} (h : firstBad l = none) (off : Nat) (good : Bool) :
    firstBad (l ++ [(off, good)]) = if good then none else some off := by
  induction l with
  | nil => rfl
  | cons c l ih =>
    obtain ⟨hc, hl⟩ := List.forall_mem_cons.mp (firstBad_eq_none_iff.mp h)
    obtain ⟨o, _⟩ := c
    obtain rfl : _ = true := hc
    have ih := ih (firstBad_eq_none_iff.mpr hl)
    cases good <;> simp_all [firstBad]

theorem minOff_eq_none_iff {a b : Option Nat} : minOff a b = none ↔ a = none ∧ b = none := by
  cases a <;> cases b <;> simp [minOff]

theorem passed_of_ite_eq_none {α : Type} {c : Prop} [Decidable c] {refusal next : Option α} (hrefuses : c → refusal.isSome = true)
    (h : (if c then refusal else next) = none) : ¬c ∧ next = none := by
  by_cases hc : c
  · rw [if_pos hc] at h
    have hsome := hrefuses hc
    rw [h] at hsome
    cases hsome
  · rw [if_neg hc] at h
    exact ⟨hc, h⟩

/-- A request that passes every check but one of its own parameters is refused for that parameter. -/
theorem check_of_passed {s : State} {info : CmdInfo} {q : Req} {bad : Option Nat} {deny : Option (Nat × Nat)}
    (h : s.check info q bad deny = none) : bad = none ∧ ∀ off, s.check info q (some off) deny = some (stBadParam, off) := by
  unfold State.check at h ⊢
  dsimp only at h ⊢
  split at h
  · cases h
  obtain ⟨hver, h⟩ := passed_of_ite_eq_none (fun _ => rfl) h
  obtain ⟨hopcode, h⟩ := passed_of_ite_eq_none (fun _ => rfl) h
  obtain ⟨hpriv, h⟩ := passed_of_ite_eq_none (fun _ => rfl) h
  obtain ⟨hneeded, h⟩ := passed_of_ite_eq_none (fun _ => rfl) h
  obtain ⟨hnamed, h⟩ := passed_of_ite_eq_none (fun _ => rfl) h
  obtain ⟨hdenied, h⟩ := passed_of_ite_eq_none id h
  simp only [if_neg hver, if_neg hopcode, if_neg hpriv, if_neg hneeded, if_neg hnamed, if_neg hdenied]
  split at h
  · cases h
  split at h
  · cases h
  next hnone =>
    obtain ⟨hheader, hbad⟩ := minOff_eq_none_iff.mp hnone
    exact ⟨hbad, fun off => by rw [hheader]; rfl⟩

/-! ### What a request leaves of the key store's state while it is being asked (R82, R97, R484-R487) -/

@[simp] theorem sec_reply (s : State) (q : Req) (status result detail outlen : Nat) (output : Output) :
    (s.reply q status result detail outlen output).sec = s.sec := by
  have hreply := reply_onlyReplies s status result detail outlen output q
  exact (congrArg State.sec hreply :)

theorem sec_of_onlyRegs {s t : State} (h : OnlyRegs s t) : t.sec = s.sec := by
  unfold OnlyRegs at h
  rw [← h]

@[simp] theorem sec_count (s : State) (u : PmuUnit) (code k : Nat) (a : Option Attr) : (s.count u code k a).sec = s.sec :=
  sec_of_onlyRegs (count_onlyRegs ..)

theorem sec_foldl {β : Type} {f : State → β → State} (hf : ∀ s x, (f s x).sec = s.sec) (l : List β) (s : State) :
    (l.foldl f s).sec = s.sec := by
  induction l generalizing s with
  | nil => rfl
  | cons x l ih => rw [List.foldl_cons, ih, hf]

@[simp] theorem sec_begin (s : State) (q : Req) : (s.begin q).sec = s.sec := by
  unfold State.begin
  cases q.origin with
  | mailbox h => rfl
  | ring h r => dsimp only; split <;> rfl
  | mctp e st n => rfl

@[simp] theorem sec_cancelEntry (s : State) : s.cancelEntry.sec = s.sec := by
  unfold State.cancelEntry
  split
  · exact sec_foldl (fun _ _ => sec_reply ..) _ _
  · rfl

@[simp] theorem sec_beginWake (s : State) : s.beginWake.sec = s.sec := by
  unfold State.beginWake
  split <;> rfl

@[simp] theorem sec_exitSelfRefresh (s : State) : s.exitSelfRefresh.sec = s.sec := by
  refine sec_foldl (fun t c => ?_) _ _
  split <;> rfl

@[simp] theorem sec_endWake (s : State) : s.endWake.sec = s.sec := by
  unfold State.endWake
  dsimp only
  rw [sec_exitSelfRefresh]
  split <;> rfl

@[simp] theorem sec_wakeCluster (s : State) : s.wakeCluster.sec = s.sec := by
  unfold State.wakeCluster
  split <;> rfl

@[simp] theorem sec_wakeMem (s : State) : s.wakeMem.sec = s.sec := by
  unfold State.wakeMem
  split <;> simp

@[simp] theorem sec_touch (s : State) (op : Nat) : (s.touch op).sec = s.sec := by
  unfold State.touch
  split <;> simp [apply_ite State.sec]

theorem sec_asked (s : State) (info : CmdInfo) (q : Req) : (s.asked info q).sec = s.sec := by
  simp [State.asked]

/-! ### Key slots (R268, R269, R273, R283, R306) -/

/-- The engine of a request that may use the key store's command interface runs the command. -/
theorem keyPort_of_open {s : State} {q : Req} {op : Nat} (h : s.keysOpen q op) (body : State → Ans) : s.keyPort q op body = body s :=
  if_pos h

/-- A slot without pages that no sweep names is free to be loaded. -/
theorem slot_not_busy {s : State} {ks : Nat} (href : s.get .SEC_KS_STS_REF ks = 0) (hswept : s.swept ks = false) :
    ¬(0 < s.get .SEC_KS_STS_REF ks ∨ s.swept ks = true) := by
  simp [href, hswept]

@[simp] theorem get_spoilIf (s : State) (p : Place → Bool) (r : Reg) (i j : Nat) : (s.spoilIf p).get r i j = s.get r i j := rfl

@[simp] theorem sec_spoilIf (s : State) (p : Place → Bool) : (s.spoilIf p).sec = s.sec := rfl

/-- Both copies of a slot hold a key. -/
def storeKey (s : State) (ks : Nat) (m : KeyMat) : State :=
  { s with sec := { s.sec with keysA := tput ks m s.sec.keysA, keysB := tput ks m s.sec.keysB } }

@[simp] theorem get_storeKey (s : State) (ks : Nat) (m : KeyMat) (r : Reg) (i j : Nat) : (storeKey s ks m).get r i j = s.get r i j := rfl

section
variable (s : State) (ks origin : Nat) (m : KeyMat)

/-- A slot that is loaded holds the key, its GEN has risen, and its other registers begin anew. -/
theorem loadKey_eq : s.loadKey ks origin m =
    (((((((storeKey s ks m).put .SEC_KS_STS_STATE 1 ks).put .SEC_KS_STS_ORIGIN origin ks).put .SEC_KS_STS_GEN
      ((s.get .SEC_KS_STS_GEN ks + 1) % 65536) ks).put .SEC_KS_FLOOR_VALUE 0 ks).put .SEC_KS_HIGH_VALUE 0 ks).put .SEC_KS_STS_WORN 0 ks).spoilIf
      (fun p => p.ks == ks) := rfl

theorem registers_loadKey : (s.loadKey ks origin m).get .SEC_KS_STS_STATE ks = 1 ∧ (s.loadKey ks origin m).get .SEC_KS_STS_ORIGIN ks = origin ∧
    (s.loadKey ks origin m).get .SEC_KS_FLOOR_VALUE ks = 0 ∧ (s.loadKey ks origin m).get .SEC_KS_HIGH_VALUE ks = 0 := by
  simp [loadKey_eq, State.get_put_other]

theorem gen_loadKey : (s.loadKey ks origin m).get .SEC_KS_STS_GEN ks = (s.get .SEC_KS_STS_GEN ks + 1) % 65536 := by
  simp [loadKey_eq, State.get_put_other]

theorem keys_loadKey : tget ks (s.loadKey ks origin m).sec.keysA = some m ∧ tget ks (s.loadKey ks origin m).sec.keysB = some m := by
  simp [loadKey_eq, storeKey]

theorem gen_bindKs (q : Req) (bind : Bool) (i : Nat) : (s.bindKs q bind ks).get .SEC_KS_STS_GEN i = s.get .SEC_KS_STS_GEN i := by
  unfold State.bindKs
  split
  · exact s.get_put_other _ _ _ _ _ (by decide)
  · rfl

theorem empty_zeroise : (s.zeroise ks).get .SEC_KS_STS_STATE ks = 0 ∧ tget ks (s.zeroise ks).sec.keysA = none ∧
    tget ks (s.zeroise ks).sec.keysB = none := by
  simp [State.zeroise]

end

/-! ### The key commands (R268, R273, R274, R303, R306, R310) -/

section
variable {info : CmdInfo} {q : Req} {l : List (Nat × Bool)} {s t : State} {deny : Option (Nat × Nat)} (h : Served info q (firstBad l) s t deny)
include h

theorem served_passes : firstBad l = none := (check_of_passed h.2.2.1).1

/-- A request that would be served without a further check is served where that check passes. -/
theorem served_of_added_check {good : Bool} (hgood : good = true) (off : Nat) : Served info q (firstBad (l ++ [(off, good)])) s t deny := by
  rw [firstBad_append_singleton (served_passes h), hgood, ← served_passes h]
  exact h

/-- It is refused for that check where it fails. -/
theorem refused_of_added_check {good : Bool} (hgood : good = false) (off : Nat) (body : State → Ans) :
    Refused (serve info q (firstBad (l ++ [(off, good)])) body s deny) t q stBadParam off := by
  have hbad := served_passes h
  obtain ⟨htaken, rfl, hpassed, -⟩ := h
  rw [firstBad_append_singleton hbad, hgood]
  exact serve_of_refused body htaken ((check_of_passed hpassed).2 off)

end

theorem importOk_congr {s t : State} (h : t.sec = s.sec) (head session : Nat) (p : List Byte) :
    t.importOk head session p = s.importOk head session p := by
  simp only [State.importOk, State.importKeys, State.secretOf, h]

theorem lt_of_slotOk {ks : Nat} (h : slotOk ks = true) : ks < 32 := by
  simp only [slotOk, decide_eq_true_eq] at h
  omega

section
variable {q : Req} {s s₁ : State} {ks : Nat}

section
variable (h : Served { op := 0x0701, priv := 2, ctx := 2, fields := keyFields } q (firstBad [(0x10, slotOk (par q 0x10 1))]) s s₁)
  (hopen : s₁.keysOpen q opW) (href : s₁.get .SEC_KS_STS_REF (par q 0x10 1) = 0) (hswept : s₁.swept (par q 0x10 1) = false)
include h hopen href hswept

theorem completes_keyGenerate (hentropy : s₁.isSet .SEC_STS_ENTROPY_FAIL = false) :
    Completes (exec (.keyGenerate q) s)
      (((s₁.drbgBytes 96).1.loadKey (par q 0x10 1) 0 (keyMatOf (natBytes 96 s₁.draw))).bindKs q (parBit q 0x11 0) (par q 0x10 1)) q
      ((s₁.get .SEC_KS_STS_GEN (par q 0x10 1) + 1) % 65536) := by
  refine completes_of_served h ((keyPort_of_open hopen _).trans ((if_neg (slot_not_busy href hswept)).trans ?_))
  refine (if_neg (by rw [hentropy]; exact Bool.false_ne_true)).trans ?_
  dsimp only [State.drbgBytes]
  rw [gen_bindKs, gen_loadKey]
  rfl

theorem refused_keyGenerate (hentropy : s₁.isSet .SEC_STS_ENTROPY_FAIL = true) :
    Refused (exec (.keyGenerate q) s) s₁ q stFaulted (s₁.entropySeq % 2 ^ 32) :=
  refused_of_served h ((keyPort_of_open hopen _).trans ((if_neg (slot_not_busy href hswept)).trans (if_pos hentropy)))

end

/-- A `key.import` names an open session of its caller's head. -/
def importSession (s : State) (q : Req) : Bool :=
  match headOf q.origin with | some h => s.sec.sessions.contains (h, par q 0x14 4) | none => false

section
variable (h : Served { op := 0x0702, priv := 2, ctx := 2, payload := 104, fields := keyFields ++ [fld 0x14 4] } q
    (firstBad [(0x08, decide (q.plen = 104)), (0x10, slotOk (par q 0x10 1)), (0x14, importSession s q)]) s s₁)
include h

theorem importOk_served : s.importOk ((headOf q.origin).getD 0) (par q 0x14 4) q.payload =
    s₁.importOk ((headOf q.origin).getD 0) (par q 0x14 4) q.payload := by
  obtain ⟨-, rfl, -⟩ := h
  exact (importOk_congr (sec_asked ..) ..).symm

theorem completes_keyImport (hopen : s₁.keysOpen q opW) (href : s₁.get .SEC_KS_STS_REF (par q 0x10 1) = 0)
    (hswept : s₁.swept (par q 0x10 1) = false) (hkeys : s₁.importOk ((headOf q.origin).getD 0) (par q 0x14 4) q.payload = true) :
    Completes (exec (.keyImport q) s)
      ((s₁.loadKey (par q 0x10 1) 1 (keyMatOf ((s₁.importKeys ((headOf q.origin).getD 0) (par q 0x14 4) q.payload).getD []))).bindKs q
        (parBit q 0x11 0) (par q 0x10 1)) q ((s₁.get .SEC_KS_STS_GEN (par q 0x10 1) + 1) % 65536) := by
  have hserved := served_of_added_check h ((importOk_served h).trans hkeys) 0x40
  refine completes_of_served hserved ((keyPort_of_open hopen _).trans ((if_neg (slot_not_busy href hswept)).trans ?_))
  dsimp only
  rw [gen_bindKs, gen_loadKey]
  rfl

theorem refused_keyImport (hkeys : s₁.importOk ((headOf q.origin).getD 0) (par q 0x14 4) q.payload = false) :
    Refused (exec (.keyImport q) s) s₁ q stBadParam 0x40 :=
  refused_of_added_check h ((importOk_served h).trans hkeys) 0x40 _

end

section
variable (h : Served { op := 0x0704, priv := 2, fields := keyFields } q (firstBad [(0x10, slotOk (par q 0x10 1))]) s s₁)
  (hopen : s₁.keysOpen q opW) (hswept : s₁.swept (par q 0x10 1) = false) (hspare : s₁.get .SEC_CTL_EXHAUST_KS ≠ par q 0x10 1)
include h hopen hswept hspare

theorem completes_keyZeroise (href : s₁.get .SEC_KS_STS_REF (par q 0x10 1) = 0) :
    Completes (exec (.keyZeroise q) s) (s₁.zeroise (par q 0x10 1)) q := by
  refine completes_of_served h ((keyPort_of_open hopen _).trans ((if_neg ?_).trans (if_pos href)))
  simp [href, hswept, hspare]

theorem starts_keyZeroise (href : 0 < s₁.get .SEC_KS_STS_REF (par q 0x10 1)) (hforce : parBit q 0x11 0 = true)
    (hfree : s₁.freeSlot.isSome = true) :
    Starts (exec (.keyZeroise q) s) s₁ (s₁.zeroise (par q 0x10 1)) q (.zeroise (par q 0x10 1) 0) := by
  refine starts_of_served h ((keyPort_of_open hopen _).trans ((if_neg ?_).trans (if_neg (Nat.ne_of_gt href)))) hfree
  simp [hforce, hswept, hspare]

end

end

/-! ### A sweep starts (R303) -/

/-- What an earlier sweep of this number has left goes. -/
def forgetSweep (s : State) (k : Nat) : State :=
  { s with sec := { s.sec with rekeyed := tdel k s.sec.rekeyed, resumed := tdel k s.sec.resumed } }

@[simp] theorem get_forgetSweep (s : State) (k : Nat) (r : Reg) (i j : Nat) : (forgetSweep s k).get r i j = s.get r i j := rfl

/-- The registers of a sweep that starts. -/
def startSweep (s : State) (k old new bind zold tc first limit : Nat) : State :=
  let named := ((s.put .SEC_SWEEP_CTL_OLD old k).put .SEC_SWEEP_CTL_NEW new k).put .SEC_SWEEP_CTL_STATE 1 k
  let asked := ((named.put .SEC_SWEEP_CTL_BIND bind k).put .SEC_SWEEP_CTL_ZOLD zold k).put .SEC_SWEEP_CTL_TC tc k
  let placed := ((asked.put .SEC_SWEEP_CTL_NOSPACE 0 k).put .SEC_SWEEP_FIRST_LPN first k).put .SEC_SWEEP_LIMIT_LPN limit k
  forgetSweep (placed.put .SEC_SWEEP_WAY_LPN first k) k

section
variable (s : State) (k old new bind zold tc first limit : Nat)

theorem slots_startSweep : let t := startSweep s k old new bind zold tc first limit
    t.get .SEC_SWEEP_CTL_STATE k = 1 ∧ t.get .SEC_SWEEP_CTL_OLD k = old ∧ t.get .SEC_SWEEP_CTL_NEW k = new ∧
      t.get .SEC_SWEEP_CTL_BIND k = bind := by
  simp [startSweep, State.get_put_other]

theorem range_startSweep : let t := startSweep s k old new bind zold tc first limit
    t.get .SEC_SWEEP_FIRST_LPN k = first ∧ t.get .SEC_SWEEP_LIMIT_LPN k = limit ∧ t.get .SEC_SWEEP_WAY_LPN k = first := by
  simp [startSweep, State.get_put_other]

theorem keepsPages_startSweep : KeepsPages s (startSweep s k old new bind zold tc first limit) := by
  simp [KeepsPages, startSweep, forgetSweep]

end

theorem get_foldl_range_put (r : Reg) (f : Nat → Nat) {n i : Nat} (h : i < n) (s : State) :
    ((List.range n).foldl (fun (t : State) k => t.put r (f k) k) s).get r i = f i := by
  induction n with
  | zero => omega
  | succ n ih =>
    rw [List.range_succ, List.foldl_append, List.foldl_cons, List.foldl_nil]
    by_cases hi : i = n
    · subst hi
      exact State.get_put_same ..
    · rw [State.get_put_ne _ _ (by simpa using Ne.symm hi)]
      exact ih (by omega)

section
variable (s : State)

/-- Marking the slots of the sweeps writes SWEEP alone. -/
theorem writesOnly_markSweeps : WritesOnly [.SEC_KS_STS_SWEEP] s s.markSweeps :=
  .foldl (f := fun (t : State) ks => t.put .SEC_KS_STS_SWEEP (b2n (s.swept ks)) ks) (fun _ _ => .put _ _ _ _ List.mem_cons_self) _ (.refl s)

theorem keepsPages_markSweeps : KeepsPages s s.markSweeps :=
  .foldl (f := fun (t : State) ks => t.put .SEC_KS_STS_SWEEP (b2n (s.swept ks)) ks) (fun _ _ => .put ..) _ s

theorem get_markSweeps {r : Reg} (i j : Nat) (hr : r ∉ [Reg.SEC_KS_STS_SWEEP]) : s.markSweeps.get r i j = s.get r i j :=
  (writesOnly_markSweeps s).get_eq r i j hr

theorem sweep_markSweeps {ks : Nat} (h : ks < 32) : s.markSweeps.get .SEC_KS_STS_SWEEP ks = b2n (s.swept ks) :=
  get_foldl_range_put _ (fun ks => b2n (s.swept ks)) h s

end

/-- A sweep that runs names its two slots. -/
theorem swept_of_running {s : State} {k ks : Nat} (hk : k < 4) (hst : s.get .SEC_SWEEP_CTL_STATE k = 1)
    (hks : s.get .SEC_SWEEP_CTL_OLD k = ks ∨ s.get .SEC_SWEEP_CTL_NEW k = ks) : s.swept ks = true := by
  refine List.any_eq_true.mpr ⟨k, List.mem_range.mpr hk, ?_⟩
  simpa [State.sweeping, hst] using hks

section
variable {q : Req} {s s₁ : State} {k : Nat}

/-- The state of a `key.rotate` whose sweep has started. -/
def rotateStarted (s : State) (q : Req) (k : Nat) : State :=
  (startSweep s k (par q 0x10 1) (par q 0x11 1) (parBits q 0x12 0 1) (parBits q 0x12 1 1) q.tc.val (par q 0x18 8)
    (par q 0x18 8 + par q 0x20 8)).markSweeps

theorem starts_keyRotate
    (h : Served { op := 0x0703, priv := 2, ctx := 2, fields := [fld 0x10 2, fbits 0x12 0 2, fbits 0x18 0 33, fld 0x20 8] } q
      (firstBad [(0x0C, parBits q 0x12 0 1 == 0 || q.ctxv), (0x10, slotOk (par q 0x10 1) && s.slotActive (par q 0x10 1)),
        (0x11, slotOk (par q 0x11 1) && s.slotActive (par q 0x11 1) && par q 0x11 1 != par q 0x10 1), (0x18, decide (par q 0x18 8 < devWindow)),
        (0x20, decide (1 ≤ par q 0x20 8 ∧ par q 0x20 8 ≤ 2 ^ 33 ∧ par q 0x18 8 + par q 0x20 8 ≤ devWindow))]) s s₁)
    (hopen : s₁.keysOpen q opW) (hk : (List.range 4).find? (fun k => !s₁.sweeping k) = some k)
    (hclear : ∀ j < 4, s₁.sweeping j = true →
      ¬(par q 0x18 8 < s₁.get .SEC_SWEEP_LIMIT_LPN j ∧ s₁.get .SEC_SWEEP_FIRST_LPN j < par q 0x18 8 + par q 0x20 8))
    (hfree : s₁.freeSlot.isSome = true) : Starts (exec (.keyRotate q) s) s₁ (rotateStarted s₁ q k) q (.rotate k) := by
  have hnone : (List.range 4).any (fun j => s₁.sweeping j &&
      decide (par q 0x18 8 < s₁.get .SEC_SWEEP_LIMIT_LPN j ∧ s₁.get .SEC_SWEEP_FIRST_LPN j < par q 0x18 8 + par q 0x20 8)) = false := by
    refine List.any_eq_false.mpr fun j hj => ?_
    rw [Bool.and_eq_true, decide_eq_true_eq]
    exact fun hhit => hclear j (List.mem_range.mp hj) hhit.1 hhit.2
  refine starts_of_served h ((keyPort_of_open hopen _).trans ?_) hfree
  dsimp only
  rw [hk]
  exact if_neg (by rw [hnone]; exact Bool.false_ne_true)

/-- The two slots of a rotation are marked. -/
theorem slots_rotateStarted (hk : k < 4) (hold : slotOk (par q 0x10 1) = true) (hnew : slotOk (par q 0x11 1) = true) :
    (rotateStarted s q k).get .SEC_KS_STS_SWEEP (par q 0x10 1) = 1 ∧ (rotateStarted s q k).get .SEC_KS_STS_SWEEP (par q 0x11 1) = 1 := by
  obtain ⟨hst, hslotOld, hslotNew, -⟩ := slots_startSweep s k (par q 0x10 1) (par q 0x11 1) (parBits q 0x12 0 1) (parBits q 0x12 1 1) q.tc.val
    (par q 0x18 8) (par q 0x18 8 + par q 0x20 8)
  unfold rotateStarted
  rw [sweep_markSweeps _ (lt_of_slotOk hold), sweep_markSweeps _ (lt_of_slotOk hnew), swept_of_running hk hst (.inl hslotOld),
    swept_of_running hk hst (.inr hslotNew)]
  exact ⟨rfl, rfl⟩

theorem keepsPages_rotateStarted (s : State) (q : Req) (k : Nat) : KeepsPages s (rotateStarted s q k) :=
  (keepsPages_startSweep ..).trans (keepsPages_markSweeps _)

theorem sweep_rotateStarted (s : State) (q : Req) (k : Nat) : let u := rotateStarted s q k
    u.get .SEC_SWEEP_CTL_STATE k = 1 ∧ u.get .SEC_SWEEP_CTL_OLD k = par q 0x10 1 ∧ u.get .SEC_SWEEP_CTL_NEW k = par q 0x11 1 ∧
      u.get .SEC_SWEEP_CTL_BIND k = parBits q 0x12 0 1 := by
  simp [rotateStarted, get_markSweeps, slots_startSweep]

theorem range_rotateStarted (s : State) (q : Req) (k : Nat) : let u := rotateStarted s q k
    u.get .SEC_SWEEP_FIRST_LPN k = par q 0x18 8 ∧ u.get .SEC_SWEEP_LIMIT_LPN k = par q 0x18 8 + par q 0x20 8 ∧
      u.get .SEC_SWEEP_WAY_LPN k = par q 0x18 8 := by
  simp [rotateStarted, get_markSweeps, range_startSweep]

end

/-! ### The sec commands (R295-R302, R310, R311) -/

def slotWords (s : State) : Output := (List.range 32).map (fun n => (8 * n, 8, s.word .SEC_KS_STS_STATE n))

def sweepWords (s : State) (k : Nat) : Output :=
  [(0x100 + 32 * k, 8, s.word .SEC_SWEEP_CTL_OLD k), (0x108 + 32 * k, 8, s.get .SEC_SWEEP_FIRST_LPN k),
    (0x110 + 32 * k, 8, s.get .SEC_SWEEP_LIMIT_LPN k), (0x118 + 32 * k, 8, s.get .SEC_SWEEP_WAY_LPN k)]

def rangeWords (s : State) (r : Nat) : Output :=
  [(0x180 + 16 * r, 8, s.word .SEC_ANS_BASE_LPN r), (0x188 + 16 * r, 8, s.word .SEC_ANS_LIMIT_LPN r)]

def haltOut (s : State) : Output :=
  let halt := match s.sec.haltRec with | some r => haltWords r | none => []
  (List.range halt.length).map (fun i => (0x200 + 8 * i, 8, halt.getD i 0))

/-- What `sec.query` reports: the slots, the sweeps, the Answerable ranges and the halt record. -/
def queryOut (s : State) : Output := slotWords s ++ (List.range 4).flatMap (sweepWords s) ++ (List.range 8).flatMap (rangeWords s) ++ haltOut s

/-- The sweeps that run, the unverifiable nodes, the halt record and the alarms, as RESULT of `sec.query` has them. -/
def queryResult (s : State) : Nat :=
  s.get .SEC_STS_UNVER + s.get .SEC_STS_HALT_REC * 2 ^ 7 + s.get .SEC_STS_ALARM_PEND * 2 ^ 8 +
    (List.range 4).foldl (fun n k => n + b2n (s.sweeping k) * 2 ^ (16 + k)) 0

/-- The handle of a sweep that a warm reset resumed (R548). -/
def queryDetail (s : State) : Nat := match s.sec.resumed with | (_, h) :: _ => h % 2 ^ 32 | [] => 0

section
variable (s : State)

theorem slot_mem_queryOut {n : Nat} (hn : n < 32) : (8 * n, 8, s.word .SEC_KS_STS_STATE n) ∈ queryOut s :=
  List.mem_append_left _ (List.mem_append_left _ (List.mem_append_left _ (List.mem_map_of_mem (List.mem_range.mpr hn))))

theorem sweep_subset_queryOut {k : Nat} (hk : k < 4) : sweepWords s k ⊆ queryOut s := fun _ hx =>
  List.mem_append_left _ (List.mem_append_left _ (List.mem_append_right _ (List.mem_flatMap.mpr ⟨k, List.mem_range.mpr hk, hx⟩)))

theorem range_subset_queryOut {r : Nat} (hr : r < 8) : rangeWords s r ⊆ queryOut s := fun _ hx =>
  List.mem_append_left _ (List.mem_append_right _ (List.mem_flatMap.mpr ⟨r, List.mem_range.mpr hr, hx⟩))

end

section
variable {q : Req} {s s₁ u : State} {hit : List Nat}

theorem completes_secQuery (h : Served { op := 0x0700, priv := 0, mctp := true, output := true } q none s s₁) :
    Completes (exec (.secQuery q) s) s₁ q (queryResult s₁) 576 (queryOut s₁) (queryDetail s₁) :=
  completes_of_served h rfl

/-- Pages that nothing holds after their recall, none of them a Table page, are zeroed where they are not in tier Zero (R302). -/
theorem completes_secZeroPages
    (h : Served { op := 0x0707, priv := 1, ctx := 2, fields := rangeFields } q
      (firstBad (s.rangeChecks q ++ [(0x10, (pagesOf q).all (fun p => s.tier p != 5))])) s s₁ (s.lpnDeny q (firstLpn q) (pageCount q)))
    (hu : u = s₁.allRecalled q) (hfree : ∀ p ∈ pagesOf q, u.notMine p = false ∧ u.tier p ≠ 5)
    (hhit : hit = (pagesOf q).filter (fun p => u.tier p != 0)) :
    Completes (exec (.secZeroPages q) s) ((hit.foldl (fun (s : State) p => s.zeroPage p) u).settleUnver.settleOps) q hit.length := by
  subst hu hhit
  have hruns := runPages_of_free (s := s₁) (w := { kind := 0, req := q }) Nat.zero_ne_one fun p hp => (hfree p hp).1
  have htable : (pagesOf q).any (fun p => (s₁.allRecalled q).tier p == 5) = false :=
    List.any_eq_false.mpr fun p hp => by simpa using (hfree p hp).2
  exact completes_of_served h (hruns.trans (if_neg (by rw [htable]; exact Bool.false_ne_true)))

/-- A rebase recalls no page, and runs at once where none of its pages is in a move. -/
theorem runPages_of_unmoved {w : Waiting} (hkind : w.kind = 1) (hfree : ∀ p ∈ pagesOf w.req, s.inMove p = false) :
    s.runPages w = waitBody w.kind w.req s := by
  have hnone : (pagesOf w.req).any s.inMove = false := List.any_eq_false.mpr fun p hp => by simp [hfree p hp]
  simp only [State.runPages, hkind, if_true, hnone, Bool.false_eq_true, if_false]

theorem completes_secRebase
    (h : Served { op := 0x0706, priv := 1, ctx := 2, fields := rangeFields } q (firstBad (s.rangeChecks q)) s s₁
      (s.lpnDeny q (firstLpn q) (pageCount q)))
    (hfree : ∀ p ∈ pagesOf q, s₁.inMove p = false)
    (hhit : hit = (pagesOf q).filter (fun p => s₁.unverif p && hasImage (s₁.tier p) && s₁.slotActive (s₁.page p).pl.ks &&
      decide (s₁.get .SEC_KS_HIGH_VALUE (s₁.page p).pl.ks < 0xFFFFFFFFFFFFFFFE))) :
    Completes (exec (.secRebase q) s) ((hit.foldl (fun (s : State) p => s.rebasePage p) s₁).settleUnver) q hit.length := by
  subst hhit
  exact completes_of_served h (runPages_of_unmoved (w := { kind := 1, req := q }) rfl hfree)

section
variable (h : Served { op := 0x0708, priv := 2, fields := [fld 0x10 8] } q none s s₁)
include h

theorem completes_secAlarmAck_halt (hnone : s₁.sec.alarms.contains (par q 0x10 8) = false) (hrec : s₁.isSet .SEC_STS_HALT_REC = true)
    (hseq : s₁.sec.haltRec.map (·.seq) = some (par q 0x10 8)) : Completes (exec (.secAlarmAck q) s) (s₁.put .SEC_STS_HALT_REC 0) q :=
  completes_of_served h ((if_neg (by rw [hnone]; exact Bool.false_ne_true)).trans (if_pos ⟨hrec, hseq⟩))

theorem completes_secAlarmAck_listed (hlisted : s₁.sec.alarms.contains (par q 0x10 8) = true) :
    Completes (exec (.secAlarmAck q) s) ({ s₁ with sec := { s₁.sec with alarms := s₁.sec.alarms.erase (par q 0x10 8) } }.put .SEC_STS_ALARM_PEND
      (min 255 (s₁.sec.alarms.erase (par q 0x10 8)).length)) q :=
  completes_of_served h (if_pos hlisted)

end

end

/-- Settles O51: a served request is answered by its body, behind the access tables where it uses the key store (`keyPort_of_open`). A payload that
does not unwrap fails a check of the request itself (`refused_of_added_check`); a rotation's registers are read back through the marks of its slots
(`…_rotateStarted`). -/
theorem keyAndSecurityCommands : Obligations.KeyAndSecurityCommands := by
  unfold Obligations.KeyAndSecurityCommands
  refine ⟨?query, ?generate, ?noEntropy, ?importKeys, ?load, ?zeroise, ?force, ?emptied, ?rotate, ?range, ?zeroPages, ?rebase, ?haltAck,
    ?alarmAck⟩
  case query =>
    intro q s s₁ h
    refine ⟨queryOut s₁, _, _, completes_secQuery h, fun n => slot_mem_queryOut s₁, fun k hk => ?_, fun r hr => ?_⟩
    · have hsweep := sweep_subset_queryOut s₁ hk
      simpa [sweepWords] using hsweep
    · have hrange := range_subset_queryOut s₁ hr
      simpa [rangeWords] using hrange
  case generate => exact fun q s s₁ h hopen href hswept => completes_keyGenerate h hopen href hswept
  case noEntropy => exact fun q s s₁ h hopen href hswept => refused_keyGenerate h hopen href hswept
  case importKeys =>
    intro q s s₁
    dsimp only
    intro h hopen href hswept
    split
    next hkeys => exact completes_keyImport h hopen href hswept hkeys
    next hkeys => exact refused_keyImport h (Bool.not_eq_true _ ▸ hkeys)
  case load =>
    intro s ks origin m _
    obtain ⟨hst, horigin, hfloor, hhigh⟩ := registers_loadKey s ks origin m
    exact ⟨hst, horigin, hfloor, hhigh, gen_loadKey s ks origin m, keys_loadKey s ks origin m⟩
  case zeroise => exact fun q s s₁ h hopen href hswept hspare => completes_keyZeroise h hopen hswept hspare href
  case force => exact fun q s s₁ h hopen href hforce hswept hspare => starts_keyZeroise h hopen hswept hspare href hforce
  case emptied => exact fun s ks => empty_zeroise s ks
  case rotate =>
    intro q s s₁ k
    dsimp only
    intro h hopen hk hclear hfree
    have hfour : k < 4 := List.mem_range.mp (List.mem_of_find?_eq_some hk)
    have hchecks := firstBad_eq_none_iff.mp (served_passes h)
    obtain ⟨hst, hold, hnew, hbind⟩ := sweep_rotateStarted s₁ q k
    obtain ⟨hfirst, hlimit, hway⟩ := range_rotateStarted s₁ q k
    obtain ⟨hslotOld, -⟩ := Bool.and_eq_true_iff.mp (hchecks _ (List.mem_cons_of_mem _ List.mem_cons_self))
    obtain ⟨hactiveNew, -⟩ := Bool.and_eq_true_iff.mp (hchecks _ (List.mem_cons_of_mem _ (List.mem_cons_of_mem _ List.mem_cons_self)))
    obtain ⟨hslotNew, -⟩ := Bool.and_eq_true_iff.mp hactiveNew
    exact ⟨rotateStarted s₁ q k, starts_keyRotate h hopen hk hclear hfree, hst, hold, hnew, hbind, hfirst, hlimit, hway,
      keepsPages_rotateStarted .., slots_rotateStarted hfour hslotOld hslotNew⟩
  case range => exact fun q s s₁ h => completes_of_served h rfl
  case zeroPages => exact fun q s s₁ u hit => completes_secZeroPages
  case rebase => exact fun q s s₁ hit => completes_secRebase
  case haltAck => exact fun q s s₁ => completes_secAlarmAck_halt
  case alarmAck => exact fun q s s₁ => completes_secAlarmAck_listed

end Sys2Proof.Proofs.Encryption

/-!
PROOFS of the statements of the Caravan loans: what the borrower makes of its lender's messages, and how it loses a loan (R308, R400-R418).
-/
namespace Sys2Proof.Proofs.CaravanLoans
open Sys2Proof Sys2Proof.Machine

/-! ### Messages at a port (R410, R411) -/

/-- The attributes under which a port acts on a message (R414, R511). -/
abbrev portAttr (s : State) (p : Nat) : Attr :=
  { master := some (mCvn p), priv := 3, lpn := lpnEnd, cls := s.get .CVN_PORT_CFG_LCLASS p, tier := 6 }

section
variable {s u : State} {p op : Nat} {y : CvnMsg × State} (hrun : s.halt = none) (hup : s.portUp p = true) (hmsg : s.nextMsg p op = some y)
  (hu : u = y.2.wakeMem.underFor (portAttr y.2 p) 0)
include hrun hup hmsg hu

/-- A message that has arrived is acted on by the awake device. -/
theorem onMsg_of_next (act : State → CvnMsg → State) : s.onMsg p op act = .next (act u y.1).uncharged := by
  subst hu
  simp [State.onMsg, hrun, hup, hmsg]

variable {w : CvnWait} {ok : Nat → Bool} (hw : u.waitOf p y.1.tid ok = some w) (act : State → CvnMsg → CvnWait → State)
include hw

theorem onAnswer_of_wait (hst : y.1.status ≠ 3) : s.onAnswer p op ok act = .next (act u y.1 w).uncharged := by
  rw [State.onAnswer, onMsg_of_next hrun hup hmsg hu]
  simp only [hw, if_neg hst]

theorem onAnswer_of_resend (hst : y.1.status = 3) : s.onAnswer p op ok act = .next (u.resend p w).uncharged := by
  rw [State.onAnswer, onMsg_of_next hrun hup hmsg hu]
  simp only [hw, if_pos hst]

end

/-! ### What the borrower makes of an answer (R410, R411, R414, R415) -/

section
variable {s : State} {p : Nat} {m : CvnMsg} {w : CvnWait}

theorem wackFor_page (huse : w.use ≠ 2) (hst : m.status = 0) : s.wackFor p m w = s.waitDone p m.tid :=
  (if_neg huse).trans (if_pos hst)

theorem wackFor_twin (huse : w.use = 2) (hst : m.status = 0)
    (hmine : s.coh.twins.any (fun t => t.sector == w.arg && t.sent == some w.tid) = true) :
    s.wackFor p m w = (s.twinAcked w.arg).waitDone p m.tid := by
  simp only [State.wackFor, if_pos huse, if_pos hst, hmine, if_true]

/-- A page read that comes back with poison ends with poison. -/
theorem lentAnswer_poison {u v : State} {f : Fetch} {t : Trk} (hu : u = s.waitDone p m.tid) (ht : u.trkOf w.arg = some t)
    (hpoison : m.poison = true) (hv : v = u.coh' (fun c => { c with suspects := c.suspects.filter (fun x => x.1 != w.arg) })) :
    s.lentAnswer p f m w = ((v.putTrk w.arg { t with lender := none }).readEnds w.arg (.poison 0)).settle (u.home (w.arg / 64)) := by
  subst hu hv
  simp only [State.lentAnswer, ht, hpoison, true_or, if_true]

/-- A granule of a page with a local twin that the lender cannot read is repaired from the twin. -/
theorem lenderBad_with_twin {lloc v : Nat} (huse : tget lloc (s.port p).uses = some v) (htwin : (s.page (v / 2)).pl.twk = 1) :
    s.lenderBad p lloc = s.queueRepair (v / 2) := by
  simp only [State.lenderBad, huse, htwin, or_true, if_true]

end

section
variable {s : State} {p : Fin 2} {tid : Fin 65536} {w : CvnWait} (hrun : s.halt = none) (hup : s.portUp p.val = true)
  (hw : s.waitOf p.val tid.val (fun _ => true) = some w)
include hrun hup hw

theorem exec_messageResendTimeout :
    exec (.messageResendTimeout p tid) s = .next (if w.tries < 3 then s.resend p.val w else s.goDown p.val) := by
  show execMessageResendTimeout p tid s = _
  simp [execMessageResendTimeout, hw, hrun, hup]

end

/-! ### SYNC, the SPDM session, and a loan that is lost (R308, R400, R402, R417, R418) -/

section
variable {s u : State} {p asB asL : Nat} (hu : u = s.setPort p { s.port p with peerSync := some (asB, asL) })
include hu

theorem compareLoans_of_none (hb : (u.port p).loanB = none) (hl : (u.port p).loanL = none) : s.compareLoans p asB asL = u := by
  simp only [State.compareLoans, ← hu, hb, hl]

/-- A loan that the lender does not present is lost. -/
theorem compareLoans_of_forgotten {id : Nat} (hb : (u.port p).loanB = some id) (hid : id ≠ asL)
    (hl : ((u.loseLoan p).port p).loanL = none) : s.compareLoans p asB asL = u.loseLoan p := by
  simp only [State.compareLoans, ← hu, hb, if_neg hid, hl]

end

theorem exec_sync_of_message {s : State} {p : Fin 2} {y : CvnMsg × State} (hkeyed : (s.port p.val).keyed = true)
    (hmsg : s.sessionMsg p.val 6 = some y) (hlen : y.1.data.length = 16) :
    exec (.sync p) s = .next (y.2.compareLoans p.val (leNat (y.1.data.take 8)) (leNat (y.1.data.drop 8))) := by
  show execSync p s = _
  simp only [execSync, hkeyed, hmsg, hlen, not_true_eq_false, if_false, if_true]

section
variable {s : State} {p : Fin 2} {y : CvnMsg × State} (hmsg : s.sessionMsg p.val 7 = some y)
include hmsg

theorem exec_caravanSpdm_replies {reply : List Byte} (hreply : reply ≠ []) :
    exec (.caravanSpdm p 0 reply) s = .next (y.2.sendMsg p.val { op := 7, data := reply.take 4608 }) := by
  show execCaravanSpdm p 0 reply s = _
  simp [execCaravanSpdm, hmsg, hreply]

theorem exec_caravanSpdm_silent : exec (.caravanSpdm p 0 []) s = .next y.2 := by
  show execCaravanSpdm p 0 [] s = _
  simp [execCaravanSpdm, hmsg]

theorem exec_caravanSpdm_keys : exec (.caravanSpdm p 1 []) s = .next (y.2.installKeys p.val) := by
  show execCaravanSpdm p 1 [] s = _
  simp [execCaravanSpdm, hmsg]

end

section
variable {s : State} {p : Fin 2} (hrun : s.halt = none) (hdown : s.portUp p.val = false)
include hrun hdown

theorem exec_loanLost_of_loan (hloan : (s.port p.val).loanB.isSome = true) : exec (.loanLost p) s = .next (s.loseLoan p.val) := by
  show execLoanLost p s = _
  simp [execLoanLost, hrun, hdown, hloan]

/-- A head's read that has been held for HOLD_MS ends with poison. -/
theorem exec_loanHoldTimeout_of_held {u : State} {line : LineNo} {t : Trk} (hheld : (s.port p.val).held.contains line.val = true)
    (hu : u = s.setPort p.val { s.port p.val with
      held := (s.port p.val).held.filter (fun l => l != line.val)
      waits := (s.port p.val).waits.filter (fun w => !(w.use == 0 && w.arg == line.val)) })
    (ht : u.trkOf line.val = some t) (hhead : t.req.head.isSome = true) :
    exec (.loanHoldTimeout p line) s = .next ((u.readEnds line.val (.poison 0)).settle (u.home (line.val / 64))) := by
  show execLoanHoldTimeout p line s = _
  unfold execLoanHoldTimeout
  dsimp only
  rw [if_neg (by rw [hheld, hdown, hrun]; simp), ← hu]
  simp only [ht, Option.isNone_eq_false_iff.mpr hhead, Bool.false_eq_true, if_false]

end

/-- Settles O23: a message is taken by `onMsg_of_next`, an answer with the request it names by `onAnswer_of_wait` or `onAnswer_of_resend`; the other
clauses are branches of what the borrower then does. -/
theorem borrowerMessages : Obligations.BorrowerMessages := by
  unfold Obligations.BorrowerMessages
  refine ⟨?wack, ?wackPage, ?wackTwin, ?grant, ?rack, ?rdata, ?resendRead, ?poison, ?resend, ?down, ?note, ?repair, ?reclaim, ?sync, ?noLoans,
    ?forgotten, ?spdm, ?lost, ?hold⟩
  case wack => exact fun s u p y w hrun hup hmsg hu hw => onAnswer_of_wait hrun hup hmsg hu hw (fun s m w => s.wackFor p.val m w)
  case wackPage => exact fun s p m w => wackFor_page
  case wackTwin => exact fun s p m w => wackFor_twin
  case grant =>
    rintro s u _ p y w _ hrun hup hmsg hu hw hst rfl rfl
    show execGrant p s = _
    rw [execGrant, onAnswer_of_wait hrun hup hmsg hu hw _ hst]
  case rack =>
    exact fun s u p y w hrun hup hmsg hu hw => onAnswer_of_wait hrun hup hmsg hu hw (fun s m _ => (s.waitDone p.val m.tid).closeLoan p.val)
  case rdata => exact fun s u p y w f hrun hup hmsg hu hw => onAnswer_of_wait hrun hup hmsg hu hw (fun s m w => s.lentAnswer p.val f m w)
  case resendRead =>
    exact fun s u p y w f hrun hup hmsg hu hw => onAnswer_of_resend hrun hup hmsg hu hw (fun s m w => s.lentAnswer p.val f m w)
  case poison => exact fun s u v p f m w t => lentAnswer_poison
  case resend =>
    intro s p tid w hrun hup hw htries
    rw [exec_messageResendTimeout hrun hup hw, if_pos htries]
  case down =>
    intro s p tid w hrun hup hw htries
    rw [exec_messageResendTimeout hrun hup hw, if_neg (Nat.not_lt.mpr htries)]
  case note => exact fun s u p y hrun hup hmsg hu => onMsg_of_next hrun hup hmsg hu (fun s m => s.lenderBad p.val m.lloc)
  case repair => exact fun s p lloc v => lenderBad_with_twin
  case reclaim =>
    intro s u p y hrun hup hmsg hu
    show execReclaim p s = _
    rw [execReclaim, onMsg_of_next hrun hup hmsg hu]
  case sync => exact fun s p y => exec_sync_of_message
  case noLoans => exact fun s u p asB asL => compareLoans_of_none
  case forgotten => exact fun s u p asB asL id hu => compareLoans_of_forgotten hu
  case spdm =>
    intro s p y reply hmsg hreply
    exact ⟨exec_caravanSpdm_replies hmsg hreply, exec_caravanSpdm_silent hmsg, exec_caravanSpdm_keys hmsg⟩
  case lost => exact fun s p => exec_loanLost_of_loan
  case hold => exact fun s u p line t hrun hdown => exec_loanHoldTimeout_of_held hrun hdown

end Sys2Proof.Proofs.CaravanLoans

/-!
PROOFS of the statements on the protection of stored data: the `ecc` commands (R331-R333), and the refutation of the upkeep of a channel (R349, R351).
-/
namespace Sys2Proof.Proofs.StoredDataProtection
open Sys2Proof Sys2Proof.Machine Sys2Proof.Proofs.Pyryx Sys2Proof.Proofs.DramController

section
variable {q : Req} {s s₁ : State}

/-! ### Scrub passes (R332) -/

/-- The period, unless the request leaves it at 0, and the enables have been written. -/
def scrubSet (s : State) (q : Req) : State :=
  (if par q 0x10 2 = 0 then s else s.put .ECC_SCRUB_CFG_PERIOD_H (par q 0x10 2)).put .ECC_SCRUB_CFG_EN (par q 0x12 2)

section
variable (h : Served { op := 0x0802, priv := 2, fields := [fld 0x10 4, fbits 0x14 0 1] } q (firstBad [(0x10, decide (par q 0x10 2 ≤ 168))]) s s₁)
include h

theorem completes_eccScrubCfg (hgo : parBit q 0x14 0 = false) : Completes (exec (.eccScrubCfg q) s) (scrubSet s₁ q) q :=
  completes_of_served h (congrArg ok (if_neg (by simp [hgo])))

theorem completes_eccScrubCfg_restart (hrestart : parBit q 0x14 0 = true) :
    Completes (exec (.eccScrubCfg q) s) ((scrubSet s₁ q).restartScrub 16) q :=
  completes_of_served h (congrArg ok (if_pos hrestart))

end

/-! ### Injections (R331, R333) -/

/-- The operands of an injection: its kind, the granule it names, and the media line in it. -/
abbrev injKind (q : Req) : Nat := par q 0x10 1
abbrev injMa (q : Req) : Nat := par q 0x18 8
abbrev injLa (q : Req) : Nat := 4 * injMa q + par q 0x20 1

/-- The channel of the granule that an injection names, and how many injections are armed on it. -/
abbrev injChan (s : State) (q : Req) : Nat := s.chanOf (injMa q)
abbrev armedOn (s : State) (q : Req) : Nat := s.get .ECC_INJ_STS_ARMED (injChan s q)

/-- An injection has taken the next handle. -/
def takeHandle (s : State) : State := { s with ecc := { s.ecc with nextInj := s.ecc.nextInj + 1 } }

/-- An injection of this kind is armed under the next handle. -/
def armInj (s : State) (kind la mask pattern : Nat) : State :=
  { s with ecc := { s.ecc with nextInj := s.ecc.nextInj + 1, inj := s.ecc.inj ++ [Inj.mk (s.ecc.nextInj % 256) kind la mask pattern] } }

section
variable (h : Served { op := 0x0803, priv := 2, fields := injectFields (injKind q) } q (s.injectBad q) s s₁)
include h

/-- An injection of a line waits for a read or a write of it. -/
theorem completes_eccInject_line (hk : injKind q < 2) (hroom : armedOn s₁ q < 8) :
    Completes (exec (.eccInject q) s)
      ((armInj s₁ (injKind q) (injLa q) (par q 0x22 10) (par q 0x2C 1)).put .ECC_INJ_STS_ARMED (armedOn s₁ q + 1) (injChan s₁ q)) q
      (s₁.ecc.nextInj % 256) :=
  have hstored : injKind q ≠ 2 := by omega
  have harray : injKind q ≠ 3 := by omega
  completes_of_served h <| (if_neg fun hrole => hstored hrole.1).trans <| (if_neg fun hfull => Nat.not_le.mpr hroom hfull.2).trans <|
    (if_neg fun hfull => harray hfull.1).trans <| (if_neg hstored).trans (if_neg harray)

/-- An injection of an array counts against the injections of its block, not against those of a channel. -/
theorem completes_eccInject_array (hk : injKind q = 3)
    (hroom : (s₁.ecc.inj.filter (fun x => decide (x.kind = 3 ∧ x.la / 1024 = par q 0x18 2 / 1024))).length < 4) :
    Completes (exec (.eccInject q) s) (armInj s₁ 3 (par q 0x18 2) (par q 0x1C 4) (par q 0x20 2)) q (s₁.ecc.nextInj % 256) :=
  have hstored : injKind q ≠ 2 := by omega
  have hline : ¬injKind q < 3 := by omega
  completes_of_served h <| (if_neg fun hrole => hstored hrole.1).trans <| (if_neg fun hfull => hline hfull.1).trans <|
    (if_neg fun hfull => Nat.not_le.mpr hroom hfull.2).trans <| (if_neg hstored).trans (if_pos hk)

/-- A line of a page's image is poisoned at once, and the injection counts as fired. -/
theorem completes_eccInject_stored {o : Own} (hk : injKind q = 2) (hown : s₁.ownAt (injMa q) = some o)
    (hentry : tget (injMa q) s₁.pg.own = some o) (himage : o.role = 1) (hroom : armedOn s₁ q < 8) :
    Completes (exec (.eccInject q) s)
      ((((takeHandle s₁).poisonAt o.lpn (injLa q) 7).bump .ECC_INJ_STS_FIRED 0xFFFF (injChan s₁ q)).report
        { msg1 bEcc (injChan s₁ q) 9 (injLa q) with inj := true }) q (s₁.ecc.nextInj % 256) :=
  have harray : injKind q ≠ 3 := by omega
  completes_of_served h (by
    simp only [hown, hentry, if_pos himage, if_pos hk]
    exact (if_neg (by omega)).trans <| (if_neg fun hfull => Nat.not_le.mpr hroom hfull.2).trans (if_neg fun hfull => harray hfull.1))

end

end

/-- Settles O52: a served request is answered by its body; of `ecc.inject` the kind picks the branch, and the premises rule out its refusals. -/
theorem protectionCommands : Obligations.ProtectionCommands := by
  unfold Obligations.ProtectionCommands
  refine ⟨?query, ?setCode, ?scrubCfg, ?restart, ?line, ?stored, ?array, ?poisonList⟩
  case query => exact fun q s s₁ h => completes_of_served h rfl
  case setCode => exact fun q s s₁ h => completes_of_served h rfl
  case scrubCfg => exact fun q s s₁ => completes_eccScrubCfg
  case restart => exact fun q s s₁ => completes_eccScrubCfg_restart
  case line => exact fun q s s₁ => completes_eccInject_line
  case stored => exact fun q s s₁ o h => completes_eccInject_stored h
  case array => exact fun q s s₁ => completes_eccInject_array
  case poisonList =>
    rintro q s s₁ _ _ _ h rfl
    exact completes_of_served h rfl

/-! ### The end of a pause under a reload list that names the turn

The channel that leaves a pause changes the factor, which may report TLG_RESTORED (R434). Where the severity table makes that message Fatal, its record may
overwrite one whose grace timer runs, and the step that this expiry orders may reload fields (R450, R459, R533). The statement is about every state, so also
about one whose reload list names `MEM_GLB.FCHG`, a field that no step of the model puts there. -/

/-- The queue of `strayReload`, where the step of its record is to reload FCHG as 3, and TLG_RESTORED is Fatal. -/
def strayTurnReload : State :=
  let s : State := { strayReload with flt := { strayReload.flt with reload := [(srcId tableRecord.msg, [(⟨.MEM_GLB_FCHG, 0, 0⟩, 3)])] } }
  (s.put .FLT_SEV_SEV_C 3 (16 * bTlg + 1)).put .FLT_SEV_V_C 1 (16 * bTlg + 1)

/-- Channel 0 pauses with the turn while the factor is below 1,024; with nothing guaranteed, the end of the pause restores it. -/
def pausedWithStrayReload : State := ((strayTurnReload.put .MEM_CH_STS_STATE 5 0).put .MEM_GLB_FCHG 0).put .TLG_STS_F 512

theorem pauseHit_pausedWithStrayReload : (pausedWithStrayReload.chan (0 : Fin 16).val).pauseHit = none := rfl

theorem turn_endPause_pausedWithStrayReload : (pausedWithStrayReload.endPause (0 : Fin 16).val).get .MEM_GLB_FCHG = 3 := by decide +kernel

/-- Refutes O55: the clause on `State.endPause` does not bind the reload list, and the turn that channel 0 of `pausedWithStrayReload` gives back ends as 3. -/
theorem not_channelUpkeep : ¬ Obligations.ChannelUpkeep := by
  unfold Obligations.ChannelUpkeep
  rintro ⟨-, -, -, -, -, -, -, -, -, hpause, -⟩
  obtain ⟨-, hturn⟩ := hpause pausedWithStrayReload 0 pauseHit_pausedWithStrayReload
  rw [turn_endPause_pausedWithStrayReload] at hturn
  exact absurd hturn (by decide)

end Sys2Proof.Proofs.StoredDataProtection

/-!
PROOFS of the statements of the performance counters: the `pmu` commands and events (R514-R517).
-/
namespace Sys2Proof.Proofs.PerformanceCounters
open Sys2Proof Sys2Proof.Machine Sys2Proof.Proofs.Architecture Sys2Proof.Proofs.Pyryx Sys2Proof.Proofs.Translation

theorem not_of_isSet_false {s : State} {r : Reg} {i j : Nat} {p : Prop} (h : s.isSet r i j = false) : ¬(s.isSet r i j = true ∧ p) := by
  simp [h]

/-! ### The counters (R514-R517) -/

section
variable {q : Req} {s s₁ : State}

/-- A counter that does not count takes any configuration. -/
theorem completes_pmuConfig_counter
    (h : Served { op := 0x0E01, priv := 2, mctp := true, payload := 48, fields := pmuConfigFields (par q 0x10 1) } q (pmuConfigBad q) s s₁)
    (hkind : par q 0x10 1 = 0) (hoff : s₁.isSet .PMU_CTL_EN (par q 0x12 2) = false) :
    Completes (exec (.pmuConfig q) s) ((((s₁.put .PMU_CTL_EVENT (par q 0x14 1) (par q 0x12 2)).put .PMU_CTL_EN (parBits q 0x15 0 1)
      (par q 0x12 2)).put .PMU_CTL_FILT (parBits q 0x15 1 1) (par q 0x12 2)).put .PMU_CTL_FSET (parBits q 0x15 2 4) (par q 0x12 2)) q :=
  completes_of_served h ((if_pos hkind).trans (if_neg (not_of_isSet_false hoff)))

/-- Filter set `f` holds the 48 bytes of a payload (R516). -/
def filterSet (s : State) (p : List Byte) (f : Nat) : State :=
  let masked := (s.put .PMU_FS_MASK0_MASK (payNat p 0 8) f).put .PMU_FS_MASK1_MASK (payNat p 8 8) f
  let ranged := (masked.put .PMU_FS_BASE_LPN (payNat p 0x10 8 % 2 ^ 33) f).put .PMU_FS_LIMIT_LPN (payNat p 0x18 8 % 2 ^ 33) f
  let classed := (ranged.put .PMU_FS_SEL_CLSET (payNat p 0x20 2) f).put .PMU_FS_SEL_TIERSET (payNat p 0x22 1) f
  (classed.put .PMU_FS_SEL_PRIVSET (payNat p 0x23 1 % 16) f).put .PMU_FS_SEL_RANGE_EN (b2n (bit (payNat p 0x23 1) 4)) f

/-- A filter set that no enabled counter uses takes any configuration. -/
theorem completes_pmuConfig_filter
    (h : Served { op := 0x0E01, priv := 2, mctp := true, payload := 48, fields := pmuConfigFields (par q 0x10 1) } q (pmuConfigBad q) s s₁)
    (hkind : par q 0x10 1 = 1)
    (hfree : ∀ n < 256, ¬(s₁.isSet .PMU_CTL_EN n = true ∧ s₁.isSet .PMU_CTL_FILT n = true ∧ s₁.get .PMU_CTL_FSET n = par q 0x11 1)) :
    Completes (exec (.pmuConfig q) s) (filterSet s₁ q.payload (par q 0x11 1)) q := by
  have hnone : (List.range 256).any (fun n => s₁.isSet .PMU_CTL_EN n && s₁.isSet .PMU_CTL_FILT n && s₁.get .PMU_CTL_FSET n == par q 0x11 1) =
      false := by
    refine List.any_eq_false.mpr fun n hn => ?_
    simpa [and_assoc] using hfree n (List.mem_range.mp hn)
  refine completes_of_served h ((if_neg (by omega)).trans (if_neg ?_))
  rw [hnone]
  exact Bool.false_ne_true

end

theorem selection_filterSet (s : State) (p : List Byte) (f : Nat) : let u := filterSet s p f
    u.get .PMU_FS_MASK0_MASK f = payNat p 0 8 ∧ u.get .PMU_FS_BASE_LPN f = payNat p 0x10 8 % 2 ^ 33 ∧
      u.get .PMU_FS_LIMIT_LPN f = payNat p 0x18 8 % 2 ^ 33 ∧ u.get .PMU_FS_SEL_CLSET f = payNat p 0x20 2 ∧
      u.get .PMU_FS_SEL_TIERSET f = payNat p 0x22 1 ∧ u.get .PMU_FS_SEL_PRIVSET f = payNat p 0x23 1 % 16 := by
  simp [filterSet, State.get_put_other]

theorem count_filterSet (s : State) (p : List Byte) (f n : Nat) : (filterSet s p f).get .PMU_CNT_COUNT n = s.get .PMU_CNT_COUNT n := by
  simp [filterSet, State.get_put_other]

theorem get_pmuClear_same (s : State) (n : Nat) : (s.pmuClear n).get .PMU_CNT_COUNT n = 0 ∧ (s.pmuClear n).get .PMU_CNT_SAT n = 0 := by
  simp [State.pmuClear, State.get_put_other]

theorem count_pmuClear_ne (s : State) {n k : Nat} (h : k ≠ n) : (s.pmuClear n).get .PMU_CNT_COUNT k = s.get .PMU_CNT_COUNT k := by
  have hkey : (⟨.PMU_CNT_COUNT, n, 0⟩ : RegKey) ≠ ⟨.PMU_CNT_COUNT, k, 0⟩ := by simp [Ne.symm h]
  simp [State.pmuClear, State.get_put_other, State.get_put_ne _ _ hkey]

/-- Settles O38: a served request is answered by its body; a filter set reads back what `filterSet` wrote. -/
theorem counterCommands : Obligations.CounterCommands := by
  unfold Obligations.CounterCommands
  refine ⟨?query, ?counter, ?filter, ?read, ?clear, ?clearOne, fun s on => rfl⟩
  case query => exact fun q s s₁ h => completes_of_served h rfl
  case counter => exact fun q s s₁ => completes_pmuConfig_counter
  case filter =>
    intro q s s₁ h hkind hfree
    obtain ⟨hmask, hbase, hlimit, hclasses, htiers, hprivs⟩ := selection_filterSet s₁ q.payload (par q 0x11 1)
    exact ⟨_, completes_pmuConfig_filter h hkind hfree, hmask, hbase, hlimit, hclasses, htiers, hprivs, count_filterSet _ _ _⟩
  case read => exact fun q s s₁ h => completes_of_served h rfl
  case clear => exact fun q s s₁ h => completes_of_served h rfl
  case clearOne =>
    intro s n
    obtain ⟨hcount, hsat⟩ := get_pmuClear_same s n.val
    exact ⟨rfl, hcount, hsat, fun k => count_pmuClear_ne s⟩

end Sys2Proof.Proofs.PerformanceCounters

/-!
PROOFS of the statements of access control: the `acc` and `debug` commands, the TAP, and the ends of an unlock (R521, R524-R532).
-/
namespace Sys2Proof.Proofs.AccessControl
open Sys2Proof Sys2Proof.Machine Sys2Proof.Proofs.Architecture Sys2Proof.Proofs.Pyryx Sys2Proof.Proofs.Translation

/-! ### The acc and debug commands (R525, R528, R529, R531, R532) -/

section
variable {q : Req} {s s₁ : State}

section
variable (h : Served { op := 0x1101, priv := 2, mctp := true, fields := accFields (par q 0x11 1) } q (accBad q) s s₁)
  (hopen : s₁.isSet .ACC_LOCK_LOCK = false)
include h hopen

theorem completes_accSetTable_masters (hkind : par q 0x11 1 = 0) :
    Completes (exec (.accSetTable q) s) ((accTargets (par q 0x10 1)).foldl (fun s t =>
      (if par q 0x12 1 = 0xFF then List.range 0x43 else [par q 0x12 1]).foldl (fun s m => s.put .ACC_TBL_RC (par q 0x18 6) t m) s) s₁) q :=
  completes_of_served h ((if_neg (ne_true_of_eq_false hopen)).trans (if_pos hkind))

theorem completes_accSetTable_ranges (hkind : par q 0x11 1 ≠ 0) :
    Completes (exec (.accSetTable q) s) ((accTargets (par q 0x10 1)).foldl (fun s t =>
      (((s.put .ACC_RNG_BASE_ADDR (par q 0x18 8) t (par q 0x12 1)).put .ACC_RNG_BASE_CLASS (parBits q 0x13 0 4) t (par q 0x12 1)).put
        .ACC_RNG_BASE_EN (parBits q 0x13 4 1) t (par q 0x12 1)).put .ACC_RNG_LIMIT_ADDR (par q 0x20 8) t (par q 0x12 1)) s₁) q :=
  completes_of_served h ((if_neg (ne_true_of_eq_false hopen)).trans (if_neg hkind))

end

section
variable (h : Served { op := 0x1103, priv := 2, mctp := true, output := true, payload := 144, fields := [fld 0x10 1, fld 0x14 4] } q
    (firstBad [(0x10, decide (par q 0x10 1 ≤ 1)), (0x08, decide (q.plen = if par q 0x10 1 = 1 then 144 else 0))]) s s₁)
  (hsession : s₁.sec.sessions.contains (sessionHolder q.origin, par q 0x14 4) = true)
include h hsession

/-- Phase 0 in a secured session issues a nonce. -/
theorem completes_debugUnlock_nonce (hphase : par q 0x10 1 = 0) :
    Completes (exec (.debugUnlock q) s) { s₁.drawn with acc := { s₁.acc with nonce := some (s₁.draw % 2 ^ 256, par q 0x14 4, s₁.now) } } q 0 32
      [(0, 32, s₁.draw % 2 ^ 256)] :=
  completes_of_served h ((if_neg (not_not_intro hsession)).trans (if_pos hphase))

variable {v : Nat} (hphase : par q 0x10 1 = 1) (hnonce : s₁.liveNonce (par q 0x14 4) = some v)
include hphase hnonce

/-- Phase 1 with a good token spends the nonce and grants the level. -/
theorem completes_debugUnlock_token (htoken : s₁.tokenOk q.payload v = true) :
    Completes (exec (.debugUnlock q) s) (({ s₁ with acc := { s₁.acc with nonce := none } } : State).setDebug (payNat q.payload 2 1)
      (payNat q.payload 4 4)) q (payNat q.payload 2 1) := by
  refine completes_of_served h ((if_neg (not_not_intro hsession)).trans ((if_neg (by omega)).trans ?_))
  dsimp only
  rw [hnonce]
  exact if_pos htoken

theorem refused_debugUnlock_token (htoken : s₁.tokenOk q.payload v = false) :
    Refused (exec (.debugUnlock q) s) (s₁.report (msg1 bAcc 33 5)) q stBadParam 0x40 := by
  have hbody : execDebugUnlock q s = .next ((refuseUnlock s₁ stBadParam 0x40).finish s₁ q) := by
    refine (serve_of_served h _).trans (congrArg (fun a : Ans => Host.Outcome.next (a.finish s₁ q)) ?_)
    refine (if_neg (not_not_intro hsession)).trans ((if_neg (by omega)).trans ?_)
    dsimp only
    rw [hnonce]
    exact if_neg (ne_true_of_eq_false htoken)
  exact hbody

end

end

/-! ### The TAP (R521, R524, R528, R530) -/

theorem exec_dbgSts_on {s : State} (hon : s.tapOn = true) : exec .dbgSts s = .next (({ s with acc := { s.acc with tapInstr := 0x21 } } : State).emit
    (.value (s.get .ACC_DBG_LEVEL + 4 * s.dbgLeft + 2 ^ 19 * b2n s.acc.tapErr))) :=
  if_neg (not_not_intro hon)

theorem exec_extest_on {s : State} (hon : s.tapOn = true) : exec .extest s = .next { s with acc := { s.acc with
    tapInstr := if s.boot.phase = 1 ∨ s.boot.phase = 2 ∨ s.get .ACC_DBG_LEVEL = 2 then 0x00 else 0xFF } } := by
  refine (if_neg (not_not_intro hon)).trans ?_
  simp only [decide_eq_true_eq]

/-- Level 0 denies every access of the TAP. -/
theorem exec_dbgAcc_locked {s : State} (hon : s.tapOn = true) (hlevel : s.get .ACC_DBG_LEVEL = 0) (mem write : Bool) (addr : Fin (2 ^ 45))
    (data : Fin (2 ^ 64)) (hint : Nat) : exec (.dbgAcc mem write addr data hint) s =
      .next (({ s with acc := { s.acc with tapInstr := 0x20, tapErr := true } } : State).emit (.value 0)) :=
  (if_neg (not_not_intro hon)).trans (if_pos (.inr hlevel))

/-- The TAP takes an access. -/
def tapTakes (s : State) : State := { s with acc := { s.acc with tapInstr := 0x20, tapErr := false } }

theorem home_tapTakes (s : State) (lpn : Nat) : (tapTakes s).home lpn = s.home lpn := rfl

theorem rangeClass_tapTakes (s : State) (t addr : Nat) : (tapTakes s).rangeClass t addr = s.rangeClass t addr := rfl

theorem decideAccess_tapTakes (s : State) (t m k op : Nat) (exc : Bool) : (tapTakes s).decideAccess t m k op exc = s.decideAccess t m k op exc :=
  rfl

/-- The access that DBG makes to memory: the TAP holds it until the home has the line. -/
def tapAsks (s : State) (write : Bool) (addr data hint : Nat) : State :=
  { s with acc := { s.acc with tapInstr := 0x20, tapErr := false,
                               tapMem := some (addr / 64, 64 * (addr / 8 % 8), if write then some data else none, hint) } }

theorem access_of_allowed {s : State} {t m addr op : Nat} {exc : Bool} (h : s.decideAccess t m (s.rangeClass t addr) op exc = true) (k : Mirror) :
    s.access t m addr op exc k = (s, true) := if_pos h

theorem exec_dbgAcc_memory {s : State} {write : Bool} {addr : Fin (2 ^ 45)} (hon : s.tapOn = true) (hup : s.regsUp = true)
    (hlevel : s.get .ACC_DBG_LEVEL ≠ 0)
    (hallowed : s.decideAccess (s.home (addr.val / 4096)) mDbg (s.rangeClass (s.home (addr.val / 4096)) (addr.val / 4096))
      (if write then opW else opR) false = true) (data : Fin (2 ^ 64)) (hint : Nat) :
    exec (.dbgAcc true write addr data hint) s = .next (tapAsks s write addr.val data.val hint).tapGo := by
  have hpage : addr.val / 64 / 64 = addr.val / 4096 := by omega
  refine (if_neg (not_not_intro hon)).trans ((if_neg (not_or.mpr ⟨not_not_intro hup, hlevel⟩)).trans ((if_neg (by simp)).trans ?_))
  dsimp only
  rw [hpage]
  have hjudged : (tapTakes s).memAccess mDbg (addr.val / 4096) (if write then opW else opR) false .std = (tapTakes s, true) := by
    rw [← decideAccess_tapTakes, ← rangeClass_tapTakes, ← home_tapTakes] at hallowed
    exact access_of_allowed hallowed .std
  rw [tapTakes] at hjudged
  rw [hjudged]
  rfl

theorem ne_zero_of_hasImage {t : Nat} (h : hasImage t = true) : t ≠ 0 := by
  rintro rfl
  exact absurd h (by decide)

/-- A read of a line that no host and no agent owns returns the 64 bits of the home's copy. -/
theorem tapGo_of_home_copy {s t : State} {line sh hint : Nat} {d : Line} (hmem : s.acc.tapMem = some (line, sh, none, hint))
    (ht : t = s.dirFix (line / 64)) (hhome : t.lineHome line = true) (himage : hasImage (t.tier (line / 64)) = true)
    (hcopy : t.homeCopy line = some d) :
    s.tapGo = ({ t with acc := { t.acc with tapMem := none } } : State).emit (.value (bits d.toNat sh 64)) := by
  subst ht
  simp only [State.tapGo, hmem, hhome, himage, hcopy, ne_zero_of_hasImage himage, not_true_eq_false, if_true, if_false]

/-- Settles O37: a served request is answered by its body; an instruction of the TAP goes by whether the TAP is on, the level and the access tables. -/
theorem accessAndDebugCommands : Obligations.AccessAndDebugCommands := by
  unfold Obligations.AccessAndDebugCommands
  refine ⟨?query, ?masters, ?ranges, ?lock, ?nonce, ?token, ?badToken, ?lockDebug, fun s => ⟨rfl, rfl⟩, fun s => ⟨rfl, rfl⟩, ?tap, ?memory, ?read⟩
  case query => exact fun q s s₁ h => completes_of_served h rfl
  case masters => exact fun q s s₁ h hkind hopen => completes_accSetTable_masters h hopen hkind
  case ranges => exact fun q s s₁ h hkind hopen => completes_accSetTable_ranges h hopen hkind
  case lock => exact fun q s s₁ h => completes_of_served h rfl
  case nonce => exact fun q s s₁ h hphase hsession => completes_debugUnlock_nonce h hsession hphase
  case token => exact fun q s s₁ v h hphase hsession hnonce => completes_debugUnlock_token h hsession hphase hnonce
  case badToken => exact fun q s s₁ v h hphase hsession hnonce => refused_debugUnlock_token h hsession hphase hnonce
  case lockDebug => exact fun q s s₁ h => completes_of_served h rfl
  case tap => exact fun s hon => ⟨exec_dbgSts_on hon, exec_extest_on hon, fun mem write addr data hint hlevel => exec_dbgAcc_locked hon hlevel ..⟩
  case memory =>
    rintro s t write addr data hint hon hup hlevel rfl hallowed
    exact exec_dbgAcc_memory hon hup hlevel hallowed data hint
  case read => exact fun s t line sh hint d => tapGo_of_home_copy

end Sys2Proof.Proofs.AccessControl

/-!
PROOFS of the statements of the fault collector: the `flt` commands, messages, grace timers and record windows (R331, R439-R458).
-/
namespace Sys2Proof.Proofs.Faults
open Sys2Proof Sys2Proof.Machine Sys2Proof.Proofs.Architecture Sys2Proof.Proofs.Pyryx Sys2Proof.Proofs.Translation

/-! ### Records of the queue (R445, R447, R452) -/

section
variable {s : State} {k : Nat} {r : FltRec} (h : tget k s.flt.recs = some r)
include h

theorem ackRec_of_no_escalation (hesc : r.esc = false) : s.ackRec k = s.setRecs (tput k { r with ack := true, tmr := false } s.flt.recs) := by
  simp [State.ackRec, h, hesc]

theorem clearRec_of_ended (hended : r.active = false) : s.clearRec k = s.setRecs (tdel k s.flt.recs) := by
  simp [State.clearRec, h, hended]

theorem clearRec_of_active (hactive : r.active = true) : s.clearRec k = s := by
  simp [State.clearRec, h, hactive]

end

/-! ### The flt commands (R444, R445, R452, R457, R458) -/

section
variable {q : Req} {s s₁ : State} {k : Nat} {r : FltRec}

theorem completes_fltAck (h : Served { op := 0x0D02, priv := 2, mctp := true, fields := [fld 0x10 8] } q none s s₁)
    (hseq : s₁.recBySeq (par q 0x10 8) = some (k, r)) (hrec : tget k s₁.flt.recs = some r) (hesc : r.esc = false) :
    Completes (exec (.fltAck q) s) (s₁.setRecs (tput k { r with ack := true, tmr := false } s₁.flt.recs)) q := by
  rw [← ackRec_of_no_escalation hrec hesc]
  exact completes_of_served h (by simp only [hseq]; exact if_neg (ne_true_of_eq_false hesc))

section
variable (h : Served { op := 0x0D03, priv := 2, mctp := true, fields := [fld 0x10 8, fbits 0x18 0 1] } q none s s₁)
include h

theorem completes_fltClear_one (hone : parBit q 0x18 0 = false) (hseq : s₁.recBySeq (par q 0x10 8) = some (k, r))
    (hrec : tget k s₁.flt.recs = some r) (hended : r.active = false) :
    Completes (exec (.fltClear q) s) (s₁.setRecs (tdel k s₁.flt.recs)) q 1 := by
  rw [← clearRec_of_ended hrec hended]
  refine completes_of_served h ((if_neg (ne_true_of_eq_false hone)).trans ?_)
  simp only [hseq]
  exact if_neg (ne_true_of_eq_false hended)

theorem completes_fltClear_all (hall : parBit q 0x18 0 = true) :
    Completes (exec (.fltClear q) s) (s₁.setRecs (s₁.flt.recs.filter (fun p => p.2.active))) q
      (s₁.flt.recs.filter (fun p => !p.2.active)).length :=
  completes_of_served h (if_pos hall)

end

end

/-- Settles O41: a served request is answered by its body; a record is acknowledged or cleared as its ESC and ACTIVE let it be. -/
theorem faultCommands : Obligations.FaultCommands := by
  unfold Obligations.FaultCommands
  refine ⟨?query, ?read, ?ack, ?clearOne, ?clearAll, ?severity, ?inject⟩
  case query => exact fun q s s₁ h => completes_of_served h rfl
  case read =>
    rintro q s s₁ l h rfl
    exact completes_of_served h rfl
  case ack => exact fun q s s₁ k r => completes_fltAck
  case clearOne => exact fun q s s₁ k r => completes_fltClear_one
  case clearAll => exact fun q s s₁ => completes_fltClear_all
  case severity => exact fun q s s₁ h => completes_of_served h rfl
  case inject => exact fun q s s₁ h => completes_of_served h rfl

/-! ### Messages and timers (R331, R440, R445, R449) -/

/-- The blocks whose messages have a containing action of their own; those of the others contain by commands of their own. -/
def containingBlocks : List Nat := [bPwr, bEng, bXlt, bCoh, bSlc, bCdc, bSec, bAcc, bFab, bTlg, bPmu]

theorem contain_of_other_block (s : State) {m : Msg} (hcode : m.code ∉ containingBlocks) (alt : Bool) : s.contain m alt = s := by
  simp only [containingBlocks, List.mem_cons, List.not_mem_nil, or_false, not_or] at hcode
  obtain ⟨hpwr, heng, hxlt, hcoh, hslc, hcdc, hsec, hacc, hfab, htlg, hpmu⟩ := hcode
  simp only [State.contain, hpwr, heng, hxlt, hcoh, hslc, hcdc, hsec, hacc, hfab, htlg, hpmu, false_and, if_false, ite_self]

/-- With nothing armed, a message that is no injection's reaches the collector as it is. -/
theorem exec_faultMessage_plain {s : State} {m : Msg} (hinj : s.ecc.inj = []) (hm : m.inj = false) (dropped : Nat) (alt : Bool) :
    exec (.faultMessage m dropped alt) s =
      .next (((s.put .FLT_OVF_SRCDROP (satAdd 0xFFFF (s.get .FLT_OVF_SRCDROP) dropped)).contain m alt).report m) := by
  have hfire : s.fireSram m = (s, m) := by
    simp only [State.fireSram, hinj, List.find?_nil, ← hm]
  change execFaultMessage m dropped alt s = _
  rw [execFaultMessage, hfire]

section
variable {s : State} {k : Fin 256}

theorem exec_graceTimerExpire_running {r : FltRec} (h : tget k.val s.flt.recs = some r) (htmr : r.tmr = true) :
    exec (.graceTimerExpire k) s =
      .next ((s.setRecs (tput k.val { r with tmr := false, esc := true } s.flt.recs)).orderEscalation r.msg r.direct r.seq 1
        (some { r with tmr := false, esc := true })).afterSteps := by
  change execGraceTimerExpire k s = _
  simp only [execGraceTimerExpire, h, htmr, if_true]

theorem exec_graceTimerExpire_stopped (h : ∀ r, tget k.val s.flt.recs = some r → r.tmr = false) : exec (.graceTimerExpire k) s = .next s := by
  change execGraceTimerExpire k s = _
  cases hrec : tget k.val s.flt.recs with
  | none => simp only [execGraceTimerExpire, hrec]
  | some r => simp only [execGraceTimerExpire, hrec, h r hrec, Bool.false_eq_true, if_false]

end

/-- Settles O42: a message goes by whether its block contains it, a timer by whether it runs, a record by its ESC and ACTIVE. -/
theorem faultEvents : Obligations.FaultEvents := by
  unfold Obligations.FaultEvents
  refine ⟨?other, ?message, ?running, ?stopped, ?window⟩
  case other =>
    intro s m dropped alt hinj hm hcode
    rw [exec_faultMessage_plain hinj hm, contain_of_other_block _ hcode]
  case message => exact fun s m dropped alt hinj hm => exec_faultMessage_plain hinj hm dropped alt
  case running => exact fun s k r => exec_graceTimerExpire_running
  case stopped => exact fun s k => exec_graceTimerExpire_stopped
  case window =>
    intro s k r h
    exact ⟨fun hesc => congrArg Host.Outcome.next (ackRec_of_no_escalation h hesc),
      fun hended => congrArg Host.Outcome.next (clearRec_of_ended h hended),
      fun hactive => congrArg Host.Outcome.next (clearRec_of_active h hactive)⟩

end Sys2Proof.Proofs.Faults

/-!
PROOFS of the statements of the tollgate: the `tlg` commands and the frame boundary (R427-R437).
-/
namespace Sys2Proof.Proofs.Tollgate
open Sys2Proof Sys2Proof.Machine Sys2Proof.Proofs.Architecture Sys2Proof.Proofs.Pyryx Sys2Proof.Proofs.Translation

/-! ### Quotas (R427) -/

section
variable (s : State) (r : Reg) (mask cls quota : Nat)

theorem onlyRegs_setQuota (n : Nat) : OnlyRegs s (s.setQuota r mask cls quota n) := by
  induction n generalizing s with
  | zero => exact .refl s
  | succ n ih => exact (OnlyRegs.ite (put_onlyRegs ..) (.refl s)).trans (ih _)

/-- One point of the mask is written at a time. -/
theorem get_put_if_bit (n k c : Nat) : (if bit mask n then s.put r quota n cls else s).get r k c =
    if k = n ∧ bit mask k = true ∧ c = cls then quota else s.get r k c := by
  by_cases hkey : k = n ∧ c = cls
  · obtain ⟨rfl, rfl⟩ := hkey
    cases hbit : bit mask k <;> simp
  · have hother : ¬(k = n ∧ bit mask k = true ∧ c = cls) := fun h => hkey ⟨h.1, h.2.2⟩
    rw [if_neg hother]
    split
    · exact s.get_put_ne _ fun e => hkey (by injection e with _ hk hc; exact ⟨hk.symm, hc.symm⟩)
    · rfl

/-- The quotas of the class that the mask names below `n` are the one asked for; the others stay. -/
theorem get_setQuota (n k c : Nat) : (s.setQuota r mask cls quota n).get r k c =
    if k < n ∧ bit mask k = true ∧ c = cls then quota else s.get r k c := by
  induction n generalizing s with
  | zero => simp [State.setQuota]
  | succ n ih =>
    rw [State.setQuota, ih, get_put_if_bit]
    simp only [Nat.lt_succ_iff_lt_or_eq, or_and_right]
    by_cases hlow : k < n ∧ bit mask k = true ∧ c = cls
    · rw [if_pos hlow, if_pos (.inl hlow)]
    · simp only [hlow, if_false, false_or]

theorem get_setQuota_of_bit {n k : Nat} (hk : k < n) (hbit : bit mask k = true) : (s.setQuota r mask cls quota n).get r k cls = quota := by
  rw [get_setQuota, if_pos ⟨hk, hbit, rfl⟩]

theorem get_setQuota_ne {n k c : Nat} (h : bit mask k = false ∨ c ≠ cls) : (s.setQuota r mask cls quota n).get r k c = s.get r k c := by
  rw [get_setQuota, if_neg]
  rintro ⟨-, hbit, hc⟩
  rcases h with h | h
  · exact ne_true_of_eq_false h hbit
  · exact h hc

end

theorem pg_of_onlyRegs {s t : State} (h : OnlyRegs s t) : t.pg = s.pg := KeepsPages.of_onlyRegs h

theorem coh_of_onlyRegs {s t : State} (h : OnlyRegs s t) : t.coh = s.coh := by
  unfold OnlyRegs at h
  rw [← h]

theorem out_of_onlyRegs {s t : State} (h : OnlyRegs s t) : t.out = s.out := by
  unfold OnlyRegs at h
  rw [← h]

theorem mem_of_onlyRegs {s t : State} (h : OnlyRegs s t) : t.mem = s.mem := by
  unfold OnlyRegs at h
  rw [← h]

/-! ### Guarantees and the cap (R433) -/

theorem excess_eq_zero {sum cap nom : Nat} (h : sum * 6400000 ≤ cap * nom) : excess sum cap nom = 0 := if_pos h

theorem excess_of_over {sum cap nom : Nat} (h : cap * nom < sum * 6400000) :
    excess sum cap nom = (sum * 6400000 - cap * nom + 6399999) / 6400000 := if_neg (by omega)

theorem excess_ne_zero {sum cap nom : Nat} (h : cap * nom < sum * 6400000) : excess sum cap nom ≠ 0 := by
  rw [excess_of_over h]
  omega

section
variable {q : Req} {s s₁ : State}

section
variable (h : Served { op := 0x0C02, priv := 2, fields := [fld 0x10 1, fld 0x12 2] } q
  (firstBad [(0x10, decide (1 ≤ par q 0x10 1 ∧ par q 0x10 1 ≤ 15))]) s s₁)
include h

/-- A guarantee is admitted that does not rise, or with which no excess is left. -/
theorem completes_tlgSetGuarantee (hadmit : par q 0x12 2 ≤ s₁.get .TLG_GUAR_BW (par q 0x10 1) ∨
      (s₁.put .TLG_GUAR_BW (par q 0x12 2) (par q 0x10 1)).sumB * 6400000 ≤ s₁.get .TLG_CFG_CAP * s₁.delivNomNum) :
    Completes (exec (.tlgSetGuarantee q) s) (s₁.put .TLG_GUAR_BW (par q 0x12 2) (par q 0x10 1)).retoll q
      (s₁.put .TLG_GUAR_BW (par q 0x12 2) (par q 0x10 1)).sumB := by
  refine completes_of_served h (if_neg ?_)
  rintro ⟨hrises, hexcess⟩
  rcases hadmit with hle | hle
  · omega
  · exact hexcess (excess_eq_zero hle)

theorem refused_tlgSetGuarantee (hrises : s₁.get .TLG_GUAR_BW (par q 0x10 1) < par q 0x12 2)
    (hover : s₁.get .TLG_CFG_CAP * s₁.delivNomNum < (s₁.put .TLG_GUAR_BW (par q 0x12 2) (par q 0x10 1)).sumB * 6400000) :
    Refused (exec (.tlgSetGuarantee q) s) s₁ q stOvercommit
      (((s₁.put .TLG_GUAR_BW (par q 0x12 2) (par q 0x10 1)).sumB * 6400000 - s₁.get .TLG_CFG_CAP * s₁.delivNomNum + 6399999) / 6400000) := by
  rw [← excess_of_over hover]
  exact refused_of_served h (if_pos ⟨hrises, excess_ne_zero hover⟩)

end

section
variable (h : Served { op := 0x0C03, priv := 2, fields := [fld 0x10 1] } q
  (firstBad [(0x10, decide (50 ≤ par q 0x10 1 ∧ par q 0x10 1 ≤ 90))]) s s₁)
include h

theorem refused_tlgSetCap (hover : par q 0x10 1 * s₁.delivNomNum < s₁.sumB * 6400000) :
    Refused (exec (.tlgSetCap q) s) s₁ q stOvercommit ((s₁.sumB * 6400000 - par q 0x10 1 * s₁.delivNomNum + 6399999) / 6400000) := by
  rw [← excess_of_over hover]
  exact refused_of_served h (if_pos (excess_ne_zero hover))

theorem completes_tlgSetCap (hfits : s₁.sumB * 6400000 ≤ par q 0x10 1 * s₁.delivNomNum) :
    Completes (exec (.tlgSetCap q) s) (s₁.put .TLG_CFG_CAP (par q 0x10 1)).retoll q :=
  completes_of_served h (if_neg (not_not_intro (excess_eq_zero hfits)))

end

/-- What `tlg.query` reports of a kind: guarantees, the quotas of a head or of a home, or a channel. -/
theorem completes_tlgQuery (h : Served { op := 0x0C00, priv := 0, mctp := true, output := true, fields := [fld 0x10 2] } q
      (firstBad [(0x10, decide (par q 0x10 1 ≤ 3)), (0x11, decide (par q 0x10 1 > 3 ∨ par q 0x11 1 <
        (match par q 0x10 1 with | 0 => 1 | 1 => 8 | _ => 16)))]) s s₁) (hkind : par q 0x10 1 ≤ 3) :
    Completes (exec (.tlgQuery q) s) s₁ q (s₁.word .TLG_STS_F) (if par q 0x10 1 = 3 then 136 else 128)
      (if par q 0x10 1 = 0 then s₁.perClass .TLG_GUAR_BW 0 true else if par q 0x10 1 = 1 then s₁.perClass .TLG_HQ_QUOTA (par q 0x11 1) false
       else if par q 0x10 1 = 2 then s₁.perClass .TLG_SQ_QUOTA (par q 0x11 1) false
       else s₁.perClass .TLG_CH_SLOT_SLOTS (par q 0x11 1) false ++ [(0x80, 8, s₁.word .TLG_CH_STS_BW (par q 0x11 1))]) := by
  refine completes_of_served h ?_
  have hcases : par q 0x10 1 = 0 ∨ par q 0x10 1 = 1 ∨ par q 0x10 1 = 2 ∨ par q 0x10 1 = 3 := by omega
  rcases hcases with hk | hk | hk | hk <;> rw [hk] <;> rfl

end

/-! ### The frame boundary (R430, R435) -/

/-- A subchannel at the start of a frame. -/
def frameStart (b : SubSt) : SubSt := { b with at' := 0, used := [] }

/-- Both subchannels of a channel begin a frame. -/
def beginFrame (s : State) (c : Nat) : State :=
  s.setChan c { s.chan c with subA := frameStart (s.chan c).subA, subB := frameStart (s.chan c).subB, scrubbed := false, noTable := false }

/-- The guaranteed slots that a class used in the frame of a channel that ended. -/
def usedInFrame (s : State) (c k : Nat) : Nat := tgetD 0 k (s.chan c).subA.used + tgetD 0 k (s.chan c).subB.used

theorem exec_frameBoundary (s : State) (c : Fin 16) :
    exec (.frameBoundary c) s = .next ((beginFrame s c.val).setSlots c.val (usedInFrame s c.val) 16) := rfl

/-- The registers in which a frame's slots show. -/
def slotRegs : List Reg := [.TLG_CH_SLOT_USED, .TLG_CH_SLOT_SLOTS]

section
variable (s : State) (c : Nat) (used : Nat → Nat)

/-- The slots of one class, shown. -/
def showSlots (k : Nat) : State :=
  let t := s.put .TLG_CH_SLOT_USED (used k % 2048) c k
  if t.counted c then t.put .TLG_CH_SLOT_SLOTS (t.slotsOf k c) c k else t

theorem setSlots_succ (k : Nat) : s.setSlots c used (k + 1) = (showSlots s c used k).setSlots c used k := rfl

theorem onlyRegs_showSlots (k : Nat) : OnlyRegs s (showSlots s c used k) :=
  .ite ((put_onlyRegs ..).trans (put_onlyRegs ..)) (put_onlyRegs ..)

theorem onlyRegs_setSlots (n : Nat) : OnlyRegs s (s.setSlots c used n) := by
  induction n generalizing s with
  | zero => exact .refl s
  | succ n ih => exact (onlyRegs_showSlots s c used n).trans (ih _)

theorem writesOnly_showSlots (k : Nat) : WritesOnly slotRegs s (showSlots s c used k) :=
  .of_ite ((WritesOnly.put _ _ _ _ (by decide)).trans (.put _ _ _ _ (by decide))) (.put _ _ _ _ (by decide))

/-- Slots of other channels and of other classes stay. -/
theorem get_showSlots_ne {r : Reg} {d j k : Nat} (h : d ≠ c ∨ j ≠ k) : (showSlots s c used k).get r d j = s.get r d j := by
  have hkey (r' : Reg) : (⟨r', c, k⟩ : RegKey) ≠ ⟨r, d, j⟩ := by
    rintro ⟨⟩
    simp at h
  unfold showSlots
  dsimp only
  split
  · rw [State.get_put_ne _ _ (hkey _), State.get_put_ne _ _ (hkey _)]
  · exact s.get_put_ne _ (hkey _)

theorem get_setSlots_ne {r : Reg} {d j n : Nat} (h : d ≠ c ∨ n ≤ j) : (s.setSlots c used n).get r d j = s.get r d j := by
  induction n generalizing s with
  | zero => rfl
  | succ n ih =>
    rw [setSlots_succ, ih _ (h.imp id (by omega)), get_showSlots_ne]
    exact h.imp id (by omega)

end

/-- What slots are counted from: every register but those that show them. -/
theorem slotsOf_congr {s t : State} (h : WritesOnly slotRegs s t) (k c : Nat) : t.slotsOf k c = s.slotsOf k c ∧ t.counted c = s.counted c := by
  have hst (i : Nat) : t.get .MEM_CH_STS_STATE i = s.get .MEM_CH_STS_STATE i := h.get_eq _ _ _ (by decide)
  have hcounted : t.counted = s.counted := funext fun i => by rw [State.counted, State.counted, hst]
  refine ⟨?_, congrFun hcounted c⟩
  have hrate := h.get_eq .MEM_CH_STS_RATE c 0 (by decide)
  have hbw := h.get_eq .TLG_GUAR_BW k 0 (by decide)
  have hf := h.get_eq .TLG_STS_F 0 0 (by decide)
  rw [State.slotsOf, State.slotsOf, State.nCounted, State.nCounted, hcounted, hrate, hbw, hf]

/-- Every class of a counted channel shows the slots of R435 and those it used. -/
theorem get_setSlots {s : State} {c n k : Nat} (used : Nat → Nat) (hk : k < n) (hcounted : s.counted c = true) :
    (s.setSlots c used n).get .TLG_CH_SLOT_SLOTS c k = s.slotsOf k c ∧ (s.setSlots c used n).get .TLG_CH_SLOT_USED c k = used k % 2048 := by
  induction n generalizing s with
  | zero => omega
  | succ n ih =>
    rw [setSlots_succ]
    by_cases hkn : k < n
    · obtain ⟨hslots, hstays⟩ := slotsOf_congr (writesOnly_showSlots s c used n) k c
      rw [← hslots]
      exact ih hkn (hstays.trans hcounted)
    · obtain rfl : k = n := by omega
      rw [get_setSlots_ne _ _ _ (.inr (Nat.le_refl _)), get_setSlots_ne _ _ _ (.inr (Nat.le_refl _))]
      obtain ⟨hslots, hstays⟩ := slotsOf_congr (s := s) (.put s (r := .TLG_CH_SLOT_USED) (used k % 2048) c k (by decide)) k c
      rw [showSlots, if_pos (hstays.trans hcounted), hslots]
      simp [State.get_put_other]

theorem chan_beginFrame (s : State) (c : Nat) : (beginFrame s c).chan c =
    { s.chan c with subA := frameStart (s.chan c).subA, subB := frameStart (s.chan c).subB, scrubbed := false, noTable := false } :=
  tgetD_tput_same ..

/-- Settles O40: a served request is answered by its body; quotas and slots are read back from the writes of one class or point at a time. -/
theorem tollgateCommands : Obligations.TollgateCommands := by
  unfold Obligations.TollgateCommands
  refine ⟨?query, ?headQuota, ?homeQuota, ?lower, ?fits, ?overcommit, ?capOver, ?cap, ?frame⟩
  case query => exact fun q s s₁ h hkind => completes_tlgQuery h hkind
  case headQuota =>
    intro q s s₁ point h hpoint
    have honly := onlyRegs_setQuota s₁ .TLG_HQ_QUOTA (par q 0x12 2) (par q 0x14 1) (par q 0x16 2) 8
    exact ⟨_, completes_of_served h (congrArg ok (if_pos hpoint)), fun n hn hbit => get_setQuota_of_bit _ _ _ _ _ hn hbit,
      fun n c hc => get_setQuota_ne _ _ _ _ _ hc, pg_of_onlyRegs honly, coh_of_onlyRegs honly⟩
  case homeQuota =>
    intro q s s₁ point h hpoint
    have honly := onlyRegs_setQuota s₁ .TLG_SQ_QUOTA (par q 0x12 2) (par q 0x14 1) (par q 0x16 2) 16
    exact ⟨_, completes_of_served h (congrArg ok (if_neg (by omega))), fun n hn hbit => get_setQuota_of_bit _ _ _ _ _ hn hbit,
      fun n c hc => get_setQuota_ne _ _ _ _ _ hc, pg_of_onlyRegs honly, coh_of_onlyRegs honly⟩
  case lower => exact fun q s s₁ h hle => completes_tlgSetGuarantee h (.inl hle)
  case fits => exact fun q s s₁ h hfits => completes_tlgSetGuarantee h (.inr hfits)
  case overcommit => exact fun q s s₁ h hrises hover => refused_tlgSetGuarantee h hrises hover
  case capOver => exact fun q s s₁ h hover => refused_tlgSetCap h hover
  case cap => exact fun q s s₁ h hfits => completes_tlgSetCap h hfits
  case frame =>
    intro s c hcounted
    have honly := onlyRegs_setSlots (beginFrame s c.val) c.val (usedInFrame s c.val) 16
    have hchan : ((beginFrame s c.val).setSlots c.val (usedInFrame s c.val) 16).chan c.val = (beginFrame s c.val).chan c.val := by
      rw [State.chan, State.chan, mem_of_onlyRegs honly]
    refine ⟨_, exec_frameBoundary s c, fun k hk => get_setSlots _ hk hcounted, ?_⟩
    rw [hchan, chan_beginFrame]
    exact ⟨rfl, rfl, rfl, rfl, fun d hd k => get_setSlots_ne _ _ _ (.inl hd), (pg_of_onlyRegs honly :),
      (coh_of_onlyRegs honly :), (out_of_onlyRegs honly :)⟩

end Sys2Proof.Proofs.Tollgate

/-!
PROOFS of the statements of the DRAM controller: the refutation of freezes and holds (R351-R354).
-/
namespace Sys2Proof.Proofs.ChannelFreezes
open Sys2Proof Sys2Proof.Machine Sys2Proof.Proofs.DramController

/-! ### A freeze under a reload list that names the state of the channel

A channel that freezes is counted no more, which changes the factor and may report TLG_RESTORED or TLG_DERATED (R434). Where the severity table makes that
message Fatal, its record may overwrite one whose grace timer runs, and the step that this expiry orders may reload fields (R450, R459, R533). The statement is
about every state, so also about one whose reload list names `MEM_CH_STS.STATE`, as that of `strayReload` does. -/

/-- Channel 0 serves while the factor is below 1,024; with nothing guaranteed, the freeze restores it, and TLG_RESTORED is Fatal. -/
def servingWithStrayReload : State :=
  let fatal := (strayReload.put .FLT_SEV_SEV_C 3 (16 * bTlg + 1)).put .FLT_SEV_V_C 1 (16 * bTlg + 1)
  (fatal.put .MEM_CH_STS_STATE 2 0).put .TLG_STS_F 512

theorem serves_servingWithStrayReload : servingWithStrayReload.chState (0 : Fin 16).val = 2 ∧
    servingWithStrayReload.isSet .MEM_FRZ_STS_FROZEN (0 : Fin 16).val = false ∧ servingWithStrayReload.storm (0 : Fin 16).val = false := by
  decide +kernel

theorem chState_freeze_servingWithStrayReload : (servingWithStrayReload.freeze (0 : Fin 16).val 2 none []).chState (0 : Fin 16).val = 2 := by
  decide +kernel

/-- Refutes O54: the second clause does not bind the reload list, and channel 0 of `servingWithStrayReload`, frozen, reads SERVICE, not FROZEN. -/
theorem not_freezesAndHolds : ¬ Obligations.FreezesAndHolds := by
  unfold Obligations.FreezesAndHolds
  rintro ⟨-, hfreeze, -⟩
  obtain ⟨hserves, hthawed, hcalm⟩ := serves_servingWithStrayReload
  obtain ⟨hstate, -⟩ := hfreeze servingWithStrayReload 0 2 [] hserves hthawed hcalm
  rw [chState_freeze_servingWithStrayReload] at hstate
  exact absurd hstate (by decide)

end Sys2Proof.Proofs.ChannelFreezes

/-!
PROOFS of the statements of the slot guard: the `slot` commands, the guards, presence, the button and the ambient sensor (R460-R481), and the
refutations of the faults of a guard and of the service of a channel.
-/
namespace Sys2Proof.Proofs.SlotGuard
open Sys2Proof Sys2Proof.Machine Sys2Proof.Proofs.Architecture Sys2Proof.Proofs.Pyryx Sys2Proof.Proofs.Translation Sys2Proof.Proofs.DramController

/-! ### What the operations of a guard write (R460, R463, R464, R469) -/

theorem not_isSet {s : State} {r : Reg} {i j : Nat} (h : s.isSet r i j = false) : ¬s.isSet r i j = true := ne_true_of_eq_false h

theorem isSet_congr {s t : State} {r : Reg} {i j : Nat} (h : t.get r i j = s.get r i j) : t.isSet r i j = s.isSet r i j := by
  rw [State.isSet, State.isSet, h]

theorem isSet_of_zero {s : State} {r : Reg} {i j : Nat} (h : s.get r i j = 0) : s.isSet r i j = false := by
  simp [State.isSet, h]

@[simp] theorem isSet_put_same (s : State) (r : Reg) (v i j : Nat) : (s.put r v i j).isSet r i j = decide (v ≠ 0) := by
  simp [State.isSet]

@[simp] theorem get_drst (s : State) (c : Nat) (r : Reg) (i j : Nat) : (s.drst c).get r i j = s.get r i j := rfl

/-- The registers that a measurement writes. -/
def measureRegs : List Reg := [.SLT_SG_MEAS_VIN, .SLT_SG_MEAS_VOUT, .SLT_SG_MEAS_I, .SLT_SG_MEAS_TFET]

section
variable (s : State) (n : Nat) (m : SgMeas)

theorem writesOnly_measure : WritesOnly measureRegs s (s.measure n m) := by
  have hread : WritesOnly measureRegs s (((s.put .SLT_SG_MEAS_VIN m.vin.val n).put .SLT_SG_MEAS_VOUT m.vout.val n).put .SLT_SG_MEAS_I m.i.val n) :=
    ((WritesOnly.put _ _ _ _ (by decide)).trans (.put _ _ _ _ (by decide))).trans (.put _ _ _ _ (by decide))
  exact (hread.trans (.of_regs (by rfl))).trans (.put _ _ _ _ (by decide))

theorem get_measure {r : Reg} (i j : Nat) (hr : r ∉ measureRegs) : (s.measure n m).get r i j = s.get r i j :=
  (writesOnly_measure s n m).get_eq r i j hr

theorem isSet_measure {r : Reg} (i j : Nat) (hr : r ∉ measureRegs) : (s.measure n m).isSet r i j = s.isSet r i j :=
  isSet_congr (get_measure s n m i j hr)

theorem sg_measure (k : Nat) : (s.measure n m).sg k = s.sg k := get_measure s n m _ _ (by decide)

theorem current_measure : (s.measure n m).get .SLT_SG_MEAS_I n = m.i.val :=
  (State.get_put_other _ _ _ _ _ _ (by decide)).trans
    (State.get_put_same ((s.put .SLT_SG_MEAS_VIN m.vin.val n).put .SLT_SG_MEAS_VOUT m.vout.val n) .SLT_SG_MEAS_I m.i.val n 0)

theorem rampDone_measure : (s.measure n m).slt.rampDone = s.slt.rampDone := rfl

end

section
variable (s : State) (n v : Nat)

theorem get_setPg {r : Reg} (i j : Nat) (hr : r ≠ .SLT_SG_STS_PG) : (s.setPg n v).get r i j = s.get r i j := by
  rw [State.setPg, get_drst, State.get_put_other _ _ _ _ _ _ (Ne.symm hr)]

theorem pg_setPg : (s.setPg n v).get .SLT_SG_STS_PG n = v := by
  simp [State.setPg]

/-- A slot with PG holds the reset pin of its channel high. -/
theorem drstHigh_setPg_one : ((s.setPg n 1).chan (n / 2)).drstHigh = true := by
  have hslot : n ∈ slotsOfCh (n / 2) := by
    simp only [slotsOfCh, List.mem_cons, List.not_mem_nil, or_false]
    omega
  simp only [State.setPg, State.drst, State.chan, State.setChan, tgetD_tput_same]
  exact List.any_eq_true.mpr ⟨n, hslot, isSet_put_same ..⟩

theorem get_ramp (r : Reg) (i j : Nat) :
    (s.ramp n).get r i j = ((((s.put .SLT_SG_STS_GATE 1 n).put .SLT_SG_STS_TMR 0 n).setPg n 0).setSg n 3).get r i j := rfl

theorem ramping_ramp : (s.ramp n).sg n = 3 ∧ (s.ramp n).get .SLT_SG_STS_GATE n = 1 ∧ (s.ramp n).get .SLT_SG_STS_PG n = 0 := by
  simp [State.sg, get_ramp, State.setSg, State.setPg, State.get_put_other]

end

/-! ### An evaluation of the comparators (R463) -/

section
variable (s : State) (n : Nat) (m : SgMeas)

/-- The fault timer starts above ILIM and stops at 15/16 of it. -/
def timerJudged : State :=
  let lim := 1000 * s.get .SLT_SG_LIM_ILIM n
  let tmr := s.isSet .SLT_SG_STS_TMR n
  if s.isSet .SLT_SG_STS_GATE n ∧ lim < 16 * m.i.val ∧ ¬ tmr then s.put .SLT_SG_STS_TMR 1 n
  else if tmr ∧ 256 * m.i.val ≤ 15 * lim then s.put .SLT_SG_STS_TMR 0 n else s

/-- PG rises at 92 % of VIN after the ramp, and falls with the timer, the gate, or below 88 %. -/
def pgJudged (gate : Bool) : State :=
  let tmr := s.isSet .SLT_SG_STS_TMR n
  if ¬ tmr ∧ s.slt.rampDone.contains n ∧ 92 * m.vin.val ≤ 100 * m.vout.val then (if s.sg n = 3 then s.setSg n 4 else s).setPg n 1
  else if tmr ∨ ¬ gate ∨ 100 * m.vout.val < 88 * m.vin.val then s.setPg n 0
  else s

theorem get_pgJudged {gate : Bool} {r : Reg} (i j : Nat) (hr : r ∉ [Reg.SLT_SG_STS_STATE, .SLT_SG_STS_PG]) :
    (pgJudged s n m gate).get r i j = s.get r i j := by
  have hpg (t : State) (v : Nat) : (t.setPg n v).get r i j = t.get r i j := get_setPg t n v i j (by simp_all)
  have hst : (s.setSg n 4).get r i j = s.get r i j := s.get_put_other _ _ _ _ _ (by simp_all [eq_comm])
  unfold pgJudged
  dsimp only
  split
  · rw [hpg]
    split
    · exact hst
    · rfl
  · split
    · exact hpg s 0
    · rfl

variable {s n m}

/-- Below 2 × ILIM the slot stays on, and timer and PG follow. -/
theorem sgEval_of_no_trip (h : 16 * m.i.val < 2000 * s.get .SLT_SG_LIM_ILIM n) :
    s.sgEval n m = pgJudged (timerJudged (s.measure n m) n m) n m ((s.measure n m).isSet .SLT_SG_STS_GATE n) := by
  refine if_neg ?_
  rintro ⟨-, htrip⟩
  rw [get_measure s n m _ _ (by decide)] at htrip
  omega

theorem sgEval_of_trip (hgate : s.isSet .SLT_SG_STS_GATE n = true) (h : 2000 * s.get .SLT_SG_LIM_ILIM n ≤ 16 * m.i.val) :
    s.sgEval n m = (s.measure n m).sgFault n 2 0 := by
  refine if_pos ⟨(isSet_measure s n m _ _ (by decide)).trans hgate, ?_⟩
  rw [get_measure s n m _ _ (by decide)]
  omega

theorem timerJudged_over (hgate : s.isSet .SLT_SG_STS_GATE n = true) (hover : 1000 * s.get .SLT_SG_LIM_ILIM n < 16 * m.i.val)
    (htmr : s.isSet .SLT_SG_STS_TMR n = false) : timerJudged s n m = s.put .SLT_SG_STS_TMR 1 n :=
  if_pos ⟨hgate, hover, not_isSet htmr⟩

theorem timerJudged_under (hunder : 16 * m.i.val ≤ 1000 * s.get .SLT_SG_LIM_ILIM n) (htmr : s.isSet .SLT_SG_STS_TMR n = false) :
    timerJudged s n m = s :=
  (if_neg fun h => absurd h.2.1 (by omega)).trans (if_neg fun h => not_isSet htmr h.1)

theorem timerJudged_ends (hends : 256 * m.i.val ≤ 15000 * s.get .SLT_SG_LIM_ILIM n) (htmr : s.isSet .SLT_SG_STS_TMR n = true) :
    timerJudged s n m = s.put .SLT_SG_STS_TMR 0 n :=
  (if_neg fun h => h.2.2 htmr).trans (if_pos ⟨htmr, by omega⟩)

theorem pgJudged_timed (htmr : s.isSet .SLT_SG_STS_TMR n = true) (gate : Bool) : pgJudged s n m gate = s.setPg n 0 :=
  (if_neg fun h => h.1 htmr).trans (if_pos (.inl htmr))

theorem pgJudged_ramped (htmr : s.isSet .SLT_SG_STS_TMR n = false) (hdone : n ∈ s.slt.rampDone) (hvout : 92 * m.vin.val ≤ 100 * m.vout.val)
    (hst : s.sg n = 3) (gate : Bool) : pgJudged s n m gate = (s.setSg n 4).setPg n 1 :=
  (if_pos ⟨not_isSet htmr, by simpa using hdone, hvout⟩).trans (congrArg (fun t => State.setPg t n 1) (if_pos hst))

end

/-! ### The events of a guard (R463-R466, R469, R470) -/

section
variable {s : State} {n : Fin 32} {m : SgMeas}

theorem exec_sgOvercurrent_over (hgate : s.isSet .SLT_SG_STS_GATE n.val = true) (hover : 1000 * s.get .SLT_SG_LIM_ILIM n.val < 16 * m.i.val)
    (htrip : 16 * m.i.val < 2000 * s.get .SLT_SG_LIM_ILIM n.val) (htmr : s.get .SLT_SG_STS_TMR n.val = 0) :
    exec (.sgOvercurrent n m) s = .next (((s.measure n.val m).put .SLT_SG_STS_TMR 1 n.val).setPg n.val 0) := by
  have hlim : (s.measure n.val m).get .SLT_SG_LIM_ILIM n.val = s.get .SLT_SG_LIM_ILIM n.val := get_measure _ _ _ _ _ (by decide)
  have htimer : timerJudged (s.measure n.val m) n.val m = (s.measure n.val m).put .SLT_SG_STS_TMR 1 n.val := by
    refine timerJudged_over ((isSet_measure _ _ _ _ _ (by decide)).trans hgate) (by rwa [hlim]) ?_
    exact (isSet_measure _ _ _ _ _ (by decide)).trans (isSet_of_zero htmr)
  refine congrArg Host.Outcome.next ((sgEval_of_no_trip htrip).trans ?_)
  rw [htimer]
  exact pgJudged_timed (isSet_put_same ..) _

theorem exec_sgOvercurrentEnd_under (hlim : 0 < s.get .SLT_SG_LIM_ILIM n.val) (hends : 256 * m.i.val ≤ 15000 * s.get .SLT_SG_LIM_ILIM n.val)
    (htmr : s.get .SLT_SG_STS_TMR n.val = 1) :
    exec (.sgOvercurrentEnd n m) s = .next (pgJudged ((s.measure n.val m).put .SLT_SG_STS_TMR 0 n.val) n.val m
      ((s.measure n.val m).isSet .SLT_SG_STS_GATE n.val)) := by
  have hsame : (s.measure n.val m).get .SLT_SG_LIM_ILIM n.val = s.get .SLT_SG_LIM_ILIM n.val := get_measure _ _ _ _ _ (by decide)
  have htimer : timerJudged (s.measure n.val m) n.val m = (s.measure n.val m).put .SLT_SG_STS_TMR 0 n.val := by
    refine timerJudged_ends (by rwa [hsame]) ((isSet_measure _ _ _ _ _ (by decide)).trans ?_)
    simp [State.isSet, htmr]
  refine congrArg Host.Outcome.next ((sgEval_of_no_trip (by omega)).trans ?_)
  rw [htimer]

theorem exec_sgPowerGood_ramped (hst : s.sg n.val = 3) (hdone : n.val ∈ s.slt.rampDone) (htmr : s.get .SLT_SG_STS_TMR n.val = 0)
    (hunder : 16 * m.i.val ≤ 1000 * s.get .SLT_SG_LIM_ILIM n.val) (hlim : 0 < s.get .SLT_SG_LIM_ILIM n.val)
    (hvout : 92 * m.vin.val ≤ 100 * m.vout.val) :
    exec (.sgPowerGood n m) s = .next (((s.measure n.val m).setSg n.val 4).setPg n.val 1) := by
  have hsame : (s.measure n.val m).get .SLT_SG_LIM_ILIM n.val = s.get .SLT_SG_LIM_ILIM n.val := get_measure _ _ _ _ _ (by decide)
  have hoff : (s.measure n.val m).isSet .SLT_SG_STS_TMR n.val = false := (isSet_measure _ _ _ _ _ (by decide)).trans (isSet_of_zero htmr)
  refine congrArg Host.Outcome.next ((sgEval_of_no_trip (by omega)).trans ?_)
  rw [timerJudged_under (by rwa [hsame]) hoff]
  exact pgJudged_ramped hoff hdone hvout ((sg_measure ..).trans hst) _

theorem exec_sgRampDone_ramping (hst : s.sg n.val = 3) : exec (.sgRampDone n m) s =
    .next { s.measure n.val m with slt := { (s.measure n.val m).slt with rampDone := linsert n.val (s.measure n.val m).slt.rampDone } } :=
  congrArg Host.Outcome.next (if_pos ((sg_measure ..).trans hst))

section
variable (hwaits : s.sg n.val = 5)
include hwaits

theorem exec_sgRetryExpire_ramps (hleft : s.get .SLT_SG_STS_ATTEMPTS n.val < s.get .SLT_SG_LIM_RETRY_MAX n.val)
    (hcool : (s.measure n.val m).fetCool n.val = true) (hvin : s.get .SLT_SG_STS_LAST_FAULT n.val ≠ 8 ∨ 10800 ≤ m.vin.val) :
    exec (.sgRetryExpire n m) s = .next (((s.measure n.val m).bump .SLT_SG_CNT_RETRIES 0xFFFF n.val).ramp n.val) := by
  refine (if_neg (not_not_intro ((sg_measure ..).trans hwaits))).trans ((if_neg ?_).trans (if_pos ⟨hcool, ?_⟩))
  · rw [get_measure _ _ _ _ _ (by decide), get_measure _ _ _ _ _ (by decide)]
    omega
  · rwa [get_measure _ _ _ _ _ (by decide)]

theorem exec_sgRetryExpire_latches (hused : s.get .SLT_SG_LIM_RETRY_MAX n.val ≤ s.get .SLT_SG_STS_ATTEMPTS n.val) :
    exec (.sgRetryExpire n m) s = .next (((s.measure n.val m).setSg n.val 6).report (msg2 bSlt n.val 6)) := by
  have hst : (s.measure n.val m).sg n.val = 5 := (sg_measure ..).trans hwaits
  have hlatch : (s.measure n.val m).latch n.val = ((s.measure n.val m).setSg n.val 6).report (msg2 bSlt n.val 6) :=
    if_neg (by rw [hst]; decide)
  refine (if_neg (not_not_intro hst)).trans ((if_pos ?_).trans (congrArg Host.Outcome.next hlatch))
  rwa [get_measure _ _ _ _ _ (by decide), get_measure _ _ _ _ _ (by decide)]

end

theorem exec_sgPresenceArrival_empty (hgone : s.isSet .SLT_SG_STS_PRSNT n.val = false) (hslot : s.slotAbsent n.val = false)
    (hempty : s.sg n.val = 0) : exec (.sgPresenceArrival n) s = .next ((s.seatChange n.val 1).setSg n.val 2) := by
  have hst : (s.seatChange n.val 1).sg n.val = 0 := by
    simpa [State.sg, State.seatChange, State.bump, State.get_put_other] using hempty
  exact (if_neg (by simp [hgone, hslot])).trans (congrArg Host.Outcome.next (if_pos hst))

/-- A slot whose gate is off takes no fault. -/
theorem sgFault_of_off {t : State} {k : Nat} (h : t.isSet .SLT_SG_STS_GATE k = false) (fault sub : Nat) : t.sgFault k fault sub = t :=
  if_pos (not_isSet h)

theorem exec_sgPresenceLoss_off (hseated : s.isSet .SLT_SG_STS_PRSNT n.val = true) (hoff : s.isSet .SLT_SG_STS_GATE n.val = false) :
    exec (.sgPresenceLoss n true) s = .next ((s.seatChange n.val 0).unseat n.val) := by
  have hstays : (s.seatChange n.val 0).isSet .SLT_SG_STS_GATE n.val = false := by
    rw [← hoff]
    exact isSet_congr (by simp [State.seatChange, State.bump, State.get_put_other])
  refine (if_pos (.inl ⟨hseated, .inr rfl⟩)).trans (congrArg Host.Outcome.next ?_)
  rw [if_pos hseated, sgFault_of_off hstays]
  exact if_pos rfl

theorem exec_sgTambFail_fails {mv : Fin 65536} (hfitted : s.isSet .SLT_CFG_TAMB_FITTED = true) (hgood : s.isSet .SLT_STS_TAMB_FAIL = false)
    (hmv : mv.val < 100 ∨ 2000 < mv.val) : exec (.sgTambFail mv) s = .next ((s.put .SLT_STS_TAMB_FAIL 1).report (msg1 bSlt 32 2)) :=
  (if_neg (not_not_intro hfitted)).trans ((if_neg (by omega)).trans (if_neg (not_isSet hgood)))

theorem exec_sgTambFail_recovers {mv : Fin 65536} (hfitted : s.isSet .SLT_CFG_TAMB_FITTED = true) (hlow : 100 ≤ mv.val) (hhigh : mv.val ≤ 2000) :
    exec (.sgTambFail mv) s = .next ((s.put .SLT_STS_TAMB_FAIL 0).put .SLT_STS_TAMB (BitVec.ofInt 16 (8 * ((mv.val : Int) - 500) / 5)).toNat) :=
  (if_neg (not_not_intro hfitted)).trans (if_pos ⟨hlow, hhigh⟩)

end

/-! ### The button (R472, R475, R476, R478) -/

/-- A press is counted. -/
abbrev pressed (s : State) (n : Nat) : State := s.bump .SLT_SG_CNT_PRESSES 0x7FFF n

section
variable {s : State} {n : Fin 32} (henabled : s.isSet .SLT_CFG_BTN_EN = true)
include henabled

theorem exec_sgButtonPress_cancels (hevacuates : (pressed s n.val).svc (n.val / 2) = 1)
    (hopen : (pressed s n.val).isSet .SLT_CH_SVC_CANCEL_OPEN (n.val / 2) = true) :
    exec (.sgButtonPress n) s = .next ((pressed s n.val).cancelSvc (n.val / 2)) :=
  (if_neg (not_not_intro henabled)).trans ((if_pos hevacuates).trans (congrArg Host.Outcome.next (if_pos hopen)))

section
variable (hservice : (pressed s n.val).svc (n.val / 2) = 0)
include hservice

theorem exec_sgButtonPress_brings_up (hsafe : (pressed s n.val).sg n.val = 1) (hmay : (pressed s n.val).canBringUp (n.val / 2) = true) :
    exec (.sgButtonPress n) s = .next ((pressed s n.val).bringup (n.val / 2)) := by
  refine (if_neg (not_not_intro henabled)).trans ((if_neg (by rw [hservice]; decide)).trans ?_)
  exact (if_neg (by rw [hsafe]; simp)).trans (if_pos ⟨.inl hsafe, .inl hservice, hmay⟩)

variable (hon : (pressed s n.val).sg n.val = 4)
include hon

theorem exec_sgButtonPress_starts (hmay : (pressed s n.val).svcRefusal (n.val / 2) = none) :
    exec (.sgButtonPress n) s = .next ((pressed s n.val).startSvc (n.val / 2) false false true) := by
  refine (if_neg (not_not_intro henabled)).trans ((if_neg (by rw [hservice]; decide)).trans ((if_pos ⟨hon, hservice⟩).trans ?_))
  rw [hmay]

theorem exec_sgButtonPress_refused (hrefused : ((pressed s n.val).svcRefusal (n.val / 2)).isSome = true) :
    exec (.sgButtonPress n) s = .next (({ pressed s n.val with slt := { (pressed s n.val).slt with
      fast := linsert n.val (pressed s n.val).slt.fast } } : State).svcNote (n.val / 2)) := by
  obtain ⟨why, hwhy⟩ := Option.isSome_iff_exists.mp hrefused
  refine (if_neg (not_not_intro henabled)).trans ((if_neg (by rw [hservice]; decide)).trans ((if_pos ⟨hon, hservice⟩).trans ?_))
  rw [hwhy]

end

end

/-- Settles O12: an evaluation of the comparators is its timer and its PG (`sgEval_of_no_trip`); every other event goes by its conditions. -/
theorem guardEvents : Obligations.GuardEvents := by
  unfold Obligations.GuardEvents
  refine ⟨?above, ?ends, ?good, ?rampDone, ?retry, fun s n _ => ramping_ramp s n, ?latch, ?attempts, ?arrival, ?loss, ?cool, ?fails, ?recovers,
    ?bringUp, ?start, ?refused, ?cancel, fun s n => rfl⟩
  case above =>
    intro s n m hgate hover htrip htmr
    refine ⟨_, exec_sgOvercurrent_over hgate hover htrip htmr, ?_, pg_setPg .., ?_, ?_⟩
    · rw [get_setPg _ _ _ _ _ (by decide), State.get_put_same]
    · rw [get_setPg _ _ _ _ _ (by decide), State.get_put_other _ _ _ _ _ _ (by decide), get_measure _ _ _ _ _ (by decide)]
    · rw [get_setPg _ _ _ _ _ (by decide), State.get_put_other _ _ _ _ _ _ (by decide), current_measure]
  case ends =>
    intro s n m _ hlim hends htmr
    refine ⟨_, exec_sgOvercurrentEnd_under hlim hends htmr, ?_, ?_⟩
    · rw [get_pgJudged _ _ _ _ _ (by decide), State.get_put_same]
    · rw [get_pgJudged _ _ _ _ _ (by decide), State.get_put_other _ _ _ _ _ _ (by decide), get_measure _ _ _ _ _ (by decide)]
  case good =>
    intro s n m _ hst hdone htmr hunder hlim hvout
    refine ⟨_, exec_sgPowerGood_ramped hst hdone htmr hunder hlim hvout, ?_, pg_setPg .., drstHigh_setPg_one ..⟩
    exact (get_setPg _ _ _ _ _ (by decide)).trans (State.get_put_same ..)
  case rampDone =>
    rintro s u n m hst rfl
    exact exec_sgRampDone_ramping hst
  case retry =>
    rintro s u n m hwaits hleft rfl hcool hvin
    exact exec_sgRetryExpire_ramps hwaits hleft hcool hvin
  case latch =>
    rintro s u n m hwaits hused rfl
    exact exec_sgRetryExpire_latches hwaits hused
  case attempts => exact fun s n hpg => congrArg Host.Outcome.next (if_pos hpg)
  case arrival =>
    intro s n hgone hslot hempty
    refine ⟨_, exec_sgPresenceArrival_empty hgone hslot hempty, State.get_put_same .., ?_⟩
    simp [State.setSg, State.seatChange, State.bump, State.get_put_other]
  case loss =>
    intro s n hseated hoff
    refine ⟨_, exec_sgPresenceLoss_off hseated hoff, State.get_put_same .., ?_, tget_tdel_same ..⟩
    refine (State.get_put_other _ _ _ _ _ _ (by decide)).trans ?_
    change (s.seatChange n.val 0).get .SLT_SG_STS_PRSNT n.val = 0
    simp [State.seatChange, State.bump, State.get_put_other]
  case cool => exact fun s n m hcool => congrArg Host.Outcome.next (if_pos hcool)
  case fails => exact fun s mv hfitted hgood hmv => exec_sgTambFail_fails hfitted hgood hmv
  case recovers => exact fun s mv hfitted hlow hhigh => exec_sgTambFail_recovers hfitted hlow hhigh
  case bringUp =>
    rintro s u n henabled rfl hsafe hservice hmay
    exact exec_sgButtonPress_brings_up henabled hservice hsafe hmay
  case start =>
    rintro s u n henabled rfl hon hservice hmay
    exact exec_sgButtonPress_starts henabled hservice hon hmay
  case refused =>
    rintro s u n henabled rfl hon hservice hrefused
    exact exec_sgButtonPress_refused henabled hservice hon hrefused
  case cancel =>
    rintro s u n henabled rfl hevacuates hopen
    exact exec_sgButtonPress_cancels henabled hevacuates hopen

/-! ### The limits of a slot (R480) -/

/-- One field of `slot.set_limits`: a 0 keeps what stands. -/
def putLimit (q : Req) (n : Nat) (s : State) (r : Reg × Nat × Nat × Nat × Nat × Nat) : State :=
  if par q r.2.1 r.2.2.1 = 0 then s else s.put r.1 (par q r.2.1 r.2.2.1 - r.2.2.2.2.2) n

section
variable {s : State} {q : Req} {n : Nat} {row : Reg × Nat × Nat × Nat × Nat × Nat}

theorem get_putLimit_other {r : Reg} (i j : Nat) (hr : row.1 ≠ r) : (putLimit q n s row).get r i j = s.get r i j := by
  unfold putLimit
  split
  · rfl
  · exact s.get_put_other _ _ _ _ _ hr

theorem get_putLimit_kept {r : Reg} (i j : Nat) (h : par q row.2.1 row.2.2.1 = 0) : (putLimit q n s row).get r i j = s.get r i j := by
  rw [putLimit, if_pos h]

theorem get_putLimit_same (h : par q row.2.1 row.2.2.1 ≠ 0) :
    (putLimit q n s row).get row.1 n = par q row.2.1 row.2.2.1 - row.2.2.2.2.2 := by
  rw [putLimit, if_neg h, State.get_put_same]

/-- The fields of rows about other registers leave a register as it is. -/
theorem get_foldl_putLimit_other {r : Reg} (i j : Nat) {rows : List (Reg × Nat × Nat × Nat × Nat × Nat)} (h : ∀ row ∈ rows, row.1 ≠ r) (s : State) :
    (rows.foldl (putLimit q n) s).get r i j = s.get r i j := by
  induction rows generalizing s with
  | nil => rfl
  | cons row rows ih =>
    obtain ⟨hrow, hrows⟩ := List.forall_mem_cons.mp h
    rw [List.foldl_cons, ih hrows, get_putLimit_other _ _ hrow]

/-- A slot whose gate is off is not measured against its new limits. -/
theorem setLimits_of_off (h : s.isSet .SLT_SG_STS_GATE n = false) : s.setLimits q n = limitRows.foldl (putLimit q n) s := by
  have hgate : (limitRows.foldl (putLimit q n) s).isSet .SLT_SG_STS_GATE n = false := by
    rw [← h]
    exact isSet_congr (get_foldl_putLimit_other _ _ (by decide) s)
  exact if_neg (not_isSet hgate)

variable (hoff : s.isSet .SLT_SG_STS_GATE n = false)
include hoff

theorem ilim_setLimits (h : par q 0x14 1 ≠ 0) : (s.setLimits q n).get .SLT_SG_LIM_ILIM n = par q 0x14 1 := by
  have hrow : (putLimit q n s (.SLT_SG_LIM_ILIM, 0x14, 1, 4, 128, 0)).get .SLT_SG_LIM_ILIM n = par q 0x14 1 := get_putLimit_same h
  rw [setLimits_of_off hoff, limitRows, List.foldl_cons, get_foldl_putLimit_other _ _ (by decide), hrow]

theorem retryMax_setLimits (h : par q 0x19 1 ≠ 0) : (s.setLimits q n).get .SLT_SG_LIM_RETRY_MAX n = par q 0x19 1 - 1 := by
  rw [setLimits_of_off hoff]
  exact (get_putLimit_other _ _ (by decide)).trans (get_putLimit_same (row := (.SLT_SG_LIM_RETRY_MAX, 0x19, 1, 1, 8, 1)) h)

theorem tlim_setLimits (h : par q 0x1A 1 = 0) : (s.setLimits q n).get .SLT_SG_LIM_TLIM n = s.get .SLT_SG_LIM_TLIM n := by
  rw [setLimits_of_off hoff]
  refine (get_putLimit_kept (row := (.SLT_SG_LIM_TLIM, 0x1A, 1, 100, 175, 0)) _ _ h).trans ?_
  exact get_foldl_putLimit_other (rows := limitRows.take 5) _ _ (by decide) s

end

/-! ### The `slot` commands (R468, R471, R477, R480, R481) -/

section
variable {q : Req} {s s₁ : State} {n : Nat}

/-- The ramps of a bring-up leave SVC at BRINGUP. -/
theorem svc_bringup (s : State) (c : Nat) : (s.bringup c).svc c = 4 := by
  have hramp (t : State) (k : Nat) (c : Prop) [Decidable c] : WritesOnly [.SLT_SG_STS_GATE, .SLT_SG_STS_TMR, .SLT_SG_STS_PG, .SLT_SG_STS_STATE] t
      (if c then t.ramp k else t) := by
    refine .of_ite ⟨fun r i j hr => ?_⟩ (.refl t)
    simp only [List.mem_cons, List.not_mem_nil, or_false, not_or] at hr
    obtain ⟨hgate, htmr, hpg, hstate⟩ := hr
    rw [get_ramp, State.setSg, State.get_put_other _ _ _ _ _ _ (Ne.symm hstate), get_setPg _ _ _ _ _ hpg,
      State.get_put_other _ _ _ _ _ _ (Ne.symm htmr), State.get_put_other _ _ _ _ _ _ (Ne.symm hgate)]
  refine ((WritesOnly.foldl (fun t k => hramp t k _) _ (.refl _)).get_eq _ _ _ (by decide)).trans ?_
  rw [State.get_put_other _ _ _ _ _ _ (by decide), State.get_put_same]

section
variable (h : Served { op := 0x0A01, priv := 2, mctp := true, fields := [fld 0x10 1] } q (firstBad [(0x10, decide (par q 0x10 1 < 32))]) s s₁)
include h

theorem starts_slotPowerOn (hst : s₁.sg (par q 0x10 1) = 1 ∨ s₁.sg (par q 0x10 1) = 2 ∨ s₁.sg (par q 0x10 1) = 7)
    (hmay : s₁.canBringUp (par q 0x10 1 / 2) = true) (hfree : s₁.freeSlot.isSome = true) :
    Starts (exec (.slotPowerOn q) s) s₁ (s₁.bringup (par q 0x10 1 / 2)) q (.powerOn (par q 0x10 1 / 2)) :=
  starts_of_served h ((if_neg (not_not_intro hst)).trans (if_neg (not_not_intro hmay))) hfree

end

section
variable (h : Served { op := 0x0A02, priv := 2, mctp := true, fields := [fld 0x10 1, fbits 0x11 0 1] } q
  (firstBad [(0x10, decide (par q 0x10 1 < 32))]) s s₁)
include h

theorem completes_slotPowerOff_still (hch : s₁.chState (par q 0x10 1 / 2) = 6) (hst : s₁.sg (par q 0x10 1) = 0 ∨ s₁.sg (par q 0x10 1) = 6) :
    Completes (exec (.slotPowerOff q) s) s₁ q :=
  completes_of_served h ((if_neg fun hbusy => hbusy.2 hch).trans (if_pos hst))

section
variable (hempty : s₁.sg (par q 0x10 1) ≠ 0) (hlatched : s₁.sg (par q 0x10 1) ≠ 6)
include hempty hlatched

theorem completes_slotPowerOff_offline (hch : s₁.chState (par q 0x10 1 / 2) = 6) (hforce : parBit q 0x11 0 = false) :
    Completes (exec (.slotPowerOff q) s) ((s₁.gateOff (par q 0x10 1)).setSg (par q 0x10 1) 7) q := by
  refine completes_of_served h ((if_neg fun hbusy => hbusy.2 hch).trans ((if_neg (not_or.mpr ⟨hempty, hlatched⟩)).trans (congrArg ok ?_)))
  exact if_neg fun hlost => ne_true_of_eq_false hforce hlost.1

theorem completes_slotPowerOff_forced (hforce : parBit q 0x11 0 = true) (hgate : s₁.isSet .SLT_SG_STS_GATE (par q 0x10 1) = true) :
    Completes (exec (.slotPowerOff q) s)
      ((((s₁.gateOff (par q 0x10 1)).setSg (par q 0x10 1) 7).bump .SLT_SG_CNT_FAULTS 0xFFFF (par q 0x10 1)).lostSlot (par q 0x10 1) none) q := by
  refine completes_of_served h ((if_neg fun hbusy => hbusy.1 hforce).trans ((if_neg (not_or.mpr ⟨hempty, hlatched⟩)).trans (congrArg ok ?_)))
  exact if_pos ⟨hforce, hgate⟩

end

end

theorem starts_slotServiceStart (h : Served { op := 0x0A03, priv := 2, mctp := true, fields := [fld 0x10 1] } q
    (firstBad [(0x10, decide (par q 0x10 1 < 16))]) s s₁) (hmay : s₁.svcRefusal (par q 0x10 1) = none) (hfree : s₁.freeSlot.isSome = true) :
    Starts (exec (.slotServiceStart q) s) s₁ (s₁.startSvc (par q 0x10 1) true false false) q (.service (par q 0x10 1)) :=
  starts_of_served h (by simp only [hmay]) hfree

theorem completes_slotClearFault (h : Served { op := 0x0A06, priv := 2, mctp := true, fields := [fld 0x10 1] } q
    (firstBad [(0x10, decide (par q 0x10 1 < 32))]) s s₁) (hst : s₁.sg (par q 0x10 1) = 6)
    (hsound : s₁.isSet .SLT_SG_STS_FET_SHORT (par q 0x10 1) = false ∨ s₁.get .SLT_SG_MEAS_VOUT (par q 0x10 1) < 1000) :
    Completes (exec (.slotClearFault q) s) ((((s₁.put .SLT_SG_STS_ATTEMPTS 0 (par q 0x10 1)).put .SLT_SG_STS_FET_SHORT 0 (par q 0x10 1)).fetPin).setSg
      (par q 0x10 1) (if s₁.isSet .SLT_SG_STS_PRSNT (par q 0x10 1) then 2 else 0)) q := by
  have hshort : ¬(s₁.isSet .SLT_SG_STS_FET_SHORT (par q 0x10 1) ∧ 1000 ≤ s₁.get .SLT_SG_MEAS_VOUT (par q 0x10 1)) := by
    rintro ⟨hset, hvout⟩
    rcases hsound with hclear | hlow
    · exact not_isSet hclear hset
    · omega
  have hprsnt : (((s₁.put .SLT_SG_STS_ATTEMPTS 0 (par q 0x10 1)).put .SLT_SG_STS_FET_SHORT 0 (par q 0x10 1)).fetPin).isSet .SLT_SG_STS_PRSNT
      (par q 0x10 1) = s₁.isSet .SLT_SG_STS_PRSNT (par q 0x10 1) :=
    isSet_congr (by simp [State.fetPin, State.get_put_other])
  refine completes_of_served h ((if_neg (not_not_intro hst)).trans ((if_neg hshort).trans (congrArg ok ?_)))
  rw [hprsnt]

end

/-- Settles O10: the commands go by the state of the slot and of its channel, the limits by their rows. -/
theorem slotCommands : Obligations.SlotCommands := by
  unfold Obligations.SlotCommands
  refine ⟨?query, ?powerOn, ?powerOff, ?forced, ?still, ?serviceStart, ?serviceCancel, ?setLimits, ?limitsOff, ?ilim, ?retryMax, ?tlim, ?clearFault⟩
  case query =>
    intro q s s₁ _ _ h
    exact completes_of_served h rfl
  case powerOn =>
    intro q s s₁ _ h hst hmay hfree
    exact ⟨starts_slotPowerOn h hst hmay hfree, svc_bringup ..⟩
  case powerOff =>
    intro q s s₁ _ h hch hforce hempty hlatched
    exact completes_slotPowerOff_offline h hempty hlatched hch hforce
  case forced =>
    intro q s s₁ _ h hforce hempty hlatched hgate
    exact completes_slotPowerOff_forced h hempty hlatched hforce hgate
  case still =>
    intro q s s₁ _ h hch hst
    exact completes_slotPowerOff_still h hch hst
  case serviceStart =>
    intro q s s₁ _ h hmay hfree
    exact starts_slotServiceStart h hmay hfree
  case serviceCancel =>
    intro q s s₁ _ h hsvc
    exact completes_of_served h (if_pos hsvc)
  case setLimits =>
    intro q s s₁ _ _ _ h
    exact completes_of_served h rfl
  case limitsOff => exact fun s q n hoff => setLimits_of_off hoff
  case ilim => exact fun s q n hoff _ h => ilim_setLimits hoff h
  case retryMax => exact fun s q n hoff _ h => retryMax_setLimits hoff h
  case tlim => exact fun s q n hoff h => tlim_setLimits hoff h
  case clearFault =>
    intro q s s₁ _ h hst hsound
    exact completes_slotClearFault h hst hsound

/-! ### A guard and a service under a reload list that names what they write

A fault of a guard reports its message (R465), and a channel out of service changes the factor, which may report TLG_RESTORED (R434). Where the severity table
makes that message Fatal, its record may overwrite one whose grace timer runs, and the step that this expiry orders may reload fields (R450, R459, R533). The
statements are about every state, so also about one whose reload list names `SLT_SG_STS.GATE`, a field that no step of the model puts there. -/

/-- The queue of `strayReload`, where the step of its record is to reload GATE of slot 0 as 1. -/
def strayGateReload : State :=
  { strayReload with flt := { strayReload.flt with reload := [(srcId tableRecord.msg, [(⟨.SLT_SG_STS_GATE, 0, 0⟩, 1)])] } }

/-- Slot 0 is on, and the message of a failed sense check of it is Fatal. -/
def poweredWithStrayReload : State :=
  ((strayGateReload.put .SLT_SG_STS_GATE 1 0).put .FLT_SEV_SEV_U 3 (16 * bSlt + 4)).put .FLT_SEV_V_U 1 (16 * bSlt + 4)

/-- The slot carries nothing. -/
def noCurrent : SgMeas := ⟨12000, 12000, 0, 0⟩

theorem gate_sgSenseFault_poweredWithStrayReload :
    ((poweredWithStrayReload.measure (0 : Fin 32).val noCurrent).sgFault (0 : Fin 32).val 6 4).get .SLT_SG_STS_GATE (0 : Fin 32).val = 1 := by
  decide +kernel

/-- Refutes O11: the fourth clause does not bind the reload list, and the gate of slot 0 of `poweredWithStrayReload` reads on after a failed sense check. -/
theorem not_guardFaults : ¬ Obligations.GuardFaults := by
  unfold Obligations.GuardFaults
  rintro ⟨-, -, -, hsense, -⟩
  obtain ⟨t, hnext, -, hgate, -⟩ := hsense poweredWithStrayReload 0 noCurrent rfl
  obtain rfl : (poweredWithStrayReload.measure (0 : Fin 32).val noCurrent).sgFault (0 : Fin 32).val 6 4 = t := Host.Outcome.next.inj hnext
  rw [gate_sgSenseFault_poweredWithStrayReload] at hgate
  exact absurd hgate (by decide)

/-- Channel 0, offline, evacuates while the factor is below 1,024; with nothing guaranteed, the step restores it, and TLG_RESTORED is Fatal. -/
def evacuatingWithStrayReload : State :=
  let fatal := (strayGateReload.put .FLT_SEV_SEV_C 3 (16 * bTlg + 1)).put .FLT_SEV_V_C 1 (16 * bTlg + 1)
  ((fatal.put .SLT_CH_SVC_SVC 1 0).put .MEM_CH_STS_STATE 6 0).put .TLG_STS_F 512

/-- What the end of the evacuation of a channel that is offline already leaves (R477 steps 3 and 4). -/
def darkening (s : State) (c : Nat) : State :=
  let out := (s.put .SLT_CH_SVC_SVC 2 c).put .SLT_CH_SVC_CANCEL_OPEN 0 c
  ((out.toSafe (2 * c)).toSafe (2 * c + 1)).recap.retoll

theorem exec_evacuationComplete_offline {s : State} {c : Fin 16} (hsvc : s.svc c.val = 1) (hempty : s.holdsPages c.val = false)
    (hoffline : s.chState c.val = 6) : exec (.evacuationComplete c) s = .next (darkening s c.val) := by
  refine (if_neg (by simp [hsvc, hempty])).trans (congrArg Host.Outcome.next ?_)
  rw [if_pos hoffline]
  rfl

theorem gate_darkening_evacuatingWithStrayReload :
    (darkening evacuatingWithStrayReload (0 : Fin 16).val).get .SLT_SG_STS_GATE (2 * (0 : Fin 16).val) = 1 := by
  decide +kernel

/-- Refutes O13: the second clause does not bind the reload list, and the gate of slot 0 reads on after the evacuation of channel 0 of
`evacuatingWithStrayReload`. -/
theorem not_serviceOfChannels : ¬ Obligations.ServiceOfChannels := by
  unfold Obligations.ServiceOfChannels
  rintro ⟨-, hdark, -⟩
  have hsvc : evacuatingWithStrayReload.svc (0 : Fin 16).val = 1 := by decide +kernel
  have hempty : evacuatingWithStrayReload.holdsPages (0 : Fin 16).val = false := by decide +kernel
  have hoffline : evacuatingWithStrayReload.chState (0 : Fin 16).val = 6 := by decide +kernel
  obtain ⟨t, hnext, -, hgate, -⟩ := hdark evacuatingWithStrayReload 0 hsvc hempty
  obtain rfl : darkening evacuatingWithStrayReload (0 : Fin 16).val = t :=
    Host.Outcome.next.inj ((exec_evacuationComplete_offline hsvc hempty hoffline).symm.trans hnext)
  rw [gate_darkening_evacuatingWithStrayReload] at hgate
  exact absurd hgate (by decide)

end Sys2Proof.Proofs.SlotGuard

/-!
PROOFS of the refutations by a reload list: the power states (R493), the diodes (R499, R500), a hung engine (R554) and the loss of a link (R407).

A message whose severity the table makes Fatal may overwrite a record whose grace timer runs, and the step that this expiry orders may reload register fields
(R450, R459, R533). The statements below are about every state, so also about one whose reload list names a field that no step of the model puts there: the
field then ends as the list says, not as the command that reported the message wrote it.
-/
namespace Sys2Proof.Proofs.StrayReloads
open Sys2Proof Sys2Proof.Machine Sys2Proof.Proofs.DramController

/-- The queue of `strayReload`, where the step of its record is to reload the field `k` as `v`. -/
def strayField (k : RegKey) (v : Nat) : State :=
  { strayReload with flt := { strayReload.flt with reload := [(srcId tableRecord.msg, [(k, v)])] } }

/-- The severity table makes the uncorrectable message `sub` of block `code` Fatal. -/
def fatal (code sub : Nat) (s : State) : State := (s.put .FLT_SEV_SEV_U 3 (16 * code + sub)).put .FLT_SEV_V_U 1 (16 * code + sub)

/-- The state a step leaves. -/
def after : Res → State
  | .next t => t
  | _ => State.reset

theorem eq_after_of_next {r : Res} {t : State} (h : r = .next t) : t = after r := by rw [h, after]

/-! ### The exit from PS3 -/

/-- The device wakes from PS3, and its list names the power state. -/
def wakingWithStrayReload : State :=
  let s := (fatal bPwr 3 (strayField ⟨.PWR_STATE_PS, 0, 0⟩ 3)).put .PWR_STATE_PS 3
  { s with pwr := { s.pwr with waking := true } }

theorem ps_after_late_exit : (after (exec (.ps3ExitDone {} true) wakingWithStrayReload)).get .PWR_STATE_PS = 3 := by decide +kernel

/-- Refutes O15: the last clause does not bind the reload list, and a late exit from PS3 of `wakingWithStrayReload` ends with PS reading 3. -/
theorem not_powerStates : ¬ Obligations.PowerStates := by
  unfold Obligations.PowerStates
  rintro ⟨-, -, -, -, -, -, -, -, -, -, -, -, hexit⟩
  obtain ⟨t, hnext, hps, -⟩ := hexit wakingWithStrayReload {} true (by decide +kernel) rfl rfl
  rw [eq_after_of_next hnext, ps_after_late_exit] at hps
  exact absurd hps (by decide)

/-! ### A calibration -/

/-- A booted device with no healthy diode, whose list names the number of healthy ones. -/
def noDiodeWithStrayReload : State :=
  let s := fatal bThm 3 (strayField ⟨.THM_STS_HEALTHY, 0, 0⟩ 5)
  let s := (List.range 24).foldl (fun (s : State) d => s.put .THM_DIODE_HEALTHY 0 d) s
  { s with boot := { s.boot with phase := 3 } }

theorem fabOn_noDiodeWithStrayReload : noDiodeWithStrayReload.fabOn = true := by decide +kernel

/-- The diodes that are healthy after a calibration on readings of 0. -/
def healthyAfter : List Nat := (List.range 24).filter fun d => (after (exec (.diodeCalibration []) noDiodeWithStrayReload)).isSet .THM_DIODE_HEALTHY d

/-- The model has failed, and its message brings the reload. -/
theorem healthy_after_calibration :
    (after (exec (.diodeCalibration []) noDiodeWithStrayReload)).get .THM_STS_HEALTHY = 5 ∧ healthyAfter.length = 0 := by decide +kernel

/-- Refutes O16: the second clause does not bind the reload list, and HEALTHY reads 5 after a calibration of `noDiodeWithStrayReload`. -/
theorem not_thermalEvents : ¬ Obligations.ThermalEvents := by
  unfold Obligations.ThermalEvents
  rintro ⟨-, hcalibrates, -⟩
  obtain ⟨t, hnext, -, hcount, -⟩ := hcalibrates noDiodeWithStrayReload [] fabOn_noDiodeWithStrayReload
  obtain ⟨hfive, hnone⟩ := healthy_after_calibration
  rw [eq_after_of_next hnext, hfive] at hcount
  exact absurd (hcount.trans hnone) (by decide)

/-- Refutes O32: the first clause does not bind the reload list, and HEALTHY reads 5 after a calibration of `noDiodeWithStrayReload`. -/
theorem not_modelWithTooFewDiodes : ¬ Obligations.ModelWithTooFewDiodes := by
  unfold Obligations.ModelWithTooFewDiodes
  rintro ⟨hcalibrates, -⟩
  obtain ⟨t, hnext, hcount, -⟩ := hcalibrates noDiodeWithStrayReload [] fabOn_noDiodeWithStrayReload
  obtain ⟨hfive, hnone⟩ := healthy_after_calibration
  rw [eq_after_of_next hnext, hfive] at hcount
  exact absurd (hcount.trans hnone) (by decide)

/-! ### A hung engine -/

/-- A booted device whose list names the state of engine 0. -/
def engineWithStrayReload : State :=
  let s := fatal bEng 0 (strayField ⟨.ENG_STS_STATE, 0, 0⟩ 0)
  { s with boot := { s.boot with phase := 3 } }

theorem state_after_hang : (after (exec (.engineHang 0 none) engineWithStrayReload)).get .ENG_STS_STATE (0 : Fin 48).val = 0 := by decide +kernel

/-- Refutes O18: the clause on a hang does not bind the reload list, and engine 0 of `engineWithStrayReload` reads healthy after it. -/
theorem not_bootAndResets : ¬ Obligations.BootAndResets := by
  unfold Obligations.BootAndResets
  rintro ⟨-, -, -, -, -, -, hhang, -⟩
  obtain ⟨⟨t, hnext, hstate⟩, -⟩ := hhang engineWithStrayReload 0 rfl (by decide +kernel)
  rw [eq_after_of_next hnext, state_after_hang] at hstate
  exact absurd hstate (by decide)

/-! ### The loss of a link -/

/-- Port 0 is up, and the list names its state. -/
def linkWithStrayReload : State := (fatal bCvn 4 (strayField ⟨.CVN_LINK_STS_STATE, 0, 0⟩ 5)).put .CVN_LINK_STS_STATE 5 0

theorem state_after_loss : (after (exec (.symbolLockTimeout 0) linkWithStrayReload)).get .CVN_LINK_STS_STATE (0 : Fin 2).val = 5 := by decide +kernel

/-- Refutes O21: the clause on the loss of symbol lock does not bind the reload list, and port 0 of `linkWithStrayReload` reads UP after it. -/
theorem not_linkEvents : ¬ Obligations.LinkEvents := by
  unfold Obligations.LinkEvents
  rintro ⟨-, -, -, -, -, -, -, -, hloss, -⟩
  obtain ⟨t, hnext, -, hstate⟩ := hloss linkWithStrayReload 0 (by decide +kernel)
  rw [eq_after_of_next hnext, state_after_loss] at hstate
  exact absurd hstate (by decide)

end Sys2Proof.Proofs.StrayReloads

/-!
PROOFS of the statements of the power and thermal chapter: the `pwr` and `thm` commands (R484-R506).
-/
namespace Sys2Proof.Proofs.PowerCommands
open Sys2Proof Sys2Proof.Machine Sys2Proof.Proofs.Architecture Sys2Proof.Proofs.Pyryx

/-- What `pwr.set_state` checks of its request. -/
abbrev ServedSetState (q : Req) (s t : State) : Prop :=
  Served { op := 0x0F01, priv := 2, mctp := true, fields := [fld 0x10 1] } q (firstBad [(0x10, decide (par q 0x10 1 ≤ 3))]) s t

section
variable {q : Req} {s s₁ : State} (h : ServedSetState q s s₁)
include h

/-- A command whose reply comes later leaves its state as it is. -/
theorem exec_pwrSetState_waits (htarget : 2 ≤ par q 0x10 1) (hroll : 2 ≤ s₁.get .GLB_FW_STS_ROLL) :
    exec (.pwrSetState q) s = .next { s₁ with pwr := { s₁.pwr with afterRoll := s₁.pwr.afterRoll ++ [q] } } := by
  refine (serve_of_served h _).trans ?_
  rw [if_pos ⟨htarget, hroll⟩]
  rfl

/-- Outside a roll, and for targets 0 and 1, the command goes by its target. -/
theorem exec_pwrSetState_now (hnow : ¬(2 ≤ par q 0x10 1 ∧ 2 ≤ s₁.get .GLB_FW_STS_ROLL)) :
    exec (.pwrSetState q) s = .next ((setStateBody q s₁).finish s₁ q) := by
  refine (serve_of_served h _).trans ?_
  rw [if_neg hnow]

section
variable (hps : s₁.get .PWR_STATE_PS = 0)
include hps

theorem completes_pwrSetState_ps0 (htarget : par q 0x10 1 = 0) : Completes (exec (.pwrSetState q) s) s₁.cancelEntry q := by
  have hbody : setStateBody q s₁ = ok s₁.cancelEntry := by
    unfold setStateBody
    simp [htarget, hps]
  rw [Completes, exec_pwrSetState_now h (by omega), hbody]
  exact congrArg Host.Outcome.next (finish_ok ..)

theorem completes_pwrSetState_ps1 (htarget : par q 0x10 1 = 1) : Completes (exec (.pwrSetState q) s) (s₁.cancelEntry.put .PWR_STATE_PS 1) q := by
  have hbody : setStateBody q s₁ = ok (s₁.cancelEntry.put .PWR_STATE_PS 1) := by
    unfold setStateBody
    simp [htarget, hps]
  rw [Completes, exec_pwrSetState_now h (by omega), hbody]
  exact congrArg Host.Outcome.next (finish_ok ..)

section
variable (hroll : s₁.get .GLB_FW_STS_ROLL < 2) (hheld : s₁.chanHeld = false) (hwait : s₁.pwr.linkWait = false)
include hroll hheld hwait

theorem exec_pwrSetState_enters_ps2 (htarget : par q 0x10 1 = 2) (hawake : s₁.pwr.waking = false) :
    exec (.pwrSetState q) s =
      .next (({ s₁ with pwr := { s₁.pwr with waiters := s₁.pwr.waiters ++ [q] } } : State).put .PWR_STATE_ENTERING 1) := by
  have hbody : setStateBody q s₁ =
      { st := ({ s₁ with pwr := { s₁.pwr with waiters := s₁.pwr.waiters ++ [q] } } : State).put .PWR_STATE_ENTERING 1, later := true } := by
    unfold setStateBody
    simp [htarget, hps, hheld, hwait, hawake]
  rw [exec_pwrSetState_now h (by omega), hbody]
  rfl

theorem starts_pwrSetState_ps3 (htarget : par q 0x10 1 = 3) (hservice : ∀ c < 16, s₁.get .SLT_CH_SVC_SVC c = 0)
    (hsweep : ∀ k < 4, s₁.sweeping k = false) (hloans : ∀ p < 2, (s₁.port p).loanB = none ∧ (s₁.port p).loanL = none)
    (hfree : s₁.freeSlot.isSome = true) :
    Starts (exec (.pwrSetState q) s) s₁
      (({ s₁.cancelEntry with pwr := { s₁.cancelEntry.pwr with linkWait := true } } : State).put .PWR_STATE_ENTERING 1) q .ps3 := by
  have hnone : (List.range 16).any (fun c => s₁.get .SLT_CH_SVC_SVC c != 0) = false := by simpa using hservice
  have hstill : (List.range 4).any (fun k => s₁.sweeping k) = false := by simpa using hsweep
  have hfreed : [0, 1].any (fun p => (s₁.port p).loanB.isSome || (s₁.port p).loanL.isSome) = false := by simp [hloans]
  have hbody : setStateBody q s₁ =
      pend (({ s₁.cancelEntry with pwr := { s₁.cancelEntry.pwr with linkWait := true } } : State).put .PWR_STATE_ENTERING 1) .ps3 := by
    unfold setStateBody
    simp only [htarget, hps, hheld, hwait, hnone, hstill, hfreed]
    rfl
  obtain ⟨slot, hslot⟩ := Option.isSome_iff_exists.mp hfree
  exact ⟨slot, hslot, by rw [exec_pwrSetState_now h (by omega), hbody, finish_pend _ _ _ _ _ hslot]⟩

end

end

end

/-- Settles O14: the query and configuration commands do as they say; `pwr.set_state` goes by its target from PS0. -/
theorem powerCommands : Obligations.PowerCommands := by
  unfold Obligations.PowerCommands
  refine ⟨?query, ?ps0, ?roll, ?ps1, ?ps2, ?ps3, ?wakeCfg, ?thmQuery, ?limits⟩
  case query => exact fun q s s₁ h => completes_of_served h rfl
  case ps0 => exact fun q s s₁ h htarget hps => completes_pwrSetState_ps0 h hps htarget
  case roll => exact fun q s s₁ h => exec_pwrSetState_waits h
  case ps1 => exact fun q s s₁ h htarget hps => completes_pwrSetState_ps1 h hps htarget
  case ps2 => exact fun q s s₁ h htarget hps hroll hheld hwait hawake => exec_pwrSetState_enters_ps2 h hps hroll hheld hwait htarget hawake
  case ps3 =>
    intro q s s₁ h htarget hps hroll hheld hwait hservice hsweep hloans hfree
    exact starts_pwrSetState_ps3 h hps hroll hheld hwait htarget hservice hsweep hloans hfree
  case wakeCfg =>
    intro q s s₁ _ h
    exact completes_of_served h rfl
  case thmQuery => exact fun q s s₁ h => completes_of_served h rfl
  case limits =>
    intro q s s₁ _ _ _ _ h
    exact completes_of_served h rfl

end Sys2Proof.Proofs.PowerCommands

/-!
PROOFS of the statements of the boot flash: the `cfg` and `fw` commands (R544-R557).
-/
namespace Sys2Proof.Proofs.FlashCommands
open Sys2Proof Sys2Proof.Machine Sys2Proof.Proofs.Architecture Sys2Proof.Proofs.Pyryx Sys2Proof.Proofs.Translation Sys2Proof.Proofs.AccessControl

/-- An operation whose work is done by the time of the reply takes the slot that is offered, with its values. -/
theorem finish_pendDone {s u : State} {q : Req} {k : OpKind} {slot st d res : Nat} (h : s.freeSlot = some slot) :
    (pendDone u k st d res).finish s q = (u.openOp slot q k (some (st, d, res))).reply q stPending s.nextHandle 0 0 [] := by
  simp [pendDone, Ans.finish, h]

theorem starts_done_of_served {info : CmdInfo} {q : Req} {bad : Option Nat} {s t u : State} {deny : Option (Nat × Nat)} {body : State → Ans} {k : OpKind}
    {st d res : Nat} (h : Served info q bad s t deny) (hbody : body t = pendDone u k st d res) (hfree : t.freeSlot.isSome = true) :
    Starts (serve info q bad body s deny) t u q k (some (st, d, res)) := by
  obtain ⟨slot, hslot⟩ := Option.isSome_iff_exists.mp hfree
  exact ⟨slot, hslot, by rw [serve_of_served h, hbody, finish_pendDone hslot]⟩

/-- The engine of a request that the access tables let touch flash runs the command. -/
theorem flashPort_of_open {s : State} {q : Req} {op off : Nat} (h : s.flashOpen q op off) (body : State → Ans) : s.flashPort q op off body = body s := by
  rw [State.flashPort, access_of_allowed h]

/-! ### The `cfg` commands (R90, R540, R545, R556) -/

/-- The sequence of the caller with the chunk of a request in it. -/
abbrev chunked (s : State) (q : Req) (was : List Byte) : State :=
  { s with boot := { s.boot with load := some { caller := q.origin, bytes := was ++ q.payload } } }

/-- What the sequence of the caller has received, as the offset of a chunk says. -/
abbrev loadedBytes (s : State) (q : Req) : List Byte := if par q 0x10 4 = 0 then [] else s.received q.origin

section
variable {q : Req} {s s₁ : State} (h : Served { op := 0x0201, priv := 2, mctp := true, payload := 1048576, fields := [fld 0x10 4, fbits 0x14 0 1] } q
    (firstBad [(0x08, decide (1 ≤ q.plen)),
      (0x10, decide (par q 0x10 4 = (loadedBytes s q).length ∧ par q 0x10 4 + q.plen ≤ 1048576))]) s s₁)
  (hmine : ∀ l, s₁.boot.load = some l → sessionHolder l.caller = sessionHolder q.origin)
  (hstill : s₁.running (fun k => k == .cfgLoad) = false)

include hmine hstill in
/-- No other caller holds the sequence, and no write of the flash runs. -/
theorem cfgLoad_not_busy : ¬((match s₁.boot.load with
    | some l => sessionHolder l.caller != sessionHolder q.origin
    | none => false) = true ∨ s₁.running (fun k => k == .cfgLoad) = true) := by
  rintro (hother | hrun)
  · cases hload : s₁.boot.load with
    | none => simp [hload] at hother
    | some l => simp [hload, hmine l hload] at hother
  · exact ne_true_of_eq_false hstill hrun

include h hmine hstill

theorem completes_cfgLoad_chunk (hmore : parBit q 0x14 0 = false) :
    Completes (exec (.cfgLoad q) s) (chunked s₁ q (loadedBytes s q)) q :=
  completes_of_served h ((if_neg (cfgLoad_not_busy hmine hstill)).trans (if_pos (ne_true_of_eq_false hmore)))

variable (hlast : parBit q 0x14 0 = true) (hrom : s₁.isSet .GLB_BOOT_STS_ROMREC = false)
include hlast hrom

theorem refused_cfgLoad {w : Nat} (hcause : blockCause s₁.boot.owner (loadedBytes s q ++ q.payload) = some w) :
    Refused (exec (.cfgLoad q) s) s₁ q stCfgInvalid w := by
  refine refused_of_served h ((if_neg (cfgLoad_not_busy hmine hstill)).trans ((if_neg (not_not_intro hlast)).trans ?_))
  refine (if_neg (ne_true_of_eq_false hrom)).trans ?_
  simp only [hcause]

theorem starts_cfgLoad (hopenA : s₁.flashOpen q opW 0x3C10000) (hopenB : s₁.flashOpen q opW 0x3D10000) (hfree : s₁.freeSlot.isSome = true)
    (hcause : blockCause s₁.boot.owner (loadedBytes s q ++ q.payload) = none)
    (hnewer : ∀ c < 2, cfgCrc (s₁.cfgCopy c) = true → cfgGen (s₁.cfgCopy c) < cfgGen (loadedBytes s q ++ q.payload)) :
    Starts (exec (.cfgLoad q) s) s₁ ((chunked s₁ q (loadedBytes s q)).own' (loadedBytes s q ++ q.payload)) q .cfgLoad := by
  have hfresh : ¬(List.range 2).any (fun c => cfgCrc (s₁.cfgCopy c) &&
      decide (cfgGen (loadedBytes s q ++ q.payload) ≤ cfgGen (s₁.cfgCopy c))) = true := by
    simp only [List.any_eq_true, List.mem_range, Bool.and_eq_true, decide_eq_true_eq, not_exists, not_and, Nat.not_le]
    exact hnewer
  refine starts_of_served h ((if_neg (cfgLoad_not_busy hmine hstill)).trans ((if_neg (not_not_intro hlast)).trans ?_)) hfree
  refine (if_neg (ne_true_of_eq_false hrom)).trans ?_
  simp only [hcause]
  exact (if_neg hfresh).trans ((flashPort_of_open hopenA _).trans (flashPort_of_open hopenB _))

end

theorem completes_cfgRead {q : Req} {s s₁ : State}
    (h : Served { op := 0x0202, priv := 2, mctp := true, output := true, fields := [fld 0x10 1, fld 0x14 4, fld 0x18 4] } q
      (firstBad [(0x10, decide (par q 0x10 1 ≤ 1)), (0x14, decide (par q 0x14 4 + par q 0x18 4 ≤ 1048576)),
        (0x18, decide (1 ≤ par q 0x18 4 ∧ par q 0x18 4 ≤ 65536))]) s s₁)
    (hopen : s₁.flashOpen q opR (0x3C10000 + 0x100000 * par q 0x10 1 + par q 0x14 4)) :
    Completes (exec (.cfgRead q) s) s₁ q 0 (par q 0x18 4)
      [(0, par q 0x18 4, leNat (flashRead (s₁.cfgCopy (par q 0x10 1)) (par q 0x14 4) (par q 0x18 4)))] :=
  completes_of_served h (flashPort_of_open hopen _)

/-- The grant word after `cfg.grant`: bit `b` set or cleared. -/
abbrev granted (s : State) (h c : Nat) (on : Bool) : State :=
  s.put .GLB_GRANT_CTX (if on then s.get .GLB_GRANT_CTX h (c / 64) ||| 2 ^ (c % 64)
    else s.get .GLB_GRANT_CTX h (c / 64) - (s.get .GLB_GRANT_CTX h (c / 64) &&& 2 ^ (c % 64))) h (c / 64)

theorem completes_cfgGrant {q : Req} {s s₁ : State} {on : Bool}
    (h : Served { op := 0x0203, priv := 2, mctp := true, fields := [fld 0x10 2, fbits 0x12 0 1] } q (firstBad [(0x10, decide (par q 0x10 1 ≤ 7))]) s s₁)
    (hon : parBit q 0x12 0 = on) :
    Completes (exec (.cfgGrant q) s) (granted s₁ (par q 0x10 1) (par q 0x11 1) on) q := by
  subst hon
  exact completes_of_served h rfl

/-- Settles O34: a chunk goes to the sequence, the last one by the checks of the block; the others do as they say. -/
theorem configurationCommands : Obligations.ConfigurationCommands := by
  unfold Obligations.ConfigurationCommands
  refine ⟨?query, ?chunk, ?last, ?timeout, ?read, ?grant, ?ungrant⟩
  case query => exact fun q s s₁ h => completes_of_served h rfl
  case chunk =>
    intro q s s₁ _ _ h hmore hmine hstill
    exact completes_cfgLoad_chunk h hmine hstill hmore
  case last =>
    intro q s s₁ _ _ h hlast hmine hstill hrom hopenA hopenB hfree
    exact ⟨fun w => refused_cfgLoad h hmine hstill hlast hrom, starts_cfgLoad h hmine hstill hlast hrom hopenA hopenB hfree⟩
  case timeout => exact fun s hstill => congrArg Host.Outcome.next (if_neg (ne_true_of_eq_false hstill))
  case read =>
    intro q s s₁ _ _ h hopen
    exact completes_cfgRead h hopen
  case grant =>
    intro q s s₁ _ _ h hon
    exact completes_cfgGrant h hon
  case ungrant =>
    intro q s s₁ _ _ h hoff
    exact completes_cfgGrant h hoff

/-! ### The `fw` commands (R551-R553, R556) -/

/-- What the staging copy holds, as the offset of a chunk says. -/
abbrev stagedBytes (s : State) (q : Req) : List Byte :=
  if par q 0x10 4 = 0 ∨ s.get .GLB_FW_STS_ROLL ≠ 1 then [] else s.fwCopy s.staging

/-- The roll begins: the version replaced and SETSVN are held. -/
abbrev rolling (s : State) (q : Req) : State :=
  ({ s with boot := { s.boot with rollOld := s.get .GLB_FW_VER_VERSION, setSvn := parBit q 0x10 0 } } : State).put .GLB_FW_STS_ROLL 2

theorem get_rolling (s : State) (q : Req) {r : Reg} (i j : Nat) (hr : .GLB_FW_STS_ROLL ≠ r) : (rolling s q).get r i j = s.get r i j :=
  State.get_put_other _ _ _ _ _ _ hr

/-- The clusters that are on do not go by ROLL. -/
theorem nextCluster_rolling (s : State) (q : Req) (k : Nat) : (rolling s q).nextCluster k = s.nextCluster k := by
  unfold State.nextCluster
  simp only [get_rolling s q _ _ (show Reg.GLB_FW_STS_ROLL ≠ .ENG_STS_STATE by decide)]

theorem romrec_rolling (s : State) (q : Req) : (rolling s q).isSet .GLB_BOOT_STS_ROMREC = s.isSet .GLB_BOOT_STS_ROMREC := by
  rw [State.isSet, State.isSet, get_rolling s q _ _ (by decide)]

section
variable {q : Req} {s s₁ : State}

theorem starts_fwStage (h : Served { op := 0x1001, priv := 2, mctp := true, payload := 1048576, fields := [fld 0x10 4] } q
      (firstBad [(0x08, decide (1 ≤ q.plen)), (0x10, decide (par q 0x10 4 = (stagedBytes s q).length ∧ par q 0x10 4 + q.plen ≤ 31457280))]) s s₁)
    (hroll : s₁.get .GLB_FW_STS_ROLL < 2) (hstill : s₁.running (fun k => k == .fwStage) = false)
    (hopen : s₁.flashOpen q opW (0x10000 + 0x1E00000 * s₁.staging + par q 0x10 4)) (hfree : s₁.freeSlot.isSome = true) :
    Starts (exec (.fwStage q) s) s₁ (((s₁.setFw s₁.staging (stagedBytes s q ++ q.payload)).put .GLB_FW_STS_ROLL 1).put .GLB_FW_STS_STAGED_KIB
      ((stagedBytes s q ++ q.payload).length / 1024)) q .fwStage (some (stOk, 0, 0)) := by
  refine starts_done_of_served h ((if_neg ?_).trans (flashPort_of_open hopen _)) hfree
  simp [hroll, hstill]

section
variable (h : Served { op := 0x1002, priv := 2, mctp := true, fields := [fbits 0x10 0 1] } q none s s₁)
  (hroll : s₁.get .GLB_FW_STS_ROLL < 2) (hstill : s₁.running (fun k => k == .fwStage) = false)
include h hroll hstill

theorem starts_fwActivate (hgood : s₁.stageFault = none) (hopen : s₁.flashOpen q opW 0) (hfree : s₁.freeSlot.isSome = true) :
    Starts (exec (.fwActivate q) s) s₁ (match if s₁.isSet .GLB_BOOT_STS_ROMREC = true then none else s₁.nextCluster 0 with
      | some k => (rolling s₁ q).startCluster k
      | none => rolling s₁ q) q .fwActivate := by
  rw [← nextCluster_rolling s₁ q, ← romrec_rolling s₁ q]
  refine starts_of_served h ((if_neg (by simp [hroll, hstill])).trans ?_) hfree
  simp only [hgood]
  exact flashPort_of_open hopen _

theorem refused_fwActivate {d : Nat} (hbad : s₁.stageFault = some d) : Refused (exec (.fwActivate q) s) s₁ q stStale d := by
  refine refused_of_served h ((if_neg (by simp [hroll, hstill])).trans ?_)
  simp only [hbad]

end

end

/-- Settles O35: staging and activation go by ROLL, the copy and the access tables; an abort goes by ROLL. -/
theorem firmwareCommands : Obligations.FirmwareCommands := by
  unfold Obligations.FirmwareCommands
  refine ⟨?query, ?stage, ?activate, ?stale, ?unstage, ?turnBack, ?turningBack⟩
  case query => exact fun q s s₁ h => completes_of_served h rfl
  case stage =>
    intro q s s₁ _ _ h hroll hstill hopen hfree
    exact starts_fwStage h hroll hstill hopen hfree
  case activate =>
    intro q s s₁ h hroll hstill hgood hopen hfree
    exact starts_fwActivate h (by omega) hstill hgood hopen hfree
  case stale => exact fun q s s₁ d h hroll hstill hbad => refused_fwActivate h hroll hstill hbad
  case unstage => exact fun q s s₁ h hroll => completes_of_served h (by simp only [hroll, ok, okOut])
  case turnBack => exact fun q s s₁ h hroll => completes_of_served h (by simp only [hroll, ok, okOut])
  case turningBack => exact fun q s s₁ h hroll => completes_of_served h (by simp only [hroll, ok, okOut])

end Sys2Proof.Proofs.FlashCommands

/-!
PROOFS of the statements of the Caravan link: the `cvn` commands (R402-R421), received bales (R386-R406) and the lender's messages (R409-R418).
-/
namespace Sys2Proof.Proofs.CaravanLink
open Sys2Proof Sys2Proof.Machine Sys2Proof.Proofs.Architecture Sys2Proof.Proofs.Pyryx Sys2Proof.Proofs.Translation Sys2Proof.Proofs.FlashCommands
open Sys2Proof.Proofs.CaravanLoans

/-! ### The `cvn` commands (R402, R413, R416, R419-R421) -/

/-- The blocks of a loan that is being closed are on their way back. -/
abbrev closing (s : State) (p : Nat) : State := (s.setPort p { s.port p with closing := true }).giveBack p (s.port p).blocks.length

section
variable {q : Req} {s s₁ : State}

section
variable (h : Served { op := 0x0B01, priv := 2, fields := [fld 0x10 2] } q (firstBad [(0x10, decide (cvnPortOf q ≤ 1)),
  (0x11, decide (par q 0x11 1 ≤ 3) && !(decide (2 ≤ par q 0x11 1) && s.isSet .CVN_PORT_CFG_COMPAT (cvnPortOf q)) &&
    !(par q 0x11 1 == 2 && decide (2 ≤ (s.port (cvnPortOf q)).badLanes.length)))]) s s₁) (hfree : s₁.freeSlot.isSome = true)
include h hfree

theorem starts_cvnLinkUp_off (ha : par q 0x11 1 = 0) (hst : s₁.get .CVN_LINK_STS_STATE (cvnPortOf q) = 0) :
    Starts (exec (.cvnLinkUp q) s) s₁ ((s₁.put .CVN_PORT_CFG_AUTO_UP 1 (cvnPortOf q)).put .CVN_LINK_STS_STATE 1 (cvnPortOf q)) q
      (.linkUp (cvnPortOf q) 0) := by
  refine starts_of_served h ((if_pos ha).trans ((if_neg (by rw [hst]; decide)).trans ?_)) hfree
  exact congrArg (fun u => pend u (.linkUp (cvnPortOf q) 0)) (if_pos (.inl hst))

theorem starts_cvnLinkUp_up (ha : par q 0x11 1 = 0) (hst : s₁.get .CVN_LINK_STS_STATE (cvnPortOf q) = 5) :
    Starts (exec (.cvnLinkUp q) s) s₁ (s₁.put .CVN_PORT_CFG_AUTO_UP 1 (cvnPortOf q)) q (.linkUp (cvnPortOf q) 0) (some (stOk, 0, 0)) :=
  starts_done_of_served h ((if_pos ha).trans (if_pos hst)) hfree

theorem starts_cvnLinkUp_asks (ha : par q 0x11 1 ≠ 0) (hst : s₁.get .CVN_LINK_STS_STATE (cvnPortOf q) = 5) :
    Starts (exec (.cvnLinkUp q) s) s₁ (if par q 0x11 1 = 1 then s₁.linkAsk (cvnPortOf q) 0x10 0
      else s₁.linkAsk (cvnPortOf q) 0x11 (if par q 0x11 1 = 2 then 8 else 4)) q (.linkUp (cvnPortOf q) (par q 0x11 1)) :=
  starts_of_served h ((if_neg ha).trans (if_neg (not_not_intro hst))) hfree

end

section
variable (h : Served { op := 0x0B02, priv := 2, fields := [fld 0x10 1, fbits 0x11 0 1] } q (firstBad [(0x10, decide (cvnPortOf q ≤ 1))]) s s₁)
include h

theorem completes_cvnLinkDown_detecting (hlent : s₁.pg.pages.any (fun x => x.2.pl.tier == 4 && locPort x.2.pl.ma == cvnPortOf q && x.2.pl.twk != 1) = false)
    (hst : s₁.get .CVN_LINK_STS_STATE (cvnPortOf q) = 1) :
    Completes (exec (.cvnLinkDown q) s) ((s₁.put .CVN_PORT_CFG_AUTO_UP 0 (cvnPortOf q)).put .CVN_LINK_STS_STATE 0 (cvnPortOf q)) q := by
  refine completes_of_served h ((if_neg fun hbusy => ne_true_of_eq_false hlent hbusy.2).trans ?_)
  exact congrArg (fun u : State => ok (u.put .CVN_LINK_STS_STATE 0 (cvnPortOf q))) (if_neg (by rw [hst]; decide))

theorem completes_cvnLinkDown_up (hmay : s₁.pg.pages.any (fun x => x.2.pl.tier == 4 && locPort x.2.pl.ma == cvnPortOf q && x.2.pl.twk != 1) = false ∨
      parBit q 0x11 0 = true) (hst : s₁.get .CVN_LINK_STS_STATE (cvnPortOf q) = 5) :
    Completes (exec (.cvnLinkDown q) s) ((((s₁.put .CVN_PORT_CFG_AUTO_UP 0 (cvnPortOf q)).linkCtl (cvnPortOf q) 0x20 0).goDown (cvnPortOf q)).put
      .CVN_LINK_STS_STATE 0 (cvnPortOf q)) q := by
  have hfree : ¬(¬parBit q 0x11 0 = true ∧
      s₁.pg.pages.any (fun x => x.2.pl.tier == 4 && locPort x.2.pl.ma == cvnPortOf q && x.2.pl.twk != 1) = true) := by
    rintro ⟨hgentle, hlent⟩
    exact hmay.elim (fun hnone => ne_true_of_eq_false hnone hlent) hgentle
  refine completes_of_served h ((if_neg hfree).trans ?_)
  exact congrArg (fun u : State => ok (u.put .CVN_LINK_STS_STATE 0 (cvnPortOf q))) (if_pos (by rw [hst]; decide))

end

section
variable (h : Served { op := 0x0B04, priv := 2, fields := [fld 0x10 2] ++ (if par q 0x11 1 = 1 then [fld 0x18 4] else []) } q
  (firstBad [(0x10, decide (cvnPortOf q ≤ 1)), (0x11, decide (par q 0x11 1 ≤ 2))]) s s₁)
include h

theorem starts_cvnReclaim_all (hmode : par q 0x11 1 = 0) (hloan : (s₁.port (cvnPortOf q)).loanB.isSome = true) (hpages : s₁.pg.pages = [])
    (hfree : s₁.freeSlot.isSome = true) :
    Starts (exec (.cvnReclaim q) s) s₁ (((closing s₁ (cvnPortOf q)).recallPages (cvnPortOf q)).returnEmpty (cvnPortOf q)) q
      (.reclaim (cvnPortOf q)) := by
  have hnone : (closing s₁ (cvnPortOf q)).pg.pages = [] := hpages
  have hheld : ¬(s₁.port (cvnPortOf q)).loanB.isNone = true := by simpa [Option.isSome_iff_ne_none] using hloan
  refine starts_of_served h ?_ hfree
  simp only [hmode]
  refine (if_neg hheld).trans ?_
  simp only [hnone]
  rfl

theorem completes_cvnReclaim_asks (hmode : par q 0x11 1 = 1) (hloan : (s₁.port (cvnPortOf q)).loanL.isSome = true) :
    Completes (exec (.cvnReclaim q) s) (s₁.askBack (cvnPortOf q) (par q 0x18 4)) q := by
  have hheld : ¬(s₁.port (cvnPortOf q)).loanL.isNone = true := by simpa [Option.isSome_iff_ne_none] using hloan
  refine completes_of_served h ?_
  simp only [hmode]
  exact if_neg hheld

theorem completes_cvnReclaim_frees (hmode : par q 0x11 1 = 2) (hloan : (s₁.port (cvnPortOf q)).loanL.isSome = true)
    (hdown : s₁.portUp (cvnPortOf q) = false) : Completes (exec (.cvnReclaim q) s) (s₁.freeLoan (cvnPortOf q)) q := by
  obtain ⟨⟨id, dev⟩, hlent⟩ := Option.isSome_iff_exists.mp hloan
  refine completes_of_served h ?_
  simp only [hmode, hlent]
  exact if_neg fun hbusy => ne_true_of_eq_false hdown hbusy.1

end

end

/-- Settles O19: every command goes by the state of the port and by its loans. -/
theorem caravanCommands : Obligations.CaravanCommands := by
  unfold Obligations.CaravanCommands
  refine ⟨?query, ?upOff, ?upUp, ?upAsks, ?downDetecting, ?downUp, ?lendCfg, ?reclaimAll, ?reclaimAsks, ?reclaimFrees, ?compat⟩
  case query =>
    intro q s s₁ _ h
    exact completes_of_served h rfl
  case upOff =>
    intro q s s₁ _ _ h ha hst hfree
    exact starts_cvnLinkUp_off h hfree ha hst
  case upUp =>
    intro q s s₁ _ _ h ha hst hfree
    exact starts_cvnLinkUp_up h hfree ha hst
  case upAsks =>
    intro q s s₁ _ _ h ha hst hfree
    exact starts_cvnLinkUp_asks h hfree ha hst
  case downDetecting =>
    intro q s s₁ _ h hlent hst
    exact completes_cvnLinkDown_detecting h hlent hst
  case downUp =>
    intro q s s₁ _ h hmay hst
    exact completes_cvnLinkDown_up h hmay hst
  case lendCfg =>
    rintro q s s₁ _ _ h rfl
    exact completes_of_served h rfl
  case reclaimAll =>
    intro q s s₁ _ _ h hmode hloan hpages hfree
    exact starts_cvnReclaim_all h hmode hloan hpages hfree
  case reclaimAsks =>
    intro q s s₁ _ _ h hmode hloan
    exact completes_cvnReclaim_asks h hmode hloan
  case reclaimFrees =>
    intro q s s₁ _ _ h hmode hloan hdown
    exact completes_cvnReclaim_frees h hmode hloan hdown
  case compat =>
    intro q s s₁ _ h hst
    exact completes_of_served h (if_pos hst)

/-! ### Bytes that arrive (R387, R388, R391) -/

/-- A port takes bales of a TYPE: any while traffic runs, LINKCTL from TRAINING on. -/
def TakesBales (s : State) (p typ : Nat) : Prop :=
  s.halt = none ∧ (s.lively p = true ∨ typ = 3 ∧ (s.get .CVN_LINK_STS_STATE p = 2 ∨ s.get .CVN_LINK_STS_STATE p = 3))

section
variable {s : State} {p typ : Nat} {raw : List Byte} {x : State × Option (BaleHead × List Byte)} (act : State → BaleHead → List Byte → State)

theorem not_refused_of_takes (htakes : TakesBales s p typ) : ¬(s.halt.isSome = true ∨ s.get .CVN_LINK_STS_STATE p ≤ 1 ∨
    s.get .CVN_LINK_STS_STATE p = 7 ∨ (typ ≠ 3 ∧ ¬s.lively p = true)) := by
  obtain ⟨hrun, hlive⟩ := htakes
  simp only [hrun, Option.isSome_none, Bool.false_eq_true, false_or]
  rcases hlive with hlively | ⟨rfl, hst⟩
  · simp only [State.lively, Bool.or_eq_true, beq_iff_eq] at hlively ⊢
    omega
  · omega

variable (htakes : TakesBales s p typ) (hx : x = s.rxBytes p raw)
include htakes hx

/-- A port that takes bales takes bytes that pass by the TYPE they name. -/
theorem rxBale_of_some {h : BaleHead} {payload : List Byte} (hbale : x.2 = some (h, payload)) (htyp : h.typ = typ) :
    s.rxBale p typ raw act = act x.1 h payload := by
  have hbytes : s.rxBytes p raw = (x.1, some (h, payload)) := hx.symm.trans (Prod.ext rfl hbale)
  refine (if_neg (not_refused_of_takes htakes)).trans ?_
  simp only [hbytes]
  exact if_pos htyp

theorem rxBale_of_none (hbale : x.2 = none) : s.rxBale p typ raw act = x.1 := by
  have hbytes : s.rxBytes p raw = (x.1, none) := hx.symm.trans (Prod.ext rfl hbale)
  refine (if_neg (not_refused_of_takes htakes)).trans ?_
  simp only [hbytes]

end

theorem rxBytes_of_unreadable (s : State) (p : Nat) {raw : List Byte} (h : raw.length ≠ 256) : s.rxBytes p raw = (s.dropBale p, none) := by
  simp only [State.rxBytes, if_neg h]

theorem dropBale_of_lively {s : State} {p : Nat} (hlively : s.lively p = true) (hgood : (s.port p).dropping = false) :
    s.dropBale p = ((((s.bump .CVN_CNT_CHK_DROP 0xFFFF p).report (msg1 bCvn p 0)).setPort p
      { ((s.bump .CVN_CNT_CHK_DROP 0xFFFF p).report (msg1 bCvn p 0)).port p with dropping := true })).health p 0 1 :=
  (if_neg (not_not_intro hlively)).trans (if_neg (ne_true_of_eq_false hgood))

/-! ### Bales by their TYPE (R385, R393, R398-R406) -/

section
variable {s : State} {p : Nat} {h : BaleHead} {payload : List Byte} {bad : Option Nat}

section
variable (hgood : (s.port p).dropping = false)
include hgood

theorem rxData_unopened (hbody : (s.port p).bodyOf h payload = none) : s.rxData p h payload bad = s.authFail p := by
  refine (if_neg (ne_true_of_eq_false hgood)).trans ?_
  simp only [hbody]

theorem rxData_opened {body : List Byte} (hbody : (s.port p).bodyOf h payload = some body) (hown : h.pool = false) :
    s.rxData p h payload bad = s.acceptData p h (isVoid h payload) body bad := by
  refine (if_neg (ne_true_of_eq_false hgood)).trans ?_
  simp only [hbody]
  exact if_neg fun hpool => ne_true_of_eq_false hown hpool.1

end

/-- A plaintext bale in order: its body, then its header. -/
theorem acceptData_in_order {body : List Byte} {u : State} (henc : h.enc = false) (hnext : (s.port p).rxAt = (s.port p).rcvd)
    (hu : u = ((s.setPort p { s.port p with rxAt := (s.port p).rxAt + 1, rcvd := (s.port p).rcvd + 1 }).count (.port p) 0x02 1 none).takeBody p h body)
    (hlively : u.lively p = true) (hkey : (u.rxHead p h bad).keyWorn p = false) :
    s.acceptData p h false body bad = u.rxHead p h bad := by
  subst hu
  simp only [State.acceptData, henc, hnext, decide_true, if_true, Bool.false_eq_true, if_false, not_true_eq_false, true_or] at hlively hkey ⊢
  simp only [hlively, hkey, not_true_eq_false, if_false, Bool.false_eq_true]

theorem rxReplay_of_near {back : Nat} (hback : back = ((s.port p).rcvd + 4096 - h.xseq) % 4096) (hnear : back ≤ 511) (hrcvd : back ≤ (s.port p).rcvd) :
    s.rxReplay p h bad = (s.setPort p { s.port p with dropping := false, rxAt := (s.port p).rcvd - back }).rxHead p h bad := by
  subst hback
  exact if_neg (by omega)

/-- Before traffic runs, a LINKCTL bale acts by its operation alone. -/
theorem rxLinkctl_ident {ns : Nat} (hquiet : s.lively p = false) (hcode : h.lcode = 2) :
    s.rxLinkctl p h payload bad ns = s.identify p (leNat (payload.take 8)) := by
  simp only [State.rxLinkctl, hquiet, hcode, Bool.false_eq_true, if_false]

theorem rxLinkctl_echo {ns : Nat} (hquiet : s.lively p = false) (hcode : h.lcode = 3) : s.rxLinkctl p h payload bad ns = s.linkCtl p 4 h.larg := by
  simp only [State.rxLinkctl, hquiet, hcode, Bool.false_eq_true, if_false]

theorem rxLinkctl_retrain {ns : Nat} {u : State} (hlively : s.lively p = true) (hcode : h.lcode = 0x10) (hu : u = s.rxHead p h bad)
    (hup : u.portUp p = true) (hidle : (u.port p).linkOp = none) : s.rxLinkctl p h payload bad ns = u.linkAgree p 0x10 h.larg := by
  subst hu
  simp [State.rxLinkctl, hlively, hcode, State.linkAsked, hidle, hup]

end

section
variable {s : State} {p : Nat} (htraining : s.get .CVN_LINK_STS_STATE p = 2)
include htraining

theorem identify_other {id : Nat} (hid : id ≠ Config.deviceId) : s.identify p id =
    ((s.put .CVN_PEER_ID_ID id p).put .CVN_LINK_STS_LEADER (b2n (decide (Config.deviceId < id))) p).put .CVN_LINK_STS_STATE 3 p :=
  (if_neg (not_not_intro (.inl htraining))).trans (if_neg hid)

theorem identify_own : s.identify p Config.deviceId = (s.put .CVN_PEER_ID_ID Config.deviceId p).trainFail p :=
  (if_neg (not_not_intro (.inl htraining))).trans (if_pos rfl)

end

/-- Settles O20: bytes are taken as FEC and CRC say (`rxBale_of_some`, `rxBale_of_none`), then by TYPE and operation. -/
theorem receivedBales : Obligations.ReceivedBales := by
  unfold Obligations.ReceivedBales
  refine ⟨?data, ?replay, ?idle, ?linkctl, ?linkctlTraining, ?failed, fun s p raw => rxBytes_of_unreadable s p, ?drop, ?dropping, ?unopened, ?opened,
    ?inOrder, ?back, ?ident, fun s p id htraining => identify_other htraining, fun s p => identify_own, ?echo, ?retrain⟩
  case data =>
    intro s p raw bad x h payload hrun hlively hx hbale htyp
    exact congrArg Host.Outcome.next (rxBale_of_some _ ⟨hrun, .inl hlively⟩ hx hbale htyp)
  case replay =>
    intro s p raw bad x h payload hrun hlively hx hbale htyp
    exact congrArg Host.Outcome.next (rxBale_of_some _ ⟨hrun, .inl hlively⟩ hx hbale htyp)
  case idle =>
    intro s p raw bad x h payload hrun hlively hx hbale htyp
    exact congrArg Host.Outcome.next (rxBale_of_some _ ⟨hrun, .inl hlively⟩ hx hbale htyp)
  case linkctl =>
    intro s p raw bad x h payload ns hrun hlively hx hbale htyp
    exact congrArg Host.Outcome.next (rxBale_of_some _ ⟨hrun, .inl hlively⟩ hx hbale htyp)
  case linkctlTraining =>
    intro s p raw bad x h payload ns hrun hst hx hbale htyp
    exact congrArg Host.Outcome.next (rxBale_of_some _ ⟨hrun, .inr ⟨rfl, hst⟩⟩ hx hbale htyp)
  case failed =>
    intro s p raw bad ns x hrun hlively hx hbale
    have hdropped (typ : Nat) (act : State → BaleHead → List Byte → State) : s.rxBale p.val typ raw act = x.1 :=
      rxBale_of_none act ⟨hrun, .inl hlively⟩ hx hbale
    exact ⟨congrArg Host.Outcome.next (hdropped 1 _), congrArg Host.Outcome.next (hdropped 0 _), congrArg Host.Outcome.next (hdropped 2 _),
      congrArg Host.Outcome.next (hdropped 3 _)⟩
  case drop =>
    rintro s u p hlively hgood rfl
    exact dropBale_of_lively hlively hgood
  case dropping => exact fun s p h payload bad hdropping => if_pos hdropping
  case unopened =>
    rintro s u p h payload bad hgood hbody rfl
    exact rxData_unopened hgood hbody
  case opened => exact fun s p h payload body bad hgood hbody hown => rxData_opened hgood hbody hown
  case inOrder =>
    rintro s u v p h body bad henc hnext hu hlively rfl hkey
    exact acceptData_in_order henc hnext hu hlively hkey
  case back => exact fun s p back h bad => rxReplay_of_near
  case ident => exact fun s p h payload bad ns => rxLinkctl_ident
  case echo => exact fun s p h payload bad ns => rxLinkctl_echo
  case retrain => exact fun s u p h payload bad ns => rxLinkctl_retrain

/-! ### The lender's messages (R409-R418) -/

section
variable {s : State} {p hint pos : Nat} {m : CvnMsg}

/-- Where a block needs no tag area, a write has room. -/
theorem tagArea_of_plain (s : State) (p : Nat) (b : LentBlock) (hint : Nat) : s.tagArea p b false hint = (s, true) := if_pos (.inl (by simp))

/-- What lies in a granted block begins where the message says. -/
theorem pos_of_loanRange {c : CvnPort} {lloc off n : Nat} {b : LentBlock} (h : loanRange c lloc off n = some (b, pos)) :
    pos = lloc % 16 * 256 + off := by
  unfold loanRange at h
  dsimp only at h
  split at h
  · split at h
    · exact (congrArg Prod.snd (Option.some.inj h)).symm
    · cases h
  · cases h

theorem loanWrite_granted {data : List Byte} {b : LentBlock} (hpay : payloadOf m (m.lloc % 16 * 256 + m.off) = some (data, []))
    (hrange : loanRange (s.port p) m.lloc m.off data.length = some (b, pos)) (hraw : m.rawf = false) :
    s.loanWrite p hint false m = ((linesAt pos data.length).foldl (fun (s : State) i => s.loanLine p b pos data [] m.poison i) s).sendMsg p
      { op := 0x82, tid := m.tid, status := 0 } := by
  obtain rfl := pos_of_loanRange hrange
  simp [State.loanWrite, hpay, hrange, hraw, tagArea_of_plain]

theorem loanWrite_outside {data : List Byte} {tags : List Nat} (hpay : payloadOf m (m.lloc % 16 * 256 + m.off) = some (data, tags))
    (hrange : loanRange (s.port p) m.lloc m.off data.length = none) :
    s.loanWrite p hint false m = (s.sendMsg p { op := 0x82, tid := m.tid, status := 1 }).protoErr p := by
  simp [State.loanWrite, hpay, hrange]

section
variable {errs : List (Nat × ReadErr)}

theorem loanRead_outside (hrange : loanRange (s.port p) m.lloc m.off m.arg = none) :
    s.loanRead p errs m = (s.sendMsg p { op := 0x81, tid := m.tid, status := 1 }).protoErr p := by
  simp only [State.loanRead, hrange]

/-- The checker has found the bytes of a line lost. -/
abbrev lostLine (r : LineOut) : Bool := r.out == .uncorrectable || r.out == .address

/-- Lines of which none is lost go back as they are corrected. -/
theorem bytes_of_kept {ls : List Nat} {rs : List LineOut} (hkept : rs.any lostLine = false) (f g : Nat × LineOut → List Byte) :
    (ls.zip rs).flatMap (fun x => if lostLine x.2 = true then f x else g x) = (ls.zip rs).flatMap g := by
  rw [List.flatMap_def, List.flatMap_def]
  refine congrArg List.flatten (List.map_congr_left fun x hx => if_neg ?_)
  exact List.any_eq_false.mp hkept x.2 (List.of_mem_zip hx).2

/-- The bytes of a block from `pos` on, as the checker corrects them. -/
abbrev readBack (s : State) (p : Nat) (b : LentBlock) (pos n : Nat) (rs : List LineOut) : List Byte :=
  ((((linesAt pos n).zip rs).flatMap (fun y => fixBytes (lineBytes (tgetD 0 (64 * b.block + y.1) (s.port p).store)) y.2.left)).drop (pos % 64)).take n

theorem loanRead_granted {b : LentBlock} {x : State × List LineOut} (hrange : loanRange (s.port p) m.lloc m.off m.arg = some (b, pos))
    (hraw : b.rawf = false) (hx : x = s.loanReads p b errs (linesAt pos m.arg)) (hkept : x.2.any lostLine = false) :
    s.loanRead p errs m = (x.1.eccSay x.2).sendMsg p
      { op := 0x81, tid := m.tid, poison := x.2.any (fun r => r.out == .poison), status := 0, data := readBack (x.1.eccSay x.2) p b pos m.arg x.2 } := by
  simp only [State.loanRead, hrange, ← hx, hkept, hraw, bytes_of_kept hkept, Bool.false_and, Bool.false_eq_true, if_false, List.append_nil]

end

section
variable {id : Nat}

/-- What has been answered under a number is answered again. -/
theorem growFor_of_kept {st n : Nat} (hkept : s.keptAt p m.tid = some (st, n)) :
    s.growFor p hint id m = s.sendMsg p { op := 0x84, tid := m.tid, status := st, arg := n } := by
  simp only [State.growFor, hkept]

theorem returnFor_of_kept {st n : Nat} (hkept : s.keptAt p m.tid = some (st, n)) :
    s.returnFor p m = s.sendMsg p { op := 0x85, tid := m.tid, status := st } := by
  simp only [State.returnFor, hkept]

section
variable (hnew : s.keptAt p m.tid = none)
include hnew

/-- A GROW of a borrower that holds a loan is answered with what was granted. -/
theorem growFor_granted {nums : List Nat} {x : State × Nat} (hnums : blocksOf m = some nums) (hx : x = s.grantBlocks p hint nums 0)
    (hloan : (x.1.port p).loanL.isSome = true) (hsome : 0 < x.2) :
    s.growFor p hint id m = (x.1.keep p m.tid 0 x.2).sendMsg p { op := 0x84, tid := m.tid, status := 0, arg := x.2 } := by
  have hheld : (x.1.port p).loanL.isNone = false := by simpa [Option.isSome_iff_ne_none] using hloan
  have hpos : x.2 ≠ 0 := by omega
  simp only [State.growFor, hnew, hnums, ← hx, hheld, hpos, Bool.false_eq_true, false_and, if_false]

/-- A RETURN of the only block ends the loan. -/
theorem returnFor_last {u : State} {b : LentBlock} (hnums : blocksOf m = some [b.block]) (hlent : (s.port p).lent = [b])
    (hu : u = (s.freeBlock p b).put .CVN_LEND_STS_ASKED ((s.freeBlock p b).get .CVN_LEND_STS_ASKED p - 1) p) (hlast : (u.port p).lent = []) :
    s.returnFor p m = ((u.setPort p { u.port p with loanL := none }).keep p m.tid 0 0).sendMsg p { op := 0x85, tid := m.tid, status := 0 } := by
  have hblock : lentBlock (s.port p) (16 * b.block) = some b := by
    simp [lentBlock, hlent]
  subst hu
  simp [State.returnFor, hnew, hnums, hblock, hlast]

end

end

end

/-- Settles O22: a message is acted on by the awake device (`onMsg_of_next`), each by the block or the answer that its number names. -/
theorem lenderMessages : Obligations.LenderMessages := by
  unfold Obligations.LenderMessages
  refine ⟨?write, ?twrite, ?read, ?grow, ?give, ?written, ?writeOutside, fun s p hint m => rfl, ?bytes, ?readOutside, ?granted, ?again, ?last⟩
  case write => exact fun s u p y parity hint hrun hup hmsg hu => onMsg_of_next hrun hup hmsg hu (fun s m => s.loanWrite p.val hint parity m)
  case twrite => exact fun s u p y parity hint hrun hup hmsg hu => onMsg_of_next hrun hup hmsg hu (fun s m => s.loanWrite p.val hint parity m)
  case read => exact fun s u p y errs hrun hup hmsg hu => onMsg_of_next hrun hup hmsg hu (fun s m => s.loanRead p.val errs m)
  case grow => exact fun s u p y id hint hrun hup hmsg hu => onMsg_of_next hrun hup hmsg hu (fun s m => s.growFor p.val hint id.val m)
  case give => exact fun s u p y hrun hup hmsg hu => onMsg_of_next hrun hup hmsg hu (fun s m => s.returnFor p.val m)
  case written => exact fun s p hint pos m data b => loanWrite_granted
  case writeOutside => exact fun s p hint m data tags => loanWrite_outside
  case bytes => exact fun s p pos m b errs x hrange hraw hx hkept => loanRead_granted hrange hraw hx hkept
  case readOutside => exact fun s p m errs => loanRead_outside
  case granted => exact fun s p hint id m nums x hnew hnums hx hloan hsome => growFor_granted hnew hnums hx hloan hsome
  case again => exact fun s p hint id st n m hkept => ⟨growFor_of_kept hkept, returnFor_of_kept hkept⟩
  case last => exact fun s u p m b hnew hnums hlent hu hlast => returnFor_last hnew hnums hlent hu hlast

end Sys2Proof.Proofs.CaravanLink

/-!
PROOFS of the statements of job compression: the `job` commands (R362-R379) and the jobs on the units (R361-R377).
-/
namespace Sys2Proof.Proofs.JobCompression
open Sys2Proof Sys2Proof.Machine Sys2Proof.Proofs.Architecture Sys2Proof.Proofs.Pyryx Sys2Proof.Proofs.Translation

/-! ### The queue (R366, R369) -/

/-- A job enters the queue, its reply to come later. -/
abbrev queued (s : State) (q : Req) (kind : Nat) (session dict : Option Nat) : State :=
  { s with job := { s.job with
    jobs := tput s.job.nextJob { req := q, kind := kind, session := session, pieces := 1, next := 1, dict := dict
                                 bufs := if parBit q 0x10 7 then [] else [(par q 0x28 8, par q 0x30 8)] } s.job.jobs
    nextJob := s.job.nextJob + 1, queue := s.job.queue ++ [(s.job.nextJob, 0)] } }

/-- A split compression, whose pieces enter the queue one by one. -/
abbrev splitQueued (s : State) (q : Req) (pieces : Nat) (dict : Option Nat) : State :=
  { s with job := { s.job with
    jobs := tput s.job.nextJob { req := q, kind := 0, pieces := pieces, next := 0, dict := dict
                                 bufs := if parBit q 0x10 7 then [] else [(par q 0x28 8, par q 0x30 8)] } s.job.jobs
    nextJob := s.job.nextJob + 1 } }

section
variable {s : State} {q : Req} {kind : Nat} {session dict : Option Nat} (hroom : s.job.queue.length < 256)
include hroom

theorem queueJob_whole : s.queueJob q kind 1 session dict = { st := (queued s q kind session dict).feed 8, later := true } :=
  if_neg (by omega)

theorem queueJob_split {pieces : Nat} (hsplit : pieces ≠ 1) :
    s.queueJob q 0 pieces none dict = { st := (splitQueued s q pieces dict).feed 8, later := true } := by
  refine (if_neg (by omega)).trans ?_
  simp only [if_neg hsplit]
  rfl

end

/-! ### The `job` commands (R363, R370-R373, R379) -/

section
variable {info : CmdInfo} {q : Req} {bad : Option Nat} {s s₁ : State} {body : State → Ans}

theorem needUnit_of_on (hon : s.unitsOff = false) (a : Ans) : needUnit s a = a := if_neg (ne_true_of_eq_false hon)

theorem needUnit_of_off (hoff : s.unitsOff = true) (a : Ans) : needUnit s a = refuse s stMediaNotReady 0xFFFFFFFF := if_pos hoff

/-- A command whose reply comes later leaves what its body leaves. -/
theorem serve_later {u : State} (h : Served info q bad s s₁) (hbody : body s₁ = { st := u, later := true }) : serve info q bad body s = .next u := by
  rw [serve_of_served h, hbody]
  rfl

end

section
variable {q : Req} {s s₁ : State} (hon : s₁.unitsOff = false)
include hon

section
variable (h : Served { op := 0x0600, priv := 1, mctp := true, ctx := if par q 0x10 1 = 0 then 2 else 1, output := decide (par q 0x10 1 = 1)
                       fields := fld 0x10 1 :: (if par q 0x10 1 = 0 then [] else [fld 0x18 8]) } q (firstBad [(0x10, decide (par q 0x10 1 ≤ 1))]) s s₁)
include h

theorem completes_jobQuery_device (hkind : par q 0x10 1 = 0) :
    Completes (exec (.jobQuery q) s) s₁ q (s₁.job.queue.length + (s₁.job.units.foldl (fun a u => a + 2 ^ u.1) 0) * 2 ^ 9 +
      s₁.job.sessions.length * 2 ^ 13 + s₁.job.dicts.length * 2 ^ 20) :=
  completes_of_served h ((needUnit_of_on hon _).trans (if_pos hkind))

theorem completes_jobQuery_session {k : Nat} {x : Session} (hkind : par q 0x10 1 = 1) (hx : s₁.sessionOf (par q 0x18 8) = some (k, x))
    (htc : x.tc = q.tc.val) :
    Completes (exec (.jobQuery q) s) s₁ q (b2n x.broken) 24 [(0, 8, x.src), (8, 8, x.out), (16, 8, x.held)] := by
  refine completes_of_served h ((needUnit_of_on hon _).trans ((if_neg (by omega)).trans ?_))
  simp only [hx]
  exact if_pos htc

end

/-- A submission decompresses: as it says itself, or as its session does. -/
abbrev decompresses (s : State) (q : Req) : Bool :=
  if par q 0x38 8 = 0 then parBit q 0x10 0 else match s.sessionOf (par q 0x38 8) with | some (_, x) => x.dir == 1 | none => false

/-- What `job.submit` checks of its request. -/
abbrev ServedSubmit (q : Req) (s t : State) : Prop :=
  Served { op := 0x0601, priv := 1, mbox := false, ctx := 1, fields := submitFields (decide (par q 0x38 8 ≠ 0)) } q
    (firstBad ([(0x02, !q.plptr)] ++ (if par q 0x38 8 = 0 then s.formatChecks q 26 false else []) ++ outChecks q ++ sourceChecks q (decompresses s q) ++
      [(0x38, decide (par q 0x38 8 = 0) || s.onItsRing q (par q 0x38 8))])) s t

section
variable (h : ServedSubmit q s s₁) (hroom : s₁.job.queue.length < 256)
include h hroom

theorem exec_jobSubmit_whole (halone : par q 0x38 8 = 0) (hwhole : decompresses s q = true ∨ par q 0x20 8 ≤ jobMax) :
    exec (.jobSubmit q) s = .next ((queued s₁ q 0 none (s₁.dictSlot q.tc.val (par q 0x14 4))).feed 8) := by
  refine serve_later h ((needUnit_of_on hon _).trans ((if_pos halone).trans ?_))
  exact (congrArg (fun n => s₁.queueJob q 0 n none (s₁.dictSlot q.tc.val (par q 0x14 4))) (if_pos hwhole)).trans (queueJob_whole hroom)

theorem exec_jobSubmit_split (halone : par q 0x38 8 = 0) (hcompresses : decompresses s q = false) (hlong : jobMax < par q 0x20 8) :
    exec (.jobSubmit q) s = .next ((splitQueued s₁ q ((par q 0x20 8 + jobPiece - 1) / jobPiece) (s₁.dictSlot q.tc.val (par q 0x14 4))).feed 8) := by
  have hmany : ¬(decompresses s q = true ∨ par q 0x20 8 ≤ jobMax) := by
    rintro (hdec | hshort)
    · exact ne_true_of_eq_false hcompresses hdec
    · omega
  refine serve_later h ((needUnit_of_on hon _).trans ((if_pos halone).trans ?_))
  refine (congrArg (fun n => s₁.queueJob q 0 n none (s₁.dictSlot q.tc.val (par q 0x14 4))) (if_neg hmany)).trans (queueJob_split hroom ?_)
  unfold jobMax at hlong
  unfold jobPiece
  omega

theorem exec_jobSubmit_session {k : Nat} {x : Session} (hsession : par q 0x38 8 ≠ 0) (hx : s₁.sessionOf (par q 0x38 8) = some (k, x))
    (hgood : x.broken = false) : exec (.jobSubmit q) s = .next ((queued s₁ q 0 (some k) x.dict).feed 8) := by
  refine serve_later h ((needUnit_of_on hon _).trans ((if_neg hsession).trans ?_))
  simp only [hx]
  exact (if_neg (ne_true_of_eq_false hgood)).trans (queueJob_whole hroom)

end

theorem completes_jobSessionOpen {a : Fin 8} {b : Fin 64} {k : Nat} {x : Session}
    (h : Served { op := 0x0602, priv := 1, mbox := false, ctx := 1, fields := [fbits 0x10 0 5, fbits 0x11 0 4, fbits 0x12 0 5, fld 0x13 1, fld 0x14 4] } q
      (firstBad (s.formatChecks q 26 true)) s s₁)
    (hring : q.origin = .ring a b) (hk : (List.range 64).find? (fun k => (tget k s₁.job.sessions).isNone) = some k)
    (hx : x = { seq := s₁.job.sessSeq + 1, ring := (a.val, b.val), tc := q.tc.val, dir := parBits q 0x10 0 1, fmt := parBits q 0x10 1 3
                csum := parBit q 0x10 4, level := parBits q 0x11 0 4, wlog2 := parBits q 0x12 0 5, blk := par q 0x13 1
                dict := s₁.dictSlot q.tc.val (par q 0x14 4) })
    (hroom : s₁.histBytes + x.hist ≤ 480 * 2 ^ 20) :
    Completes (exec (.jobSessionOpen q) s)
      { s₁ with job := { s₁.job with sessions := tput k x s₁.job.sessions, sessSeq := s₁.job.sessSeq + 1 } } q (k + 64 * x.seq) := by
  have hseq : x.seq = s₁.job.sessSeq + 1 := by rw [hx]
  rw [hseq]
  refine completes_of_served h ((needUnit_of_on hon _).trans ?_)
  simp only [hring, hk, ← hx]
  exact if_neg (Nat.not_lt.mpr hroom)

section
variable {k : Nat} {x : Session} (hx : s₁.sessionOf (par q 0x38 8) = some (k, x))
include hx

theorem exec_jobFlush_queued (h : Served { op := 0x0604, priv := 1, mbox := false, ctx := 1, fields := flushFields } q
      (firstBad (outChecks q ++ [(0x38, s.onItsRing q (par q 0x38 8))])) s s₁) (hgood : x.broken = false) (hroom : s₁.job.queue.length < 256) :
    exec (.jobFlush q) s = .next ((queued s₁ q 1 (some k) x.dict).feed 8) := by
  refine serve_later h ((needUnit_of_on hon _).trans ?_)
  simp only [hx]
  exact (if_neg (ne_true_of_eq_false hgood)).trans (queueJob_whole hroom)

variable (h : Served { op := 0x0603, priv := 1, mbox := false, ctx := 1, fields := flushFields } q
  (firstBad (outChecks q ++ [(0x38, s.onItsRing q (par q 0x38 8))])) s s₁)
include h

theorem exec_jobSessionClose_queued (hgood : x.broken = false) (hroom : s₁.job.queue.length < 256) :
    exec (.jobSessionClose q) s = .next ((queued s₁ q 2 (some k) x.dict).feed 8) := by
  refine serve_later h ((needUnit_of_on hon _).trans ?_)
  simp only [hx]
  exact (if_neg (ne_true_of_eq_false hgood)).trans (queueJob_whole hroom)

theorem completes_jobSessionClose_broken (hbroken : x.broken = true) :
    Completes (exec (.jobSessionClose q) s) { s₁ with job := { s₁.job with sessions := tdel k s₁.job.sessions } } q := by
  refine completes_of_served h ((needUnit_of_on hon _).trans ?_)
  simp only [hx]
  exact if_pos hbroken

end

theorem completes_jobDictLoad {k : Nat} {l : List Byte}
    (h : Served { op := 0x0605, priv := 1, ctx := 1, fields := [fbits 0x10 0 1, fbits 0x10 5 1, fld 0x14 4, fld 0x18 8, fld 0x20 8] } q
      (firstBad [(0x14, decide (par q 0x14 4 ≠ 0) && (s.dictSlot q.tc.val (par q 0x14 4)).isNone &&
          (parBit q 0x10 0 || (ownDictId l == par q 0x14 4 && (zDict false (l.take (par q 0x20 8))).isSome))),
        (0x20, decide (256 ≤ par q 0x20 8 ∧ par q 0x20 8 ≤ 2 ^ 21))]) s s₁)
    (hk : (List.range 16).find? (fun k => (tget k s₁.job.dicts).isNone) = some k) :
    Completes (exec (.jobDictLoad q (.bytes l)) s) { s₁ with job := { s₁.job with
      dicts := tput k { tc := q.tc.val, raw := parBit q 0x10 0, id := par q 0x14 4, bytes := l.take (par q 0x20 8) } s₁.job.dicts } } q k := by
  refine completes_of_served h ((needUnit_of_on hon _).trans ?_)
  simp only [hk]
  rfl

theorem completes_jobDictUnload {k : Nat}
    (h : Served { op := 0x0606, priv := 1, ctx := 1, fields := [fld 0x14 4] } q (firstBad [(0x14, (s.dictSlot q.tc.val (par q 0x14 4)).isSome)]) s s₁)
    (hslot : s.dictSlot q.tc.val (par q 0x14 4) = some k) (hunused : s₁.dictUsers k = 0) :
    Completes (exec (.jobDictUnload q) s) { s₁ with job := { s₁.job with dicts := tdel k s₁.job.dicts } } q := by
  refine completes_of_served h ((needUnit_of_on hon _).trans ?_)
  simp only [hslot]
  exact if_neg (not_not_intro hunused)

end

/-- Settles O49: with a unit enabled (`needUnit_of_on`) a command goes by the queue, the session and the dictionary that it names. -/
theorem jobCommands : Obligations.JobCommands := by
  unfold Obligations.JobCommands
  refine ⟨?queryDevice, ?off, ?querySession, ?whole, ?split, ?inSession, ?opened, ?flush, ?close, ?closeBroken, ?dictLoad, ?dictUnload⟩
  case queryDevice =>
    intro q s s₁ _ h hon hkind
    exact completes_jobQuery_device hon h hkind
  case off =>
    intro q s s₁ _ h hoff
    exact refused_of_served h (needUnit_of_off hoff _)
  case querySession =>
    intro q s s₁ k x _ _ h hon hkind hx htc
    exact completes_jobQuery_session hon h hkind hx htc
  case whole =>
    intro q s s₁ _ _ _ h hon halone hwhole hroom
    exact exec_jobSubmit_whole hon h hroom halone hwhole
  case split =>
    intro q s s₁ _ _ _ h hon halone hcompresses hlong hroom
    exact exec_jobSubmit_split hon h hroom halone hcompresses hlong
  case inSession =>
    intro q s s₁ k x _ _ _ h hon hsession hx hgood hroom
    exact exec_jobSubmit_session hon h hroom hsession hx hgood
  case opened =>
    intro q s s₁ a b k x _ h hon hring hk hx hroom
    exact completes_jobSessionOpen hon h hring hk hx hroom
  case flush =>
    intro q s s₁ k x _ h hon hx hgood hroom
    exact exec_jobFlush_queued hon hx h hgood hroom
  case close =>
    intro q s s₁ k x _ h hon hx hgood hroom
    exact exec_jobSessionClose_queued hon hx h hgood hroom
  case closeBroken =>
    intro q s s₁ k x _ h hon hx hbroken
    exact completes_jobSessionClose_broken hon hx h hbroken
  case dictLoad =>
    rintro q s s₁ _ k l _ _ _ _ h hon hk rfl
    exact completes_jobDictLoad hon h hk
  case dictUnload =>
    intro q s s₁ k _ h hon hslot hunused
    exact completes_jobDictUnload hon h hslot hunused

/-! ### Jobs on the units (R361, R364-R369, R377) -/

section
variable {s : State} {n : Fin 4}

theorem exec_jobStart_own {e : Nat × Nat} {j : Job} {chain : List (Nat × Nat × Nat)} (hon : s.unitOn n.val = true) (hfree : tget n.val s.job.units = none)
    (hnext : s.nextEntry = some e) (hj : tget e.1 s.job.jobs = some j) (hsession : j.session = none) (hchain : parBit j.req 0x10 7 = false)
    (hhead : headOf j.req.origin = none) :
    exec (.jobStart n chain) s = .next (({ s with job := { s.job with
      queue := s.job.queue.erase e, units := tput n.val e s.job.units, jobs := tput e.1 { j with bufs := j.bufs } s.job.jobs } } : State).feed 8) := by
  cases j
  dsimp only at hsession
  subst hsession
  change execJobStart n chain s = _
  simp only [execJobStart, hon, hfree, hnext, hj, hchain, hhead, Option.isSome_none, Bool.false_eq_true, not_true_eq_false, or_self,
    false_and, if_false]
  rfl

section
variable {id piece : Nat} {j : Job} (hunit : tget n.val s.job.units = some (id, piece)) (hj : tget id s.job.jobs = some j)
include hunit hj

theorem exec_jobPendingTimeout_opens {k : Nat} (hslot : j.slot = none) (hfree : s.freeSlot = some k) :
    exec (.jobPendingTimeout n) s = .next (((({ s with job := { s.job with jobs := tput id { j with slot := some k } s.job.jobs } } : State).openOp k j.req
      (.job id) none).reply j.req stPending s.nextHandle 0 0 [])) := by
  change execJobPendingTimeout n s = _
  simp only [execJobPendingTimeout, hunit, hj, hslot, hfree, Option.isSome_none, Bool.false_eq_true, if_false]
  rfl

theorem exec_jobHang_busy {at' : Nat} : exec (.jobHang n at') s =
    .next (((s.bump .JOB_UNIT_CNT_HANGS 0x7F n.val).report (msg2 bJob n.val 3)).jobEnds id j stFaulted (at' % (j.srcLen + 1))
      ((s.bump .JOB_UNIT_CNT_HANGS 0x7F n.val).report (msg2 bJob n.val 3)).lastSeq) := by
  change execJobHang n at' s = _
  simp only [execJobHang, hunit, hj]

section
variable {u : State} {acc : List (Nat × Bool)} (hacc : s.jobAccesses n.val j acc = (u, some true))
include hacc

theorem exec_jobEnd_staging {at' : Nat} : exec (.jobEnd n acc (.staging at')) s =
    .next ((u.report (msg2 bJob n.val 1)).jobEnds id j stFaulted (at' % (j.srcLen + 1)) (u.report (msg2 bJob n.val 1)).lastSeq) := by
  change execJobEnd n acc (.staging at') s = _
  simp only [execJobEnd, hunit, hj, hacc]

theorem exec_jobEnd_dirtyLine {at' : Nat} : exec (.jobEnd n acc (.dirtyLine at')) s =
    .next ((u.report (msg2 bCoh (22 + n.val) 5)).jobEnds id j stFaulted (at' % (j.srcLen + 1)) (u.report (msg2 bCoh (22 + n.val) 5)).lastSeq) := by
  change execJobEnd n acc (.dirtyLine at') s = _
  simp only [execJobEnd, hunit, hj, hacc]

section
variable {src : List Byte} {offers : List (List Byte)}

theorem exec_jobEnd_decoded (hread : src.length = pieceLen j piece) (hdir : (u.jobPar j).dir = 1) :
    exec (.jobEnd n acc (.coded src offers)) s = .next (u.jobDecoded n.val id j (u.jobPar j) src) := by
  change execJobEnd n acc (.coded src offers) s = _
  simp only [execJobEnd, hunit, hj, hacc, hread, hdir, ne_eq, not_true_eq_false, if_false, if_true]

section
variable (hdir : (u.jobPar j).dir = 0)
include hdir

theorem exec_jobEnd_piece (hread : src.length = pieceLen j piece) (hsplit : j.pieces ≠ 1) : exec (.jobEnd n acc (.coded src offers)) s =
    .next (u.pieceDone n.val id piece j (u.jobPar j) src (u.compress (u.jobPar j) j.pieces piece src offers)) := by
  change execJobEnd n acc (.coded src offers) s = _
  simp only [execJobEnd, hunit, hj, hacc, hread, hdir, ne_eq, not_true_eq_false, if_false, hsplit, not_false_eq_true, if_true, Nat.zero_ne_one]

variable (hwhole : j.pieces = 1) (hread : src.length = j.srcLen)
include hwhole hread

theorem exec_jobEnd_alone (hsession : j.session = none) : exec (.jobEnd n acc (.coded src offers)) s =
    .next (u.jobCompressed n.val id j (u.jobPar j) {} (u.compress (u.jobPar j) 1 0 src offers)) := by
  have hpiece : src.length = pieceLen j piece := by rw [pieceLen, if_pos hwhole, hread]
  change execJobEnd n acc (.coded src offers) s = _
  simp only [execJobEnd, hunit, hj, hacc, hpiece, hdir, hwhole, hsession, ne_eq, not_true_eq_false, if_false, Nat.zero_ne_one, Option.bind_none,
    Option.isSome_none, Bool.false_eq_true]

theorem exec_jobEnd_session {k : Nat} {x : Session} (hsession : j.session = some k) (hx : tget k u.job.sessions = some x) :
    exec (.jobEnd n acc (.coded src offers)) s =
      .next (u.jobCompressed n.val id j (u.jobPar j) x.coder (u.compressOn (u.jobPar j) x.coder j.kind src offers)) := by
  have hpiece : src.length = pieceLen j piece := by rw [pieceLen, if_pos hwhole, hread]
  change execJobEnd n acc (.coded src offers) s = _
  simp only [execJobEnd, hunit, hj, hacc, hpiece, hdir, hwhole, hsession, hx, ne_eq, not_true_eq_false, if_false, Nat.zero_ne_one, Option.bind_some,
    Option.isSome_some, if_true]

end

end

end

end

end

/-- The direction of a job of a session is the session's. -/
theorem dir_jobPar_of_session {u : State} {j : Job} {k : Nat} {x : Session} (hsession : j.session = some k) (hx : tget k u.job.sessions = some x) :
    (u.jobPar j).dir = x.dir := by
  simp only [State.jobPar, hsession, Option.bind_some, hx]

/-- Settles O50: a unit's job goes by its accesses, its direction, its session and its pieces. -/
theorem jobEvents : Obligations.JobEvents := by
  unfold Obligations.JobEvents
  refine ⟨?start, ?pending, ?alone, ?session, ?piece, ?decoded, ?compressed, fun s n id j reason at' => rfl, ?lost, ?hang⟩
  case start =>
    intro s n e j chain hon hfree hnext hj hsession hchain hhead
    exact exec_jobStart_own hon hfree hnext hj hsession hchain hhead
  case pending => exact fun s n id piece k j hunit hj hslot hfree => exec_jobPendingTimeout_opens hunit hj hslot hfree
  case alone =>
    intro s u n id piece j acc src offers hunit hj hacc hwhole hread hdir hsession
    exact exec_jobEnd_alone hunit hj hacc hdir hwhole hread hsession
  case session =>
    intro s u n id piece k j x acc src offers hunit hj hacc hwhole hread hsession hx hdir
    exact exec_jobEnd_session hunit hj hacc ((dir_jobPar_of_session hsession hx).trans hdir) hwhole hread hsession hx
  case piece =>
    intro s u n id piece j acc src offers hunit hj hacc hread hdir hsplit
    exact exec_jobEnd_piece hunit hj hacc hdir hread hsplit
  case decoded =>
    intro s u n id piece j acc src offers hunit hj hacc hread hdir
    exact exec_jobEnd_decoded hunit hj hacc hread hdir
  case compressed =>
    rintro s n id j p c e u rfl hfits _
    exact if_neg (by omega)
  case lost =>
    rintro s u v w n id piece at' j acc hunit hj hacc rfl rfl
    exact ⟨exec_jobEnd_staging hunit hj hacc, exec_jobEnd_dirtyLine hunit hj hacc⟩
  case hang =>
    rintro s u n id piece at' j hunit hj rfl
    exact exec_jobHang_busy hunit hj

end Sys2Proof.Proofs.JobCompression
